-- ==== Sys2Proof/Word.lean ====
section
/-!
DEFINITION. The word types of the module: a register word (R8), a byte, and their plainest arithmetic.
-/

namespace Sys2Proof

/-- A register word: 64 bits (R8). -/
abbrev Word := BitVec 64

/-- A byte of memory. -/
abbrev Byte := BitVec 8

end Sys2Proof
end

