-- ==== Sys2Proof/Syntax.lean ====
section
/-!
DEFINITION. The commands of the block: one constructor per row of spec/opcode_table.json, with its operands, and the
types of the operands.
-/

namespace Sys2Proof

/-- A fabric packet header (R299). LEN follows from the payload and is no field here. -/
structure Hdr where
  dst : BitVec 16
  src : BitVec 16
  vc : Fin 16
  hops : Fin 64
  err : Bool
  retry : Bool
  seq : BitVec 16
  addr : BitVec 48
  deriving DecidableEq, Repr

/-- What a HELLO carries (R304). -/
structure HelloBody where
  coordElig : Bool
  admitReq : Bool
  isCoord : Bool
  incarnation : BitVec 64
  port : Fin 16
  version : Fin 16
  maxVersion : Fin 16
  moduleAddr : BitVec 16
  pairId : BitVec 16
  straps : BitVec 14
  keyDigest : BitVec 256
  serial : BitVec 64
  deriving DecidableEq, Repr

/-- One member of the membership table (R310). -/
structure Member where
  addr : Nat
  serial : Nat
  incarn : Nat
  pairId : Nat
  version : Nat
  deriving DecidableEq, Repr

/-- A lock request over the fabric (R238, R240): acquire, acquire with TRY, release, or a waiter leaving its list. -/
inductive LockReqKind where
  | acquire
  | acquireTry
  | release
  | leave
  deriving DecidableEq, Repr

/-- The lock owner or requester that a LOCK_OP names (R237). -/
structure LockWho where
  unit : BitVec 8
  queue : BitVec 8
  incarn : BitVec 64
  qincarn : BitVec 32
  deriving DecidableEq, Repr

/-- Who asks an arbiter (R225): a queue's engine or easel, one of the three requesters without a queue, or a privileged one. -/
inductive ArbSrc where
  | queue (q : Fin 240)
  | coll
  | fabricRx
  | hostRx
  | beatToken
  | security
  | mgmt (c : Fin 4)
  | pendant
  deriving DecidableEq, Repr

/-- A request standing at an arbiter in one arbitration cycle: its source, its number in its class (R227), how many
arbitration cycles ago it was made, and whether the requester is ready to take a grant (R231). -/
structure ArbAsk where
  src : ArbSrc
  number : BitVec 8
  age : Nat
  ready : Bool
  deriving DecidableEq, Repr

/-- What a host Ethernet frame that passes R391 carries. A RoCEv2 request stands for its whole message: one row of packets
with consecutive PSNs (log 24). `ce`: a packet of it was CE-marked. -/
inductive FrameBody where
  /-- a TCT datagram (UDP port 49,731) from a source address and port -/
  | tct (src : BitVec 64) (dgram : List (BitVec 8))
  | rdmaWrite (qp : BitVec 24) (psn : BitVec 24) (rkey : BitVec 32) (va : BitVec 64) (data : List (BitVec 8)) (ce : Bool)
  | rdmaRead (qp : BitVec 24) (psn : BitVec 24) (rkey : BitVec 32) (va : BitVec 64) (len : BitVec 32) (ce : Bool)
  | send (qp : BitVec 24) (psn : BitVec 24) (data : List (BitVec 8)) (ce : Bool)
  /-- an acknowledgement (nak false) or a NAK of the module's own writes -/
  | ack (qp : BitVec 24) (psn : BitVec 24) (nak : Bool)
  | cnp (qp : BitVec 24)
  /-- a recovery message (UDP port 49,732) from a source address -/
  | recovery (src : BitVec 64) (bytes : List (BitVec 8))
  /-- a Neighbor Solicitation for an IPv6 address, an ARP request for an IPv4 address, ICMP echo requests -/
  | neighbor (target : BitVec 128)
  | arp (target : BitVec 32)
  | echo (v4 : Bool) (bytes : List (BitVec 8))
  /-- fragments, extension headers, other multicast, DHCP, stacked tags -/
  | unsupported
  deriving DecidableEq, Repr

/-- A TCT message that has passed the checks of R398 (1 to 3): source address and port, session, key slot, SEQ, type, payload. -/
structure TctMsg where
  src : BitVec 64
  session : Fin 64
  key : Fin 8
  seq : BitVec 64
  type : BitVec 8
  payload : List (BitVec 8)
  deriving DecidableEq, Repr

/-- The part of a TCT message that all types share. -/
structure TctHead where
  src : BitVec 64
  session : Fin 64
  key : Fin 8
  seq : BitVec 64
  deriving DecidableEq, Repr

/-- Who makes a register access (R8, R32, R400, R406, R426): an easel, the host's TCT, the sideband. -/
inductive RegPath where
  | easel
  | host
  | sideband
  deriving DecidableEq, Repr

/-- One replicated ingress item (R368, R369). -/
inductive IngressItem where
  /-- a frame that the face accepted -/
  | host (f : FrameBody)
  /-- a TCT message that the face accepted (R400) -/
  | tct (m : TctMsg)
  /-- a sideband register write -/
  | sbWrite (addr : BitVec 64) (value : BitVec 64)
  /-- a fabric request addressed to the face: WRITE, REG_WR or LOCK_OP, or a read that follows one of them in its flow -/
  | request (h : Hdr) (type : BitVec 6) (body : List (BitVec 8))
  /-- a reply to a request of the face: the queue that made it, its number among the queue's requests, the status of a refusal
  or link failure, and the payload -/
  | reply (queue : BitVec 8) (nth : BitVec 64) (bad : Option (BitVec 8)) (body : List (BitVec 8))
  deriving DecidableEq, Repr

/-- What a pendant BULK packet carries (R365, R377, R384, R385, R387, R423, R461). -/
inductive PendBulk where
  /-- what a joining module says of itself, with the nonce of R423 -/
  | joinInfo (mode : Fin 4) (solo : Bool) (fw : BitVec 64) (serial : BitVec 64) (incarn : BitVec 64) (straps : BitVec 14)
      (source : Fin 4) (master : BitVec 64) (addr : BitVec 16) (win : BitVec 64) (resv : BitVec 64) (darea : BitVec 64)
      (nonce : List (BitVec 8))
  /-- its endorsement, its report and the signature -/
  | joinReport (endorsement : List (BitVec 8)) (report : List (BitVec 8)) (signature : List (BitVec 8))
  /-- a check of the join failed at the partner, with its code -/
  | joinFail (code : Fin 16)
  /-- bytes for a local address: join transfer, REPLICATE, RESTORE -/
  | data (addr : BitVec 48) (bytes : List (BitVec 8))
  /-- bytes of a DELTA or RESYNC: epoch, address in the sender's window -/
  | delta (epoch : BitVec 48) (addr : BitVec 48) (bytes : List (BitVec 8))
  | resync (epoch : BitVec 48) (addr : BitVec 48) (bytes : List (BitVec 8))
  /-- the end of a RESYNC -/
  | resyncEnd (epoch : BitVec 48)
  /-- a run of zero bytes from a local address: the model's packing of the data of one transfer -/
  | zero (addr : BitVec 48) (len : BitVec 48)
  /-- block state of the quiesce (R384): registers, their staged banks, and what no register shows, by kind: 0 a queue's list
  progress, 1 a dispatched command, 2 a registered group, 3 a posted slot of a gate, 4 retracted epochs, 5 captured epochs,
  6 a held CLOSE, 7 veto events waiting -/
  | blocks (regs : List (BitVec 64 × BitVec 64)) (staged : List (BitVec 64 × BitVec 64)) (items : List (Nat × List Nat))
  /-- a forwarded error record -/
  | record (bytes : List (BitVec 8))
  deriving DecidableEq, Repr

/-- What a pendant DIGEST is compared with: a REPLICATE, by queue and QSEQ, or a step of a sampled collective (R334, R374). -/
inductive DigestKey where
  | replicate (q : Fin 240) (n : Nat)
  | step (coll : Nat) (key : Nat)
  deriving DecidableEq, Repr


/-- The commands. An operand is a number in its field's range; what a row reads from memory or registers is no operand. -/
inductive Instr where
  /-- AUX_POWER_GOOD (R473): Auxiliary supply and reference clock have held in range for 5 ms: a cold reset that samples straps and LID_ID, starts UPTIME and enters AON. -/
  | auxPowerGood (valid : Bool) (node : BitVec 10) (slot : BitVec 3) (lid : BitVec 3) (sbMode : Bool)
  /-- AUX_POWER_LOST (R473): P3V3_AUX stays below 3.0 V for 10 µs; the module goes to OFF. -/
  | auxPowerLost
  /-- MAIN_POWER_GOOD (R428): Main input has been in range for 10 ms with HOLD_AON 0 and no trip; the module leaves AON for BOOT. -/
  | mainPowerGood
  /-- MAIN_POWER_LOSS (R428): Main input is out of range for 1 ms; the module returns to AON as at a warm reset. -/
  | mainPowerLoss
  /-- REFCLK_LOSS (R478): The reference clock is out of limits for 10 µs while main power is in use, counted as main input out of range. -/
  | refclkLoss
  /-- EARLY_ENTRY (R430): With the image started and the early checks of D0 done, the module enters EARLY and offers early service. -/
  | earlyEntry (d0 : Bool)
  /-- BRINGUP_COMPLETE (R429): Full bring-up is complete; the module enters FULL or DEGRADED, raises the clock point and retrains the host port. -/
  | bringupComplete (dies : BitVec 4) (stks : BitVec 16) (pcFail : List (BitVec 64))
  /-- BRINGUP_TIMEOUT (R429): 30 s after power good or a warm reset, unfinished tests and training count as failed and a running join is abandoned. -/
  | bringupTimeout (dies : BitVec 4) (stks : BitVec 16) (pcFail : List (BitVec 64))
  /-- WARM_RESET (R435): RST_CTL with KIND warm stops queues, writes back combining buffers, resets switched domains, advances incarnations and reruns boot. -/
  | warmReset
  /-- DIE_RESET (R436): RST_CTL with KIND die resets the engines, easels and blocks of one die, held while collectives have their home die there unless FORCE. -/
  | dieReset (d : Fin 4) (force : Bool)
  /-- DIE_RESET_COMPLETE (R436): A die reset ends and the die returns to service. -/
  | dieResetComplete (d : Fin 4)
  /-- ENGINE_RESET (R437): RST_CTL with KIND engine resets one canvas, the brushes, a move engine, the collective engine or the pendant transfer engine and its queues. -/
  | engineReset (kind : Fin 5) (d : Fin 4) (cv : Fin 16) (force : Bool)
  /-- QUEUE_RESET (R438): RST_CTL with KIND queue stops one queue, withdraws its unstarted commands and advances its QINCARN. -/
  | queueReset (q : Fin 240)
  /-- BEAT_EDGE (R41): A rising wire beat edge is accepted, used for acquisition or counted spurious, updating period, target and rate. -/
  | beatEdge
  /-- BEAT_COAST (R42): No edge is accepted by the end of the window; beat k is coasted and the tracker enters or stays in COAST. -/
  | beatCoast
  /-- BEAT_LOST_ENTRY (R44): After 64 consecutive coasted beats the tracker enters LOST and holds the position. -/
  | beatLostEntry
  /-- MASTER_TAKEOVER (R38): An eligible token follower reaches TAKEOVER coasted beats and becomes beat master. -/
  | masterTakeover
  /-- GENERATOR_BOUNDARY (R37): The local generator reaches a beat boundary and, where required, sends a token on every version-3 port. -/
  | generatorBoundary
  /-- RESYNC (R44): A write of BEAT_CTL.RESYNC restarts acquisition in SEARCH. -/
  | resync
  /-- RELEASE_HELD (R50): A write of BEAT_CTL.RELEASE_HELD releases every pending wait and position-timed action with LATE while the position is held. -/
  | releaseHeld
  /-- BEAT_APPLY (R244): A write of BEAT_CTL.APPLY requests the BEAT staged bank to be applied now. -/
  | beatApply
  /-- BEAT_APPLY_AT_BEAT (R244): A write of BEAT_CTL.APPLY_AT_BEAT requests the BEAT staged bank to be applied at the next boundary. -/
  | beatApplyAtBeat
  /-- STAGED_APPLY_EFFECT (R245): A pending apply takes effect: every named block copies its staged bank to its active bank in one ac. -/
  | stagedApplyEffect (slot : Fin 5)
  /-- WAITB_RELEASE (R47): The position reaches the target of a pending WAITB, which completes with DONE. -/
  | waitbRelease (q : Fin 240)
  /-- LIFETIME_MINUTE (R52): A powered minute elapses; LIFETIME advances and, at the stored limit, a new limit is written to flash. -/
  | lifetimeMinute
  /-- BEAT_POS_READ (R209): A read of BEAT_POS returns the position and latches UPTIME into BEAT_POS_UPTIME. -/
  | beatPosRead
  /-- REGISTER_WRITE (R6): A write to a register with no row of its own, including staged fields, with the checks of R8, R9 and R32. -/
  | registerWrite (p : RegPath) (addr value : BitVec 64)
  /-- PAL_STALE_WRITE (R98): A write of 1 to a PAL_STALE bit clears that set's stale mark. -/
  | palStaleWrite (d : Fin 4) (v : BitVec 64)
  /-- RAND_KEY_WRITE (R103): A write to RAND_KEY_LO or RAND_KEY_HI changes a key, rerunning the alias check while valid. -/
  | randKeyWrite (d : Fin 4) (n : Fin 64) (hi : Bool) (v : BitVec 64)
  /-- RAND_STREAM_WRITE (R103): A write to RAND_STREAM changes a stream ID, rerunning the alias check while valid. -/
  | randStreamWrite (d : Fin 4) (n : Fin 64) (v : BitVec 64)
  /-- RAND_BIND_WRITE (R103): A write to RAND_BIND sets validity and sharing; a write of VALID 1 runs the alias check. -/
  | randBindWrite (d : Fin 4) (n : Fin 64) (v : BitVec 64)
  /-- PRIME (R116): PRIME writes a stationary tile into the shadow bank of a canvas problem. -/
  | prime (q : Fin 240) (n : Nat)
  /-- STREAM (R113): STREAM passes weight rows through a canvas problem and adds the products into edge accumulator entries. -/
  | stream (q : Fin 240) (n : Nat)
  /-- DRAIN (R123): DRAIN reads accumulator entries, scales and converts them, and writes them to the destination. -/
  | drain (q : Fin 240) (n : Nat)
  /-- PACK (R122): PACK sets a canvas's packing and width, clearing all entries and both banks. -/
  | pack (q : Fin 240) (n : Nat)
  /-- RING_ENTRY_DRAIN (R128): An entry of a RING STREAM becomes final and is drained under the captured DRAIN descriptor and cleared. -/
  | ringEntryDrain (q : Fin 240) (n : Nat)
  /-- GATE_POST (R129): A write to CANV_GATE_POST posts a slot with its request tag into a gate's open batch. -/
  | gatePost (d : Fin 4) (g : Fin 4) (slot : Fin 256) (tag : BitVec 32)
  /-- GATE_CLOSE (R130): A gate closes at TARGET, DEADLINE or its pendant's manifest, latches the mask, writes the manifest and primes. -/
  | gateClose (d : Fin 4) (g : Fin 4)
  /-- CANVAS_RETIREMENT (R136): A canvas self-check detection retires the physical canvas and moves its logical canvas to the partner. -/
  | canvasRetirement (d : Fin 4) (c : Fin 16) (kind : Fin 4)
  /-- CANVAS_RETIRE_WRITE (R136): A write of 1 to a CANV_RETIRED bit retires that physical canvas. -/
  | canvasRetireWrite (d : Fin 4) (mask : BitVec 16)
  /-- DDBG_ACC_V_READ (R141): A read of DDBG_ACC_V latches the selected entry, freezes the canvas one cycle and fills DDBG_ACC_X. -/
  | ddbgAccVRead (d : Fin 4)
  /-- SLIVER_RUN (R151): SLIVER_RUN dispatches a sliver program to the brushes of a mask. -/
  | sliverRun (q : Fin 240) (n : Nat)
  /-- LEND_GRANT (R156): A brush is granted to the collective engine, preempting or after the running program, with save and restore. -/
  | lendGrant (d : Fin 4) (b : Fin 32)
  /-- SLV_NOP (R191): NOP does nothing for 1 ac. -/
  | slvNop (d : Fin 4) (b : Fin 32)
  /-- SLV_END (R191): END ends the program for its brush. -/
  | slvEnd (d : Fin 4) (b : Fin 32)
  /-- SLV_REP (R190): REP repeats the following span with strided rows and random offsets. -/
  | slvRep (d : Fin 4) (b : Fin 32)
  /-- SETRB (R185): SETRB sets or adds to the brush's random base. -/
  | setrb (d : Fin 4) (b : Fin 32)
  /-- MSET (R175): MSET sets the mask latch of every lane. -/
  | mset (d : Fin 4) (b : Fin 32)
  /-- MNOT (R175): MNOT inverts the mask latch of each active lane. -/
  | mnot (d : Fin 4) (b : Fin 32)
  /-- MLD (R175): MLD loads the mask from a row under MMODE. -/
  | mld (d : Fin 4) (b : Fin 32)
  /-- MST (R175): MST stores the mask of each active lane into a row. -/
  | mst (d : Fin 4) (b : Fin 32)
  /-- SLV_ADD (R176): ADD adds integers with carry latch. -/
  | slvAdd (d : Fin 4) (b : Fin 32)
  /-- SLV_SUB (R176): SUB subtracts integers with borrow through the carry latch. -/
  | slvSub (d : Fin 4) (b : Fin 32)
  /-- SLV_CMP (R177): CMP compares integers into the mask latch and sets carry. -/
  | slvCmp (d : Fin 4) (b : Fin 32)
  /-- SLV_MAX (R177): MAX writes the larger integer. -/
  | slvMax (d : Fin 4) (b : Fin 32)
  /-- SLV_MIN (R177): MIN writes the smaller integer. -/
  | slvMin (d : Fin 4) (b : Fin 32)
  /-- SLV_MUL (R178): MUL forms the exact bit-serial integer product with skippable steps. -/
  | slvMul (d : Fin 4) (b : Fin 32)
  /-- SLV_AND (R179): AND acts bit by bit. -/
  | slvAnd (d : Fin 4) (b : Fin 32)
  /-- SLV_OR (R179): OR acts bit by bit. -/
  | slvOr (d : Fin 4) (b : Fin 32)
  /-- SLV_XOR (R179): XOR acts bit by bit. -/
  | slvXor (d : Fin 4) (b : Fin 32)
  /-- SLV_ANDN (R179): ANDN acts bit by bit. -/
  | slvAndn (d : Fin 4) (b : Fin 32)
  /-- SLV_NOT (R179): NOT inverts bit by bit. -/
  | slvNot (d : Fin 4) (b : Fin 32)
  /-- SLV_MOV (R179): MOV copies rows. -/
  | slvMov (d : Fin 4) (b : Fin 32)
  /-- SLV_SEL (R179): SEL writes A where the mask is 1 and B elsewhere. -/
  | slvSel (d : Fin 4) (b : Fin 32)
  /-- SLV_CONST (R179): CONST writes a 32-bit constant into every lane. -/
  | slvConst (d : Fin 4) (b : Fin 32)
  /-- SLV_SHL (R179): SHL shifts up with zero fill. -/
  | slvShl (d : Fin 4) (b : Fin 32)
  /-- SLV_SHR (R179): SHR shifts down with sign or zero fill. -/
  | slvShr (d : Fin 4) (b : Fin 32)
  /-- LMUL (R160): LMUL multiplies two log codes by adding their logarithms. -/
  | lmul (d : Fin 4) (b : Fin 32)
  /-- LADD (R161): LADD adds two log codes exactly and rounds once. -/
  | ladd (d : Fin 4) (b : Fin 32)
  /-- LMAX (R180): LMAX writes the larger log code. -/
  | lmax (d : Fin 4) (b : Fin 32)
  /-- LMIN (R180): LMIN writes the smaller log code. -/
  | lmin (d : Fin 4) (b : Fin 32)
  /-- FADD (R162): FADD adds floating values rounded once. -/
  | fadd (d : Fin 4) (b : Fin 32)
  /-- FSUB (R162): FSUB subtracts floating values rounded once. -/
  | fsub (d : Fin 4) (b : Fin 32)
  /-- FMUL (R162): FMUL multiplies floating values with skippable serial steps. -/
  | fmul (d : Fin 4) (b : Fin 32)
  /-- FDIV (R162): FDIV divides floating values rounded once. -/
  | fdiv (d : Fin 4) (b : Fin 32)
  /-- FSQRT (R162): FSQRT takes a floating square root rounded once. -/
  | fsqrt (d : Fin 4) (b : Fin 32)
  /-- FMAX (R181): FMAX writes the larger floating value. -/
  | fmax (d : Fin 4) (b : Fin 32)
  /-- FMIN (R181): FMIN writes the smaller floating value. -/
  | fmin (d : Fin 4) (b : Fin 32)
  /-- FCMP (R181): FCMP compares floating values into the mask latch. -/
  | fcmp (d : Fin 4) (b : Fin 32)
  /-- SLV_CVT (R182): CVT converts lanes between formats with optional scales. -/
  | slvCvt (d : Fin 4) (b : Fin 32)
  /-- ACCADD (R164): ACCADD adds two ACC64 plane elements exactly with saturation. -/
  | accadd (d : Fin 4) (b : Fin 32)
  /-- RMASK (R187): RMASK writes a random mask from stream bytes against a threshold. -/
  | rmask (d : Fin 4) (b : Fin 32)
  /-- SLV_REDUCE (R188): REDUCE combines values across lanes or cores in a fixed tree. -/
  | slvReduce (d : Fin 4) (b : Fin 32)
  /-- QTAIL_DOORBELL (R196): A write to QTAIL is accepted as a doorbell or ignored and counted. -/
  | qtailDoorbell (q : Fin 240) (v : BitVec 64)
  /-- QUEUE_ENABLE (R197): QCTL ENABLE zeroes a queue's counters and registers and enters IDLE. -/
  | queueEnable (q : Fin 240)
  /-- QUEUE_DISABLE (R197): QCTL DISABLE takes a queue to OFF once its dispatched commands have completed. -/
  | queueDisable (q : Fin 240)
  /-- QUEUE_STOP (R197): QCTL STOP stops a queue at its next instruction boundary, abandoning a wait. -/
  | queueStop (q : Fin 240)
  /-- QUEUE_RESUME (R197): QCTL RESUME returns a stopped queue to RUN or IDLE. -/
  | queueResume (q : Fin 240)
  /-- QUEUE_SKIP (R197): QCTL SKIP abandons a faulted list, writes its list-end record and advances HEAD. -/
  | queueSkip (q : Fin 240)
  /-- RING_ENTRY_TAKE (R194): An easel takes the pending ring entry at HEAD and begins its list, reserving a record slot if REC. -/
  | ringEntryTake (q : Fin 240)
  /-- CHEAD_WRITE (R216): A write to CHEAD consumes completion slots and frees waiting instructions. -/
  | cheadWrite (q : Fin 240) (v : BitVec 64)
  /-- NOP (R199): Easel NOP does nothing. -/
  | qNop (q : Fin 240)
  /-- END (R194): Easel END ends the list, writes a list-end record if REC and advances HEAD. -/
  | qEnd (q : Fin 240)
  /-- ADD (R202): Scalar add. -/
  | qAdd (q : Fin 240)
  /-- SUB (R202): Scalar subtract. -/
  | qSub (q : Fin 240)
  /-- AND (R202): Scalar bitwise AND. -/
  | qAnd (q : Fin 240)
  /-- OR (R202): Scalar bitwise OR. -/
  | qOr (q : Fin 240)
  /-- XOR (R202): Scalar bitwise XOR. -/
  | qXor (q : Fin 240)
  /-- SHL (R202): Scalar shift up. -/
  | qShl (q : Fin 240)
  /-- SHR (R202): Scalar logical shift down. -/
  | qShr (q : Fin 240)
  /-- SAR (R202): Scalar arithmetic shift down. -/
  | qSar (q : Fin 240)
  /-- MUL (R202): Scalar multiply, low 64 bits. -/
  | qMul (q : Fin 240)
  /-- MOVI (R202): Loads a sign-extended immediate. -/
  | qMovi (q : Fin 240)
  /-- MOVHI (R202): Loads the upper half of a register. -/
  | qMovhi (q : Fin 240)
  /-- SETP (R202): Sets a predicate from a comparison. -/
  | qSetp (q : Fin 240)
  /-- PLOG (R202): Combines predicates. -/
  | qPlog (q : Fin 240)
  /-- LD (R203): Loads a value from a global address, waiting for a remote reply. -/
  | qLd (q : Fin 240)
  /-- LD_RESPONSE (R203): The reply to a remote LD arrives and completes it or faults the queue. -/
  | ldResponse (q : Fin 240) (err : Bool) (body : List (BitVec 8))
  /-- ST (R203): Stores a value to a global address, remote stores not waiting. -/
  | qSt (q : Fin 240)
  /-- ST_REMOTE_OUTCOME (R489): A refusal or link failure of a remote ST arrives and faults the queue at its next boundary. -/
  | stRemoteOutcome (q : Fin 240) (k : BitVec 16) (status : BitVec 8)
  /-- BR (R204): Branches relative to the PC. -/
  | qBr (q : Fin 240)
  /-- JR (R204): Jumps to a register address. -/
  | qJr (q : Fin 240)
  /-- SEMWAIT (R205): Waits for a semaphore count and consumes it unless NOCONS. -/
  | qSemwait (q : Fin 240)
  /-- SEMWAIT_GRANT (R233): A waiting SEMWAIT is granted as the count allows. -/
  | semwaitGrant (store : Fin 5) (ix : Fin 8192)
  /-- SEMSIG (R205): Adds 1 to a semaphore. -/
  | qSemsig (q : Fin 240)
  /-- SEMADD (R205): Adds a signed amount to a semaphore. -/
  | qSemadd (q : Fin 240)
  /-- WAITB (R207): Waits for a beat position. -/
  | qWaitb (q : Fin 240)
  /-- WAITE (R207): Waits for an epoch to settle and reports its outcome. -/
  | qWaite (q : Fin 240)
  /-- LOCK (R206): Acquires a lock, waiting or with TRY. -/
  | qLock (q : Fin 240)
  /-- UNLOCK (R206): Releases a lock; the head waiter then acquires it. -/
  | qUnlock (q : Fin 240)
  /-- FENCE (R208): Waits for earlier dispatches or remote effects of the queue. -/
  | qFence (q : Fin 240)
  /-- FENCE_COMPLETE (R208): The scopes a FENCE waits on have completed and the queue continues. -/
  | fenceComplete (q : Fin 240)
  /-- RDTIME (R209): Reads a time or identity item into a register. -/
  | qRdtime (q : Fin 240)
  /-- EPOCH (R211): Sets the queue epoch, waiting under the run-ahead limit. -/
  | qEpoch (q : Fin 240)
  /-- RBIND (R210): Writes a random-stream bind entry from a bind block. -/
  | qRbind (q : Fin 240)
  /-- DISPATCH (R212): Captures a descriptor and sends an engine command, or ends it at the easel. -/
  | qDispatch (q : Fin 240)
  /-- ENGINE_BUFFER_FREE (R214): A place frees at an engine and a waiting DISPATCH proceeds. -/
  | engineBufferFree (q : Fin 240)
  /-- COMMAND_COMPLETION (R215): A dispatched command completes: record, semaphore signal, error count and halt. -/
  | commandCompletion (q : Fin 240) (n : Nat)
  /-- ARB_GRANT (R227): An arbiter grants a free resource to the requester chosen by the scheme. -/
  | arbGrant (pl : Fin 5) (r : Fin 5) (u : BitVec 16) (asks : List ArbAsk)
  /-- ARB_WINDOW_RESET (R226): An arbitration window ends and each class's used count returns to zero. -/
  | arbWindowReset (pl : Fin 5) (r : Fin 5) (u : BitVec 16)
  /-- ARB_CUTOFF (R229): A privileged holder reaches its hold limit and is cut off. -/
  | arbCutoff (pl : Fin 5) (r : Fin 5) (u : BitVec 16)
  /-- ARB_CUT_WRITE (R229): A write of 1 clears bits of ARB_CUT. -/
  | arbCutWrite (pl : Fin 5) (v : BitVec 64)
  /-- SEM_WRITE (R232): A register write sets two semaphore counts and grants waiters. -/
  | semWrite (pl : Fin 5) (w : Fin 4096) (v : BitVec 64)
  /-- LOCK_OWN_WRITE (R242): A write of zero to LOCK_OWN frees the lock for the head waiter. -/
  | lockOwnWrite (pl : Fin 5) (ix : Fin 1024) (v : BitVec 64)
  /-- LOCK_REEXAMINE (R239): A store re-examines held records after a reset or membership change and orphans owners. -/
  | lockReexamine (store : Fin 5)
  /-- LOCK_APPLY_NOW (R244): LOCK_APPLY with MODE NOW requests an apply 64 ac later. -/
  | lockApplyNow (hub : BitVec 16) (die : BitVec 36)
  /-- LOCK_APPLY_AT_BEAT (R244): LOCK_APPLY with MODE AT_BEAT requests an apply at the next boundary. -/
  | lockApplyAtBeat (hub : BitVec 16) (die : BitVec 36)
  /-- LOCK_APPLY_CANCEL (R246): LOCK_APPLY with MODE CANCEL discards its pending request. -/
  | lockApplyCancel
  /-- DLOCK_APPLY_NOW (R244): DLOCK_APPLY with MODE NOW requests a die apply 64 ac later. -/
  | dlockApplyNow (d : Fin 4) (mask : BitVec 9)
  /-- DLOCK_APPLY_AT_BEAT (R244): DLOCK_APPLY with MODE AT_BEAT requests a die apply at the next boundary. -/
  | dlockApplyAtBeat (d : Fin 4) (mask : BitVec 9)
  /-- DLOCK_APPLY_CANCEL (R246): DLOCK_APPLY with MODE CANCEL discards its pending request. -/
  | dlockApplyCancel (d : Fin 4)
  /-- PATROL_SCRUB (R264): The patrol scrub reads a sector in a free slot, writing back corrections and recording uncorrectable sectors. -/
  | patrolScrub (st : Fin 16)
  /-- REFRESH (R251): Refresh or refresh management holds a pseudo-channel. -/
  | hbmRefresh (st : Fin 16) (pc : Fin 64)
  /-- PSEUDO_CHANNEL_FAIL (R265): A pseudo-channel fails its checks or retraining; its whole stack leaves service. -/
  | pseudoChannelFail (st : Fin 16) (pc : Fin 64)
  /-- NMA_UPDATE (R267): A near-memory update is applied to its element through the combining buffer. -/
  | nmaUpdate (st : Fin 16)
  /-- NMA_CFG_WRITE (R269): A write to NMA_CFG sets scrub period and combining; NOCOMBINE writes back held sectors. -/
  | nmaCfgWrite (st : Fin 16) (v : BitVec 64)
  /-- COPY (R283): COPY copies a tensor element by element. -/
  | moveCopy (q : Fin 240) (n : Nat)
  /-- TRANSPOSE (R283): TRANSPOSE exchanges the two innermost dimensions. -/
  | moveTranspose (q : Fin 240) (n : Nat)
  /-- CONVERT (R285): CONVERT converts a tensor between formats with scales and sketch. -/
  | moveConvert (q : Fin 240) (n : Nat)
  /-- CORNER_TURN (R283): CORNER_TURN converts between element and plane layout. -/
  | cornerTurn (q : Fin 240) (n : Nat)
  /-- FILL (R284): FILL writes every element from a pattern. -/
  | moveFill (q : Fin 240) (n : Nat)
  /-- GATHER (R289): GATHER reads indexed slices into the destination. -/
  | moveGather (q : Fin 240) (n : Nat)
  /-- SCATTER (R289): SCATTER writes slices to indexed positions. -/
  | moveScatter (q : Fin 240) (n : Nat)
  /-- SCATTER_ACC (R289): SCATTER_ACC sends near-memory updates for indexed slices. -/
  | scatterAcc (q : Fin 240) (n : Nat)
  /-- LINK_UP (R296): A fabric port completes training at version 3 or 2 and begins HELLO. -/
  | linkUp (p : Fin 18) (v3 : Bool) (credits : List (BitVec 16))
  /-- LANE_FAULT (R297): A link loses lanes and narrows, or goes down with none left. -/
  | laneFault (p : Fin 18) (good : BitVec 4)
  /-- LINK_FRAME_RX (R298): A link frame arrives and is checked, acknowledged, credited or discarded. -/
  | linkFrameRx (p : Fin 18) (lseq lack : BitVec 12) (cvc cn : Fin 16) (crcOk legal : Bool) (corrected uncorrected : BitVec 16) (vc : Fin 16) (len : Fin 257)
  /-- LINK_RETRY (R298): The sender resends from the first unacknowledged LSEQ. -/
  | linkRetry (p : Fin 18)
  /-- HELLO_TIMER (R304): Every 20 µs an up port sends HELLO. -/
  | helloTimer
  /-- HELLO (R304): A HELLO arrives with the peer's identity and address. -/
  | helloRx (p : Fin 18) (b : HelloBody)
  /-- PORT_DOWN (R313): A port misses HELLO for 60 µs or loses lock; routes switch to ALT and the coordinator is told. -/
  | portDown (p : Fin 18) (lostLock : Bool)
  /-- ECHO_REQ (R305): An ECHO_REQ arrives and is answered with the turnaround. -/
  | echoReq (p : Fin 16) (turn : BitVec 32)
  /-- ECHO_RESP (R305): An ECHO_RESP arrives; link latency is computed after 16. -/
  | echoResp (p : Fin 16) (rtt turn : BitVec 32)
  /-- ADMIT_CHAL (R306): An admission challenge arrives and is answered with a signed ADMIT_RESP. -/
  | admitChal (p : Fin 16) (nonce : List (BitVec 8))
  /-- ADMIT_RESP (R306): An admission answer arrives and is verified, admitting or refusing the port. -/
  | admitResp (p : Fin 16) (ix : Fin 39) (b : List (BitVec 8))
  /-- ELECT (R307): An ELECT arrives and updates the lowest eligible serial known. -/
  | electRx (p : Fin 16) (serial : BitVec 64)
  /-- COORD_SETTLE (R307): An eligible module's flooded value is unchanged for SETTLE_MS and it becomes coordinator. -/
  | coordSettle
  /-- MEMBER_TIMER (R307): Every 50 µs the coordinator sends MEMBER on every port. -/
  | memberTimer
  /-- MEMBER (R310): A MEMBER update arrives and updates the membership copy. -/
  | memberRx (p : Fin 16) (seq : BitVec 16) (coord deputy : BitVec 64) (epoch : BitVec 48) (ms : List Member) (excl : List (BitVec 64))
  /-- DEPUTY_TAKEOVER (R307): The deputy hears no MEMBER for 150 µs and becomes coordinator. -/
  | deputyTakeover
  /-- ROUTE (R314): A ROUTE fragment arrives; a complete table is applied in one cycle. -/
  | routeRx (p : Fin 16) (epoch : BitVec 48) (ix total : BitVec 16) (first : BitVec 16) (es : List (BitVec 64))
  /-- PACKET_FORWARD (R311): A transit packet is forwarded on its route or discarded. -/
  | packetForward (h : Hdr) (type : BitVec 6) (body : List (BitVec 8))
  /-- VC15_ESCAPE (R312): A bulk packet finds no credit for 2 µs and moves to VC15. -/
  | vc15Escape
  /-- WRITE (R315): A remote WRITE arrives and is executed and acknowledged. -/
  | fabricWrite (h : Hdr) (body : List (BitVec 8))
  /-- READ_REQ (R315): A remote READ_REQ arrives and is answered. -/
  | readReq (h : Hdr) (body : List (BitVec 8))
  /-- READ_RESP (R302): A READ_RESP arrives for an outstanding read. -/
  | readResp (h : Hdr) (body : List (BitVec 8))
  /-- WRITE_ACK (R302): A WRITE_ACK arrives for an outstanding write. -/
  | writeAck (h : Hdr) (body : List (BitVec 8))
  /-- FABRIC_REG_RD (R316): A REG_RD arrives and is answered or refused. -/
  | fabricRegRd (h : Hdr)
  /-- FABRIC_REG_WR (R316): A REG_WR arrives, including broadcast writes, and is applied or refused. -/
  | fabricRegWr (p : Fin 16) (h : Hdr) (body : List (BitVec 8))
  /-- LOCK_OP (R238): A lock operation arrives at a lock store and is decided. -/
  | lockOp (h : Hdr) (k : LockReqKind) (w : LockWho)
  /-- LOCK_RESP (R240): A lock response arrives and completes the waiting instruction. -/
  | lockResp (h : Hdr) (status : BitVec 8)
  /-- E2E_TIMEOUT (R302): A request has no answer after E2E_US; it is resent once, then ends with ERROR_LINK. -/
  | e2eTimeout
  /-- BEAT (R318): A beat token arrives, is forwarded once and its first copy is passed to the tracker. -/
  | beatToken (p : Fin 16) (h : Hdr) (res : BitVec 32) (body : List (BitVec 8))
  /-- RYF_MQ_ADDR_WRITE (R310): A write to RYF_MQ_ADDR refreshes the member query results. -/
  | ryfMqAddrWrite (v : BitVec 64)
  /-- GROUP_REGISTER (R323): A write of 1 to RED_GCTL.VALID registers a group from its descriptor. -/
  | groupRegister (v : Fin 10)
  /-- GROUP_UNREGISTER (R323): A write of 0 to RED_GCTL.VALID unregisters a group. -/
  | groupUnregister (v : Fin 10)
  /-- REDUCE_SCATTER (R329): REDUCE_SCATTER reduces contributions in fixed order and scatters shards. -/
  | reduceScatter (q : Fin 240) (n : Nat)
  /-- ALL_GATHER (R331): ALL_GATHER sends each rank's shard to every rank. -/
  | allGather (q : Fin 240) (n : Nat)
  /-- ALL_REDUCE (R329): ALL_REDUCE reduces contributions in fixed order and spreads the total. -/
  | allReduce (q : Fin 240) (n : Nat)
  /-- BROADCAST (R331): BROADCAST spreads the root's tensor to every rank. -/
  | broadcast (q : Fin 240) (n : Nat)
  /-- CLOSE (R339): An ALL_REDUCE with CLOSE reduces the veto words of an epoch. -/
  | closeReduce (q : Fin 240) (n : Nat)
  /-- RED_HDR (R341): A segment header arrives on a collective channel. -/
  | redHdr (h : Hdr) (body : List (BitVec 8))
  /-- RED_DATA (R341): Segment elements arrive on a collective channel. -/
  | redData (h : Hdr) (body : List (BitVec 8))
  /-- RED_ACK (R341): A segment acknowledgement arrives. -/
  | redAck (h : Hdr) (body : List (BitVec 8))
  /-- REDUCE_STEP (R329): Both operands of a segment have arrived and a lent brush adds and forwards the sum. -/
  | reduceStep (q : Fin 240) (n : Nat)
  /-- SUBSTITUTION_POINT (R332): A deadline or membership loss reaches the substitution point; the backup copy is used or the operand is missing. -/
  | substitutionPoint (q : Fin 240) (n : Nat) (rank : Nat)
  /-- RETRACT (R340): A RETRACT arrives; the epoch's collectives are discarded and ended. -/
  | retractRx (h : Hdr) (body : List (BitVec 8))
  /-- RETRACT_ACK (R341): A RETRACT acknowledgement arrives. -/
  | retractAck (h : Hdr) (body : List (BitVec 8))
  /-- RED_VETO_SET_WRITE (R336): A write to RED_VETO_SET sets SOFTWARE in the local veto word of an epoch. -/
  | redVetoSetWrite (v : BitVec 64)
  /-- SETTLEMENT (R353): The settling CLOSE completes and the epoch commits or is cancelled, releasing gated commands. -/
  | settlement
  /-- TRN_SETTLE_LOCAL (R354): A write to TRN_SETTLE_LOCAL settles the next epoch from the local veto word. -/
  | trnSettleLocal (v : BitVec 64)
  /-- TRN_SETTLED_WRITE (R356): A write to TRN_SETTLED.EPOCH sets the settled epoch and clears history. -/
  | trnSettledWrite (v : BitVec 64)
  /-- LOSS_WATCH (R350): A write to TRN_LOSS submits a loss, which may set SPIKE and updates mean and deviation. -/
  | lossWatch (v : BitVec 64)
  /-- LW_STATE_WRITE (R350): A write to TRN_LW_STATE while disabled sets mean and deviation and SEEN 255. -/
  | lwStateWrite (v : BitVec 64)
  /-- OUT_OF_STEP_CLEAR (R355): A write of 1 clears TRN_STAT.OUT_OF_STEP. -/
  | outOfStepClear
  /-- EVAL_SLOT_START (R357): The position enters an evaluation slot and the windows become read-only. -/
  | evalSlotStart
  /-- EVAL_SLOT_END (R357): The position leaves an evaluation slot and the windows become writable. -/
  | evalSlotEnd
  /-- SNAPSHOT_START (R358): TRN_SNAP_CTL.START begins a snapshot from its descriptor. -/
  | snapshotStart
  /-- SNAPSHOT_REGION (R359): A snapshot region becomes readable and is read and sent to the host. -/
  | snapshotRegion
  /-- SNAPSHOT_END (R360): A snapshot sends its signed manifest and records its status. -/
  | snapshotEnd
  /-- SNAPSHOT_ABORT (R360): TRN_SNAP_CTL.ABORT cancels a snapshot and releases its waits. -/
  | snapshotAbort
  /-- CKPT_CONFIRM (R377): A write to TRN_CKPT.LAST confirms a checkpoint, sending CONFIRM in shadow mode. -/
  | ckptConfirm (v : BitVec 64)
  /-- HEARTBEAT_TIMER (R366): Every 10 µs a HEARTBEAT is sent on every up pendant port. -/
  | heartbeatTimer
  /-- HEARTBEAT (R366): A HEARTBEAT arrives from the partner. -/
  | heartbeatRx (p : Fin 2) (st : BitVec 8) (incarn egSent : BitVec 64)
  /-- PARTNER_SILENCE (R379): 20 µs without HEARTBEAT; a probe read of the partner's incarnation is sent. -/
  | partnerSilence
  /-- PROBE_RESULT (R379): The probe is answered or times out; the partner is found lost or the pair split. -/
  | probeResult
  /-- NEIGHBOR_ADVERT_REPEAT (R380): Every 100 µs after takeover another Neighbor Advertisement and ARP reply is sent. -/
  | neighborAdvertRepeat
  /-- INGRESS (R369): A replicated ingress item arrives at the back and is acknowledged and acted on in order. -/
  | pendIngress (n : BitVec 64) (x : IngressItem)
  /-- INGRESS_ACK (R369): The back's acknowledgement arrives and the face acts on held items. -/
  | ingressAck (n : BitVec 64)
  /-- MANIFEST (R371): A gate manifest from the face arrives for a following gate. -/
  | pendManifest (d : Fin 4) (g : Fin 4) (n : BitVec 64) (body : List (BitVec 8))
  /-- DIGEST (R374): A REPLICATE comparison digest arrives and is compared. -/
  | pendDigest (k : DigestKey) (dg : List (BitVec 8))
  /-- DIGEST_TIMEOUT (R374): A partner digest does not arrive within 1 ms; REPLICATE ends ERROR_MISSING. -/
  | digestTimeout (q : Fin 240) (n : Nat)
  /-- BULK (R384): Pendant bulk data arrives: transfer, join data or a forwarded error record. -/
  | pendBulk (b : PendBulk)
  /-- CONFIRM (R377): A CONFIRM arrives; the holder enters MERGING and answers CONFIRM_ACK. -/
  | pendConfirm (k : BitVec 48)
  /-- CONFIRM_ACK (R377): A CONFIRM_ACK arrives and the checkpoint write is accepted. -/
  | confirmAck (k : BitVec 48)
  /-- CONFIRM_TIMEOUT (R377): No CONFIRM_ACK within 100 µs; the checkpoint write is discarded. -/
  | confirmTimeout
  /-- HANDOVER (R382): A HANDOVER arrives and the back takes the face role. -/
  | handoverRx
  /-- PEND_RECOV_REQ (R419): A partner's recovery request arrives and is served with image data. -/
  | pendRecovReq (p : Fin 2) (off : BitVec 32)
  /-- PEND_RECOV_DATA (R419): Recovery image bytes arrive over a pendant port. -/
  | pendRecovData (p : Fin 2) (off : BitVec 32) (b : List (BitVec 8))
  /-- RECOV_END (R419): The pendant image ends and is verified. -/
  | recovEnd (p : Fin 2) (total : BitVec 32)
  /-- RECOV_REQ_TIMER (R419): Every 10 ms in RECOVERY a RECOV_REQ is sent on up pendant ports. -/
  | recovReqTimer
  /-- JOIN (R367): A write of PEND_CTL.JOIN starts a pair join and its checks. -/
  | pairJoin
  /-- JOIN_QUIESCE (R384): At a beat boundary the face quiesces and sends the last granules and block state. -/
  | joinQuiesce
  /-- JOIN_RESUME (R384): At the next beat boundary both modules resume and replication starts. -/
  | joinResume
  /-- DETACH (R386): A write of PEND_CTL.DETACH enters DETACHING and stages the module down. -/
  | pairDetach
  /-- DETACH_COMPLETE (R445): Every switched domain is off and the module returns to AON. -/
  | detachComplete
  /-- RESTORE (R378): A write of PEND_CTL.RESTORE sends the copy to the owner's window or is refused. -/
  | pairRestore
  /-- FORGET (R386): A write of PEND_CTL.FORGET invalidates the copy and frees DAREA. -/
  | pairForget
  /-- REPLICATE (R387): REPLICATE writes or compares a tensor with the mirror partner. -/
  | pendReplicate (q : Fin 240) (n : Nat)
  /-- DELTA (R377): DELTA stages a committed epoch's bytes into the partner's DAREA. -/
  | pendDelta (q : Fin 240) (n : Nat)
  /-- RESYNC_TRANSFER (R385): RESYNC writes a window bound directly into the partner's copy. -/
  | resyncTransfer (q : Fin 240) (n : Nat)
  /-- HOST_LINK_UP (R389): The host port trains at its rate. -/
  | hostLinkUp
  /-- HOST_FRAME_RX (R391): A host Ethernet frame arrives and is dropped, answered or passed to a transport. -/
  | hostFrameRx (size : BitVec 16) (fcsOk : Bool) (tag : Option (BitVec 12)) (f : FrameBody)
  /-- RDMA_WRITE (R394): An RDMA WRITE is checked against its region and written. -/
  | rdmaWrite (qp psn : BitVec 24) (rkey : BitVec 32) (va : BitVec 64) (data : List (BitVec 8)) (ce : Bool)
  /-- RDMA_READ (R394): An RDMA READ is checked and answered. -/
  | rdmaRead (qp psn : BitVec 24) (rkey : BitVec 32) (va : BitVec 64) (len : BitVec 32) (ce : Bool)
  /-- SEND (R395): A SEND is placed in the QP's receive ring. -/
  | rdmaSend (qp psn : BitVec 24) (data : List (BitVec 8)) (ce : Bool)
  /-- ROCE_ACK_RX (R392): An acknowledgement or NAK arrives for the module's RDMA WRITEs. -/
  | roceAckRx (qp psn : BitVec 24) (nak : Bool)
  /-- CNP_RX (R392): A CNP arrives and halves the QP's send rate. -/
  | cnpRx (qp : BitVec 24)
  /-- ROCE_RETRANSMIT_TIMEOUT (R392): An ack timeout resends go-back-N or moves the QP to ERROR. -/
  | roceRetransmitTimeout (qp : Fin 4096)
  /-- ROCE_RATE_RECOVER (R392): Each 100 µs without a CNP adds 5 % of line rate. -/
  | roceRateRecover (qp : Fin 4096)
  /-- QP_LOAD (R393): HOSTP_QPCTL OP LOAD loads a QP context and puts it in RTS. -/
  | qpLoad (qp : Fin 4096)
  /-- QP_RESET (R393): HOSTP_QPCTL OP RESET returns a QP to RESET. -/
  | qpReset (qp : Fin 4096)
  /-- TCT_REG_RD (R400): A TCT REG_RD is checked and answered. -/
  | tctRegRd (m : TctHead) (addr : BitVec 64)
  /-- TCT_REG_WR (R400): A TCT REG_WR is checked and applied. -/
  | tctRegWr (m : TctHead) (addr value : BitVec 64)
  /-- MEM_RD (R400): A TCT MEM_RD reads local memory. -/
  | memRd (m : TctHead) (addr : BitVec 64) (len : BitVec 32)
  /-- MEM_WR (R400): A TCT MEM_WR writes local memory. -/
  | memWr (m : TctHead) (addr : BitVec 64) (data : List (BitVec 8))
  /-- DOORBELL (R401): A TCT DOORBELL writes a QTAIL at once or holds it behind a PSN fence. -/
  | tctDoorbell (m : TctHead) (addr : BitVec 64) (value qpn psn : BitVec 32)
  /-- DOORBELL_RELEASE (R401): The fencing QP acknowledges the PSN and the held QTAIL write is made. -/
  | doorbellRelease
  /-- EVENT_ACK (R402): A host acknowledges an event. -/
  | eventAck (m : TctHead) (n : BitVec 64)
  /-- EVENT_RESEND (R402): An unacknowledged event is resent every 100 µs. -/
  | eventResend
  /-- HOSTP_ALERT_WRITE (R403): A write of 1 clears HOSTP_ALERT status bits and may release ALERT_N. -/
  | hostpAlertWrite (v : BitVec 64)
  /-- MCTP_CONTROL (R404): An MCTP control message, such as Set Endpoint ID, is answered. -/
  | mctpControl (cmd : BitVec 8) (data : List (BitVec 8))
  /-- PLDM_TYPE0 (R405): A PLDM base discovery message is answered. -/
  | pldmType0 (cmd : BitVec 8) (data : List (BitVec 8))
  /-- PLDM_TYPE2 (R405): A PLDM platform monitoring message is answered. -/
  | pldmType2 (cmd : BitVec 8) (sensor : BitVec 16)
  /-- SENSOR_REFRESH (R405): Every 10 ms the PLDM sensors are refreshed. -/
  | sensorRefresh (mv win wmod : BitVec 32) (hub : BitVec 8)
  /-- GET_INFO (R406): Sideband GET_INFO returns identity and state. -/
  | getInfo
  /-- SB_REG_RD (R406): Sideband REG_RD reads a register. -/
  | sbRegRd (addr : BitVec 64)
  /-- SB_REG_WR (R406): Sideband REG_WR writes a register, SEC included. -/
  | sbRegWr (addr value : BitVec 64)
  /-- KEY_LOAD (R407): Sideband KEY_LOAD loads a TCT key slot and clears its sessions. -/
  | keyLoad (slot flags : BitVec 8) (key : List (BitVec 8))
  /-- KEY_CLEAR (R407): Sideband KEY_CLEAR clears a key slot and its sessions. -/
  | keyClear (slot : BitVec 8)
  /-- GET_REPORT (R422): Sideband GET_REPORT returns a signed attestation report. -/
  | getReport (nonce : List (BitVec 8))
  /-- GET_ENDORSEMENT (R410): Sideband GET_ENDORSEMENT returns the identity endorsement. -/
  | getEndorsement
  /-- DEBUG_CHALLENGE (R424): Sideband DEBUG_CHALLENGE returns a fresh challenge. -/
  | debugChallenge
  /-- DEBUG_UNLOCK (R424): Sideband DEBUG_UNLOCK checks a token and opens debug scopes. -/
  | debugUnlock (t : List (BitVec 8))
  /-- DEBUG_LOCK (R425): Sideband DEBUG_LOCK ends an unlock. -/
  | debugLock
  /-- EXTEND (R421): Sideband EXTEND extends M4 to M7. -/
  | sbExtend (ix : BitVec 8) (dg : List (BitVec 8))
  /-- SB_SVN_COMMIT (R414): Sideband SVN_COMMIT advances the OTP counter to the running SVN. -/
  | sbSvnCommit
  /-- GET_MEAS (R421): Sideband GET_MEAS returns M0 to M7. -/
  | getMeas
  /-- SVN_COMMIT (R414): SEC_CTL.SVN_COMMIT blows OTP fuses up to the running SVN. -/
  | svnCommit
  /-- SEC_CTL_DEBUG_LOCK (R425): SEC_CTL.DEBUG_LOCK ends an unlock. -/
  | secCtlDebugLock
  /-- UPD_START (R415): SEC_CTL.UPD_START verifies a staged image and begins programming it. -/
  | updStart
  /-- UPD_ABORT (R415): SEC_CTL.UPD_ABORT cancels an update before programming. -/
  | updAbort
  /-- UPDATE_COMPLETE (R415): Programming and read-back finish and the update status is set. -/
  | updateComplete (ok : Bool)
  /-- RECOV_QUERY (R416): A host RECOV_QUERY is answered with RECOV_INFO. -/
  | recovQuery (src : BitVec 64)
  /-- RECOV_DATA (R417): Host recovery image bytes arrive and are acknowledged. -/
  | recovData (src : BitVec 64) (off : BitVec 32) (b : List (BitVec 8))
  /-- RECOV_COMMIT (R417): A host RECOV_COMMIT starts verification and programming of the image. -/
  | recovCommit (src : BitVec 64) (n : BitVec 32)
  /-- RECOV_SESSION_TIMEOUT (R417): The recovery session owner sends nothing for 10 s and loses ownership. -/
  | recovSessionTimeout
  /-- RECOVERY_PROGRAMMED (R416): A winning recovery image is programmed and boot restarts as at a warm reset. -/
  | recoveryProgrammed (ok : Bool)
  /-- IDENTITY_SIGN (R420): The security engine takes the next signing request, writing a new limit if needed, and signs. -/
  | identitySign
  /-- DEBUG_EXPIRY (R425): UPTIME reaches the token's EXPIRY and the unlock ends. -/
  | debugExpiry
  /-- PWR_DOM_REQ_WRITE (R442): A write to PWR_DOM_REQ requests domains on or off, refused where the rule forbids. -/
  | pwrDomReqWrite (v : BitVec 64)
  /-- DOMAIN_OFF (R443): A closing domain's accepted commands finish and the domain switches off. -/
  | domainOff (k : Fin 56)
  /-- DOMAIN_ON_READY (R444): A domain's power-on time passes and it begins to serve. -/
  | domainOnReady (k : Fin 56)
  /-- LIMITER_SAMPLE (R449): The limiter samples input power every 100 ns and raises F above the threshold. -/
  | limiterSample (w : BitVec 16)
  /-- LIMITER_RELEASE (R449): A whole µs of samples below 0.95 of the threshold lowers F. -/
  | limiterRelease
  /-- THERMAL_SAMPLE (R450): Each 1 ms sensor reading steps the protective point or trips the module. -/
  | thermalSample (dies : List (BitVec 8)) (stks : List (BitVec 8))
  /-- CAP_LOOP (R451): Every 1 ms the cap loop compares the 10 ms average with the cap and steps points or the threshold. -/
  | capLoop
  /-- CLOCK_POINT_CHANGE (R448): A die changes clock point, stopping and restarting its clocks; the tracker rescales. -/
  | clockPointChange (d : Fin 4)
  /-- OVERRIDE_RECORD (R453): Every 1 s of policy override a POLICY_OVERRIDE record is written. -/
  | overrideRecord (d : Fin 4)
  /-- TRIP_CLEAR (R450): A write of 1 clears PWR_STAT.TRIP. -/
  | tripClear
  /-- CE_INTERVAL (R458): A 1 ms UPTIME interval ends and the corrected-record count restarts. -/
  | ceInterval
  /-- CLEAR_FATAL (R459): ERR_CTL.CLEAR_FATAL clears the fatal latch. -/
  | clearFatal
  /-- PERT_CTL_WRITE (R466): A write to PERT_CTL enables injection kinds, loading each LFSR on a rising bit. -/
  | pertCtlWrite (v : BitVec 64)
  /-- PERT_ECC_ARM (R468): A write of ARM alters a stored sector or word once. -/
  | pertEccArm (v : BitVec 64)
  /-- CREDIT_HOLD_END (R466): A withheld credit's hold time ends and it is sent. -/
  | creditHoldEnd
  /-- CONTRIB_HOLD_END (R466): A held collective segment's delay ends and it arrives. -/
  | contribHoldEnd
  /-- BEAT_EVCNT_READ (R13): A read of BEAT_EVCNT returns and clears the counters. -/
  | beatEvcntRead
  /-- PAL_SKCNT_READ (R13): A read of PAL_SKCNT returns and clears the counters. -/
  | palSkcntRead (d : Fin 4)
  /-- PAL_CNT_READ (R13): A read of PAL_CNT returns and clears the channel counters. -/
  | palCntRead (d : Fin 4) (p : Fin 16) (w : Fin 128)
  /-- CANV_GATE_DUP_READ (R13): A read of CANV_GATE_DUP returns and clears the counts. -/
  | canvGateDupRead (d : Fin 4)
  /-- CANV_HEALTH_READ (R13): A read of CANV_HEALTH returns and clears the counts. -/
  | canvHealthRead (d : Fin 4)
  /-- CANV_FRZ_READ (R13): A read of CANV_FRZ returns and clears the freeze counts. -/
  | canvFrzRead (d : Fin 4) (c : Fin 16)
  /-- CANV_DRCNT_READ (R13): A read of CANV_DRCNT returns and clears the drain counts. -/
  | canvDrcntRead (d : Fin 4) (c : Fin 16)
  /-- SLV_BEV_READ (R13): A read of SLV_BEV returns and clears the event counts. -/
  | slvBevRead (d : Fin 4) (b : Fin 32)
  /-- SLV_BSTALL_READ (R13): A read of SLV_BSTALL returns and clears the stall counts. -/
  | slvBstallRead (d : Fin 4) (b : Fin 32)
  /-- QERR_READ (R13): A read of QERR returns and clears the counts. -/
  | qerrRead (q : Fin 240)
  /-- ARB_STAT_READ (R13): A read of ARB_STAT returns and clears the counts. -/
  | arbStatRead (pl : Fin 5)
  /-- APPLY_CNT_READ (R13): A read of APPLY_CNT returns and clears the counts. -/
  | applyCntRead (pl : Fin 5)
  /-- SEM_CNT_READ (R13): A read of SEM_CNT returns and clears the count. -/
  | semCntRead (pl : Fin 5)
  /-- LOCK_CNT_READ (R13): A read of LOCK_CNT returns and clears the counts. -/
  | lockCntRead (pl : Fin 5)
  /-- NMA_CE_CNT_READ (R13): A read of NMA_CE_CNT returns and clears the counts. -/
  | nmaCeCntRead (st : Fin 16)
  /-- NMA_UE_CNT_READ (R13): A read of NMA_UE_CNT returns and clears the counts. -/
  | nmaUeCntRead (st : Fin 16)
  /-- NMA_EV_READ (R13): A read of NMA_EV returns and clears the counts. -/
  | nmaEvRead (st : Fin 16)
  /-- MOV_OOB_READ (R13): A read of MOV_OOB returns and clears the counts. -/
  | movOobRead (d : Fin 4)
  /-- MOV_EV_READ (R13): A read of MOV_EV returns and clears the counts. -/
  | movEvRead (d : Fin 4)
  /-- RYF_CNT_READ (R13): A read of RYF_CNT returns and clears the counts. -/
  | ryfCntRead
  /-- RYF_PORT_FEC_READ (R13): A read of RYF_PORT_FEC returns and clears the counts. -/
  | ryfPortFecRead (p : Fin 16)
  /-- RYF_PORT_LINKCNT_READ (R13): A read of RYF_PORT_LINKCNT returns and clears the counts. -/
  | ryfPortLinkcntRead (p : Fin 16)
  /-- RED_CNT_READ (R13): A read of RED_CNT returns and clears the counts. -/
  | redCntRead
  /-- RED_NF_READ (R13): A read of RED_NF returns and clears the counts. -/
  | redNfRead
  /-- RED_CHK_READ (R13): A read of RED_CHK returns and clears the counts. -/
  | redChkRead
  /-- TRN_NF_READ (R13): A read of TRN_NF returns and clears the counts. -/
  | trnNfRead
  /-- TRN_CNT_READ (R13): A read of TRN_CNT returns and clears the counts. -/
  | trnCntRead
  /-- PEND_CMP_READ (R13): A read of PEND_CMP returns and clears the counts. -/
  | pendCmpRead
  /-- PEND_CNT_READ (R13): A read of PEND_CNT returns and clears the counts. -/
  | pendCntRead
  /-- HOSTP_TCT_CNT_READ (R13): A read of HOSTP_TCT_CNT returns and clears the counts. -/
  | hostpTctCntRead
  /-- HOSTP_ROCE_CNT_READ (R13): A read of HOSTP_ROCE_CNT returns and clears the counts. -/
  | hostpRoceCntRead
  /-- HOSTP_EVT_CNT_READ (R13): A read of HOSTP_EVT_CNT returns and clears the counts. -/
  | hostpEvtCntRead
  /-- HOSTP_RXDROP_READ (R13): A read of HOSTP_RXDROP returns and clears the counts. -/
  | hostpRxdropRead
  /-- SEC_SIGCNT_READ (R13): A read of SEC_SIGCNT returns and clears the counts. -/
  | secSigcntRead
  /-- RST_CNT_READ (R13): A read of RST_CNT returns and clears the counts. -/
  | rstCntRead
  /-- PWR_CNT_READ (R13): A read of PWR_CNT returns and clears the counts. -/
  | pwrCntRead
  /-- ERR_CNT_READ (R13): A read of ERR_CNT returns and clears the counts. -/
  | errCntRead
  /-- ERR_SRAM_READ (R13): A read of ERR_SRAM returns and clears the counts. -/
  | errSramRead
  /-- PERT_CNT_READ (R13): A read of PERT_CNT returns and clears the counts. -/
  | pertCntRead
  /-- HOST_LINK_DOWN (R382): The host port link goes down; in mirror mode a face hands over and a back enters BROKEN. -/
  | hostLinkDown
  /-- ADMIT_TIMEOUT (R306): A challenged peer gives no admission answer within 5 ms and the port is refused with an ADMIT_FAIL timeout record. -/
  | admitTimeout (p : Fin 16)
  /-- IMAGE_CHECKS_COMPLETE (R413): The boot ROM finishes reading and verifying the image, starting it and extending M1, or records BOOT_RESULT and enters RECOVERY. -/
  | imageChecksComplete (flashErr : Bool)
  /-- UPDATE_VERIFY_COMPLETE (R415): Verification of a staged update image ends; the update moves to programming or ends with FAULT_DESCRIPTOR. -/
  | updateVerifyComplete
  /-- ENGINE_RESET_COMPLETE (R437): An engine reset completes within 100 µs and RST_STAT.RESULT reads done. -/
  | engineResetComplete (e : Fin 74)
  /-- SHADOW_MERGE_COMPLETE (R377): A confirmed merge of staged entries ends and the copy leaves MERGING and becomes VALID at the new epoch. -/
  | shadowMergeComplete
  deriving DecidableEq, Repr

end Sys2Proof
end

