-- ==== Sys2Proof/Decode.lean ====
section
/-!
DEFINITION. The commands of this block are events and accesses, not words: no row of spec/opcode_table.json gives bits.
-/

namespace Sys2Proof

/-- The command that a word spells by the table's bits: none, since no row has bits. -/
def decodeTableWord (_nbits _w : Nat) : Option Instr := none

end Sys2Proof
end

