-- ==== Sys2Proof/Config.lean ====
section
/-!
DEFINITION. The values that the spec leaves to the device or to the outside and never states: uninterpreted constants with
no body, so that nothing can be proved of them.
-/

namespace Sys2Proof

/-- R490: whether a read of a sector (or SRAM word) whose alteration lies beyond the guarantee of its code is detected as
uncorrectable (true) or returns a miscorrected value (false); a function of the alteration pattern. FREE VALUE (log 4). -/
opaque Config.beyondCodeDetected : BitVec 512 → Bool

/-- R490: what such a read returns where it is not detected: a function of the stored bytes and the alteration. FREE VALUE (log 4). -/
opaque Config.beyondCodeData : BitVec 512 → BitVec 512 → BitVec 512

/-- The XMSS or XMSS^MT signature over a digest with one index of the tree (SP 800-208): the bytes. FREE VALUE (log 5):
arguments: the signing key's identity, the index, the message digest. -/
opaque Config.xmssSign : List (BitVec 8) → Nat → List (BitVec 8) → List (BitVec 8)

/-- Whether a signature verifies under a public key over a digest (SP 800-208). FREE VALUE (log 5). -/
opaque Config.xmssVerify : List (BitVec 8) → List (BitVec 8) → List (BitVec 8) → Bool

/-- The module's identity public key (its root), by serial: burned into the device, stated nowhere. FREE VALUE (log 5). -/
opaque Config.identityKey : BitVec 64 → List (BitVec 8)

/-- The vendor public key and signature of the identity endorsement (R410), by serial: written at manufacture, stated nowhere.
FREE VALUE (log 5). -/
opaque Config.endorseKey : BitVec 64 → List (BitVec 8)
opaque Config.endorseSig : BitVec 64 → List (BitVec 8)

/-- The 8-byte boot ROM version that M0 measures (R421). FREE VALUE (log 5). -/
opaque Config.bootRom : BitVec 64

/-- A free value drawn from the state's counter of free draws: for a result the spec leaves open (log 6). -/
opaque Config.freeValue : Nat → BitVec 64

end Sys2Proof
end

