-- ==== Sys2Proof/Machine/Crypto.lean ====
section
/-!
DEFINITION. SHAKE128, SHAKE256 (FIPS 202) and KMAC256 (SP 800-185) over lists of bytes, which the spec names for random
streams, digests and message tags. PRESUMED from those standards (log 7).
-/

namespace Sys2Proof.Machine

/-- Rotation offsets of the lanes, lane (x, y) at 5y + x. -/
def keccakRot : List Nat :=
  [0, 1, 62, 28, 27, 36, 44, 6, 55, 20, 3, 10, 43, 25, 39, 41, 45, 15, 21, 8, 18, 2, 61, 56, 14]

/-- Round constants. -/
def keccakRC : List (BitVec 64) :=
  [0x0000000000000001, 0x0000000000008082, 0x800000000000808A, 0x8000000080008000,
   0x000000000000808B, 0x0000000080000001, 0x8000000080008081, 0x8000000000008009,
   0x000000000000008A, 0x0000000000000088, 0x0000000080008009, 0x000000008000000A,
   0x000000008000808B, 0x800000000000008B, 0x8000000000008089, 0x8000000000008003,
   0x8000000000008002, 0x8000000000000080, 0x000000000000800A, 0x800000008000000A,
   0x8000000080008081, 0x8000000000008080, 0x0000000080000001, 0x8000000080008008]

/-- One round on 25 lanes. -/
def keccakRound (a : List (BitVec 64)) (rc : BitVec 64) : List (BitVec 64) :=
  let g := fun (l : List (BitVec 64)) (i : Nat) => l.getD i 0
  let c := (List.range 5).map (fun x => g a x ^^^ g a (x + 5) ^^^ g a (x + 10) ^^^ g a (x + 15) ^^^ g a (x + 20))
  let d := (List.range 5).map (fun x => g c ((x + 4) % 5) ^^^ (g c ((x + 1) % 5)).rotateLeft 1)
  let t := (List.range 25).map (fun i => (g a i ^^^ g d (i % 5)).rotateLeft (keccakRot.getD i 0))
  -- pi: the lane at (X, Y) comes from (x, y) with X = y and Y = 2x + 3y; so x = X + 3Y, y = X
  let b := (List.range 25).map (fun i => let x := i % 5; let y := i / 5; g t (5 * x + (x + 3 * y) % 5))
  let e := (List.range 25).map (fun i =>
    let x := i % 5; let y := 5 * (i / 5)
    g b (y + x) ^^^ ((~~~ (g b (y + (x + 1) % 5))) &&& g b (y + (x + 2) % 5)))
  match e with
  | [] => []
  | l :: r => (l ^^^ rc) :: r

/-- Keccak-f[1600]. -/
def keccakF (a : List (BitVec 64)) : List (BitVec 64) := keccakRC.foldl keccakRound a

/-- A little-endian lane of eight bytes. -/
def laneOfBytes (l : List (BitVec 8)) : BitVec 64 :=
  BitVec.ofNat 64 (l.foldr (fun b n => b.toNat + 256 * n) 0)

/-- The eight bytes of a lane, low byte first. -/
def laneBytes (w : BitVec 64) : List (BitVec 8) :=
  (List.range 8).map (fun i => BitVec.ofNat 8 (w.toNat >>> (8 * i)))

/-- Absorb `n` blocks of `rate` bytes. -/
def absorb (rate : Nat) : Nat → List (BitVec 8) → List (BitVec 64) → List (BitVec 64)
  | 0, _, a => a
  | n + 1, m, a =>
    let lanes := (List.range 25).map (fun i =>
      if 8 * i < rate then a.getD i 0 ^^^ laneOfBytes ((m.drop (8 * i)).take 8) else a.getD i 0)
    absorb rate n (m.drop rate) (keccakF lanes)

/-- Squeeze `n` blocks. -/
def squeeze (rate : Nat) : Nat → List (BitVec 64) → List (BitVec 8)
  | 0, _ => []
  | n + 1, a => ((a.flatMap laneBytes).take rate) ++ squeeze rate n (keccakF a)

/-- The sponge with domain byte `dom` (0x1F SHAKE, 0x04 cSHAKE): `len` output bytes. -/
def sponge (rate : Nat) (dom : BitVec 8) (m : List (BitVec 8)) (len : Nat) : List (BitVec 8) :=
  let pad := rate - (m.length % rate)
  let tail : List (BitVec 8) :=
    if pad = 1 then [dom ||| 0x80]
    else dom :: (List.replicate (pad - 2) 0) ++ [0x80]
  let m' := m ++ tail
  let st := absorb rate (m'.length / rate) m' (List.replicate 25 0)
  (squeeze rate ((len + rate - 1) / rate) st).take len

/-- SHAKE128 (FIPS 202). -/
def shake128 (m : List (BitVec 8)) (len : Nat) : List (BitVec 8) := sponge 168 0x1F m len

/-- SHAKE256 (FIPS 202). -/
def shake256 (m : List (BitVec 8)) (len : Nat) : List (BitVec 8) := sponge 136 0x1F m len

/-- The big-endian bytes of a number below 2^64, at least one. -/
def beBytes (n : Nat) : List (BitVec 8) :=
  let l := ((List.range 8).reverse.map (fun i => BitVec.ofNat 8 (n >>> (8 * i)))).dropWhile (· == 0)
  if l.isEmpty then [0] else l

/-- left_encode of SP 800-185. -/
def leftEncode (n : Nat) : List (BitVec 8) := let b := beBytes n; BitVec.ofNat 8 b.length :: b

/-- right_encode of SP 800-185. -/
def rightEncode (n : Nat) : List (BitVec 8) := let b := beBytes n; b ++ [BitVec.ofNat 8 b.length]

/-- encode_string of SP 800-185. -/
def encodeString (s : List (BitVec 8)) : List (BitVec 8) := leftEncode (8 * s.length) ++ s

/-- bytepad of SP 800-185. -/
def bytepad (x : List (BitVec 8)) (w : Nat) : List (BitVec 8) :=
  let z := leftEncode w ++ x
  z ++ List.replicate ((w - z.length % w) % w) 0

/-- The bytes of "KMAC". -/
def kmacName : List (BitVec 8) := [0x4B, 0x4D, 0x41, 0x43]

/-- KMAC256(K, X, L, S) with `len` output bytes (SP 800-185). -/
def kmac256 (key msg : List (BitVec 8)) (len : Nat) (custom : List (BitVec 8)) : List (BitVec 8) :=
  let x := bytepad (encodeString key) 136 ++ msg ++ rightEncode (8 * len)
  sponge 136 0x04 (bytepad (encodeString kmacName ++ encodeString custom) 136 ++ x) len

end Sys2Proof.Machine
end

