-- ==== Sys2Proof/Machine/RegMap.lean ====
section
/-!
DEFINITION. The register maps of the spec's register tables: where each register stands (R30 and the maps of the owning
chapters), its fields, which bits each access code of the field tables covers, its Cold value (R11) and which bits a warm
reset does not return to Cold (R12). A register is named by its local address.
-/

namespace Sys2Proof.Machine

/-- A field of a register: its lowest bit and its width (R4). -/
structure Field where
  lo : Nat
  width : Nat
  deriving DecidableEq, Repr

/-- One row of a register map: the bits of each access code, the bits whose Warm column is not "same", the Cold value. -/
structure RegRow where
  rw : BitVec 64
  st : BitVec 64
  w1c : BitVec 64
  w1s : BitVec 64
  rc : BitVec 64
  wo : BitVec 64
  keep : BitVec 64
  cold : BitVec 64
  deriving DecidableEq, Repr

/-- A run of registers of one row of a map: `count` words from `base`, `stride` bytes apart (offsets in their block). -/
structure RegPat where
  base : Nat
  stride : Nat
  count : Nat
  row : RegRow
  deriving DecidableEq, Repr

/-- The register blocks of R30. `ryf` carries its page. -/
inductive Block where
  | hubId | sec | beat | pwr | hostp | ryf (page : Fin 4) | pend | red | err | pert | lock | cpq | trn
  | canv (d : Fin 4) | pal (d : Fin 4) | slv (d : Fin 4) | mov (d : Fin 4) | cpd (d : Fin 4) | dpwr (d : Fin 4)
  | dlock (d : Fin 4) | ddbg (d : Fin 4) | rand (d : Fin 4) | nma (s : Fin 16)
  deriving DecidableEq, Repr

/-- Base of the register window (R24). -/
def regWindow : Nat := 0x200000000000

/-- Base of the block at die offset `off` of die d (R30). -/
def dieBlk (d off : Nat) : Nat := 0x200001000000 + d * 0x100000 + off

/-- Base of the CPD or CPQ block that holds module queue q (R21; CPD of die d holds 48d to 48d + 47, CPQ 192 to 239). -/
def cpBase (q : Nat) : Nat := if q < 192 then dieBlk (q / 48) 0x40000 else 0x2000000E0000

/-- Base of the LOCK block (place 0) or of DLOCK of die d (place d + 1). -/
def lockBase (pl : Nat) : Nat := if pl = 0 then 0x2000000D0000 else dieBlk (pl - 1) 0x60000

/-- Base of the NMA block of stack s (R30). -/
def nmaBase (s : Nat) : Nat := 0x200002000000 + s * 0x10000

-- The address of each register, by its name in the maps.
namespace R
def ID_PART : Nat := 0x200000000000 + 0x000
def ID_SERIAL : Nat := 0x200000000000 + 0x008
def ID_STRAPS : Nat := 0x200000000000 + 0x010
def ID_ADDR : Nat := 0x200000000000 + 0x018
def ID_INCARN : Nat := 0x200000000000 + 0x020
def ID_UNITS : Nat := 0x200000000000 + 0x028
def ID_STATE : Nat := 0x200000000000 + 0x030
def ID_FW : Nat := 0x200000000000 + 0x038
def ID_SCRATCH : Nat := 0x200000000000 + 0x040
def BEAT_CFG : Nat := 0x200000020000 + 0x000
def BEAT_CTL : Nat := 0x200000020000 + 0x008
def BEAT_STAT : Nat := 0x200000020000 + 0x010
def BEAT_POS : Nat := 0x200000020000 + 0x018
def BEAT_POS_UPTIME : Nat := 0x200000020000 + 0x020
def BEAT_PERIOD : Nat := 0x200000020000 + 0x028
def BEAT_NEXT_NUM : Nat := 0x200000020000 + 0x030
def BEAT_GEN_PERIOD : Nat := 0x200000020000 + 0x038
def BEAT_MASTER_SERIAL : Nat := 0x200000020000 + 0x040
def BEAT_EVCNT : Nat := 0x200000020000 + 0x048
def BEAT_LAST_ERR : Nat := 0x200000020000 + 0x050
def BEAT_HOST_TAG : Nat := 0x200000020000 + 0x058
def UPTIME : Nat := 0x200000020000 + 0x060
def LIFETIME : Nat := 0x200000020000 + 0x068
def PAL_CFG (d : Nat) : Nat := dieBlk d 0x10000 + 0x0000
def PAL_AUTO (d : Nat) : Nat := dieBlk d 0x10000 + 0x0008
def PAL_STALE (d : Nat) : Nat := dieBlk d 0x10000 + 0x0010
def PAL_SKCNT (d : Nat) : Nat := dieBlk d 0x10000 + 0x0018
def PAL_SCALE (d : Nat) (p : Nat) (w : Nat) : Nat := dieBlk d 0x10000 + 0x1000+0x100*p+8*w
def PAL_CNT (d : Nat) (p : Nat) (w : Nat) : Nat := dieBlk d 0x10000 + 0x4000+0x400*p+8*w
def RAND_STAT (d : Nat) : Nat := dieBlk d 0x80000 + 0x0000
def RAND_KEY_LO (d : Nat) (n : Nat) : Nat := dieBlk d 0x80000 + 0x0100+0x20*n
def RAND_KEY_HI (d : Nat) (n : Nat) : Nat := dieBlk d 0x80000 + 0x0108+0x20*n
def RAND_STREAM (d : Nat) (n : Nat) : Nat := dieBlk d 0x80000 + 0x0110+0x20*n
def RAND_BIND (d : Nat) (n : Nat) : Nat := dieBlk d 0x80000 + 0x0118+0x20*n
def CANV_STAT (d : Nat) : Nat := dieBlk d 0x0 + 0x000
def CANV_RETIRED (d : Nat) : Nat := dieBlk d 0x0 + 0x008
def CANV_MAP (d : Nat) : Nat := dieBlk d 0x0 + 0x010
def CANV_MODE (d : Nat) : Nat := dieBlk d 0x0 + 0x018
def CANV_GATE_POST (d : Nat) : Nat := dieBlk d 0x0 + 0x020
def CANV_GATE_STAT (d : Nat) : Nat := dieBlk d 0x0 + 0x028
def CANV_GATE_CFG (d : Nat) : Nat := dieBlk d 0x0 + 0x030
def CANV_GATE_DUP (d : Nat) : Nat := dieBlk d 0x0 + 0x038
def CANV_HEALTH (d : Nat) : Nat := dieBlk d 0x0 + 0x040
def CANV_FRZ (d : Nat) (c : Nat) : Nat := dieBlk d 0x0 + 0x100+8*c
def CANV_DRCNT (d : Nat) (c : Nat) : Nat := dieBlk d 0x0 + 0x180+8*c
def CANV_ROWS (d : Nat) (c : Nat) : Nat := dieBlk d 0x0 + 0x200+8*c
def CANV_GATE_MASK (d : Nat) (g : Nat) (w : Nat) : Nat := dieBlk d 0x0 + 0x400+0x20*g+8*w
def DDBG_SEL (d : Nat) : Nat := dieBlk d 0x70000 + 0x000
def DDBG_ACC_V (d : Nat) : Nat := dieBlk d 0x70000 + 0x008
def DDBG_ACC_X (d : Nat) : Nat := dieBlk d 0x70000 + 0x010
def DDBG_STN (d : Nat) : Nat := dieBlk d 0x70000 + 0x018
def SLV_CFG (d : Nat) : Nat := dieBlk d 0x20000 + 0x000
def SLV_STAT (d : Nat) : Nat := dieBlk d 0x20000 + 0x008
def SLV_LEND (d : Nat) : Nat := dieBlk d 0x20000 + 0x010
def SLV_FAULT (d : Nat) : Nat := dieBlk d 0x20000 + 0x018
def SLV_BEV (d : Nat) (b : Nat) : Nat := dieBlk d 0x20000 + 0x100+8*b
def SLV_BSTALL (d : Nat) (b : Nat) : Nat := dieBlk d 0x20000 + 0x200+8*b
def SLV_BBUSY (d : Nat) (b : Nat) : Nat := dieBlk d 0x20000 + 0x300+8*b
def SLV_BSKIP (d : Nat) (b : Nat) : Nat := dieBlk d 0x20000 + 0x400+8*b
def STAT (q : Nat) : Nat := cpBase q + 0x000
def FAULTED (q : Nat) : Nat := cpBase q + 0x008
def QCFG (q : Nat) : Nat := cpBase q + 0x1000+0x80*(q%48)
def QBASE (q : Nat) : Nat := cpBase q + 0x1008+0x80*(q%48)
def QTAIL (q : Nat) : Nat := cpBase q + 0x1010+0x80*(q%48)
def QHEAD (q : Nat) : Nat := cpBase q + 0x1018+0x80*(q%48)
def QCTL (q : Nat) : Nat := cpBase q + 0x1020+0x80*(q%48)
def QSTAT (q : Nat) : Nat := cpBase q + 0x1028+0x80*(q%48)
def QPC (q : Nat) : Nat := cpBase q + 0x1030+0x80*(q%48)
def CBASE (q : Nat) : Nat := cpBase q + 0x1038+0x80*(q%48)
def CHEAD (q : Nat) : Nat := cpBase q + 0x1040+0x80*(q%48)
def CTAIL (q : Nat) : Nat := cpBase q + 0x1048+0x80*(q%48)
def QEPOCH (q : Nat) : Nat := cpBase q + 0x1050+0x80*(q%48)
def QSEQ (q : Nat) : Nat := cpBase q + 0x1058+0x80*(q%48)
def QERR (q : Nat) : Nat := cpBase q + 0x1060+0x80*(q%48)
def QINCARN (q : Nat) : Nat := cpBase q + 0x1068+0x80*(q%48)
def QPRED (q : Nat) : Nat := cpBase q + 0x4000+0x100*(q%48)
def QSREG (q : Nat) (i : Nat) : Nat := cpBase q + 0x4000+0x100*(q%48)+8*i
def ARB_WINDOW (pl : Nat) : Nat := lockBase pl + 0x000
def ARB_HOLD (pl : Nat) : Nat := lockBase pl + 0x008
def ARB_CLASS (pl : Nat) : Nat := lockBase pl + 0x010
def ARB_STAT (pl : Nat) : Nat := lockBase pl + 0x018
def ARB_CUT (pl : Nat) : Nat := lockBase pl + 0x020
def APPLY (pl : Nat) : Nat := lockBase pl + 0x028
def APPLY_STAT (pl : Nat) : Nat := lockBase pl + 0x030
def APPLY_CNT (pl : Nat) : Nat := lockBase pl + 0x038
def ARB_QUOTA (pl : Nat) (r : Nat) : Nat := lockBase pl + 0x040+8*r
def SEM_CNT (pl : Nat) : Nat := lockBase pl + 0x080
def LOCK_CNT (pl : Nat) : Nat := lockBase pl + 0x088
def LOCK_OWN (pl : Nat) (i : Nat) : Nat := lockBase pl + 0x1000+0x10*i
def LOCK_INC (pl : Nat) (i : Nat) : Nat := lockBase pl + 0x1008+0x10*i
def SEM (pl : Nat) (w : Nat) : Nat := lockBase pl + 0x8000+8*w
def NMA_STAT (s : Nat) : Nat := nmaBase s + 0x000
def NMA_CFG (s : Nat) : Nat := nmaBase s + 0x008
def NMA_PC_FAIL (s : Nat) : Nat := nmaBase s + 0x010
def NMA_CE_CNT (s : Nat) : Nat := nmaBase s + 0x018
def NMA_UE_CNT (s : Nat) : Nat := nmaBase s + 0x020
def NMA_UE_ADDR (s : Nat) : Nat := nmaBase s + 0x028
def NMA_UPD (s : Nat) : Nat := nmaBase s + 0x030
def NMA_MERGE (s : Nat) : Nat := nmaBase s + 0x038
def NMA_EV (s : Nat) : Nat := nmaBase s + 0x040
def NMA_SCRUB (s : Nat) : Nat := nmaBase s + 0x048
def MOV_STAT (d : Nat) : Nat := dieBlk d 0x30000 + 0x000
def MOV_CFG (d : Nat) : Nat := dieBlk d 0x30000 + 0x008
def MOV_FAULT (d : Nat) : Nat := dieBlk d 0x30000 + 0x010
def MOV_OOB (d : Nat) : Nat := dieBlk d 0x30000 + 0x018
def MOV_EV (d : Nat) : Nat := dieBlk d 0x30000 + 0x020
def MOV_RCACHE (d : Nat) : Nat := dieBlk d 0x30000 + 0x028
def MOV_RD_BYTES (d : Nat) : Nat := dieBlk d 0x30000 + 0x030
def MOV_WR_BYTES (d : Nat) : Nat := dieBlk d 0x30000 + 0x038
def RYF_CFG : Nat := 0x200000050000 + 0x000
def RYF_STAT : Nat := 0x200000050000 + 0x008
def RYF_COORD : Nat := 0x200000050000 + 0x010
def RYF_DEPUTY : Nat := 0x200000050000 + 0x018
def RYF_MEMBERS : Nat := 0x200000050000 + 0x020
def RYF_MQ_ADDR : Nat := 0x200000050000 + 0x028
def RYF_MQ_SERIAL : Nat := 0x200000050000 + 0x030
def RYF_MQ_INFO : Nat := 0x200000050000 + 0x038
def RYF_MQ_INCARN : Nat := 0x200000050000 + 0x040
def RYF_CNT : Nat := 0x200000050000 + 0x048
def RYF_PORT_CFG (p : Nat) : Nat := 0x200000060000 + 0x100*p+0x00
def RYF_PORT_STAT (p : Nat) : Nat := 0x200000060000 + 0x100*p+0x08
def RYF_PORT_PEER (p : Nat) : Nat := 0x200000060000 + 0x100*p+0x10
def RYF_PORT_PEER_SERIAL (p : Nat) : Nat := 0x200000060000 + 0x100*p+0x18
def RYF_PORT_PEER_KEY (p : Nat) (i : Nat) : Nat := 0x200000060000 + 0x100*p+0x20+8*i
def RYF_PORT_LAT (p : Nat) : Nat := 0x200000060000 + 0x100*p+0x40
def RYF_PORT_FEC (p : Nat) : Nat := 0x200000060000 + 0x100*p+0x48
def RYF_PORT_LINKCNT (p : Nat) : Nat := 0x200000060000 + 0x100*p+0x50
def RYF_ROUTE (a : Nat) : Nat := 0x200000070000 + 8 * a
def RED_CFG : Nat := 0x2000000a0000 + 0x000
def RED_CHKBUF : Nat := 0x2000000a0000 + 0x008
def RED_SUBBUF : Nat := 0x2000000a0000 + 0x010
def RED_STAT : Nat := 0x2000000a0000 + 0x018
def RED_CNT : Nat := 0x2000000a0000 + 0x020
def RED_NF : Nat := 0x2000000a0000 + 0x028
def RED_CHK : Nat := 0x2000000a0000 + 0x030
def RED_VETO_SET : Nat := 0x2000000a0000 + 0x038
def RED_GVETO : Nat := 0x2000000a0000 + 0x040
def RED_LAST : Nat := 0x2000000a0000 + 0x048
def RED_GADDR (v : Nat) : Nat := 0x2000000a0000 + 0x100+16*v
def RED_GCTL (v : Nat) : Nat := 0x2000000a0000 + 0x108+16*v
def RED_LVETO (j : Nat) : Nat := 0x2000000a0000 + 0x200+8*j
def TRN_CFG : Nat := 0x2000000f0000 + 0x000
def TRN_STAT : Nat := 0x2000000f0000 + 0x008
def TRN_SETTLED : Nat := 0x2000000f0000 + 0x010
def TRN_HIST : Nat := 0x2000000f0000 + 0x018
def TRN_NF : Nat := 0x2000000f0000 + 0x020
def TRN_CNT : Nat := 0x2000000f0000 + 0x028
def TRN_LOSS : Nat := 0x2000000f0000 + 0x030
def TRN_LW_CFG : Nat := 0x2000000f0000 + 0x038
def TRN_LW_STATE : Nat := 0x2000000f0000 + 0x040
def TRN_LW_STAT : Nat := 0x2000000f0000 + 0x048
def TRN_SETTLE_LOCAL : Nat := 0x2000000f0000 + 0x050
def TRN_EVAL_CFG : Nat := 0x2000000f0000 + 0x058
def TRN_EVAL_WIN (w : Nat) : Nat := 0x2000000f0000 + 0x060+8*w
def TRN_EVAL_STAT : Nat := 0x2000000f0000 + 0x080
def TRN_SNAP_ADDR : Nat := 0x2000000f0000 + 0x088
def TRN_SNAP_CTL : Nat := 0x2000000f0000 + 0x090
def TRN_SNAP_STAT : Nat := 0x2000000f0000 + 0x098
def TRN_CKPT : Nat := 0x2000000f0000 + 0x0A0
def PEND_CFG : Nat := 0x200000090000 + 0x000
def PEND_CTL : Nat := 0x200000090000 + 0x008
def PEND_STAT : Nat := 0x200000090000 + 0x010
def PEND_PEER_SERIAL : Nat := 0x200000090000 + 0x018
def PEND_PEER_INCARN : Nat := 0x200000090000 + 0x020
def PEND_ING : Nat := 0x200000090000 + 0x028
def PEND_CMP : Nat := 0x200000090000 + 0x030
def PEND_WIN : Nat := 0x200000090000 + 0x038
def PEND_RESV : Nat := 0x200000090000 + 0x040
def PEND_DAREA : Nat := 0x200000090000 + 0x048
def PEND_COPY : Nat := 0x200000090000 + 0x050
def PEND_RESTORE_EPOCH : Nat := 0x200000090000 + 0x058
def PEND_SYNC : Nat := 0x200000090000 + 0x060
def PEND_CNT : Nat := 0x200000090000 + 0x068
def HOSTP_CFG : Nat := 0x200000040000 + 0x000
def HOSTP_STAT : Nat := 0x200000040000 + 0x008
def HOSTP_MAC : Nat := 0x200000040000 + 0x010
def HOSTP_IP6_HI : Nat := 0x200000040000 + 0x018
def HOSTP_IP6_LO : Nat := 0x200000040000 + 0x020
def HOSTP_IP4 : Nat := 0x200000040000 + 0x028
def HOSTP_QPC : Nat := 0x200000040000 + 0x030
def HOSTP_QPCTL : Nat := 0x200000040000 + 0x038
def HOSTP_MR : Nat := 0x200000040000 + 0x040
def HOSTP_EVT : Nat := 0x200000040000 + 0x048
def HOSTP_ALERT : Nat := 0x200000040000 + 0x050
def HOSTP_KEYSTAT : Nat := 0x200000040000 + 0x058
def HOSTP_SB : Nat := 0x200000040000 + 0x060
def HOSTP_TCT_CNT : Nat := 0x200000040000 + 0x068
def HOSTP_ROCE_CNT : Nat := 0x200000040000 + 0x070
def HOSTP_EVT_CNT : Nat := 0x200000040000 + 0x078
def HOSTP_RXDROP : Nat := 0x200000040000 + 0x080
def SEC_STAT : Nat := 0x200000010000 + 0x000
def SEC_CFG : Nat := 0x200000010000 + 0x008
def SEC_CTL : Nat := 0x200000010000 + 0x010
def SEC_DEBUG : Nat := 0x200000010000 + 0x018
def SEC_IDX : Nat := 0x200000010000 + 0x020
def SEC_IDX_LIMIT : Nat := 0x200000010000 + 0x028
def SEC_UPD_ADDR : Nat := 0x200000010000 + 0x030
def SEC_UPD_STAT : Nat := 0x200000010000 + 0x038
def SEC_SIGCNT : Nat := 0x200000010000 + 0x040
def SEC_MEAS (i : Nat) (w : Nat) : Nat := 0x200000010000 + 0x100+0x20*i+8*w
def SEC_OTP_DIGEST (w : Nat) : Nat := 0x200000010000 + 0x200+8*w
def RST_CTL : Nat := 0x200000000000 + 0x100
def RST_STAT : Nat := 0x200000000000 + 0x108
def RST_CFG : Nat := 0x200000000000 + 0x110
def RST_CNT : Nat := 0x200000000000 + 0x118
def PWR_STAT : Nat := 0x200000030000 + 0x000
def PWR_CFG : Nat := 0x200000030000 + 0x008
def PWR_DOM_REQ : Nat := 0x200000030000 + 0x010
def PWR_DOM_STAT : Nat := 0x200000030000 + 0x018
def PWR_LIM : Nat := 0x200000030000 + 0x020
def PWR_THERM : Nat := 0x200000030000 + 0x028
def PWR_METER : Nat := 0x200000030000 + 0x030
def PWR_CNT : Nat := 0x200000030000 + 0x038
def PWR_DOM_CLOSING : Nat := 0x200000030000 + 0x040
def DPWR_CLK (d : Nat) : Nat := dieBlk d 0x50000 + 0x000
def DPWR_STAT (d : Nat) : Nat := dieBlk d 0x50000 + 0x008
def ERR_WSEQ : Nat := 0x2000000b0000 + 0x000
def ERR_RSEQ : Nat := 0x2000000b0000 + 0x008
def ERR_CFG : Nat := 0x2000000b0000 + 0x010
def ERR_CTL : Nat := 0x2000000b0000 + 0x018
def ERR_STAT : Nat := 0x2000000b0000 + 0x020
def ERR_CNT : Nat := 0x2000000b0000 + 0x028
def ERR_SRAM : Nat := 0x2000000b0000 + 0x030
def ERR_FATAL (w : Nat) : Nat := 0x2000000b0000 + 0x100+8*w
def ERR_RING (n : Nat) (w : Nat) : Nat := 0x2000000b0000 + 0x8000+0x40*n+8*w
def PERT_CTL : Nat := 0x2000000c0000 + 0x000
def PERT_SEED : Nat := 0x2000000c0000 + 0x008
def PERT_BEAT : Nat := 0x2000000c0000 + 0x010
def PERT_CREDIT : Nat := 0x2000000c0000 + 0x018
def PERT_CONTRIB : Nat := 0x2000000c0000 + 0x020
def PERT_GRANT : Nat := 0x2000000c0000 + 0x028
def PERT_MEM : Nat := 0x2000000c0000 + 0x030
def PERT_FREEZE : Nat := 0x2000000c0000 + 0x038
def PERT_ECC_ADDR : Nat := 0x2000000c0000 + 0x040
def PERT_ECC_MASK : Nat := 0x2000000c0000 + 0x048
def PERT_ECC_CTL : Nat := 0x2000000c0000 + 0x050
def PERT_CNT : Nat := 0x2000000c0000 + 0x058
end R

-- The fields of each register, by the names of the field tables.
namespace F
def ID_PART_VENDOR : Field := ⟨48, 16⟩
def ID_PART_PART : Field := ⟨32, 16⟩
def ID_PART_VARIANT : Field := ⟨24, 8⟩
def ID_PART_STEPPING : Field := ⟨16, 8⟩
def ID_STRAPS_LID : Field := ⟨14, 3⟩
def ID_STRAPS_STRAP_VALID : Field := ⟨13, 1⟩
def ID_STRAPS_SLOT : Field := ⟨10, 3⟩
def ID_STRAPS_NODE : Field := ⟨0, 10⟩
def ID_ADDR_SOURCE : Field := ⟨16, 2⟩
def ID_ADDR_MODULE_ADDR : Field := ⟨0, 16⟩
def ID_INCARN_INCARNATION : Field := ⟨0, 64⟩
def ID_UNITS_STACK_IN_SERVICE : Field := ⟨20, 16⟩
def ID_UNITS_DIE_IN_SERVICE : Field := ⟨4, 4⟩
def ID_UNITS_DIE_PRESENT : Field := ⟨0, 4⟩
def ID_STATE_STATE : Field := ⟨0, 4⟩
def ID_FW_MAJOR : Field := ⟨32, 16⟩
def ID_FW_MINOR : Field := ⟨16, 16⟩
def ID_FW_PATCH : Field := ⟨0, 16⟩
def ID_SCRATCH_SCRATCH : Field := ⟨0, 64⟩
def BEAT_CFG_TOL : Field := ⟨32, 8⟩
def BEAT_CFG_GAIN : Field := ⟨24, 3⟩
def BEAT_CFG_TAKEOVER : Field := ⟨16, 6⟩
def BEAT_CFG_MASTER_RANK : Field := ⟨8, 8⟩
def BEAT_CFG_MASTER_ELIG : Field := ⟨4, 1⟩
def BEAT_CFG_TOKEN_OUT : Field := ⟨3, 1⟩
def BEAT_CFG_SOURCE : Field := ⟨0, 3⟩
def BEAT_CTL_RELEASE_HELD : Field := ⟨3, 1⟩
def BEAT_CTL_RESYNC : Field := ⟨2, 1⟩
def BEAT_CTL_APPLY_AT_BEAT : Field := ⟨1, 1⟩
def BEAT_CTL_APPLY : Field := ⟨0, 1⟩
def BEAT_STAT_MASTER_RANK_SEEN : Field := ⟨16, 8⟩
def BEAT_STAT_TIMELINE : Field := ⟨8, 8⟩
def BEAT_STAT_TAKEN_OVER : Field := ⟨4, 1⟩
def BEAT_STAT_STATE : Field := ⟨0, 4⟩
def BEAT_POS_POS : Field := ⟨0, 64⟩
def BEAT_POS_UPTIME_UPTIME_AT_POS : Field := ⟨0, 64⟩
def BEAT_PERIOD_P_INT : Field := ⟨16, 32⟩
def BEAT_PERIOD_P_FRAC : Field := ⟨0, 16⟩
def BEAT_NEXT_NUM_NUM : Field := ⟨0, 48⟩
def BEAT_GEN_PERIOD_PERIOD_RC : Field := ⟨0, 20⟩
def BEAT_MASTER_SERIAL_SERIAL : Field := ⟨0, 64⟩
def BEAT_EVCNT_LATE : Field := ⟨48, 16⟩
def BEAT_EVCNT_COASTED : Field := ⟨32, 16⟩
def BEAT_EVCNT_SPURIOUS : Field := ⟨20, 12⟩
def BEAT_EVCNT_BAD_PERIOD : Field := ⟨8, 12⟩
def BEAT_EVCNT_NUM_SLIP : Field := ⟨0, 8⟩
def BEAT_LAST_ERR_PHASE_ERR : Field := ⟨0, 16⟩
def BEAT_HOST_TAG_TAG : Field := ⟨0, 64⟩
def UPTIME_UPTIME : Field := ⟨0, 64⟩
def LIFETIME_POWERON_ID : Field := ⟨32, 32⟩
def LIFETIME_MINUTES : Field := ⟨0, 32⟩
def PAL_CFG_TGT16 : Field := ⟨16, 8⟩
def PAL_CFG_TGT8 : Field := ⟨8, 8⟩
def PAL_CFG_TGT4 : Field := ⟨4, 4⟩
def PAL_AUTO_THRESH : Field := ⟨0, 32⟩
def PAL_STALE_STALE : Field := ⟨0, 48⟩
def PAL_SKCNT_SKETCHES : Field := ⟨16, 16⟩
def PAL_SKCNT_CLAMPED : Field := ⟨8, 8⟩
def PAL_SKCNT_EMPTY : Field := ⟨0, 8⟩
def PAL_SCALE_SCALE (i : Nat) : Field := ⟨0 + 8 * i, 8⟩
def PAL_CNT_ZERO_HI : Field := ⟨54, 10⟩
def PAL_CNT_TAIL_HI : Field := ⟨44, 10⟩
def PAL_CNT_SAT_HI : Field := ⟨32, 12⟩
def PAL_CNT_ZERO_LO : Field := ⟨22, 10⟩
def PAL_CNT_TAIL_LO : Field := ⟨12, 10⟩
def PAL_CNT_SAT_LO : Field := ⟨0, 12⟩
def RAND_STAT_ALIAS_CNT : Field := ⟨8, 8⟩
def RAND_STAT_ALIAS_ANY : Field := ⟨7, 1⟩
def RAND_STREAM_STREAM_ID : Field := ⟨0, 64⟩
def RAND_BIND_ALIAS : Field := ⟨10, 1⟩
def RAND_BIND_SHARED : Field := ⟨9, 1⟩
def RAND_BIND_VALID : Field := ⟨8, 1⟩
def RAND_BIND_CONSUMER : Field := ⟨0, 8⟩
def CANV_STAT_LOST : Field := ⟨32, 16⟩
def CANV_STAT_SHARED : Field := ⟨16, 16⟩
def CANV_STAT_BUSY : Field := ⟨0, 16⟩
def CANV_RETIRED_RETIRED : Field := ⟨0, 16⟩
def CANV_MAP_PHYS (i : Nat) : Field := ⟨0 + 4 * i, 4⟩
def CANV_MODE_WIDTH (i : Nat) : Field := ⟨2 + 4 * i, 1⟩
def CANV_MODE_PACKING (i : Nat) : Field := ⟨0 + 4 * i, 2⟩
def CANV_GATE_POST_GATE : Field := ⟨40, 2⟩
def CANV_GATE_POST_SLOT : Field := ⟨32, 8⟩
def CANV_GATE_POST_TAG : Field := ⟨0, 32⟩
def CANV_GATE_STAT_COUNT (i : Nat) : Field := ⟨0 + 16 * i, 9⟩
def CANV_GATE_CFG_FOLLOW (i : Nat) : Field := ⟨0 + 1 * i, 1⟩
def CANV_GATE_DUP_DUP (i : Nat) : Field := ⟨0 + 16 * i, 16⟩
def CANV_GATE_MASK_MASK : Field := ⟨0, 64⟩
def CANV_HEALTH_CORRECTED : Field := ⟨48, 16⟩
def CANV_HEALTH_PARITY : Field := ⟨32, 16⟩
def CANV_HEALTH_RESIDUE : Field := ⟨16, 16⟩
def CANV_HEALTH_REPLAYS : Field := ⟨8, 8⟩
def CANV_HEALTH_REPLAY_FAIL : Field := ⟨0, 8⟩
def CANV_FRZ_FEED : Field := ⟨48, 16⟩
def CANV_FRZ_DRAIN : Field := ⟨32, 16⟩
def CANV_FRZ_LIMIT : Field := ⟨16, 16⟩
def CANV_FRZ_OTHER : Field := ⟨0, 16⟩
def CANV_DRCNT_NONFINITE : Field := ⟨40, 24⟩
def CANV_DRCNT_ACC_SAT : Field := ⟨28, 12⟩
def CANV_DRCNT_OVERFLOW : Field := ⟨16, 12⟩
def CANV_DRCNT_UNDERFLOW : Field := ⟨4, 12⟩
def CANV_DRCNT_INVALID : Field := ⟨0, 4⟩
def CANV_ROWS_ROWS : Field := ⟨0, 64⟩
def DDBG_SEL_UNLOCKED : Field := ⟨63, 1⟩
def DDBG_SEL_ENTRY : Field := ⟨36, 12⟩
def DDBG_SEL_ROW : Field := ⟨28, 8⟩
def DDBG_SEL_COL : Field := ⟨20, 8⟩
def DDBG_SEL_KIND : Field := ⟨16, 2⟩
def DDBG_SEL_PROB : Field := ⟨8, 4⟩
def DDBG_SEL_CANVAS : Field := ⟨0, 4⟩
def DDBG_ACC_V_V : Field := ⟨0, 64⟩
def DDBG_ACC_X_GUARD : Field := ⟨32, 32⟩
def DDBG_ACC_X_W : Field := ⟨16, 16⟩
def DDBG_ACC_X_SAT : Field := ⟨2, 1⟩
def DDBG_ACC_X_TAG : Field := ⟨0, 2⟩
def DDBG_STN_XLOG16 : Field := ⟨24, 24⟩
def DDBG_STN_SIGN : Field := ⟨15, 1⟩
def DDBG_STN_CLASS : Field := ⟨13, 2⟩
def DDBG_STN_NAN : Field := ⟨12, 1⟩
def DDBG_STN_XLOG : Field := ⟨0, 12⟩
def SLV_CFG_LEND_PREEMPT : Field := ⟨8, 1⟩
def SLV_CFG_FORCE_NOSKIP : Field := ⟨0, 1⟩
def SLV_STAT_PRESENT : Field := ⟨32, 32⟩
def SLV_STAT_BUSY : Field := ⟨0, 32⟩
def SLV_LEND_ROW_COUNT : Field := ⟨48, 16⟩
def SLV_LEND_ROW_BASE : Field := ⟨32, 16⟩
def SLV_LEND_LEND_MASK : Field := ⟨0, 32⟩
def SLV_FAULT_STATUS : Field := ⟨56, 8⟩
def SLV_FAULT_BRUSH : Field := ⟨48, 5⟩
def SLV_FAULT_ROW : Field := ⟨32, 16⟩
def SLV_FAULT_INDEX : Field := ⟨0, 32⟩
def SLV_BEV_OVERFLOW : Field := ⟨32, 16⟩
def SLV_BEV_UNDERFLOW : Field := ⟨16, 16⟩
def SLV_BEV_INVALID : Field := ⟨0, 16⟩
def SLV_BSTALL_FETCH : Field := ⟨32, 16⟩
def SLV_BSTALL_RAND : Field := ⟨16, 16⟩
def SLV_BSTALL_LEND : Field := ⟨0, 16⟩
def SLV_BBUSY_BUSY : Field := ⟨0, 64⟩
def SLV_BSKIP_SKIPPED : Field := ⟨0, 64⟩
def STAT_ACTIVE : Field := ⟨0, 48⟩
def FAULTED_FAULTED : Field := ⟨0, 48⟩
def QCFG_NOTIFY : Field := ⟨25, 1⟩
def QCFG_AHEAD : Field := ⟨20, 2⟩
def QCFG_CLASS : Field := ⟨16, 2⟩
def QCFG_CREC_LOG : Field := ⟨8, 5⟩
def QCFG_RING_LOG : Field := ⟨0, 5⟩
def QBASE_QBASE : Field := ⟨0, 64⟩
def QTAIL_TAIL : Field := ⟨0, 32⟩
def QHEAD_HEAD : Field := ⟨0, 32⟩
def QCTL_SKIP : Field := ⟨4, 1⟩
def QCTL_RESUME : Field := ⟨3, 1⟩
def QCTL_STOP : Field := ⟨2, 1⟩
def QCTL_DISABLE : Field := ⟨1, 1⟩
def QCTL_ENABLE : Field := ⟨0, 1⟩
def QSTAT_FAULT : Field := ⟨8, 8⟩
def QSTAT_WAIT_ON : Field := ⟨4, 4⟩
def QSTAT_STATE : Field := ⟨0, 4⟩
def QPC_PC : Field := ⟨0, 64⟩
def CBASE_CBASE : Field := ⟨0, 64⟩
def CHEAD_CHEAD : Field := ⟨0, 32⟩
def CTAIL_CTAIL : Field := ⟨0, 32⟩
def QEPOCH_EPOCH : Field := ⟨0, 48⟩
def QSEQ_SEQ : Field := ⟨0, 64⟩
def QERR_FAILED : Field := ⟨48, 16⟩
def QERR_CANCELLED : Field := ⟨32, 16⟩
def QERR_DB_BAD : Field := ⟨16, 16⟩
def QERR_REC_LOST : Field := ⟨0, 16⟩
def QINCARN_INCARN : Field := ⟨0, 32⟩
def QPRED_P : Field := ⟨0, 8⟩
def QSREG_S : Field := ⟨0, 64⟩
def ARB_WINDOW_LEN : Field := ⟨0, 17⟩
def ARB_HOLD_PEND : Field := ⟨48, 16⟩
def ARB_HOLD_MC : Field := ⟨32, 16⟩
def ARB_HOLD_SEC : Field := ⟨16, 16⟩
def ARB_HOLD_BEAT : Field := ⟨0, 16⟩
def ARB_CLASS_HOST_RX : Field := ⟨4, 2⟩
def ARB_CLASS_FABRIC_RX : Field := ⟨2, 2⟩
def ARB_CLASS_COLL : Field := ⟨0, 2⟩
def ARB_QUOTA_Q3 : Field := ⟨48, 16⟩
def ARB_QUOTA_Q2 : Field := ⟨32, 16⟩
def ARB_QUOTA_Q1 : Field := ⟨16, 16⟩
def ARB_QUOTA_Q0 : Field := ⟨0, 16⟩
def ARB_STAT_PREEMPT : Field := ⟨48, 16⟩
def ARB_STAT_IDLE : Field := ⟨32, 16⟩
def ARB_STAT_DECLINED : Field := ⟨16, 16⟩
def ARB_STAT_CUT : Field := ⟨0, 16⟩
def ARB_CUT_LAST_R : Field := ⟨8, 4⟩
def ARB_CUT_WHO : Field := ⟨0, 4⟩
def LOCK_APPLY_MODE : Field := ⟨52, 2⟩
def LOCK_APPLY_DIE_MASK : Field := ⟨16, 36⟩
def LOCK_APPLY_HUB_MASK : Field := ⟨0, 16⟩
def DLOCK_APPLY_MODE : Field := ⟨16, 2⟩
def DLOCK_APPLY_MASK : Field := ⟨0, 9⟩
def APPLY_STAT_PENDING : Field := ⟨63, 1⟩
def APPLY_STAT_MODE : Field := ⟨61, 2⟩
def APPLY_STAT_MASKS : Field := ⟨0, 52⟩
def APPLY_CNT_APPLIED : Field := ⟨48, 16⟩
def APPLY_CNT_DROPPED : Field := ⟨32, 16⟩
def APPLY_CNT_IGNORED : Field := ⟨16, 16⟩
def APPLY_CNT_SKIPPED : Field := ⟨0, 16⟩
def SEM_CNT_SATURATED : Field := ⟨32, 32⟩
def LOCK_CNT_ORPHAN : Field := ⟨48, 16⟩
def LOCK_CNT_LINK_ERR : Field := ⟨32, 16⟩
def LOCK_CNT_BUSY : Field := ⟨16, 16⟩
def LOCK_OWN_QINCARN : Field := ⟨32, 32⟩
def LOCK_OWN_MODULE : Field := ⟨16, 16⟩
def LOCK_OWN_UNIT : Field := ⟨8, 8⟩
def LOCK_OWN_QUEUE : Field := ⟨0, 8⟩
def LOCK_INC_INCARNATION : Field := ⟨0, 64⟩
def SEM_COUNT_HI : Field := ⟨32, 32⟩
def SEM_COUNT_LO : Field := ⟨0, 32⟩
def NMA_STAT_PIN_RATE : Field := ⟨8, 2⟩
def NMA_STAT_SCRUBBING : Field := ⟨1, 1⟩
def NMA_STAT_IN_SERVICE : Field := ⟨0, 1⟩
def NMA_CFG_NOCOMBINE : Field := ⟨16, 1⟩
def NMA_CFG_SCRUB_HOURS : Field := ⟨0, 8⟩
def NMA_PC_FAIL_FAILED : Field := ⟨0, 64⟩
def NMA_CE_CNT_STACK : Field := ⟨32, 32⟩
def NMA_CE_CNT_MODULE : Field := ⟨0, 32⟩
def NMA_UE_CNT_READ : Field := ⟨32, 32⟩
def NMA_UE_CNT_SCRUB : Field := ⟨16, 16⟩
def NMA_UE_CNT_WRITE : Field := ⟨0, 16⟩
def NMA_UE_ADDR_SECTOR : Field := ⟨6, 30⟩
def NMA_UPD_APPLIED : Field := ⟨0, 64⟩
def NMA_MERGE_MERGED : Field := ⟨0, 64⟩
def NMA_EV_OVERFLOW : Field := ⟨32, 16⟩
def NMA_EV_INVALID : Field := ⟨16, 16⟩
def NMA_SCRUB_PASSES : Field := ⟨32, 32⟩
def NMA_SCRUB_SECTOR : Field := ⟨0, 30⟩
def MOV_STAT_BUSY : Field := ⟨16, 8⟩
def MOV_STAT_PENDING : Field := ⟨0, 16⟩
def MOV_CFG_RCACHE_OFF : Field := ⟨0, 1⟩
def MOV_FAULT_STATUS : Field := ⟨56, 8⟩
def MOV_FAULT_CMD : Field := ⟨48, 8⟩
def MOV_FAULT_QUEUE : Field := ⟨40, 8⟩
def MOV_FAULT_WHICH : Field := ⟨38, 2⟩
def MOV_FAULT_SEQ : Field := ⟨0, 32⟩
def MOV_OOB_READ : Field := ⟨32, 32⟩
def MOV_OOB_WRITE : Field := ⟨0, 32⟩
def MOV_EV_OVERFLOW : Field := ⟨32, 16⟩
def MOV_EV_UNDERFLOW : Field := ⟨16, 16⟩
def MOV_EV_INVALID : Field := ⟨0, 16⟩
def MOV_RCACHE_HITS : Field := ⟨32, 32⟩
def MOV_RCACHE_MISSES : Field := ⟨0, 32⟩
def MOV_RD_BYTES_BYTES : Field := ⟨0, 64⟩
def MOV_WR_BYTES_BYTES : Field := ⟨0, 64⟩
def RYF_CFG_E2E_US : Field := ⟨16, 8⟩
def RYF_CFG_SETTLE_MS : Field := ⟨8, 4⟩
def RYF_CFG_REMOTE_WR : Field := ⟨5, 1⟩
def RYF_CFG_ADDR_MODE : Field := ⟨4, 1⟩
def RYF_CFG_COORD_ELIG : Field := ⟨0, 1⟩
def RYF_STAT_EXCLUDED : Field := ⟨3, 1⟩
def RYF_STAT_DEPUTY : Field := ⟨2, 1⟩
def RYF_STAT_COORD : Field := ⟨1, 1⟩
def RYF_STAT_ELECTED : Field := ⟨0, 1⟩
def RYF_COORD_SERIAL : Field := ⟨0, 64⟩
def RYF_DEPUTY_SERIAL : Field := ⟨0, 64⟩
def RYF_MEMBERS_EPOCH : Field := ⟨16, 48⟩
def RYF_MEMBERS_COUNT : Field := ⟨0, 16⟩
def RYF_MQ_ADDR_ADDR : Field := ⟨0, 16⟩
def RYF_MQ_SERIAL_SERIAL : Field := ⟨0, 64⟩
def RYF_MQ_INFO_VERSION : Field := ⟨16, 4⟩
def RYF_MQ_INFO_PAIR_ID : Field := ⟨0, 16⟩
def RYF_MQ_INCARN_INCARNATION : Field := ⟨0, 64⟩
def RYF_CNT_BADVC : Field := ⟨48, 16⟩
def RYF_CNT_HOPS : Field := ⟨32, 16⟩
def RYF_CNT_RESENT : Field := ⟨16, 16⟩
def RYF_CNT_E2E_FAIL : Field := ⟨8, 8⟩
def RYF_CNT_REROUTE : Field := ⟨0, 8⟩
def RYF_PORT_CFG_MAXVER : Field := ⟨4, 2⟩
def RYF_PORT_CFG_ADMIT_REQ : Field := ⟨1, 1⟩
def RYF_PORT_CFG_ENABLE : Field := ⟨0, 1⟩
def RYF_PORT_STAT_WIDTH : Field := ⟨8, 4⟩
def RYF_PORT_STAT_VERSION : Field := ⟨4, 4⟩
def RYF_PORT_STAT_STATE : Field := ⟨0, 4⟩
def RYF_PORT_PEER_STRAPS : Field := ⟨20, 16⟩
def RYF_PORT_PEER_PORT : Field := ⟨16, 4⟩
def RYF_PORT_PEER_ADDR : Field := ⟨0, 16⟩
def RYF_PORT_PEER_SERIAL_SERIAL : Field := ⟨0, 64⟩
def RYF_PORT_PEER_KEY_DIGEST : Field := ⟨0, 64⟩
def RYF_PORT_LAT_L : Field := ⟨0, 32⟩
def RYF_PORT_FEC_CORRECTED : Field := ⟨32, 32⟩
def RYF_PORT_FEC_UNCORRECTED : Field := ⟨0, 32⟩
def RYF_PORT_LINKCNT_RETRY : Field := ⟨48, 16⟩
def RYF_PORT_LINKCNT_CRC : Field := ⟨32, 16⟩
def RYF_PORT_LINKCNT_DISCARD : Field := ⟨16, 16⟩
def RYF_PORT_LINKCNT_DOWNS : Field := ⟨0, 16⟩
def RED_CFG_CHECK_PATH : Field := ⟨8, 1⟩
def RED_CFG_CHECK_OFF : Field := ⟨4, 1⟩
def RED_CFG_SAMPLE_LOG : Field := ⟨0, 4⟩
def RED_CHKBUF_BASE : Field := ⟨20, 28⟩
def RED_SUBBUF_SIZE : Field := ⟨48, 16⟩
def RED_SUBBUF_BASE : Field := ⟨20, 28⟩
def RED_STAT_IN_FLIGHT : Field := ⟨16, 16⟩
def RED_STAT_BOUND : Field := ⟨0, 10⟩
def RED_CNT_SUBST : Field := ⟨48, 16⟩
def RED_CNT_MISSING : Field := ⟨32, 16⟩
def RED_CNT_MISMATCH : Field := ⟨16, 16⟩
def RED_CNT_RETRACT_TX : Field := ⟨8, 8⟩
def RED_CNT_RETRACT_RX : Field := ⟨0, 8⟩
def RED_NF_NONFINITE : Field := ⟨32, 32⟩
def RED_NF_REPLACED : Field := ⟨0, 32⟩
def RED_CHK_CHECKED : Field := ⟨32, 32⟩
def RED_CHK_UNCHECKED : Field := ⟨24, 8⟩
def RED_CHK_SUB_DROP : Field := ⟨12, 12⟩
def RED_CHK_DUP : Field := ⟨0, 12⟩
def RED_VETO_SET_BITS : Field := ⟨48, 8⟩
def RED_VETO_SET_EPOCH : Field := ⟨0, 48⟩
def RED_GVETO_GROUP : Field := ⟨56, 8⟩
def RED_GVETO_VETO : Field := ⟨48, 8⟩
def RED_GVETO_EPOCH : Field := ⟨0, 48⟩
def RED_LAST_STATUS : Field := ⟨56, 8⟩
def RED_LAST_GROUP : Field := ⟨48, 8⟩
def RED_LAST_CSEQ : Field := ⟨32, 16⟩
def RED_LAST_RANK : Field := ⟨16, 16⟩
def RED_GADDR_ADDR : Field := ⟨0, 64⟩
def RED_GCTL_VALID : Field := ⟨63, 1⟩
def RED_GCTL_STATUS : Field := ⟨48, 8⟩
def RED_GCTL_RANK : Field := ⟨32, 16⟩
def RED_GCTL_MEMBERS : Field := ⟨16, 16⟩
def RED_GCTL_GROUP : Field := ⟨8, 8⟩
def RED_GCTL_BACKUP_ROLE : Field := ⟨0, 1⟩
def RED_LVETO_VETO : Field := ⟨48, 8⟩
def RED_LVETO_EPOCH : Field := ⟨0, 48⟩
def TRN_CFG_COMMIT_GROUP : Field := ⟨8, 8⟩
def TRN_CFG_NFZ_EXEMPT : Field := ⟨2, 1⟩
def TRN_CFG_LW_EN : Field := ⟨1, 1⟩
def TRN_CFG_NF_VETO : Field := ⟨0, 1⟩
def TRN_STAT_PENDING : Field := ⟨4, 4⟩
def TRN_STAT_OUT_OF_STEP : Field := ⟨1, 1⟩
def TRN_STAT_SNAP_BUSY : Field := ⟨0, 1⟩
def TRN_SETTLED_HIST_VALID : Field := ⟨56, 8⟩
def TRN_SETTLED_LAST_VETO : Field := ⟨48, 8⟩
def TRN_SETTLED_EPOCH : Field := ⟨0, 48⟩
def TRN_HIST_OUTCOME : Field := ⟨0, 64⟩
def TRN_NF_DIE (i : Nat) : Field := ⟨0 + 16 * i, 16⟩
def TRN_CNT_COMMITTED : Field := ⟨48, 16⟩
def TRN_CNT_CANCELLED : Field := ⟨32, 16⟩
def TRN_CNT_LATE_VETO : Field := ⟨20, 12⟩
def TRN_CNT_SPIKES : Field := ⟨12, 8⟩
def TRN_CNT_LOSS_DROPPED : Field := ⟨4, 8⟩
def TRN_LOSS_LOSS : Field := ⟨32, 32⟩
def TRN_LOSS_EPOCH_LO : Field := ⟨0, 32⟩
def TRN_LW_CFG_FLOOR : Field := ⟨32, 32⟩
def TRN_LW_CFG_K : Field := ⟨16, 16⟩
def TRN_LW_CFG_WARMUP : Field := ⟨8, 8⟩
def TRN_LW_CFG_SHIFT : Field := ⟨0, 4⟩
def TRN_LW_STATE_MEAN : Field := ⟨32, 32⟩
def TRN_LW_STATE_DEV : Field := ⟨0, 32⟩
def TRN_LW_STAT_SEEN : Field := ⟨56, 8⟩
def TRN_LW_STAT_LAST_EPOCH : Field := ⟨0, 48⟩
def TRN_SETTLE_LOCAL_EPOCH : Field := ⟨0, 48⟩
def TRN_CKPT_LAST : Field := ⟨0, 48⟩
def TRN_EVAL_CFG_PERIOD : Field := ⟨48, 16⟩
def TRN_EVAL_CFG_OFFSET : Field := ⟨32, 16⟩
def TRN_EVAL_CFG_COUNT : Field := ⟨16, 16⟩
def TRN_EVAL_WIN_ENABLE : Field := ⟨63, 1⟩
def TRN_EVAL_WIN_SIZE : Field := ⟨48, 12⟩
def TRN_EVAL_WIN_BASE : Field := ⟨30, 18⟩
def TRN_EVAL_STAT_IN_SLOT : Field := ⟨63, 1⟩
def TRN_EVAL_STAT_REFUSED : Field := ⟨0, 32⟩
def TRN_SNAP_ADDR_ADDR : Field := ⟨0, 64⟩
def TRN_SNAP_CTL_ABORT : Field := ⟨1, 1⟩
def TRN_SNAP_CTL_START : Field := ⟨0, 1⟩
def TRN_SNAP_STAT_STATUS : Field := ⟨56, 8⟩
def TRN_SNAP_STAT_REGION : Field := ⟨48, 8⟩
def TRN_SNAP_STAT_BYTES : Field := ⟨0, 41⟩
def PEND_CFG_PAIR_ID : Field := ⟨48, 16⟩
def PEND_CFG_QUIESCE_MIB : Field := ⟨32, 16⟩
def PEND_CFG_PROBE_US : Field := ⟨12, 10⟩
def PEND_CFG_MODE : Field := ⟨0, 2⟩
def PEND_CTL_FORGET : Field := ⟨4, 1⟩
def PEND_CTL_RESTORE : Field := ⟨3, 1⟩
def PEND_CTL_DETACH : Field := ⟨2, 1⟩
def PEND_CTL_JOIN : Field := ⟨0, 1⟩
def PEND_STAT_PAIR_ID : Field := ⟨48, 16⟩
def PEND_STAT_JOIN_FAIL : Field := ⟨40, 4⟩
def PEND_STAT_LINKS : Field := ⟨8, 2⟩
def PEND_STAT_ROLE : Field := ⟨6, 2⟩
def PEND_STAT_STATE : Field := ⟨0, 4⟩
def PEND_PEER_SERIAL_SERIAL : Field := ⟨0, 64⟩
def PEND_PEER_INCARN_INCARNATION : Field := ⟨0, 64⟩
def PEND_ING_SENT : Field := ⟨32, 32⟩
def PEND_ING_ACKED : Field := ⟨0, 32⟩
def PEND_CMP_COMPARED : Field := ⟨32, 32⟩
def PEND_CMP_MISMATCH : Field := ⟨16, 16⟩
def PEND_CMP_MISSING : Field := ⟨0, 16⟩
def PEND_WIN_WSIZE : Field := ⟨52, 12⟩
def PEND_WIN_WBASE : Field := ⟨30, 18⟩
def PEND_RESV_RSIZE : Field := ⟨52, 12⟩
def PEND_RESV_RBASE : Field := ⟨30, 18⟩
def PEND_DAREA_DSIZE : Field := ⟨52, 12⟩
def PEND_DAREA_DBASE : Field := ⟨30, 18⟩
def PEND_COPY_STATE : Field := ⟨62, 2⟩
def PEND_COPY_EPOCH : Field := ⟨0, 48⟩
def PEND_RESTORE_EPOCH_EPOCH : Field := ⟨0, 48⟩
def PEND_SYNC_PASS : Field := ⟨56, 8⟩
def PEND_SYNC_BYTES : Field := ⟨0, 56⟩
def PEND_CNT_TAKEOVER : Field := ⟨56, 8⟩
def PEND_CNT_HANDOVER : Field := ⟨48, 8⟩
def PEND_CNT_SPLIT : Field := ⟨40, 8⟩
def PEND_CNT_LOST : Field := ⟨32, 8⟩
def PEND_CNT_CONFIRM_FAIL : Field := ⟨16, 16⟩
def PEND_CNT_BACK_DROP : Field := ⟨0, 16⟩
def HOSTP_CFG_PFC_MASK : Field := ⟨32, 8⟩
def HOSTP_CFG_ROCE_PCP : Field := ⟨29, 3⟩
def HOSTP_CFG_TCT_PCP : Field := ⟨26, 3⟩
def HOSTP_CFG_ROCE_DSCP : Field := ⟨20, 6⟩
def HOSTP_CFG_VID : Field := ⟨8, 12⟩
def HOSTP_CFG_VLAN_EN : Field := ⟨7, 1⟩
def HOSTP_CFG_IPV4_EN : Field := ⟨4, 1⟩
def HOSTP_CFG_RATE : Field := ⟨0, 2⟩
def HOSTP_STAT_LANES : Field := ⟨8, 5⟩
def HOSTP_STAT_RATE : Field := ⟨6, 2⟩
def HOSTP_STAT_SILENT : Field := ⟨4, 1⟩
def HOSTP_STAT_LINK : Field := ⟨0, 4⟩
def HOSTP_MAC_MAC : Field := ⟨0, 48⟩
def HOSTP_IP6_HI_ADDR_HI : Field := ⟨0, 64⟩
def HOSTP_IP6_LO_ADDR_LO : Field := ⟨0, 64⟩
def HOSTP_IP4_ADDR : Field := ⟨0, 32⟩
def HOSTP_QPC_COUNT : Field := ⟨48, 13⟩
def HOSTP_QPC_BASE : Field := ⟨0, 48⟩
def HOSTP_QPCTL_STATUS : Field := ⟨56, 8⟩
def HOSTP_QPCTL_OP : Field := ⟨16, 2⟩
def HOSTP_QPCTL_QPN : Field := ⟨0, 12⟩
def HOSTP_MR_COUNT : Field := ⟨48, 9⟩
def HOSTP_MR_BASE : Field := ⟨0, 48⟩
def HOSTP_EVT_SESSION : Field := ⟨16, 6⟩
def HOSTP_EVT_ENABLE : Field := ⟨1, 6⟩
def HOSTP_ALERT_MASK : Field := ⟨8, 5⟩
def HOSTP_ALERT_STATUS : Field := ⟨0, 5⟩
def HOSTP_KEYSTAT_PRIV : Field := ⟨8, 8⟩
def HOSTP_KEYSTAT_LOADED : Field := ⟨0, 8⟩
def HOSTP_SB_EID : Field := ⟨40, 8⟩
def HOSTP_SB_STATIC_ADDR : Field := ⟨32, 7⟩
def HOSTP_SB_DYN_ADDR : Field := ⟨8, 7⟩
def HOSTP_SB_MODE : Field := ⟨0, 1⟩
def HOSTP_TCT_CNT_TAG_BAD : Field := ⟨48, 16⟩
def HOSTP_TCT_CNT_STALE : Field := ⟨32, 16⟩
def HOSTP_TCT_CNT_REPLAY : Field := ⟨16, 16⟩
def HOSTP_TCT_CNT_REFUSED : Field := ⟨0, 16⟩
def HOSTP_ROCE_CNT_NAK_ACCESS : Field := ⟨48, 16⟩
def HOSTP_ROCE_CNT_SEQ_NAK : Field := ⟨32, 16⟩
def HOSTP_ROCE_CNT_RETRANSMIT : Field := ⟨16, 16⟩
def HOSTP_ROCE_CNT_CNP_RX : Field := ⟨0, 16⟩
def HOSTP_EVT_CNT_SENT : Field := ⟨32, 32⟩
def HOSTP_EVT_CNT_RESENT : Field := ⟨16, 16⟩
def HOSTP_EVT_CNT_LOST : Field := ⟨0, 16⟩
def HOSTP_RXDROP_SIZE : Field := ⟨48, 16⟩
def HOSTP_RXDROP_VLAN : Field := ⟨32, 16⟩
def HOSTP_RXDROP_UNSUPPORTED : Field := ⟨16, 16⟩
def HOSTP_RXDROP_FCS : Field := ⟨0, 16⟩
def SEC_STAT_SVN_IMAGE : Field := ⟨32, 8⟩
def SEC_STAT_SVN_OTP : Field := ⟨24, 8⟩
def SEC_STAT_RECOV_SRC : Field := ⟨16, 2⟩
def SEC_STAT_BOOT_RESULT : Field := ⟨8, 3⟩
def SEC_CFG_PAIR_DEBUG_OK : Field := ⟨1, 1⟩
def SEC_CFG_SERVE_PEER : Field := ⟨0, 1⟩
def SEC_CTL_UPD_ABORT : Field := ⟨3, 1⟩
def SEC_CTL_UPD_START : Field := ⟨2, 1⟩
def SEC_CTL_DEBUG_LOCK : Field := ⟨1, 1⟩
def SEC_CTL_SVN_COMMIT : Field := ⟨0, 1⟩
def SEC_DEBUG_EVER : Field := ⟨8, 2⟩
def SEC_DEBUG_SCOPE : Field := ⟨0, 2⟩
def SEC_IDX_NEXT : Field := ⟨0, 41⟩
def SEC_IDX_LIMIT_LIMIT : Field := ⟨0, 41⟩
def SEC_UPD_ADDR_ADDR : Field := ⟨0, 64⟩
def SEC_UPD_STAT_STATUS : Field := ⟨56, 8⟩
def SEC_UPD_STAT_REASON : Field := ⟨53, 3⟩
def SEC_UPD_STAT_STATE : Field := ⟨48, 2⟩
def SEC_UPD_STAT_BYTES : Field := ⟨0, 48⟩
def SEC_SIGCNT_REPORTS : Field := ⟨48, 16⟩
def SEC_SIGCNT_ADMIT : Field := ⟨32, 16⟩
def SEC_SIGCNT_SNAPSHOT : Field := ⟨16, 16⟩
def SEC_SIGCNT_REFUSED : Field := ⟨0, 16⟩
def SEC_MEAS_BYTES : Field := ⟨0, 64⟩
def SEC_OTP_DIGEST_BYTES : Field := ⟨0, 64⟩
def RST_CTL_FORCE : Field := ⟨24, 1⟩
def RST_CTL_QUEUE : Field := ⟨16, 8⟩
def RST_CTL_CANVAS : Field := ⟨12, 4⟩
def RST_CTL_ENGINE : Field := ⟨8, 4⟩
def RST_CTL_DIE : Field := ⟨4, 2⟩
def RST_CTL_KIND : Field := ⟨0, 3⟩
def RST_STAT_LAST_CAUSE : Field := ⟨44, 4⟩
def RST_STAT_RESULT : Field := ⟨24, 8⟩
def RST_STAT_DIE_RESET : Field := ⟨12, 4⟩
def RST_STAT_KIND : Field := ⟨0, 3⟩
def RST_CFG_HOLD_AON : Field := ⟨0, 1⟩
def RST_CNT_WARM : Field := ⟨48, 16⟩
def RST_CNT_DIE : Field := ⟨32, 16⟩
def RST_CNT_ENGINE : Field := ⟨16, 16⟩
def RST_CNT_QUEUE : Field := ⟨0, 16⟩
def PWR_STAT_TRIP : Field := ⟨8, 1⟩
def PWR_STAT_CAP_HOLD : Field := ⟨7, 1⟩
def PWR_STAT_F_HI : Field := ⟨5, 2⟩
def PWR_STAT_F : Field := ⟨0, 5⟩
def PWR_CFG_CAP_W : Field := ⟨4, 12⟩
def PWR_CFG_DET_EN : Field := ⟨3, 1⟩
def PWR_CFG_DET_POINT : Field := ⟨0, 3⟩
def PWR_DOM_REQ_REQ : Field := ⟨0, 56⟩
def PWR_DOM_STAT_CLOSING : Field := ⟨56, 7⟩
def PWR_DOM_STAT_ON : Field := ⟨0, 56⟩
def PWR_DOM_CLOSING_DOM : Field := ⟨0, 56⟩
def PWR_LIM_FAST_PCT : Field := ⟨0, 8⟩
def PWR_THERM_T_TRIP : Field := ⟨16, 8⟩
def PWR_THERM_T_STEP : Field := ⟨8, 8⟩
def PWR_THERM_HYST : Field := ⟨0, 8⟩
def PWR_METER_AVG_W : Field := ⟨16, 16⟩
def PWR_METER_NOW_W : Field := ⟨0, 16⟩
def PWR_CNT_LIMIT : Field := ⟨48, 16⟩
def PWR_CNT_STEPS : Field := ⟨32, 16⟩
def PWR_CNT_OVERRIDE : Field := ⟨16, 16⟩
def PWR_CNT_REFUSED : Field := ⟨0, 16⟩
def DPWR_CLK_CEIL : Field := ⟨8, 3⟩
def DPWR_CLK_FLOOR : Field := ⟨0, 3⟩
def DPWR_STAT_TEMP : Field := ⟨16, 8⟩
def DPWR_STAT_OVERRIDE : Field := ⟨8, 1⟩
def DPWR_STAT_REASON : Field := ⟨6, 2⟩
def DPWR_STAT_POINT : Field := ⟨0, 3⟩
def ERR_WSEQ_WSEQ : Field := ⟨0, 64⟩
def ERR_RSEQ_RSEQ : Field := ⟨0, 64⟩
def ERR_CFG_CE_LIMIT : Field := ⟨16, 16⟩
def ERR_CFG_EVT_CLASS : Field := ⟨0, 2⟩
def ERR_CTL_CLEAR_FATAL : Field := ⟨0, 1⟩
def ERR_STAT_FATAL_VALID : Field := ⟨0, 1⟩
def ERR_CNT_CORRECTED : Field := ⟨48, 16⟩
def ERR_CNT_DEFERRED : Field := ⟨32, 16⟩
def ERR_CNT_FATAL : Field := ⟨24, 8⟩
def ERR_CNT_OVERRUN : Field := ⟨12, 12⟩
def ERR_CNT_THROTTLED : Field := ⟨0, 12⟩
def ERR_SRAM_CORR (i : Nat) : Field := ⟨0 + 16 * i, 16⟩
def ERR_FATAL_WORD : Field := ⟨0, 64⟩
def ERR_RING_WORD : Field := ⟨0, 64⟩
def PERT_CTL_ENABLE : Field := ⟨0, 7⟩
def PERT_SEED_SEED : Field := ⟨0, 64⟩
def PERT_BEAT_DROP : Field := ⟨32, 16⟩
def PERT_BEAT_JITTER_NS : Field := ⟨0, 32⟩
def PERT_CREDIT_HOLD_US : Field := ⟨48, 16⟩
def PERT_CREDIT_VC_MASK : Field := ⟨32, 16⟩
def PERT_CREDIT_PORT_MASK : Field := ⟨0, 18⟩
def PERT_CONTRIB_DELAY_US : Field := ⟨48, 16⟩
def PERT_CONTRIB_GROUP : Field := ⟨40, 8⟩
def PERT_CONTRIB_RANK_HI : Field := ⟨16, 16⟩
def PERT_CONTRIB_RANK_LO : Field := ⟨0, 16⟩
def PERT_GRANT_CYCLES : Field := ⟨48, 16⟩
def PERT_GRANT_CLASS_MASK : Field := ⟨36, 4⟩
def PERT_GRANT_R : Field := ⟨32, 4⟩
def PERT_GRANT_PLACE : Field := ⟨30, 1⟩
def PERT_GRANT_DIE : Field := ⟨28, 2⟩
def PERT_MEM_ADD_NS : Field := ⟨48, 16⟩
def PERT_MEM_STACK_MASK : Field := ⟨0, 16⟩
def PERT_FREEZE_DIE_MASK : Field := ⟨32, 4⟩
def PERT_FREEZE_CANVAS_MASK : Field := ⟨16, 16⟩
def PERT_FREEZE_F : Field := ⟨0, 5⟩
def PERT_ECC_ADDR_ADDR : Field := ⟨0, 48⟩
def PERT_ECC_MASK_MASK : Field := ⟨0, 64⟩
def PERT_ECC_CTL_XOR : Field := ⟨8, 8⟩
def PERT_ECC_CTL_ARM : Field := ⟨0, 1⟩
def PERT_CNT_ECC : Field := ⟨48, 16⟩
def PERT_CNT_DROPPED : Field := ⟨32, 16⟩
def PERT_CNT_DELAYED : Field := ⟨16, 16⟩
def PERT_CNT_REJECTED : Field := ⟨0, 16⟩
end F

/-- The rows of the map of block hubId. -/
def rows_hubId : List RegPat := [
  { base := 0x0, stride := 0x8, count := 1, row := { rw := 0x0, st := 0x0, w1c := 0x0, w1s := 0x0, rc := 0x0, wo := 0x0, keep := 0xff000000, cold := 0x0 } },
  { base := 0x8, stride := 0x8, count := 1, row := { rw := 0x0, st := 0x0, w1c := 0x0, w1s := 0x0, rc := 0x0, wo := 0x0, keep := 0x0, cold := 0x0 } },
  { base := 0x10, stride := 0x8, count := 1, row := { rw := 0x0, st := 0x0, w1c := 0x0, w1s := 0x0, rc := 0x0, wo := 0x0, keep := 0x1ffff, cold := 0x0 } },
  { base := 0x18, stride := 0x8, count := 1, row := { rw := 0x0, st := 0x0, w1c := 0x0, w1s := 0x0, rc := 0x0, wo := 0x0, keep := 0x0, cold := 0x0 } },
  { base := 0x20, stride := 0x8, count := 1, row := { rw := 0x0, st := 0x0, w1c := 0x0, w1s := 0x0, rc := 0x0, wo := 0x0, keep := 0xffffffffffffffff, cold := 0x0 } },
  { base := 0x28, stride := 0x8, count := 1, row := { rw := 0x0, st := 0x0, w1c := 0x0, w1s := 0x0, rc := 0x0, wo := 0x0, keep := 0xffff000f0, cold := 0xf } },
  { base := 0x30, stride := 0x8, count := 1, row := { rw := 0x0, st := 0x0, w1c := 0x0, w1s := 0x0, rc := 0x0, wo := 0x0, keep := 0xf, cold := 0x1 } },
  { base := 0x38, stride := 0x8, count := 1, row := { rw := 0x0, st := 0x0, w1c := 0x0, w1s := 0x0, rc := 0x0, wo := 0x0, keep := 0x0, cold := 0x0 } },
  { base := 0x40, stride := 0x8, count := 1, row := { rw := 0xffffffffffffffff, st := 0x0, w1c := 0x0, w1s := 0x0, rc := 0x0, wo := 0x0, keep := 0xffffffffffffffff, cold := 0x0 } },
  { base := 0x100, stride := 0x8, count := 1, row := { rw := 0x0, st := 0x0, w1c := 0x0, w1s := 0x0, rc := 0x0, wo := 0x1ffff37, keep := 0x0, cold := 0x0 } },
  { base := 0x108, stride := 0x8, count := 1, row := { rw := 0x0, st := 0x0, w1c := 0x0, w1s := 0x0, rc := 0x0, wo := 0x0, keep := 0xf00000000000, cold := 0x0 } },
  { base := 0x110, stride := 0x8, count := 1, row := { rw := 0x1, st := 0x0, w1c := 0x0, w1s := 0x0, rc := 0x0, wo := 0x0, keep := 0x1, cold := 0x0 } },
  { base := 0x118, stride := 0x8, count := 1, row := { rw := 0x0, st := 0x0, w1c := 0x0, w1s := 0x0, rc := 0xffffffffffffffff, wo := 0x0, keep := 0xffffffffffffffff, cold := 0x0 } } ]

/-- The rows of the map of block beat. -/
def rows_beat : List RegPat := [
  { base := 0x0, stride := 0x8, count := 1, row := { rw := 0x0, st := 0xff073fff1f, w1c := 0x0, w1s := 0x0, rc := 0x0, wo := 0x0, keep := 0x0, cold := 0x100408ff00 } },
  { base := 0x8, stride := 0x8, count := 1, row := { rw := 0x0, st := 0x0, w1c := 0x0, w1s := 0x0, rc := 0x0, wo := 0xf, keep := 0x0, cold := 0x0 } },
  { base := 0x10, stride := 0x8, count := 1, row := { rw := 0x0, st := 0x0, w1c := 0x0, w1s := 0x0, rc := 0x0, wo := 0x0, keep := 0x0, cold := 0x0 } },
  { base := 0x18, stride := 0x8, count := 1, row := { rw := 0x0, st := 0x0, w1c := 0x0, w1s := 0x0, rc := 0x0, wo := 0x0, keep := 0x0, cold := 0x0 } },
  { base := 0x20, stride := 0x8, count := 1, row := { rw := 0x0, st := 0x0, w1c := 0x0, w1s := 0x0, rc := 0x0, wo := 0x0, keep := 0x0, cold := 0x0 } },
  { base := 0x28, stride := 0x8, count := 1, row := { rw := 0x0, st := 0x0, w1c := 0x0, w1s := 0x0, rc := 0x0, wo := 0x0, keep := 0x0, cold := 0x0 } },
  { base := 0x30, stride := 0x8, count := 1, row := { rw := 0x0, st := 0xffffffffffff, w1c := 0x0, w1s := 0x0, rc := 0x0, wo := 0x0, keep := 0x0, cold := 0x0 } },
  { base := 0x38, stride := 0x8, count := 1, row := { rw := 0x0, st := 0xfffff, w1c := 0x0, w1s := 0x0, rc := 0x0, wo := 0x0, keep := 0x0, cold := 0xc350 } },
  { base := 0x40, stride := 0x8, count := 1, row := { rw := 0x0, st := 0x0, w1c := 0x0, w1s := 0x0, rc := 0x0, wo := 0x0, keep := 0x0, cold := 0x0 } },
  { base := 0x48, stride := 0x8, count := 1, row := { rw := 0x0, st := 0x0, w1c := 0x0, w1s := 0x0, rc := 0xffffffffffffffff, wo := 0x0, keep := 0x0, cold := 0x0 } },
  { base := 0x50, stride := 0x8, count := 1, row := { rw := 0x0, st := 0x0, w1c := 0x0, w1s := 0x0, rc := 0x0, wo := 0x0, keep := 0x0, cold := 0x0 } },
  { base := 0x58, stride := 0x8, count := 1, row := { rw := 0xffffffffffffffff, st := 0x0, w1c := 0x0, w1s := 0x0, rc := 0x0, wo := 0x0, keep := 0xffffffffffffffff, cold := 0x0 } },
  { base := 0x60, stride := 0x8, count := 1, row := { rw := 0x0, st := 0x0, w1c := 0x0, w1s := 0x0, rc := 0x0, wo := 0x0, keep := 0xffffffffffffffff, cold := 0x0 } },
  { base := 0x68, stride := 0x8, count := 1, row := { rw := 0x0, st := 0x0, w1c := 0x0, w1s := 0x0, rc := 0x0, wo := 0x0, keep := 0xffffffffffffffff, cold := 0x0 } } ]

/-- The rows of the map of block pal. -/
def rows_pal : List RegPat := [
  { base := 0x0, stride := 0x8, count := 1, row := { rw := 0xfffff0, st := 0x0, w1c := 0x0, w1s := 0x0, rc := 0x0, wo := 0x0, keep := 0x0, cold := 0x3e0500 } },
  { base := 0x8, stride := 0x8, count := 1, row := { rw := 0xffffffff, st := 0x0, w1c := 0x0, w1s := 0x0, rc := 0x0, wo := 0x0, keep := 0x0, cold := 0x0 } },
  { base := 0x10, stride := 0x8, count := 1, row := { rw := 0x0, st := 0x0, w1c := 0xffffffffffff, w1s := 0x0, rc := 0x0, wo := 0x0, keep := 0x0, cold := 0x0 } },
  { base := 0x18, stride := 0x8, count := 1, row := { rw := 0x0, st := 0x0, w1c := 0x0, w1s := 0x0, rc := 0xffffffff, wo := 0x0, keep := 0x0, cold := 0x0 } },
  { base := 0x1000, stride := 0x8, count := 1536, row := { rw := 0xffffffffffffffff, st := 0x0, w1c := 0x0, w1s := 0x0, rc := 0x0, wo := 0x0, keep := 0x0, cold := 0x0 } },
  { base := 0x4000, stride := 0x8, count := 6144, row := { rw := 0x0, st := 0x0, w1c := 0x0, w1s := 0x0, rc := 0xffffffffffffffff, wo := 0x0, keep := 0x0, cold := 0x0 } } ]

/-- The rows of the map of block rand. -/
def rows_rand : List RegPat := [
  { base := 0x0, stride := 0x8, count := 1, row := { rw := 0x0, st := 0x0, w1c := 0x0, w1s := 0x0, rc := 0x0, wo := 0x0, keep := 0x0, cold := 0x0 } },
  { base := 0x100, stride := 0x20, count := 64, row := { rw := 0x0, st := 0x0, w1c := 0x0, w1s := 0x0, rc := 0x0, wo := 0xffffffffffffffff, keep := 0x0, cold := 0x0 } },
  { base := 0x108, stride := 0x20, count := 64, row := { rw := 0x0, st := 0x0, w1c := 0x0, w1s := 0x0, rc := 0x0, wo := 0xffffffffffffffff, keep := 0x0, cold := 0x0 } },
  { base := 0x110, stride := 0x20, count := 64, row := { rw := 0xffffffffffffffff, st := 0x0, w1c := 0x0, w1s := 0x0, rc := 0x0, wo := 0x0, keep := 0x0, cold := 0x0 } },
  { base := 0x118, stride := 0x20, count := 64, row := { rw := 0x3ff, st := 0x0, w1c := 0x0, w1s := 0x0, rc := 0x0, wo := 0x0, keep := 0x0, cold := 0xff } } ]

/-- The rows of the map of block canv. -/
def rows_canv : List RegPat := [
  { base := 0x0, stride := 0x8, count := 1, row := { rw := 0x0, st := 0x0, w1c := 0x0, w1s := 0x0, rc := 0x0, wo := 0x0, keep := 0xffffffff0000, cold := 0x0 } },
  { base := 0x8, stride := 0x8, count := 1, row := { rw := 0x0, st := 0x0, w1c := 0x0, w1s := 0xffff, rc := 0x0, wo := 0x0, keep := 0xffff, cold := 0x0 } },
  { base := 0x10, stride := 0x8, count := 1, row := { rw := 0x0, st := 0x0, w1c := 0x0, w1s := 0x0, rc := 0x0, wo := 0x0, keep := 0xffffffffffffffff, cold := 0xfedcba9876543210 } },
  { base := 0x18, stride := 0x8, count := 1, row := { rw := 0x0, st := 0x0, w1c := 0x0, w1s := 0x0, rc := 0x0, wo := 0x0, keep := 0x0, cold := 0x0 } },
  { base := 0x20, stride := 0x8, count := 1, row := { rw := 0x0, st := 0x0, w1c := 0x0, w1s := 0x0, rc := 0x0, wo := 0x3ffffffffff, keep := 0x0, cold := 0x0 } },
  { base := 0x28, stride := 0x8, count := 1, row := { rw := 0x0, st := 0x0, w1c := 0x0, w1s := 0x0, rc := 0x0, wo := 0x0, keep := 0x0, cold := 0x0 } },
  { base := 0x30, stride := 0x8, count := 1, row := { rw := 0xf, st := 0x0, w1c := 0x0, w1s := 0x0, rc := 0x0, wo := 0x0, keep := 0x0, cold := 0x0 } },
  { base := 0x38, stride := 0x8, count := 1, row := { rw := 0x0, st := 0x0, w1c := 0x0, w1s := 0x0, rc := 0xffffffffffffffff, wo := 0x0, keep := 0x0, cold := 0x0 } },
  { base := 0x40, stride := 0x8, count := 1, row := { rw := 0x0, st := 0x0, w1c := 0x0, w1s := 0x0, rc := 0xffffffffffffffff, wo := 0x0, keep := 0x0, cold := 0x0 } },
  { base := 0x100, stride := 0x8, count := 16, row := { rw := 0x0, st := 0x0, w1c := 0x0, w1s := 0x0, rc := 0xffffffffffffffff, wo := 0x0, keep := 0x0, cold := 0x0 } },
  { base := 0x180, stride := 0x8, count := 16, row := { rw := 0x0, st := 0x0, w1c := 0x0, w1s := 0x0, rc := 0xffffffffffffffff, wo := 0x0, keep := 0x0, cold := 0x0 } },
  { base := 0x200, stride := 0x8, count := 16, row := { rw := 0x0, st := 0x0, w1c := 0x0, w1s := 0x0, rc := 0x0, wo := 0x0, keep := 0x0, cold := 0x0 } },
  { base := 0x400, stride := 0x8, count := 16, row := { rw := 0x0, st := 0x0, w1c := 0x0, w1s := 0x0, rc := 0x0, wo := 0x0, keep := 0x0, cold := 0x0 } } ]

/-- The rows of the map of block ddbg. -/
def rows_ddbg : List RegPat := [
  { base := 0x0, stride := 0x8, count := 1, row := { rw := 0xfffffff30f0f, st := 0x0, w1c := 0x0, w1s := 0x0, rc := 0x0, wo := 0x0, keep := 0x0, cold := 0x0 } },
  { base := 0x8, stride := 0x8, count := 1, row := { rw := 0x0, st := 0x0, w1c := 0x0, w1s := 0x0, rc := 0x0, wo := 0x0, keep := 0x0, cold := 0x0 } },
  { base := 0x10, stride := 0x8, count := 1, row := { rw := 0x0, st := 0x0, w1c := 0x0, w1s := 0x0, rc := 0x0, wo := 0x0, keep := 0x0, cold := 0x0 } },
  { base := 0x18, stride := 0x8, count := 1, row := { rw := 0x0, st := 0x0, w1c := 0x0, w1s := 0x0, rc := 0x0, wo := 0x0, keep := 0x0, cold := 0x0 } } ]

/-- The rows of the map of block slv. -/
def rows_slv : List RegPat := [
  { base := 0x0, stride := 0x8, count := 1, row := { rw := 0x101, st := 0x0, w1c := 0x0, w1s := 0x0, rc := 0x0, wo := 0x0, keep := 0x0, cold := 0x0 } },
  { base := 0x8, stride := 0x8, count := 1, row := { rw := 0x0, st := 0x0, w1c := 0x0, w1s := 0x0, rc := 0x0, wo := 0x0, keep := 0xffffffff00000000, cold := 0xffffffff00000000 } },
  { base := 0x10, stride := 0x8, count := 1, row := { rw := 0x0, st := 0xffffffffffffffff, w1c := 0x0, w1s := 0x0, rc := 0x0, wo := 0x0, keep := 0x0, cold := 0x0 } },
  { base := 0x18, stride := 0x8, count := 1, row := { rw := 0x0, st := 0x0, w1c := 0x0, w1s := 0x0, rc := 0x0, wo := 0x0, keep := 0x0, cold := 0x0 } },
  { base := 0x100, stride := 0x8, count := 32, row := { rw := 0x0, st := 0x0, w1c := 0x0, w1s := 0x0, rc := 0xffffffffffff, wo := 0x0, keep := 0x0, cold := 0x0 } },
  { base := 0x200, stride := 0x8, count := 32, row := { rw := 0x0, st := 0x0, w1c := 0x0, w1s := 0x0, rc := 0xffffffffffff, wo := 0x0, keep := 0x0, cold := 0x0 } },
  { base := 0x300, stride := 0x8, count := 32, row := { rw := 0x0, st := 0x0, w1c := 0x0, w1s := 0x0, rc := 0x0, wo := 0x0, keep := 0x0, cold := 0x0 } },
  { base := 0x400, stride := 0x8, count := 32, row := { rw := 0x0, st := 0x0, w1c := 0x0, w1s := 0x0, rc := 0x0, wo := 0x0, keep := 0x0, cold := 0x0 } } ]

/-- The rows of the map of block cp. -/
def rows_cp : List RegPat := [
  { base := 0x0, stride := 0x8, count := 1, row := { rw := 0x0, st := 0x0, w1c := 0x0, w1s := 0x0, rc := 0x0, wo := 0x0, keep := 0x0, cold := 0x0 } },
  { base := 0x8, stride := 0x8, count := 1, row := { rw := 0x0, st := 0x0, w1c := 0x0, w1s := 0x0, rc := 0x0, wo := 0x0, keep := 0x0, cold := 0x0 } },
  { base := 0x1000, stride := 0x80, count := 48, row := { rw := 0x2331f1f, st := 0x0, w1c := 0x0, w1s := 0x0, rc := 0x0, wo := 0x0, keep := 0x0, cold := 0x0 } },
  { base := 0x1008, stride := 0x80, count := 48, row := { rw := 0xffffffffffffffff, st := 0x0, w1c := 0x0, w1s := 0x0, rc := 0x0, wo := 0x0, keep := 0x0, cold := 0x0 } },
  { base := 0x1010, stride := 0x80, count := 48, row := { rw := 0xffffffff, st := 0x0, w1c := 0x0, w1s := 0x0, rc := 0x0, wo := 0x0, keep := 0x0, cold := 0x0 } },
  { base := 0x1018, stride := 0x80, count := 48, row := { rw := 0x0, st := 0x0, w1c := 0x0, w1s := 0x0, rc := 0x0, wo := 0x0, keep := 0x0, cold := 0x0 } },
  { base := 0x1020, stride := 0x80, count := 48, row := { rw := 0x0, st := 0x0, w1c := 0x0, w1s := 0x0, rc := 0x0, wo := 0x1f, keep := 0x0, cold := 0x0 } },
  { base := 0x1028, stride := 0x80, count := 48, row := { rw := 0x0, st := 0x0, w1c := 0x0, w1s := 0x0, rc := 0x0, wo := 0x0, keep := 0x0, cold := 0x0 } },
  { base := 0x1030, stride := 0x80, count := 48, row := { rw := 0x0, st := 0x0, w1c := 0x0, w1s := 0x0, rc := 0x0, wo := 0x0, keep := 0x0, cold := 0x0 } },
  { base := 0x1038, stride := 0x80, count := 48, row := { rw := 0xffffffffffffffff, st := 0x0, w1c := 0x0, w1s := 0x0, rc := 0x0, wo := 0x0, keep := 0x0, cold := 0x0 } },
  { base := 0x1040, stride := 0x80, count := 48, row := { rw := 0xffffffff, st := 0x0, w1c := 0x0, w1s := 0x0, rc := 0x0, wo := 0x0, keep := 0x0, cold := 0x0 } },
  { base := 0x1048, stride := 0x80, count := 48, row := { rw := 0x0, st := 0x0, w1c := 0x0, w1s := 0x0, rc := 0x0, wo := 0x0, keep := 0x0, cold := 0x0 } },
  { base := 0x1050, stride := 0x80, count := 48, row := { rw := 0x0, st := 0x0, w1c := 0x0, w1s := 0x0, rc := 0x0, wo := 0x0, keep := 0x0, cold := 0x0 } },
  { base := 0x1058, stride := 0x80, count := 48, row := { rw := 0x0, st := 0x0, w1c := 0x0, w1s := 0x0, rc := 0x0, wo := 0x0, keep := 0x0, cold := 0x0 } },
  { base := 0x1060, stride := 0x80, count := 48, row := { rw := 0x0, st := 0x0, w1c := 0x0, w1s := 0x0, rc := 0xffffffffffffffff, wo := 0x0, keep := 0x0, cold := 0x0 } },
  { base := 0x1068, stride := 0x80, count := 48, row := { rw := 0x0, st := 0x0, w1c := 0x0, w1s := 0x0, rc := 0x0, wo := 0x0, keep := 0xffffffff, cold := 0x0 } },
  { base := 0x4000, stride := 0x100, count := 48, row := { rw := 0xff, st := 0x0, w1c := 0x0, w1s := 0x0, rc := 0x0, wo := 0x0, keep := 0x0, cold := 0x1 } },
  { base := 0x4008, stride := 0x100, count := 48, row := { rw := 0xffffffffffffffff, st := 0x0, w1c := 0x0, w1s := 0x0, rc := 0x0, wo := 0x0, keep := 0x0, cold := 0x0 } },
  { base := 0x4010, stride := 0x100, count := 48, row := { rw := 0xffffffffffffffff, st := 0x0, w1c := 0x0, w1s := 0x0, rc := 0x0, wo := 0x0, keep := 0x0, cold := 0x0 } },
  { base := 0x4018, stride := 0x100, count := 48, row := { rw := 0xffffffffffffffff, st := 0x0, w1c := 0x0, w1s := 0x0, rc := 0x0, wo := 0x0, keep := 0x0, cold := 0x0 } },
  { base := 0x4020, stride := 0x100, count := 48, row := { rw := 0xffffffffffffffff, st := 0x0, w1c := 0x0, w1s := 0x0, rc := 0x0, wo := 0x0, keep := 0x0, cold := 0x0 } },
  { base := 0x4028, stride := 0x100, count := 48, row := { rw := 0xffffffffffffffff, st := 0x0, w1c := 0x0, w1s := 0x0, rc := 0x0, wo := 0x0, keep := 0x0, cold := 0x0 } },
  { base := 0x4030, stride := 0x100, count := 48, row := { rw := 0xffffffffffffffff, st := 0x0, w1c := 0x0, w1s := 0x0, rc := 0x0, wo := 0x0, keep := 0x0, cold := 0x0 } },
  { base := 0x4038, stride := 0x100, count := 48, row := { rw := 0xffffffffffffffff, st := 0x0, w1c := 0x0, w1s := 0x0, rc := 0x0, wo := 0x0, keep := 0x0, cold := 0x0 } },
  { base := 0x4040, stride := 0x100, count := 48, row := { rw := 0xffffffffffffffff, st := 0x0, w1c := 0x0, w1s := 0x0, rc := 0x0, wo := 0x0, keep := 0x0, cold := 0x0 } },
  { base := 0x4048, stride := 0x100, count := 48, row := { rw := 0xffffffffffffffff, st := 0x0, w1c := 0x0, w1s := 0x0, rc := 0x0, wo := 0x0, keep := 0x0, cold := 0x0 } },
  { base := 0x4050, stride := 0x100, count := 48, row := { rw := 0xffffffffffffffff, st := 0x0, w1c := 0x0, w1s := 0x0, rc := 0x0, wo := 0x0, keep := 0x0, cold := 0x0 } },
  { base := 0x4058, stride := 0x100, count := 48, row := { rw := 0xffffffffffffffff, st := 0x0, w1c := 0x0, w1s := 0x0, rc := 0x0, wo := 0x0, keep := 0x0, cold := 0x0 } },
  { base := 0x4060, stride := 0x100, count := 48, row := { rw := 0xffffffffffffffff, st := 0x0, w1c := 0x0, w1s := 0x0, rc := 0x0, wo := 0x0, keep := 0x0, cold := 0x0 } },
  { base := 0x4068, stride := 0x100, count := 48, row := { rw := 0xffffffffffffffff, st := 0x0, w1c := 0x0, w1s := 0x0, rc := 0x0, wo := 0x0, keep := 0x0, cold := 0x0 } },
  { base := 0x4070, stride := 0x100, count := 48, row := { rw := 0xffffffffffffffff, st := 0x0, w1c := 0x0, w1s := 0x0, rc := 0x0, wo := 0x0, keep := 0x0, cold := 0x0 } },
  { base := 0x4078, stride := 0x100, count := 48, row := { rw := 0xffffffffffffffff, st := 0x0, w1c := 0x0, w1s := 0x0, rc := 0x0, wo := 0x0, keep := 0x0, cold := 0x0 } },
  { base := 0x4080, stride := 0x100, count := 48, row := { rw := 0xffffffffffffffff, st := 0x0, w1c := 0x0, w1s := 0x0, rc := 0x0, wo := 0x0, keep := 0x0, cold := 0x0 } },
  { base := 0x4088, stride := 0x100, count := 48, row := { rw := 0xffffffffffffffff, st := 0x0, w1c := 0x0, w1s := 0x0, rc := 0x0, wo := 0x0, keep := 0x0, cold := 0x0 } },
  { base := 0x4090, stride := 0x100, count := 48, row := { rw := 0xffffffffffffffff, st := 0x0, w1c := 0x0, w1s := 0x0, rc := 0x0, wo := 0x0, keep := 0x0, cold := 0x0 } },
  { base := 0x4098, stride := 0x100, count := 48, row := { rw := 0xffffffffffffffff, st := 0x0, w1c := 0x0, w1s := 0x0, rc := 0x0, wo := 0x0, keep := 0x0, cold := 0x0 } },
  { base := 0x40a0, stride := 0x100, count := 48, row := { rw := 0xffffffffffffffff, st := 0x0, w1c := 0x0, w1s := 0x0, rc := 0x0, wo := 0x0, keep := 0x0, cold := 0x0 } },
  { base := 0x40a8, stride := 0x100, count := 48, row := { rw := 0xffffffffffffffff, st := 0x0, w1c := 0x0, w1s := 0x0, rc := 0x0, wo := 0x0, keep := 0x0, cold := 0x0 } },
  { base := 0x40b0, stride := 0x100, count := 48, row := { rw := 0xffffffffffffffff, st := 0x0, w1c := 0x0, w1s := 0x0, rc := 0x0, wo := 0x0, keep := 0x0, cold := 0x0 } },
  { base := 0x40b8, stride := 0x100, count := 48, row := { rw := 0xffffffffffffffff, st := 0x0, w1c := 0x0, w1s := 0x0, rc := 0x0, wo := 0x0, keep := 0x0, cold := 0x0 } },
  { base := 0x40c0, stride := 0x100, count := 48, row := { rw := 0xffffffffffffffff, st := 0x0, w1c := 0x0, w1s := 0x0, rc := 0x0, wo := 0x0, keep := 0x0, cold := 0x0 } },
  { base := 0x40c8, stride := 0x100, count := 48, row := { rw := 0xffffffffffffffff, st := 0x0, w1c := 0x0, w1s := 0x0, rc := 0x0, wo := 0x0, keep := 0x0, cold := 0x0 } },
  { base := 0x40d0, stride := 0x100, count := 48, row := { rw := 0xffffffffffffffff, st := 0x0, w1c := 0x0, w1s := 0x0, rc := 0x0, wo := 0x0, keep := 0x0, cold := 0x0 } },
  { base := 0x40d8, stride := 0x100, count := 48, row := { rw := 0xffffffffffffffff, st := 0x0, w1c := 0x0, w1s := 0x0, rc := 0x0, wo := 0x0, keep := 0x0, cold := 0x0 } },
  { base := 0x40e0, stride := 0x100, count := 48, row := { rw := 0xffffffffffffffff, st := 0x0, w1c := 0x0, w1s := 0x0, rc := 0x0, wo := 0x0, keep := 0x0, cold := 0x0 } },
  { base := 0x40e8, stride := 0x100, count := 48, row := { rw := 0xffffffffffffffff, st := 0x0, w1c := 0x0, w1s := 0x0, rc := 0x0, wo := 0x0, keep := 0x0, cold := 0x0 } },
  { base := 0x40f0, stride := 0x100, count := 48, row := { rw := 0xffffffffffffffff, st := 0x0, w1c := 0x0, w1s := 0x0, rc := 0x0, wo := 0x0, keep := 0x0, cold := 0x0 } },
  { base := 0x40f8, stride := 0x100, count := 48, row := { rw := 0xffffffffffffffff, st := 0x0, w1c := 0x0, w1s := 0x0, rc := 0x0, wo := 0x0, keep := 0x0, cold := 0x0 } } ]

/-- The rows of the map of block lock. -/
def rows_lock : List RegPat := [
  { base := 0x0, stride := 0x8, count := 1, row := { rw := 0x0, st := 0x1ffff, w1c := 0x0, w1s := 0x0, rc := 0x0, wo := 0x0, keep := 0x0, cold := 0x1000 } },
  { base := 0x8, stride := 0x8, count := 1, row := { rw := 0x0, st := 0xffffffffffffffff, w1c := 0x0, w1s := 0x0, rc := 0x0, wo := 0x0, keep := 0x0, cold := 0x400020002000040 } },
  { base := 0x10, stride := 0x8, count := 1, row := { rw := 0x0, st := 0x3f, w1c := 0x0, w1s := 0x0, rc := 0x0, wo := 0x0, keep := 0x0, cold := 0x0 } },
  { base := 0x18, stride := 0x8, count := 1, row := { rw := 0x0, st := 0x0, w1c := 0x0, w1s := 0x0, rc := 0xffffffffffffffff, wo := 0x0, keep := 0x0, cold := 0x0 } },
  { base := 0x20, stride := 0x8, count := 1, row := { rw := 0x0, st := 0x0, w1c := 0xf, w1s := 0x0, rc := 0x0, wo := 0x0, keep := 0x0, cold := 0x0 } },
  { base := 0x28, stride := 0x8, count := 1, row := { rw := 0x0, st := 0x0, w1c := 0x0, w1s := 0x0, rc := 0x0, wo := 0x3fffffffffffff, keep := 0x0, cold := 0x0 } },
  { base := 0x30, stride := 0x8, count := 1, row := { rw := 0x0, st := 0x0, w1c := 0x0, w1s := 0x0, rc := 0x0, wo := 0x0, keep := 0x0, cold := 0x0 } },
  { base := 0x38, stride := 0x8, count := 1, row := { rw := 0x0, st := 0x0, w1c := 0x0, w1s := 0x0, rc := 0xffffffffffffffff, wo := 0x0, keep := 0x0, cold := 0x0 } },
  { base := 0x40, stride := 0x8, count := 4, row := { rw := 0x0, st := 0xffffffffffffffff, w1c := 0x0, w1s := 0x0, rc := 0x0, wo := 0x0, keep := 0x0, cold := 0x20004000800 } },
  { base := 0x80, stride := 0x8, count := 1, row := { rw := 0x0, st := 0x0, w1c := 0x0, w1s := 0x0, rc := 0xffffffff00000000, wo := 0x0, keep := 0x0, cold := 0x0 } },
  { base := 0x88, stride := 0x8, count := 1, row := { rw := 0x0, st := 0x0, w1c := 0x0, w1s := 0x0, rc := 0xffffffffffff0000, wo := 0x0, keep := 0x0, cold := 0x0 } },
  { base := 0x1000, stride := 0x10, count := 1024, row := { rw := 0xffffffffffffffff, st := 0x0, w1c := 0x0, w1s := 0x0, rc := 0x0, wo := 0x0, keep := 0xffffffffffffffff, cold := 0x0 } },
  { base := 0x1008, stride := 0x10, count := 1024, row := { rw := 0x0, st := 0x0, w1c := 0x0, w1s := 0x0, rc := 0x0, wo := 0x0, keep := 0xffffffffffffffff, cold := 0x0 } },
  { base := 0x8000, stride := 0x8, count := 4096, row := { rw := 0xffffffffffffffff, st := 0x0, w1c := 0x0, w1s := 0x0, rc := 0x0, wo := 0x0, keep := 0x0, cold := 0x0 } } ]

/-- The rows of the map of block dlock. -/
def rows_dlock : List RegPat := [
  { base := 0x0, stride := 0x8, count := 1, row := { rw := 0x0, st := 0x1ffff, w1c := 0x0, w1s := 0x0, rc := 0x0, wo := 0x0, keep := 0x0, cold := 0x1000 } },
  { base := 0x8, stride := 0x8, count := 1, row := { rw := 0x0, st := 0xffffffffffffffff, w1c := 0x0, w1s := 0x0, rc := 0x0, wo := 0x0, keep := 0x0, cold := 0x400020002000040 } },
  { base := 0x10, stride := 0x8, count := 1, row := { rw := 0x0, st := 0x3f, w1c := 0x0, w1s := 0x0, rc := 0x0, wo := 0x0, keep := 0x0, cold := 0x0 } },
  { base := 0x18, stride := 0x8, count := 1, row := { rw := 0x0, st := 0x0, w1c := 0x0, w1s := 0x0, rc := 0xffffffffffffffff, wo := 0x0, keep := 0x0, cold := 0x0 } },
  { base := 0x20, stride := 0x8, count := 1, row := { rw := 0x0, st := 0x0, w1c := 0xf, w1s := 0x0, rc := 0x0, wo := 0x0, keep := 0x0, cold := 0x0 } },
  { base := 0x28, stride := 0x8, count := 1, row := { rw := 0x0, st := 0x0, w1c := 0x0, w1s := 0x0, rc := 0x0, wo := 0x301ff, keep := 0x0, cold := 0x0 } },
  { base := 0x30, stride := 0x8, count := 1, row := { rw := 0x0, st := 0x0, w1c := 0x0, w1s := 0x0, rc := 0x0, wo := 0x0, keep := 0x0, cold := 0x0 } },
  { base := 0x38, stride := 0x8, count := 1, row := { rw := 0x0, st := 0x0, w1c := 0x0, w1s := 0x0, rc := 0xffffffffffffffff, wo := 0x0, keep := 0x0, cold := 0x0 } },
  { base := 0x40, stride := 0x8, count := 5, row := { rw := 0x0, st := 0xffffffffffffffff, w1c := 0x0, w1s := 0x0, rc := 0x0, wo := 0x0, keep := 0x0, cold := 0x20004000800 } },
  { base := 0x80, stride := 0x8, count := 1, row := { rw := 0x0, st := 0x0, w1c := 0x0, w1s := 0x0, rc := 0xffffffff00000000, wo := 0x0, keep := 0x0, cold := 0x0 } },
  { base := 0x88, stride := 0x8, count := 1, row := { rw := 0x0, st := 0x0, w1c := 0x0, w1s := 0x0, rc := 0xffffffffffff0000, wo := 0x0, keep := 0x0, cold := 0x0 } },
  { base := 0x1000, stride := 0x10, count := 256, row := { rw := 0xffffffffffffffff, st := 0x0, w1c := 0x0, w1s := 0x0, rc := 0x0, wo := 0x0, keep := 0xffffffffffffffff, cold := 0x0 } },
  { base := 0x1008, stride := 0x10, count := 256, row := { rw := 0x0, st := 0x0, w1c := 0x0, w1s := 0x0, rc := 0x0, wo := 0x0, keep := 0xffffffffffffffff, cold := 0x0 } },
  { base := 0x8000, stride := 0x8, count := 2048, row := { rw := 0xffffffffffffffff, st := 0x0, w1c := 0x0, w1s := 0x0, rc := 0x0, wo := 0x0, keep := 0x0, cold := 0x0 } } ]

/-- The rows of the map of block nma. -/
def rows_nma : List RegPat := [
  { base := 0x0, stride := 0x8, count := 1, row := { rw := 0x0, st := 0x0, w1c := 0x0, w1s := 0x0, rc := 0x0, wo := 0x0, keep := 0x301, cold := 0x0 } },
  { base := 0x8, stride := 0x8, count := 1, row := { rw := 0x100ff, st := 0x0, w1c := 0x0, w1s := 0x0, rc := 0x0, wo := 0x0, keep := 0x0, cold := 0x18 } },
  { base := 0x10, stride := 0x8, count := 1, row := { rw := 0x0, st := 0x0, w1c := 0x0, w1s := 0x0, rc := 0x0, wo := 0x0, keep := 0xffffffffffffffff, cold := 0x0 } },
  { base := 0x18, stride := 0x8, count := 1, row := { rw := 0x0, st := 0x0, w1c := 0x0, w1s := 0x0, rc := 0xffffffffffffffff, wo := 0x0, keep := 0x0, cold := 0x0 } },
  { base := 0x20, stride := 0x8, count := 1, row := { rw := 0x0, st := 0x0, w1c := 0x0, w1s := 0x0, rc := 0xffffffffffffffff, wo := 0x0, keep := 0x0, cold := 0x0 } },
  { base := 0x28, stride := 0x8, count := 1, row := { rw := 0x0, st := 0x0, w1c := 0x0, w1s := 0x0, rc := 0x0, wo := 0x0, keep := 0x0, cold := 0x0 } },
  { base := 0x30, stride := 0x8, count := 1, row := { rw := 0x0, st := 0x0, w1c := 0x0, w1s := 0x0, rc := 0x0, wo := 0x0, keep := 0x0, cold := 0x0 } },
  { base := 0x38, stride := 0x8, count := 1, row := { rw := 0x0, st := 0x0, w1c := 0x0, w1s := 0x0, rc := 0x0, wo := 0x0, keep := 0x0, cold := 0x0 } },
  { base := 0x40, stride := 0x8, count := 1, row := { rw := 0x0, st := 0x0, w1c := 0x0, w1s := 0x0, rc := 0xffffffff0000, wo := 0x0, keep := 0x0, cold := 0x0 } },
  { base := 0x48, stride := 0x8, count := 1, row := { rw := 0x0, st := 0x0, w1c := 0x0, w1s := 0x0, rc := 0x0, wo := 0x0, keep := 0x0, cold := 0x0 } } ]

/-- The rows of the map of block mov. -/
def rows_mov : List RegPat := [
  { base := 0x0, stride := 0x8, count := 1, row := { rw := 0x0, st := 0x0, w1c := 0x0, w1s := 0x0, rc := 0x0, wo := 0x0, keep := 0x0, cold := 0x0 } },
  { base := 0x8, stride := 0x8, count := 1, row := { rw := 0x1, st := 0x0, w1c := 0x0, w1s := 0x0, rc := 0x0, wo := 0x0, keep := 0x0, cold := 0x0 } },
  { base := 0x10, stride := 0x8, count := 1, row := { rw := 0x0, st := 0x0, w1c := 0x0, w1s := 0x0, rc := 0x0, wo := 0x0, keep := 0x0, cold := 0x0 } },
  { base := 0x18, stride := 0x8, count := 1, row := { rw := 0x0, st := 0x0, w1c := 0x0, w1s := 0x0, rc := 0xffffffffffffffff, wo := 0x0, keep := 0x0, cold := 0x0 } },
  { base := 0x20, stride := 0x8, count := 1, row := { rw := 0x0, st := 0x0, w1c := 0x0, w1s := 0x0, rc := 0xffffffffffff, wo := 0x0, keep := 0x0, cold := 0x0 } },
  { base := 0x28, stride := 0x8, count := 1, row := { rw := 0x0, st := 0x0, w1c := 0x0, w1s := 0x0, rc := 0x0, wo := 0x0, keep := 0x0, cold := 0x0 } },
  { base := 0x30, stride := 0x8, count := 1, row := { rw := 0x0, st := 0x0, w1c := 0x0, w1s := 0x0, rc := 0x0, wo := 0x0, keep := 0x0, cold := 0x0 } },
  { base := 0x38, stride := 0x8, count := 1, row := { rw := 0x0, st := 0x0, w1c := 0x0, w1s := 0x0, rc := 0x0, wo := 0x0, keep := 0x0, cold := 0x0 } } ]

/-- The rows of the map of block ryf0. -/
def rows_ryf0 : List RegPat := [
  { base := 0x0, stride := 0x8, count := 1, row := { rw := 0x0, st := 0xff0f31, w1c := 0x0, w1s := 0x0, rc := 0x0, wo := 0x0, keep := 0x0, cold := 0x640211 } },
  { base := 0x8, stride := 0x8, count := 1, row := { rw := 0x0, st := 0x0, w1c := 0x0, w1s := 0x0, rc := 0x0, wo := 0x0, keep := 0x0, cold := 0x0 } },
  { base := 0x10, stride := 0x8, count := 1, row := { rw := 0x0, st := 0x0, w1c := 0x0, w1s := 0x0, rc := 0x0, wo := 0x0, keep := 0x0, cold := 0x0 } },
  { base := 0x18, stride := 0x8, count := 1, row := { rw := 0x0, st := 0x0, w1c := 0x0, w1s := 0x0, rc := 0x0, wo := 0x0, keep := 0x0, cold := 0x0 } },
  { base := 0x20, stride := 0x8, count := 1, row := { rw := 0x0, st := 0x0, w1c := 0x0, w1s := 0x0, rc := 0x0, wo := 0x0, keep := 0x0, cold := 0x0 } },
  { base := 0x28, stride := 0x8, count := 1, row := { rw := 0xffff, st := 0x0, w1c := 0x0, w1s := 0x0, rc := 0x0, wo := 0x0, keep := 0x0, cold := 0x0 } },
  { base := 0x30, stride := 0x8, count := 1, row := { rw := 0x0, st := 0x0, w1c := 0x0, w1s := 0x0, rc := 0x0, wo := 0x0, keep := 0x0, cold := 0x0 } },
  { base := 0x38, stride := 0x8, count := 1, row := { rw := 0x0, st := 0x0, w1c := 0x0, w1s := 0x0, rc := 0x0, wo := 0x0, keep := 0x0, cold := 0x0 } },
  { base := 0x40, stride := 0x8, count := 1, row := { rw := 0x0, st := 0x0, w1c := 0x0, w1s := 0x0, rc := 0x0, wo := 0x0, keep := 0x0, cold := 0x0 } },
  { base := 0x48, stride := 0x8, count := 1, row := { rw := 0x0, st := 0x0, w1c := 0x0, w1s := 0x0, rc := 0xffffffffffffffff, wo := 0x0, keep := 0x0, cold := 0x0 } } ]

/-- The rows of the map of block ryf1. -/
def rows_ryf1 : List RegPat := [
  { base := 0x0, stride := 0x100, count := 16, row := { rw := 0x33, st := 0x0, w1c := 0x0, w1s := 0x0, rc := 0x0, wo := 0x0, keep := 0x0, cold := 0x31 } },
  { base := 0x8, stride := 0x100, count := 16, row := { rw := 0x0, st := 0x0, w1c := 0x0, w1s := 0x0, rc := 0x0, wo := 0x0, keep := 0x0, cold := 0x0 } },
  { base := 0x10, stride := 0x100, count := 16, row := { rw := 0x0, st := 0x0, w1c := 0x0, w1s := 0x0, rc := 0x0, wo := 0x0, keep := 0x0, cold := 0x0 } },
  { base := 0x18, stride := 0x100, count := 16, row := { rw := 0x0, st := 0x0, w1c := 0x0, w1s := 0x0, rc := 0x0, wo := 0x0, keep := 0x0, cold := 0x0 } },
  { base := 0x20, stride := 0x100, count := 16, row := { rw := 0x0, st := 0x0, w1c := 0x0, w1s := 0x0, rc := 0x0, wo := 0x0, keep := 0x0, cold := 0x0 } },
  { base := 0x28, stride := 0x100, count := 16, row := { rw := 0x0, st := 0x0, w1c := 0x0, w1s := 0x0, rc := 0x0, wo := 0x0, keep := 0x0, cold := 0x0 } },
  { base := 0x30, stride := 0x100, count := 16, row := { rw := 0x0, st := 0x0, w1c := 0x0, w1s := 0x0, rc := 0x0, wo := 0x0, keep := 0x0, cold := 0x0 } },
  { base := 0x38, stride := 0x100, count := 16, row := { rw := 0x0, st := 0x0, w1c := 0x0, w1s := 0x0, rc := 0x0, wo := 0x0, keep := 0x0, cold := 0x0 } },
  { base := 0x40, stride := 0x100, count := 16, row := { rw := 0x0, st := 0x0, w1c := 0x0, w1s := 0x0, rc := 0x0, wo := 0x0, keep := 0x0, cold := 0x0 } },
  { base := 0x48, stride := 0x100, count := 16, row := { rw := 0x0, st := 0x0, w1c := 0x0, w1s := 0x0, rc := 0xffffffffffffffff, wo := 0x0, keep := 0x0, cold := 0x0 } },
  { base := 0x50, stride := 0x100, count := 16, row := { rw := 0x0, st := 0x0, w1c := 0x0, w1s := 0x0, rc := 0xffffffffffffffff, wo := 0x0, keep := 0x0, cold := 0x0 } } ]

/-- The rows of the map of block ryf2. -/
def rows_ryf2 : List RegPat := [
  { base := 0x0, stride := 0x8, count := 8192, row := { rw := 0x0, st := 0x0, w1c := 0x0, w1s := 0x0, rc := 0x0, wo := 0x0, keep := 0x0, cold := 0x0 } } ]

/-- The rows of the map of block ryf3. -/
def rows_ryf3 : List RegPat := [
  { base := 0x0, stride := 0x8, count := 8192, row := { rw := 0x0, st := 0x0, w1c := 0x0, w1s := 0x0, rc := 0x0, wo := 0x0, keep := 0x0, cold := 0x0 } } ]

/-- The rows of the map of block red. -/
def rows_red : List RegPat := [
  { base := 0x0, stride := 0x8, count := 1, row := { rw := 0x11f, st := 0x0, w1c := 0x0, w1s := 0x0, rc := 0x0, wo := 0x0, keep := 0x0, cold := 0x6 } },
  { base := 0x8, stride := 0x8, count := 1, row := { rw := 0xfffffff00000, st := 0x0, w1c := 0x0, w1s := 0x0, rc := 0x0, wo := 0x0, keep := 0x0, cold := 0x0 } },
  { base := 0x10, stride := 0x8, count := 1, row := { rw := 0xfffffffffff00000, st := 0x0, w1c := 0x0, w1s := 0x0, rc := 0x0, wo := 0x0, keep := 0x0, cold := 0x0 } },
  { base := 0x18, stride := 0x8, count := 1, row := { rw := 0x0, st := 0x0, w1c := 0x0, w1s := 0x0, rc := 0x0, wo := 0x0, keep := 0x0, cold := 0x0 } },
  { base := 0x20, stride := 0x8, count := 1, row := { rw := 0x0, st := 0x0, w1c := 0x0, w1s := 0x0, rc := 0xffffffffffffffff, wo := 0x0, keep := 0x0, cold := 0x0 } },
  { base := 0x28, stride := 0x8, count := 1, row := { rw := 0x0, st := 0x0, w1c := 0x0, w1s := 0x0, rc := 0xffffffffffffffff, wo := 0x0, keep := 0x0, cold := 0x0 } },
  { base := 0x30, stride := 0x8, count := 1, row := { rw := 0x0, st := 0x0, w1c := 0x0, w1s := 0x0, rc := 0xffffffffffffffff, wo := 0x0, keep := 0x0, cold := 0x0 } },
  { base := 0x38, stride := 0x8, count := 1, row := { rw := 0x0, st := 0x0, w1c := 0x0, w1s := 0x0, rc := 0x0, wo := 0xffffffffffffff, keep := 0x0, cold := 0x0 } },
  { base := 0x40, stride := 0x8, count := 1, row := { rw := 0x0, st := 0x0, w1c := 0x0, w1s := 0x0, rc := 0x0, wo := 0x0, keep := 0x0, cold := 0x0 } },
  { base := 0x48, stride := 0x8, count := 1, row := { rw := 0x0, st := 0x0, w1c := 0x0, w1s := 0x0, rc := 0x0, wo := 0x0, keep := 0x0, cold := 0x0 } },
  { base := 0x100, stride := 0x10, count := 10, row := { rw := 0xffffffffffffffff, st := 0x0, w1c := 0x0, w1s := 0x0, rc := 0x0, wo := 0x0, keep := 0x0, cold := 0x0 } },
  { base := 0x108, stride := 0x10, count := 10, row := { rw := 0x8000000000000000, st := 0x0, w1c := 0x0, w1s := 0x0, rc := 0x0, wo := 0x0, keep := 0x0, cold := 0x0 } },
  { base := 0x200, stride := 0x8, count := 8, row := { rw := 0x0, st := 0x0, w1c := 0x0, w1s := 0x0, rc := 0x0, wo := 0x0, keep := 0x0, cold := 0x0 } } ]

/-- The rows of the map of block trn. -/
def rows_trn : List RegPat := [
  { base := 0x0, stride := 0x8, count := 1, row := { rw := 0xff07, st := 0x0, w1c := 0x0, w1s := 0x0, rc := 0x0, wo := 0x0, keep := 0x0, cold := 0x1 } },
  { base := 0x8, stride := 0x8, count := 1, row := { rw := 0x0, st := 0x0, w1c := 0x2, w1s := 0x0, rc := 0x0, wo := 0x0, keep := 0x0, cold := 0x0 } },
  { base := 0x10, stride := 0x8, count := 1, row := { rw := 0xffffffffffff, st := 0x0, w1c := 0x0, w1s := 0x0, rc := 0x0, wo := 0x0, keep := 0x0, cold := 0x0 } },
  { base := 0x18, stride := 0x8, count := 1, row := { rw := 0x0, st := 0x0, w1c := 0x0, w1s := 0x0, rc := 0x0, wo := 0x0, keep := 0x0, cold := 0x0 } },
  { base := 0x20, stride := 0x8, count := 1, row := { rw := 0x0, st := 0x0, w1c := 0x0, w1s := 0x0, rc := 0xffffffffffffffff, wo := 0x0, keep := 0x0, cold := 0x0 } },
  { base := 0x28, stride := 0x8, count := 1, row := { rw := 0x0, st := 0x0, w1c := 0x0, w1s := 0x0, rc := 0xfffffffffffffff0, wo := 0x0, keep := 0x0, cold := 0x0 } },
  { base := 0x30, stride := 0x8, count := 1, row := { rw := 0x0, st := 0x0, w1c := 0x0, w1s := 0x0, rc := 0x0, wo := 0xffffffffffffffff, keep := 0x0, cold := 0x0 } },
  { base := 0x38, stride := 0x8, count := 1, row := { rw := 0xffffffffffffff0f, st := 0x0, w1c := 0x0, w1s := 0x0, rc := 0x0, wo := 0x0, keep := 0x0, cold := 0x602005 } },
  { base := 0x40, stride := 0x8, count := 1, row := { rw := 0xffffffffffffffff, st := 0x0, w1c := 0x0, w1s := 0x0, rc := 0x0, wo := 0x0, keep := 0x0, cold := 0x0 } },
  { base := 0x48, stride := 0x8, count := 1, row := { rw := 0x0, st := 0x0, w1c := 0x0, w1s := 0x0, rc := 0x0, wo := 0x0, keep := 0x0, cold := 0x0 } },
  { base := 0x50, stride := 0x8, count := 1, row := { rw := 0x0, st := 0x0, w1c := 0x0, w1s := 0x0, rc := 0x0, wo := 0xffffffffffff, keep := 0x0, cold := 0x0 } },
  { base := 0x58, stride := 0x8, count := 1, row := { rw := 0xffffffffffff0000, st := 0x0, w1c := 0x0, w1s := 0x0, rc := 0x0, wo := 0x0, keep := 0x0, cold := 0x0 } },
  { base := 0x60, stride := 0x8, count := 4, row := { rw := 0x8fffffffc0000000, st := 0x0, w1c := 0x0, w1s := 0x0, rc := 0x0, wo := 0x0, keep := 0x0, cold := 0x0 } },
  { base := 0x80, stride := 0x8, count := 1, row := { rw := 0x0, st := 0x0, w1c := 0x0, w1s := 0x0, rc := 0x0, wo := 0x0, keep := 0x0, cold := 0x0 } },
  { base := 0x88, stride := 0x8, count := 1, row := { rw := 0xffffffffffffffff, st := 0x0, w1c := 0x0, w1s := 0x0, rc := 0x0, wo := 0x0, keep := 0x0, cold := 0x0 } },
  { base := 0x90, stride := 0x8, count := 1, row := { rw := 0x0, st := 0x0, w1c := 0x0, w1s := 0x0, rc := 0x0, wo := 0x3, keep := 0x0, cold := 0x0 } },
  { base := 0x98, stride := 0x8, count := 1, row := { rw := 0x0, st := 0x0, w1c := 0x0, w1s := 0x0, rc := 0x0, wo := 0x0, keep := 0x0, cold := 0x0 } },
  { base := 0xa0, stride := 0x8, count := 1, row := { rw := 0xffffffffffff, st := 0x0, w1c := 0x0, w1s := 0x0, rc := 0x0, wo := 0x0, keep := 0x0, cold := 0x0 } } ]

/-- The rows of the map of block pend. -/
def rows_pend : List RegPat := [
  { base := 0x0, stride := 0x8, count := 1, row := { rw := 0xffffffff003ff003, st := 0x0, w1c := 0x0, w1s := 0x0, rc := 0x0, wo := 0x0, keep := 0x0, cold := 0x100000c8000 } },
  { base := 0x8, stride := 0x8, count := 1, row := { rw := 0x0, st := 0x0, w1c := 0x0, w1s := 0x0, rc := 0x0, wo := 0x1d, keep := 0x0, cold := 0x0 } },
  { base := 0x10, stride := 0x8, count := 1, row := { rw := 0x0, st := 0x0, w1c := 0x0, w1s := 0x0, rc := 0x0, wo := 0x0, keep := 0x0, cold := 0x0 } },
  { base := 0x18, stride := 0x8, count := 1, row := { rw := 0x0, st := 0x0, w1c := 0x0, w1s := 0x0, rc := 0x0, wo := 0x0, keep := 0x0, cold := 0x0 } },
  { base := 0x20, stride := 0x8, count := 1, row := { rw := 0x0, st := 0x0, w1c := 0x0, w1s := 0x0, rc := 0x0, wo := 0x0, keep := 0x0, cold := 0x0 } },
  { base := 0x28, stride := 0x8, count := 1, row := { rw := 0x0, st := 0x0, w1c := 0x0, w1s := 0x0, rc := 0x0, wo := 0x0, keep := 0x0, cold := 0x0 } },
  { base := 0x30, stride := 0x8, count := 1, row := { rw := 0x0, st := 0x0, w1c := 0x0, w1s := 0x0, rc := 0xffffffffffffffff, wo := 0x0, keep := 0x0, cold := 0x0 } },
  { base := 0x38, stride := 0x8, count := 1, row := { rw := 0xfff0ffffc0000000, st := 0x0, w1c := 0x0, w1s := 0x0, rc := 0x0, wo := 0x0, keep := 0x0, cold := 0x0 } },
  { base := 0x40, stride := 0x8, count := 1, row := { rw := 0xfff0ffffc0000000, st := 0x0, w1c := 0x0, w1s := 0x0, rc := 0x0, wo := 0x0, keep := 0x0, cold := 0x0 } },
  { base := 0x48, stride := 0x8, count := 1, row := { rw := 0xfff0ffffc0000000, st := 0x0, w1c := 0x0, w1s := 0x0, rc := 0x0, wo := 0x0, keep := 0x0, cold := 0x0 } },
  { base := 0x50, stride := 0x8, count := 1, row := { rw := 0x0, st := 0x0, w1c := 0x0, w1s := 0x0, rc := 0x0, wo := 0x0, keep := 0x0, cold := 0x0 } },
  { base := 0x58, stride := 0x8, count := 1, row := { rw := 0xffffffffffff, st := 0x0, w1c := 0x0, w1s := 0x0, rc := 0x0, wo := 0x0, keep := 0x0, cold := 0x0 } },
  { base := 0x60, stride := 0x8, count := 1, row := { rw := 0x0, st := 0x0, w1c := 0x0, w1s := 0x0, rc := 0x0, wo := 0x0, keep := 0x0, cold := 0x0 } },
  { base := 0x68, stride := 0x8, count := 1, row := { rw := 0x0, st := 0x0, w1c := 0x0, w1s := 0x0, rc := 0xffffffffffffffff, wo := 0x0, keep := 0x0, cold := 0x0 } } ]

/-- The rows of the map of block hostp. -/
def rows_hostp : List RegPat := [
  { base := 0x0, stride := 0x8, count := 1, row := { rw := 0x0, st := 0xffffffff93, w1c := 0x0, w1s := 0x0, rc := 0x0, wo := 0x0, keep := 0x0, cold := 0x879a00002 } },
  { base := 0x8, stride := 0x8, count := 1, row := { rw := 0x0, st := 0x0, w1c := 0x0, w1s := 0x0, rc := 0x0, wo := 0x0, keep := 0x0, cold := 0x0 } },
  { base := 0x10, stride := 0x8, count := 1, row := { rw := 0xffffffffffff, st := 0x0, w1c := 0x0, w1s := 0x0, rc := 0x0, wo := 0x0, keep := 0xffffffffffff, cold := 0x0 } },
  { base := 0x18, stride := 0x8, count := 1, row := { rw := 0xffffffffffffffff, st := 0x0, w1c := 0x0, w1s := 0x0, rc := 0x0, wo := 0x0, keep := 0xffffffffffffffff, cold := 0x0 } },
  { base := 0x20, stride := 0x8, count := 1, row := { rw := 0xffffffffffffffff, st := 0x0, w1c := 0x0, w1s := 0x0, rc := 0x0, wo := 0x0, keep := 0xffffffffffffffff, cold := 0x0 } },
  { base := 0x28, stride := 0x8, count := 1, row := { rw := 0xffffffff, st := 0x0, w1c := 0x0, w1s := 0x0, rc := 0x0, wo := 0x0, keep := 0xffffffff, cold := 0x0 } },
  { base := 0x30, stride := 0x8, count := 1, row := { rw := 0x1fffffffffffffff, st := 0x0, w1c := 0x0, w1s := 0x0, rc := 0x0, wo := 0x0, keep := 0x0, cold := 0x0 } },
  { base := 0x38, stride := 0x8, count := 1, row := { rw := 0x30fff, st := 0x0, w1c := 0x0, w1s := 0x0, rc := 0x0, wo := 0x0, keep := 0x0, cold := 0x0 } },
  { base := 0x40, stride := 0x8, count := 1, row := { rw := 0x1ffffffffffffff, st := 0x0, w1c := 0x0, w1s := 0x0, rc := 0x0, wo := 0x0, keep := 0x0, cold := 0x0 } },
  { base := 0x48, stride := 0x8, count := 1, row := { rw := 0x3f007e, st := 0x0, w1c := 0x0, w1s := 0x0, rc := 0x0, wo := 0x0, keep := 0x0, cold := 0x0 } },
  { base := 0x50, stride := 0x8, count := 1, row := { rw := 0x1f00, st := 0x0, w1c := 0x1f, w1s := 0x0, rc := 0x0, wo := 0x0, keep := 0x1f1f, cold := 0x300 } },
  { base := 0x58, stride := 0x8, count := 1, row := { rw := 0x0, st := 0x0, w1c := 0x0, w1s := 0x0, rc := 0x0, wo := 0x0, keep := 0xffff, cold := 0x0 } },
  { base := 0x60, stride := 0x8, count := 1, row := { rw := 0x0, st := 0x0, w1c := 0x0, w1s := 0x0, rc := 0x0, wo := 0x0, keep := 0xff7f00007f01, cold := 0x0 } },
  { base := 0x68, stride := 0x8, count := 1, row := { rw := 0x0, st := 0x0, w1c := 0x0, w1s := 0x0, rc := 0xffffffffffffffff, wo := 0x0, keep := 0x0, cold := 0x0 } },
  { base := 0x70, stride := 0x8, count := 1, row := { rw := 0x0, st := 0x0, w1c := 0x0, w1s := 0x0, rc := 0xffffffffffffffff, wo := 0x0, keep := 0x0, cold := 0x0 } },
  { base := 0x78, stride := 0x8, count := 1, row := { rw := 0x0, st := 0x0, w1c := 0x0, w1s := 0x0, rc := 0xffffffffffffffff, wo := 0x0, keep := 0x0, cold := 0x0 } },
  { base := 0x80, stride := 0x8, count := 1, row := { rw := 0x0, st := 0x0, w1c := 0x0, w1s := 0x0, rc := 0xffffffffffffffff, wo := 0x0, keep := 0x0, cold := 0x0 } } ]

/-- The rows of the map of block sec. -/
def rows_sec : List RegPat := [
  { base := 0x0, stride := 0x8, count := 1, row := { rw := 0x0, st := 0x0, w1c := 0x0, w1s := 0x0, rc := 0x0, wo := 0x0, keep := 0xffff030700, cold := 0x0 } },
  { base := 0x8, stride := 0x8, count := 1, row := { rw := 0x3, st := 0x0, w1c := 0x0, w1s := 0x0, rc := 0x0, wo := 0x0, keep := 0x0, cold := 0x1 } },
  { base := 0x10, stride := 0x8, count := 1, row := { rw := 0x0, st := 0x0, w1c := 0x0, w1s := 0x0, rc := 0x0, wo := 0xf, keep := 0x0, cold := 0x0 } },
  { base := 0x18, stride := 0x8, count := 1, row := { rw := 0x0, st := 0x0, w1c := 0x0, w1s := 0x0, rc := 0x0, wo := 0x0, keep := 0x300, cold := 0x0 } },
  { base := 0x20, stride := 0x8, count := 1, row := { rw := 0x0, st := 0x0, w1c := 0x0, w1s := 0x0, rc := 0x0, wo := 0x0, keep := 0x1ffffffffff, cold := 0x0 } },
  { base := 0x28, stride := 0x8, count := 1, row := { rw := 0x0, st := 0x0, w1c := 0x0, w1s := 0x0, rc := 0x0, wo := 0x0, keep := 0x1ffffffffff, cold := 0x0 } },
  { base := 0x30, stride := 0x8, count := 1, row := { rw := 0xffffffffffffffff, st := 0x0, w1c := 0x0, w1s := 0x0, rc := 0x0, wo := 0x0, keep := 0x0, cold := 0x0 } },
  { base := 0x38, stride := 0x8, count := 1, row := { rw := 0x0, st := 0x0, w1c := 0x0, w1s := 0x0, rc := 0x0, wo := 0x0, keep := 0x0, cold := 0x0 } },
  { base := 0x40, stride := 0x8, count := 1, row := { rw := 0x0, st := 0x0, w1c := 0x0, w1s := 0x0, rc := 0xffffffffffffffff, wo := 0x0, keep := 0x0, cold := 0x0 } },
  { base := 0x100, stride := 0x8, count := 32, row := { rw := 0x0, st := 0x0, w1c := 0x0, w1s := 0x0, rc := 0x0, wo := 0x0, keep := 0xffffffffffffffff, cold := 0x0 } },
  { base := 0x200, stride := 0x8, count := 4, row := { rw := 0x0, st := 0x0, w1c := 0x0, w1s := 0x0, rc := 0x0, wo := 0x0, keep := 0xffffffffffffffff, cold := 0x0 } } ]

/-- The rows of the map of block pwr. -/
def rows_pwr : List RegPat := [
  { base := 0x0, stride := 0x8, count := 1, row := { rw := 0x0, st := 0x0, w1c := 0x100, w1s := 0x0, rc := 0x0, wo := 0x0, keep := 0x100, cold := 0x0 } },
  { base := 0x8, stride := 0x8, count := 1, row := { rw := 0x0, st := 0xffff, w1c := 0x0, w1s := 0x0, rc := 0x0, wo := 0x0, keep := 0x0, cold := 0x0 } },
  { base := 0x10, stride := 0x8, count := 1, row := { rw := 0xffffffffffffff, st := 0x0, w1c := 0x0, w1s := 0x0, rc := 0x0, wo := 0x0, keep := 0x0, cold := 0xffffffffffffff } },
  { base := 0x18, stride := 0x8, count := 1, row := { rw := 0x0, st := 0x0, w1c := 0x0, w1s := 0x0, rc := 0x0, wo := 0x0, keep := 0xffffffffffffff, cold := 0x0 } },
  { base := 0x20, stride := 0x8, count := 1, row := { rw := 0x0, st := 0xff, w1c := 0x0, w1s := 0x0, rc := 0x0, wo := 0x0, keep := 0x0, cold := 0x73 } },
  { base := 0x28, stride := 0x8, count := 1, row := { rw := 0x0, st := 0xffffff, w1c := 0x0, w1s := 0x0, rc := 0x0, wo := 0x0, keep := 0x0, cold := 0x6e5f05 } },
  { base := 0x30, stride := 0x8, count := 1, row := { rw := 0x0, st := 0x0, w1c := 0x0, w1s := 0x0, rc := 0x0, wo := 0x0, keep := 0x0, cold := 0x0 } },
  { base := 0x38, stride := 0x8, count := 1, row := { rw := 0x0, st := 0x0, w1c := 0x0, w1s := 0x0, rc := 0xffffffffffffffff, wo := 0x0, keep := 0x0, cold := 0x0 } },
  { base := 0x40, stride := 0x8, count := 1, row := { rw := 0x0, st := 0x0, w1c := 0x0, w1s := 0x0, rc := 0x0, wo := 0x0, keep := 0xffffffffffffff, cold := 0x0 } } ]

/-- The rows of the map of block dpwr. -/
def rows_dpwr : List RegPat := [
  { base := 0x0, stride := 0x8, count := 1, row := { rw := 0x0, st := 0x707, w1c := 0x0, w1s := 0x0, rc := 0x0, wo := 0x0, keep := 0x0, cold := 0x400 } },
  { base := 0x8, stride := 0x8, count := 1, row := { rw := 0x0, st := 0x0, w1c := 0x0, w1s := 0x0, rc := 0x0, wo := 0x0, keep := 0x0, cold := 0x0 } } ]

/-- The rows of the map of block err. -/
def rows_err : List RegPat := [
  { base := 0x0, stride := 0x8, count := 1, row := { rw := 0x0, st := 0x0, w1c := 0x0, w1s := 0x0, rc := 0x0, wo := 0x0, keep := 0xffffffffffffffff, cold := 0x0 } },
  { base := 0x8, stride := 0x8, count := 1, row := { rw := 0xffffffffffffffff, st := 0x0, w1c := 0x0, w1s := 0x0, rc := 0x0, wo := 0x0, keep := 0xffffffffffffffff, cold := 0x0 } },
  { base := 0x10, stride := 0x8, count := 1, row := { rw := 0xffff0003, st := 0x0, w1c := 0x0, w1s := 0x0, rc := 0x0, wo := 0x0, keep := 0x0, cold := 0x1000002 } },
  { base := 0x18, stride := 0x8, count := 1, row := { rw := 0x0, st := 0x0, w1c := 0x0, w1s := 0x0, rc := 0x0, wo := 0x1, keep := 0x0, cold := 0x0 } },
  { base := 0x20, stride := 0x8, count := 1, row := { rw := 0x0, st := 0x0, w1c := 0x0, w1s := 0x0, rc := 0x0, wo := 0x0, keep := 0x1, cold := 0x0 } },
  { base := 0x28, stride := 0x8, count := 1, row := { rw := 0x0, st := 0x0, w1c := 0x0, w1s := 0x0, rc := 0xffffffffffffffff, wo := 0x0, keep := 0xffffffffffffffff, cold := 0x0 } },
  { base := 0x30, stride := 0x8, count := 1, row := { rw := 0x0, st := 0x0, w1c := 0x0, w1s := 0x0, rc := 0xffffffffffffffff, wo := 0x0, keep := 0x0, cold := 0x0 } },
  { base := 0x100, stride := 0x8, count := 8, row := { rw := 0x0, st := 0x0, w1c := 0x0, w1s := 0x0, rc := 0x0, wo := 0x0, keep := 0xffffffffffffffff, cold := 0x0 } },
  { base := 0x8000, stride := 0x8, count := 4096, row := { rw := 0x0, st := 0x0, w1c := 0x0, w1s := 0x0, rc := 0x0, wo := 0x0, keep := 0xffffffffffffffff, cold := 0x0 } } ]

/-- The rows of the map of block pert. -/
def rows_pert : List RegPat := [
  { base := 0x0, stride := 0x8, count := 1, row := { rw := 0x7f, st := 0x0, w1c := 0x0, w1s := 0x0, rc := 0x0, wo := 0x0, keep := 0x0, cold := 0x0 } },
  { base := 0x8, stride := 0x8, count := 1, row := { rw := 0xffffffffffffffff, st := 0x0, w1c := 0x0, w1s := 0x0, rc := 0x0, wo := 0x0, keep := 0x0, cold := 0x1 } },
  { base := 0x10, stride := 0x8, count := 1, row := { rw := 0xffffffffffff, st := 0x0, w1c := 0x0, w1s := 0x0, rc := 0x0, wo := 0x0, keep := 0x0, cold := 0x0 } },
  { base := 0x18, stride := 0x8, count := 1, row := { rw := 0xffffffff0003ffff, st := 0x0, w1c := 0x0, w1s := 0x0, rc := 0x0, wo := 0x0, keep := 0x0, cold := 0x0 } },
  { base := 0x20, stride := 0x8, count := 1, row := { rw := 0xffffff00ffffffff, st := 0x0, w1c := 0x0, w1s := 0x0, rc := 0x0, wo := 0x0, keep := 0x0, cold := 0x0 } },
  { base := 0x28, stride := 0x8, count := 1, row := { rw := 0xffff00ff70000000, st := 0x0, w1c := 0x0, w1s := 0x0, rc := 0x0, wo := 0x0, keep := 0x0, cold := 0x0 } },
  { base := 0x30, stride := 0x8, count := 1, row := { rw := 0xffff00000000ffff, st := 0x0, w1c := 0x0, w1s := 0x0, rc := 0x0, wo := 0x0, keep := 0x0, cold := 0x0 } },
  { base := 0x38, stride := 0x8, count := 1, row := { rw := 0xfffff001f, st := 0x0, w1c := 0x0, w1s := 0x0, rc := 0x0, wo := 0x0, keep := 0x0, cold := 0x0 } },
  { base := 0x40, stride := 0x8, count := 1, row := { rw := 0xffffffffffff, st := 0x0, w1c := 0x0, w1s := 0x0, rc := 0x0, wo := 0x0, keep := 0x0, cold := 0x0 } },
  { base := 0x48, stride := 0x8, count := 1, row := { rw := 0xffffffffffffffff, st := 0x0, w1c := 0x0, w1s := 0x0, rc := 0x0, wo := 0x0, keep := 0x0, cold := 0x0 } },
  { base := 0x50, stride := 0x8, count := 1, row := { rw := 0xff01, st := 0x0, w1c := 0x0, w1s := 0x0, rc := 0x0, wo := 0x0, keep := 0x0, cold := 0x0 } },
  { base := 0x58, stride := 0x8, count := 1, row := { rw := 0x0, st := 0x0, w1c := 0x0, w1s := 0x0, rc := 0xffffffffffffffff, wo := 0x0, keep := 0x0, cold := 0x0 } } ]

/-- The block of a local address inside the register window and the offset in it (R30); none: no listed block. -/
def blockOf (a : Nat) : Option (Block × Nat) :=
  if a < regWindow then none else
  let o := a - regWindow
  let off := o % 0x10000
  let b := o / 0x10000
  if b = 0 then some (.hubId, off) else if b = 1 then some (.sec, off) else if b = 2 then some (.beat, off)
  else if b = 3 then some (.pwr, off) else if b = 4 then some (.hostp, off)
  else if b = 5 then some (.ryf 0, off) else if b = 6 then some (.ryf 1, off) else if b = 7 then some (.ryf 2, off)
  else if b = 8 then some (.ryf 3, off) else if b = 9 then some (.pend, off) else if b = 10 then some (.red, off)
  else if b = 11 then some (.err, off) else if b = 12 then some (.pert, off) else if b = 13 then some (.lock, off)
  else if b = 14 then some (.cpq, off) else if b = 15 then some (.trn, off)
  else if 0x100 ≤ b ∧ b < 0x140 then
    let d : Fin 4 := Fin.ofNat 4 ((b - 0x100) / 16)
    let k := b % 16
    if k = 0 then some (.canv d, off) else if k = 1 then some (.pal d, off) else if k = 2 then some (.slv d, off)
    else if k = 3 then some (.mov d, off) else if k = 4 then some (.cpd d, off) else if k = 5 then some (.dpwr d, off)
    else if k = 6 then some (.dlock d, off) else if k = 7 then some (.ddbg d, off) else if k = 8 then some (.rand d, off)
    else none
  else if 0x200 ≤ b ∧ b < 0x210 then some (.nma (Fin.ofNat 16 (b - 0x200)), off)
  else none

/-- The map of a block. -/
def rowsOf : Block → List RegPat
  | .hubId => rows_hubId | .sec => rows_sec | .beat => rows_beat | .pwr => rows_pwr | .hostp => rows_hostp
  | .ryf p => if p = 0 then rows_ryf0 else if p = 1 then rows_ryf1 else if p = 2 then rows_ryf2 else rows_ryf3
  | .pend => rows_pend | .red => rows_red | .err => rows_err | .pert => rows_pert | .lock => rows_lock
  | .cpq => rows_cp | .trn => rows_trn | .canv _ => rows_canv | .pal _ => rows_pal | .slv _ => rows_slv
  | .mov _ => rows_mov | .cpd _ => rows_cp | .dpwr _ => rows_dpwr | .dlock _ => rows_dlock | .ddbg _ => rows_ddbg
  | .rand _ => rows_rand | .nma _ => rows_nma

/-- Offset `off` is one of the pattern's registers. -/
def RegPat.covers (p : RegPat) (off : Nat) : Bool :=
  p.base ≤ off && (off - p.base) % p.stride == 0 && (off - p.base) / p.stride < p.count

/-- The map row of a register address; none where the owning chapter defines no register (R31). -/
def rowOf (a : Nat) : Option RegRow :=
  match blockOf a with
  | none => none
  | some (b, off) => ((rowsOf b).find? (fun p => p.covers off)).map RegPat.row

/-- The Cold value of a register (R11); zero where no register stands. -/
def coldOf (a : Nat) : BitVec 64 :=
  match rowOf a with
  | some r => r.cold
  | none => 0

end Sys2Proof.Machine
end

