-- ==== Sys2Proof/Machine/State.lean ====
section
/-!
DEFINITION. The state of the module: plain data holding every piece of state the spec names (INVENTORY.md lists it), and
the state right after a cold reset.
-/

namespace Sys2Proof.Machine

/-- A finite map from numbers: keys strictly rising, no entry holding the value an unlisted key reads as. -/
abbrev Sparse (α : Type) := List (Nat × α)

/-- What the module sends or drives outward. `nums` and `bytes` hold what the constructor's docstring says. -/
inductive OutKind where
  /-- the value a register read returned: nums = [address, value] -/
  | value
  /-- an access refused with the access-error status of its path: nums = [address] -/
  | accessError
  /-- a fabric packet leaving a port: nums = [port, type, vc, dst, src, seq, addr, err, retry, hops, lseq], bytes = body -/
  | packet
  /-- a credit return: nums = [port, lseq, lack, cvc, cn]; a resend of the retry buffer: nums = [port, first lseq] -/
  | linkFrame
  /-- a link failure reported to the coordinator (R313): nums = [coordinator serial, own address, port, peer serial] -/
  | portReport
  /-- a host Ethernet message: nums by the sender, bytes = its payload -/
  | host
  /-- a TCT response: nums = [session, seq, key, type, status], bytes = payload after the status, then the tag -/
  | tct
  /-- a RoCEv2 packet: nums = [qpn, opcode, psn, syndrome], bytes -/
  | roce
  /-- a host event message: nums = [seq, retry, session], bytes = the 96-byte payload, then the tag -/
  | event
  /-- a sideband response: nums = [command, completion code], bytes = response data -/
  | sideband
  /-- a pendant-port message: nums = [port, type], bytes -/
  | pendant
  /-- a neighbour advertisement or ARP reply: nums by family -/
  | advert
  deriving DecidableEq, Repr

/-- One thing sent outward. -/
structure Out where
  kind : OutKind
  nums : List Nat
  bytes : List Byte
  deriving DecidableEq, Repr

/-- The beat tracker's internal state (R40 to R46). Times are in ac of the hub clock with 16 fraction bits, positions are
the 64 bits of R40 with the 16 further fraction bits below them. -/
structure Tracker where
  /-- the position `pos0` is held at time `t0`; while the position advances it runs from there to `pos1` at `t1` -/
  t0 : Nat
  pos0 : Nat
  t1 : Nat
  pos1 : Nat
  /-- period estimate P in ac with 16 fraction bits -/
  per : Nat
  /-- time of the last accepted edge or coasted boundary, and whether it was a real accepted edge -/
  lastE : Nat
  lastReal : Bool
  /-- consecutive coasted beats -/
  coasted : Nat
  /-- edges of the present acquisition run, newest first: time and, for a token, its number plus one (0: wire) -/
  acq : List (Nat × Nat)
  /-- time of the local generator's next boundary -/
  genNext : Nat
  /-- period of the generator in rc while a takeover master (R38) -/
  genRc : Nat
  /-- master followed: rank and serial (R39) -/
  follow : Option (Nat × Nat)
  deriving DecidableEq, Repr

/-- What a waiting queue waits on beyond QSTAT.WAIT_ON. -/
inductive WaitOn where
  /-- a WAITB: target position, destination register -/
  | beat (target : Nat) (rd : Nat)
  /-- a WAITE: epoch, destination register -/
  | epoch (e : Nat) (rd : Nat)
  /-- a SEMWAIT at a store -/
  | sem
  /-- a LOCK whose answer is awaited, from a local store (seq 0) or with this fabric request sequence number -/
  | lock (rd : Nat) (seq : Nat)
  /-- an UNLOCK at a remote store -/
  | unlock (seq : Nat)
  /-- a FENCE with its scopes -/
  | fence (scope : Nat)
  /-- a remote LD: destination register, size code, fabric sequence number -/
  | load (rd : Nat) (size : Nat) (seq : Nat)
  /-- the instruction at PC issues again when its cause has gone -/
  | reissue
  deriving DecidableEq, Repr

/-- Registers of a queue that no map shows (R194 to R216). -/
structure QueueInt where
  /-- a list is being executed: its ring entry's number, TAG, REC, MAXW, LIST, reserved slot and the words issued so far -/
  inList : Bool
  entry : Nat
  tag : Nat
  wantRec : Bool
  maxw : Nat
  slot : Nat
  issued : Nat
  wait : Option WaitOn
  /-- a DISABLE or a queue reset waits for the queue's started commands (R197, R438) -/
  disabling : Bool
  resetting : Bool
  /-- remote STs whose outcome is not known: fabric sequence number, PC of the word (R489) -/
  remoteSts : List (Nat × Nat)
  /-- a remote ST's refusal to be reported at the next instruction boundary: status, PC of the ST -/
  stFault : Option (Nat × Nat)
  deriving DecidableEq, Repr

/-- An idle, disabled queue. -/
def QueueInt.empty : QueueInt := ⟨false, 0, 0, false, 0, 0, 0, none, false, false, [], none⟩

/-- Where a dispatched command stands. -/
inductive Phase where
  | accepted
  | started
  | finished
  deriving DecidableEq, Repr

/-- A dispatched command (R212 to R216). -/
structure Cmd where
  queue : Nat
  seq : Nat
  /-- the 64 captured descriptor bytes -/
  desc : List Byte
  epoch : Nat
  pc : Nat
  /-- reserved completion slot plus one; 0: none -/
  slot : Nat
  unit : Nat
  phase : Phase
  status : Nat
  res0 : Nat
  res1 : Nat
  /-- the tick from which it may complete -/
  due : Nat
  /-- tensor-descriptor bytes read at issue under R219, by their global addresses -/
  capt : List (Nat × List Byte)
  /-- its queue was reset: it writes no record and signals nothing (R438) -/
  orphan : Bool
  /-- SAT and ZERO events per palette set of the die it used (R98) -/
  palDie : Nat
  tally : List (Nat × Nat)
  /-- remote bytes gathered by their global addresses, requests not yet answered, and the first failing answer (R279, R302) -/
  rx : List (Nat × List Byte)
  open_ : Nat
  rerr : Nat
  deriving DecidableEq, Repr

/-- A waiter on a semaphore (R233). -/
structure SemWaiter where
  store : Nat
  index : Nat
  queue : Nat
  n : Nat
  nocons : Bool
  deriving DecidableEq, Repr

/-- An owner or requester of a lock (R237). -/
structure LockOwner where
  module : Nat
  unit : Nat
  queue : Nat
  incarn : Nat
  qincarn : Nat
  deriving DecidableEq, Repr

/-- A waiter on a lock: its store, index, who it is, and the fabric sequence number of its request (0: local). -/
structure LockWaiter where
  store : Nat
  index : Nat
  owner : LockOwner
  seq : Nat
  /-- the requester is the partner's to answer (R369) -/
  mute : Bool
  deriving DecidableEq, Repr

/-- A requester of an arbiter (R225, R227): privileged ones by their order, others by class and number. -/
structure ArbReq where
  /-- 0 beat-token channel, 1 security engine, 2 to 5 MC0 to MC3, 6 pendant easel; 7: not privileged -/
  priv : Nat
  cls : Nat
  number : Nat
  deriving DecidableEq, Repr

/-- One arbiter (R224 to R231). -/
structure Arbiter where
  /-- grants of this window per class, and the arbitration cycles passed in it -/
  used : List Nat
  cycle : Nat
  /-- last requester granted in each class, plus one (0: none) -/
  last : List Nat
  holder : Option ArbReq
  /-- units granted to the holder in this burst, and cycles held by a privileged holder -/
  units : Nat
  held : Nat
  /-- privileged requesters cut off in this window, by their order -/
  cut : List Nat
  /-- kept progress of withdrawn requesters: who, units completed -/
  kept : List (ArbReq × Nat)
  /-- the last hints issued: who, value -/
  hints : List (ArbReq × Nat)
  deriving DecidableEq, Repr

/-- An arbiter after its reset. -/
def Arbiter.fresh : Arbiter := ⟨[0, 0, 0, 0], 0, [0, 0, 0, 0], none, 0, 0, [], [], []⟩

/-- A pending apply request (R244). `atBeat` is its boundary position; otherwise it is due at `dueAc` of its clock. -/
structure ApplyReq where
  atBeat : Bool
  dueAc : Nat
  target : Nat
  hubMask : Nat
  dieMask : Nat
  /-- the request came from BEAT_CTL -/
  fromBeat : Bool
  deriving DecidableEq, Repr

/-- A sector held in a stack's combining buffer (R269): its canonical address and the command that last touched it. -/
structure HeldSector where
  sector : Nat
  queue : Nat
  seq : Nat
  deriving DecidableEq, Repr

/-- A host event not yet acknowledged (R402). -/
structure HostEvent where
  seq : Nat
  payload : List Byte
  deriving DecidableEq, Repr

/-- The protective loops of one die (R450 to R453). -/
structure DieLoop where
  /-- points held by the thermal loop and by the cap loop -/
  pTherm : Nat
  pCap : Nat
  /-- ms since the last thermal step down while above T_STEP, and ms spent below T_STEP − HYST -/
  hotMs : Nat
  coolMs : Nat
  /-- the sensor's last reading -/
  temp : Nat
  /-- tick of the die's last point change, plus one (0: none since reset) -/
  lastChange : Nat
  /-- ticks into the present ac of the die, and its cycle count (R449) -/
  acPhase : Nat
  acCount : Nat
  /-- tick at which the present policy override began, plus one (0: none), and of its last record -/
  overStart : Nat
  overRec : Nat
  deriving DecidableEq, Repr

/-- A die's loops after reset. -/
def DieLoop.fresh : DieLoop := ⟨4, 4, 0, 0, 0, 0, 0, 0, 0, 0⟩

/-- The power unit's state that no register shows. -/
structure PowerInt where
  dies : List DieLoop
  /-- temperature of each stack, whether its 95 °C throttle holds -/
  stackTemp : List Nat
  stackThrottle : List Bool
  /-- requests to switch on that wait, in domain order, and domains switching on with the tick they are ready -/
  wantOn : List Nat
  turningOn : List (Nat × Nat)
  /-- 10 ms average: energy sum of the last ms intervals, newest first (W samples averaged per ms) -/
  avgMs : List Nat
  /-- sum and count of the limiter samples of the present ms -/
  msSum : Nat
  msCount : Nat
  /-- ms counted toward the cap loop's next release -/
  capMs : Nat
  /-- whether every sample of the present µs lay below 0.95 of the threshold, and samples seen in it -/
  usLow : Bool
  usCount : Nat
  /-- the cap loop's steps taken, newest first: the mask of the dies lowered, or 0 for the threshold hold -/
  capSteps : List Nat
  deriving DecidableEq, Repr

/-- The power unit after reset. -/
def PowerInt.fresh : PowerInt :=
  ⟨List.replicate 4 DieLoop.fresh, List.replicate 16 0, List.replicate 16 false, [], [], [], 0, 0, 0, true, 0, []⟩

/-- The tracker in IDLE. -/
def Tracker.idle : Tracker := ⟨0, 0, 0, 0, 0, 0, false, 0, [], 0, 0, none⟩

/-- A fabric packet held for order (R301) or in transit: header, type, payload bytes. -/
structure RawPkt where
  hdr : Hdr
  type : Nat
  body : List Byte
  deriving DecidableEq, Repr

/-- Who waits for the answer of a request that this module sent (R302). -/
inductive ReqOwner where
  /-- a remote LD of a queue -/
  | load (q : Nat)
  /-- a remote ST of a queue, its PC -/
  | store (q : Nat) (pc : Nat)
  /-- a broadcast ST of a queue (R317), its PC -/
  | bcast (q : Nat) (pc : Nat)
  /-- a LOCK or UNLOCK of a queue -/
  | lock (q : Nat)
  | unlock (q : Nat)
  /-- a lock waiter's withdrawal -/
  | none
  /-- a read or write of a command: queue and QSEQ -/
  | cmd (q : Nat) (n : Nat)
  /-- the probe read of the partner's incarnation (R379) -/
  | probe
  deriving DecidableEq, Repr

/-- The queue whose instruction or command waits. -/
def ReqOwner.queue : ReqOwner → Option Nat
  | .load q => some q
  | .store q _ => some q
  | .bcast q _ => some q
  | .lock q => some q
  | .unlock q => some q
  | .cmd q _ => some q
  | .none => Option.none
  | .probe => Option.none

/-- An unanswered request (R302): destination, channel, SEQ, packet, whether it was resent, who waits. -/
structure Request where
  dst : Nat
  vc : Nat
  seq : Nat
  type : Nat
  addr : Nat
  body : List Byte
  resent : Bool
  owner : ReqOwner
  sentAt : Nat
  /-- a LOCK that the store has taken into its waiter list (log 37) -/
  joined : Bool
  /-- its number among the remote requests of its queue since the pair was made (R370) -/
  nth : Nat
  deriving DecidableEq, Repr

/-- A request this module executed and how it answered (R302): source, channel, SEQ, answer, time. -/
structure Executed where
  src : Nat
  vc : Nat
  seq : Nat
  type : Nat
  err : Bool
  addr : Nat
  body : List Byte
  doneAt : Nat
  deriving DecidableEq, Repr

/-- Link-layer and discovery state of one port: 0 to 15 are L0 to L15, 16 and 17 are P0 and P1. -/
structure LinkPort where
  /-- LSEQ of the next frame sent; highest LSEQ received in order plus one -/
  txSeq : Nat
  rxNext : Nat
  /-- sent frames not yet acknowledged, oldest first: LSEQ, packet (the retry buffer) -/
  unacked : List (Nat × RawPkt)
  /-- credits held for sending, by VC, in 64-byte units, and credits owed back to the other end -/
  credits : Sparse Nat
  /-- tick of the last HELLO (or HEARTBEAT on a pendant port) received -/
  lastRx : Nat
  /-- echo exchanges answered, the smallest round trip in TU and the turnaround reported with it -/
  echoes : Nat
  rttMin : Nat
  turnMin : Nat
  /-- nonce of our admission challenge, fragments of the answer received, and whether the peer is admitted -/
  nonce : List Byte
  /-- tick of the challenge, plus one (0: none) -/
  chalAt : Nat
  frags : List (Nat × List Byte)
  admitted : Bool
  /-- what the peer's HELLO said -/
  peerIncarn : Nat
  peerAdmitReq : Bool
  peerElig : Bool
  peerPair : Nat
  peerMaxVer : Nat
  /-- lanes in use on a pendant port's link (R297; a fabric port's are RYF_PORT_STAT.WIDTH) -/
  lanes : Nat
  deriving DecidableEq, Repr

/-- A port that is down. -/
def LinkPort.down : LinkPort :=
  ⟨0, 0, [], [], 0, 0, 0, 0, [], 0, [], false, 0, false, false, 0, 0, 0⟩

/-- Fabric state of the module that no register shows. -/
structure FabricInt where
  /-- lowest eligible serial known plus one (0: none), and the tick of its last change (R307) -/
  lowest : Nat
  lowestSince : Nat
  /-- tick of the last MEMBER received -/
  memberAt : Nat
  /-- route fragments of a table not yet complete: epoch, total, fragments (index, first address, entries) -/
  routeEpoch : Nat
  routeNext : Nat
  routeFrags : List (Nat × Nat × List Word)
  /-- SEQ of the next packet of each flow sent, by 16 × dst + vc, and the next SEQ expected of each flow received -/
  txFlow : Sparse Nat
  rxFlow : Sparse Nat
  /-- packets that arrived ahead of a missing SEQ, with their arrival ticks (R301) -/
  early : List (Nat × RawPkt)
  requests : List Request
  executed : List Executed
  /-- tokens already forwarded: serial, number (R318), newest first -/
  tokens : List (Nat × Nat)
  /-- the coordinator's assignments: serial, address (R308) -/
  assigned : List (Nat × Nat)
  /-- serials that the coordinator excludes (R308, R309) -/
  excluded : List Nat
  /-- the last MEMBER flooded: its sender and SEQ, plus one (0: none) -/
  memberSeen : Nat
  /-- bulk packets waiting for credit: port-independent queue of (destination, vc, since tick) with their packet -/
  bulkWait : List (Nat × RawPkt)
  /-- lock requests that wait for a store in die reset (R236) -/
  lockOps : List RawPkt
  /-- remote requests of each queue since the pair was made (R370) -/
  issued : Sparse Nat
  deriving DecidableEq, Repr

/-- No fabric. -/
def FabricInt.fresh : FabricInt := ⟨0, 0, 0, 0, 0, [], [], [], [], [], [], [], [], [], 0, [], [], []⟩

/-- A snapshot that is running (R358 to R360). -/
structure Snap where
  epoch : Nat
  /-- regions: local address and length, in order; how many have been read; their bytes so far -/
  regions : List (Nat × Nat)
  done : Nat
  read : List Byte
  /-- the descriptor's bytes from 64 on -/
  table : List Byte
  va : Nat
  qp : Nat
  rkey : Nat
  /-- an uncorrectable read met -/
  bad : Bool
  /-- time stamp at the last region read -/
  stamp : List Byte
  /-- the manifest's signature: 0 not asked for, 1 asked for, 2 refused, 3 made; the manifest with its index, the signature -/
  signing : Nat
  manifest : List Byte
  sig : List Byte
  deriving DecidableEq, Repr

/-- One edge accumulator entry of one column (R108 to R111): the exact running sum on the grid 2^w, the tag, SAT, and the
STREAMs added since its tile's CLEAR. -/
structure AccEntry where
  v : Int
  w : Int
  tag : Nat
  sat : Bool
  streams : Nat
  deriving DecidableEq, Repr

/-- The empty sum with W = 0. -/
def AccEntry.empty : AccEntry := ⟨0, 0, 0, false, 0⟩

/-- A PRIME that waits at a gate (R130): its queue and QSEQ, whether its deadline had passed when armed, and whether
RELEASE_HELD released it. -/
structure GateWait where
  queue : Nat
  seq : Nat
  late : Bool
  released : Bool
  deriving DecidableEq, Repr

/-- A batch gate (R129 to R131): slots posted in the open batch with their tags, closes since reset or the join, masks of
the pendant's manifests by close count, PRIMEs waiting. -/
structure Gate where
  posts : List (Nat × Nat)
  closes : Nat
  masks : List (Nat × Nat)
  waits : List GateWait
  deriving DecidableEq, Repr

/-- A gate after reset. -/
def Gate.fresh : Gate := ⟨[], 0, [], []⟩

/-- An open tile (R138): entries not yet read by a DRAIN with CLEAR, and the number of the PRIME that loaded its bank. -/
structure OpenTile where
  left : List Nat
  start : Nat
  deriving DecidableEq, Repr

/-- What a problem keeps beside its banks and entries: the tick after its last STREAM's last read (R114), the tick its last
swap marker entered row 0 (R118), the numbers of the PRIMEs that loaded its active and shadow banks, its open tiles, and the
entries of tiles whose replay failed. -/
structure ProbInt where
  nextRead : Nat
  marker : Nat
  active : Nat
  shadow : Nat
  tiles : List OpenTile
  failed : List Nat
  deriving DecidableEq, Repr

/-- A problem after PACK or reset. -/
def ProbInt.fresh : ProbInt := ⟨0, 0, 0, 0, [], []⟩

/-- A RING STREAM in flight (R128): its DRAIN descriptor, rows streamed and drained, and the rows that wait to be drained
with the tick from which each is final. -/
structure RingInt where
  queue : Nat
  seq : Nat
  drain : List Byte
  streamed : Nat
  drained : Nat
  waiting : List (Nat × Nat)
  nonfinite : Nat
  counted : Bool
  bad : Bool
  deriving DecidableEq, Repr

/-- A REP that a brush is inside (R190): first instruction of the span, its length, iterations minus one, the iteration,
BSTRIDE and RSTEP. -/
structure RepState where
  start : Nat
  span : Nat
  count : Nat
  iter : Nat
  bstride : Nat
  rstep : Int
  deriving DecidableEq, Repr

/-- A brush that runs a program: its dispatch, the next instruction, REP, the random base, the tick until which its present
instruction occupies it. -/
structure BrushRun where
  queue : Nat
  seq : Nat
  index : Nat
  rep : Option RepState
  base : Nat
  busy : Nat
  deriving DecidableEq, Repr

/-- The carry and mask latches of a brush's lanes: lane l of its core c at bit 1024 c + l (R149). The scratch latch is 0 at
every instruction boundary. -/
structure Latches where
  carry : Nat
  mask : Nat
  deriving DecidableEq, Repr

/-- The latches at program start. -/
def Latches.start : Latches := ⟨0, 2 ^ 65536 - 1⟩

/-- A SLIVER_RUN that has started (R151): its dispatch, die and program, the captured palette and bind table (R186), the
captured lending mask and window (R168), brushes that stopped with their SLV_FAULT values, whether counters advanced, the
tick its last instruction ends. -/
structure SliverRun where
  queue : Nat
  seq : Nat
  die : Nat
  prog : Nat
  capt : Sparse Word
  lendMask : Nat
  lendBase : Nat
  lendCount : Nat
  stopped : List (Nat × Nat)
  counted : Bool
  until_ : Nat
  deriving DecidableEq, Repr

/-- A near-memory update that a stack has been sent and has not applied (R266, R268): the element's canonical address,
operation, format, value, OVF_INF, and the command that sent it. -/
structure NmaUpdate where
  addr : Nat
  op : Nat
  fmt : Nat
  val : Nat
  ovfInf : Bool
  queue : Nat
  seq : Nat
  deriving DecidableEq, Repr

/-- A member entry of a group (R321). -/
structure GMember where
  module : Nat
  backup : Nat
  node : Nat
  slot : Nat
  mirror : Bool
  deriving DecidableEq, Repr

/-- A registered group (R323): its ID, descriptor bytes, members by rank, this module's rank and whether it is the BACKUP,
CSEQ, and the epochs of the collectives it has started, newest first. -/
structure Group where
  gid : Nat
  bytes : List Byte
  members : List GMember
  rank : Nat
  backup : Bool
  cseq : Nat
  epochs : List Nat
  deriving DecidableEq, Repr

/-- An operand that a collective holds for one segment: codes in the order of its elements (none: absent), veto word. -/
structure OpVal where
  data : Option (List Nat)
  veto : Nat
  deriving DecidableEq, Repr

/-- A collective in flight (R328): its command, group slot and ID, CSEQ, epoch, COLL_DIGEST, format, extents of the global
shape, split dimension and shard size, home die and captured LEND_MASK (R330), sources present, destination descriptor,
operands known by key, operands sent, segments written, counts. -/
structure Coll where
  queue : Nat
  seq : Nat
  slot : Nat
  gid : Nat
  cseq : Nat
  code : Nat
  close : Bool
  epoch : Nat
  digest : List Byte
  fmt : Nat
  gext : List Nat
  split : Nat
  shard : Nat
  home : Nat
  lend : Nat
  srcs : List Bool
  dst : List Byte
  root : Nat
  deadline : Nat
  sampled : Bool
  late : Bool
  released : Bool
  /-- the veto word that this member's contribution carries, once its first segment is known (R337), and its VETO field -/
  word : Option Nat
  vfield : Nat
  ops : Sparse OpVal
  sent : List Nat
  written : List Nat
  /-- ranks whose contribution was substituted, missing or mismatched -/
  judged : List Nat
  mismatched : List Nat
  veto : Nat
  elems : Nat
  nonfinite : Nat
  subst : Nat
  counted : Bool
  linkFail : Bool
  dataErr : Bool
  /-- pendant checks not yet compared: step key and own digest (R334) -/
  checks : List (Nat × List Byte)
  deriving DecidableEq, Repr

/-- A segment received (R341): who sent it, what its header says, its packets so far, whether it is held by injection kind 2
until a tick, whether it has been acknowledged. -/
structure RedSeg where
  slot : Nat
  hdr : Hdr
  cseq : Nat
  sender : Nat
  level : Nat
  seg : Nat
  count : Nat
  epoch : Nat
  veto : Nat
  digest : List Byte
  pkts : List (Nat × List Byte)
  held : Nat
  acked : Bool
  deriving DecidableEq, Repr

/-- A segment sent and not acknowledged (R341): the flow and SEQ of its header, CSEQ, segment, its packets (type, address,
bytes), whether it was resent, its command. -/
structure RedTx where
  dst : Nat
  vc : Nat
  seq : Nat
  cseq : Nat
  seg : Nat
  pkts : List (Nat × Nat × List Byte)
  resent : Bool
  queue : Nat
  qseq : Nat
  sentAt : Nat
  deriving DecidableEq, Repr
/-- A message this module has sent as RoCEv2 requester and that is not acknowledged: first PSN, packets, address, R_Key,
bytes. -/
structure RoceTx where
  psn : Nat
  count : Nat
  va : Nat
  rkey : Nat
  bytes : List Byte
  deriving DecidableEq, Repr

/-- A RoCEv2 queue pair (R392, R393): 0 RESET, 1 RTS, 2 ERROR; its context; the next PSN expected, which every earlier one is
acknowledged below; SENDs received; the next PSN sent; messages not acknowledged; the tick they were last sent; retries used;
the send rate in 1/(20 × 2^40) of line rate; ticks plus one of the last cut, the last CNP sent and the last rate step. -/
structure Qp where
  state : Nat
  ctx : List Byte
  rqPsn : Nat
  sends : Nat
  sqPsn : Nat
  unacked : List RoceTx
  sentAt : Nat
  tries : Nat
  rate : Nat
  cutAt : Nat
  cnpAt : Nat
  stepAt : Nat
  deriving DecidableEq, Repr

/-- A queue pair in RESET. -/
def Qp.reset : Qp := ⟨0, [], 0, 0, 0, [], 0, 0, 0, 0, 0, 0⟩

/-- A TCT session (R399): the highest SEQ accepted, the requests of the window with the payload of their response once it
exists (an empty one: the request has no response), the source and the key slot of the last accepted message. -/
structure TctSession where
  high : Nat
  seen : List (Nat × Option (List Byte))
  peer : Nat
  key : Nat
  deriving DecidableEq, Repr

/-- A session that has seen nothing. -/
def TctSession.fresh : TctSession := ⟨0, [], 0, 0⟩

/-- A doorbell held behind a PSN fence (R401): session, SEQ, key slot, QTAIL address, value, QP, PSN. -/
structure HeldBell where
  session : Nat
  seq : Nat
  key : Nat
  addr : Nat
  value : Nat
  qpn : Nat
  psn : Nat
  deriving DecidableEq, Repr
/-- Who asked for an identity signature (R420, R422): a sideband report, an admission answer on a port, the snapshot, the
pendant join. -/
inductive SignOwner where
  | report
  | admission (port : Nat)
  | snapshot
  | join
  /-- its requester has gone: the signature is discarded, its index spent -/
  | gone
  deriving DecidableEq, Repr

/-- A signing request: its owner, the bytes to sign, and where SIG_INDEX goes in them plus one (0: nowhere). -/
structure SignReq where
  owner : SignOwner
  body : List Byte
  at_ : Nat
  deriving DecidableEq, Repr

/-- The recovery service (R416 to R419): owner of the host session with the tick of its last message, bytes received by each
door, the pendant port taken plus one, the length committed by a door: 0 none, and the door that won plus one. -/
structure Recov where
  owner : Option Nat
  ownerAt : Nat
  host : Sparse Byte
  pend : Sparse Byte
  pendPort : Nat
  pendNext : Nat
  winner : Nat
  length : Nat
  deriving DecidableEq, Repr

/-- No recovery session. -/
def Recov.none_ : Recov := ⟨none, 0, [], [], 0, 0, 0, 0⟩
/-- What the partner said of itself at the join (R367, R384): mode, whether it was SOLO, firmware, serial, straps, beat source
and master, module address, its window, reserved area and staging area registers, its nonce. -/
structure Partner where
  mode : Nat
  solo : Bool
  fw : Nat
  serial : Nat
  straps : Nat
  source : Nat
  master : Nat
  addr : Nat
  win : Word
  resv : Word
  darea : Word
  nonce : List Byte
  deriving DecidableEq, Repr

/-- Bytes of the partner's window staged in this module's DAREA (R377): epoch, partner address, bytes. -/
structure Staged where
  epoch : Nat
  addr : Nat
  bytes : List Byte
  deriving DecidableEq, Repr

/-- A REPLICATE with COMPARE that waits for the partner's digest (R374): queue, QSEQ, own digest, tick of the comparison. -/
structure CompareWait where
  queue : Nat
  seq : Nat
  own : List Byte
  since : Nat
  deriving DecidableEq, Repr

/-- The pair's state that no register shows. -/
structure PendInt where
  /-- tick of the last HEARTBEAT received -/
  lastHb : Nat
  /-- pair state before the join or the silence -/
  prev : Nat
  partner : Option Partner
  nonce : List Byte
  /-- the partner's report has passed its checks; this module's own report has been sent -/
  attested : Bool
  /-- an unanswered probe of the partner's incarnation: the tick it was sent, plus one (R379) -/
  probeAt : Nat
  /-- its answer: the incarnation read -/
  probeAns : Option Nat
  /-- ingress items the face holds until acknowledged, and those the back holds ahead of a missing one -/
  heldIn : List (Nat × IngressItem)
  /-- ingress items the face has sent -/
  ingSent : Nat
  /-- highest ingress sequence the back has acted on -/
  ingDone : Nat
  /-- advertisements still to be sent after a takeover and the tick of the next (R380) -/
  adverts : Nat
  advertAt : Nat
  /-- entries staged for the partner, in staging order, and the epoch a merge is running to, plus one -/
  staged : List Staged
  merging : Nat
  /-- bytes of the partner's DAREA that this module's DELTAs have taken, by epoch -/
  taken : List (Nat × Nat)
  /-- the RESYNC epoch of a FILLING copy has ended, plus one (R385) -/
  filled : Nat
  /-- a checkpoint write that waits for CONFIRM_ACK: value, tick sent (R377) -/
  confirm : Option (Nat × Nat)
  /-- REPLICATE comparisons waiting, and digests of the partner that came first -/
  compares : List CompareWait
  digests : List (Nat × Nat × List Byte)
  /-- the memory as this face has sent it in a join transfer, and whether it quiesces (R384) -/
  syncing : Bool
  synced : List Host.Cell
  quiesced : Bool
  /-- the block state has been sent (face) or received (back) -/
  blocksDone : Bool
  /-- a detach has handed over and sent its last HEARTBEAT (R386) -/
  detached : Bool
  deriving DecidableEq, Repr

/-- An unpaired module. -/
def PendInt.fresh : PendInt :=
  ⟨0, 0, none, [], false, 0, none, [], 0, 0, 0, 0, [], 0, [], 0, none, [], [], false, [], false, false, false⟩
/-- The whole state of the module. -/
structure State where
  /-- commands waiting, first in first out (the block's command queue) -/
  pending : List Instr
  /-- auxiliary supply good; false is module state OFF (R428, which has no code) -/
  powered : Bool
  /-- main input within its range (R472) -/
  mainGood : Bool
  /-- board pins: node and slot straps present, their values, the lid pins, the sideband-mode strap (R33, R404) -/
  strapValid : Bool
  /-- node strap pins -/
  strapNode : Nat
  /-- slot strap pins -/
  strapSlot : Nat
  /-- LID_ID pins -/
  lidPins : Nat
  /-- sideband-mode strap pin -/
  sbStrap : Nat
  /-- ticks of 1/126 ns since auxiliary power good: 1,260 to the rc (R51) -/
  now : Nat
  /-- ac of the hub clock since auxiliary power good (R43, R447) -/
  hubAc : Nat
  /-- every register of the maps that is not a computed view, by local address; an unlisted one holds its Cold value -/
  regs : Sparse Word
  /-- the staged bank of every ST field (R243), by local address; unlisted: Cold -/
  staged : Sparse Word
  /-- HBM and SRAM bytes by canonical local address (R25, R26); an unlisted byte is zero -/
  mem : List Host.Cell
  /-- stored sectors and words that an injection altered: the pattern by which the stored symbols differ (R468) -/
  altered : List (Nat × BitVec 512)
  /-- sectors whose first correction of the present scrub pass has been recorded (R260) -/
  ceSeen : List Nat
  /-- combining buffer of each stack, most recently used first (R269) -/
  held : Sparse (List HeldSector)
  /-- the beat tracker -/
  tracker : Tracker
  /-- queue internals by module queue number -/
  queues : Sparse QueueInt
  /-- dispatched commands not yet completed, in dispatch order -/
  cmds : List Cmd
  /-- waiters on semaphores, in order of arrival (R233) -/
  semWaiters : List SemWaiter
  /-- waiters on locks of this module, in order of arrival (R238) -/
  lockWaiters : List LockWaiter
  /-- arbiters that have acted since their reset, by key (R224) -/
  arbs : Sparse Arbiter
  /-- pending applies: slot 0 LOCK_APPLY and BEAT_CTL, slot d + 1 DLOCK_APPLY of die d (R246) -/
  applies : List (Nat × ApplyReq)
  /-- the 1 ms interval of UPTIME in which corrected records were last counted (R458) -/
  ceIndex : Nat
  /-- corrected records written in that interval -/
  ceCount : Nat
  /-- the LFSR of each injection kind (R466) -/
  lfsr : List Word
  /-- loops, sensors and domain sequencing -/
  power : PowerInt
  /-- host events not yet acknowledged, oldest first (R402) -/
  events : List HostEvent
  /-- SEQ of the next host event -/
  eventSeq : Nat
  /-- events dropped since the last LOST event -/
  eventLost : Nat
  /-- THE MODEL'S OWN: how many free values have been drawn (log 6) -/
  draws : Nat
  /-- THE MODEL'S OWN record of everything sent outward, newest first -/
  out : List Out
  /-- flash: the stored limit of powered minutes (R52) -/
  lifeLimit : Nat
  /-- this module's copy of the membership (R310) -/
  members : List Member
  /-- link layer of each port (R298), by port number -/
  links : Sparse LinkPort
  /-- the fabric's other state -/
  fabric : FabricInt
  /-- credits withheld by injection kind 1: port, VC, units, due tick (R466) -/
  creditHolds : List (Nat × Nat × Nat × Nat)
  /-- completion signals that wait for a store in die reset: store, index (R236) -/
  heldSignals : List (Nat × Nat)
  /-- brushes doing lent work for the collective engine, as 32 × die + brush (R156, R168) -/
  lent : List Nat
  /-- the boot ROM has started the image of the present boot (R413) -/
  imageUp : Bool
  /-- die resets (d) and brush resets (4 + d) held by collectives whose home die is there (R436, R437) -/
  resetHolds : List Nat
  /-- a warm reset is running: set with it, clear once BOOT is left (R435, R439) -/
  warmRun : Bool
  /-- epochs whose CLOSE on the commit group has captured its contribution (R348) -/
  captured : List Nat
  /-- veto events held for the next epoch that enters the range (R348) -/
  pendingVeto : Nat
  /-- engines in an engine reset, by engine number (R437) -/
  engResets : List Nat
  /-- the running snapshot (R358 to R360) -/
  snap : Option Snap
  /-- stationary banks: rows of cells (code after widening, x_s), by bankKey; an unlisted row is zero codes (R116) -/
  banks : Sparse (List (Nat × Int))
  /-- accumulator entries: one per column, by entryKey; an unlisted row holds empty sums with W = 0 -/
  accs : Sparse (List AccEntry)
  /-- batch gates, by 4 × die + gate -/
  gates : Sparse Gate
  /-- problems' timing and open tiles, by 256 × die + 16 × canvas + problem -/
  probs : Sparse ProbInt
  /-- commands executed by each logical canvas, by 16 × die + canvas (R138) -/
  replayIds : Sparse Nat
  /-- RING STREAMs in flight (R128) -/
  rings : List RingInt
  /-- SLIVER_RUNs that have started and not finished (R151) -/
  slivers : List SliverRun
  /-- brushes running a program, by 32 × die + brush -/
  brushRuns : Sparse BrushRun
  /-- carry and mask latches of each brush's lanes, by 32 × die + brush (R149) -/
  latches : Sparse Latches
  /-- the tick from which a brush is lent, plus one, by 32 × die + brush (R156) -/
  lentSince : Sparse Nat
  /-- near-memory updates sent and not yet applied, in order of arrival (R268) -/
  nmaUpdates : List NmaUpdate
  /-- registered groups, by slot (R323) -/
  groups : Sparse (Option Group)
  /-- collectives in flight, in order of start (R328) -/
  colls : List Coll
  /-- segments received and not yet used, newest first (R341) -/
  redRx : List RedSeg
  /-- segments sent and not yet acknowledged (R341) -/
  redTx : List RedTx
  /-- the last 64 retracted epochs, newest first (R340) -/
  retracted : List Nat
  /-- partner's step digests that came before this module's step: group slot and CSEQ, step key, digest (R334) -/
  stepDigests : List (Nat × Nat × List Byte)
  /-- results of CLOSEs on the commit group held for settlement: epoch, status, veto word, whether a veto word was formed (R352) -/
  closes : List (Nat × Nat × Nat × Bool)
  /-- RoCEv2 queue pairs, by QPN (R392, R393) -/
  qps : Sparse Qp
  /-- TCT sessions (R399) -/
  sessions : Sparse TctSession
  /-- doorbells held behind a fence, in order of arrival (R401) -/
  bells : List HeldBell
  /-- TCT keys of the loaded slots (R407); no path reads one -/
  keys : Sparse (List Byte)
  /-- the PLDM sensors' last readings: 0 input voltage in mV, 1 input power in W, 2 module power in W, 3 to 6 die temperatures, 7 hub, 8 hottest stack (R405) -/
  sensors : Sparse Nat
  /-- host egress frames numbered so far (R365, R373) -/
  egSent : Nat
  /-- replay buffer of a mirror back: frames generated and suppressed (R373) -/
  replayBuf : List (Nat × Out)
  /-- PLDM terminus ID that Set TID gave; 0: none (R405) -/
  pldmTid : Nat
  /-- pending signing requests, oldest first (R420) -/
  signReqs : List SignReq
  /-- the debug challenge in force (R424) -/
  challenge : Option (List Byte)
  /-- UPTIME at which the unlock ends; 0: none (R424, R425) -/
  debugExpiry : Nat
  /-- image region of the flash by offset; an unlisted byte is zero (R411) -/
  flash : Sparse Byte
  /-- flash: the stored incarnation limit (R434) -/
  incLimit : Nat
  /-- an update that is verifying or programming: local address of the staged image, its length (R415) -/
  update : Option (Nat × Nat)
  /-- the recovery service -/
  recov : Recov
  /-- the pair's internal state (R364 to R387) -/
  pend : PendInt
  deriving DecidableEq, Repr

/-- Why the machine would stop with a fault. No meaning of this model raises one: every access the spec calls unmapped or
refused has an outcome of its own (a status, an access error), which the meanings give. -/
inductive Fault where
  /-- raised by nothing; safe -/
  | none
  deriving DecidableEq, Repr

/-- Why a command would be refused. -/
inductive Refusal where
  /-- exec raises it for a command that has no meaning yet; safe -/
  | notModelled (mnemonic : String)
  deriving DecidableEq, Repr

/-- The registers whose value right after a cold reset (in AON) is not the Cold column of their map row: fuse, strap, lid
and flash values (log 2). -/
def resetRegs : Sparse Word := [
  (0x200000000000, 0x7D0A941641010000),
  (0x200000040060, 0x0000005800000000) ]

/-- The module right after a cold reset: in AON, auxiliary power good, main power not yet in range (R428, R473). -/
def State.reset : State where
  pending := []
  powered := true
  mainGood := false
  strapValid := false
  strapNode := 0
  strapSlot := 0
  lidPins := 0
  sbStrap := 0
  now := 0
  hubAc := 0
  regs := resetRegs
  staged := []
  mem := []
  altered := []
  ceSeen := []
  held := []
  tracker := Tracker.idle
  queues := []
  cmds := []
  semWaiters := []
  lockWaiters := []
  arbs := []
  applies := []
  ceIndex := 0
  ceCount := 0
  lfsr := [0, 0, 0, 0, 0, 0, 0]
  power := PowerInt.fresh
  events := []
  eventSeq := 1
  eventLost := 0
  draws := 0
  out := []
  lifeLimit := 16
  members := []
  links := []
  fabric := FabricInt.fresh
  creditHolds := []
  heldSignals := []
  lent := []
  imageUp := false
  resetHolds := []
  warmRun := false
  captured := []
  pendingVeto := 0
  engResets := []
  snap := none
  banks := []
  accs := []
  gates := []
  probs := []
  replayIds := []
  rings := []
  slivers := []
  brushRuns := []
  latches := []
  lentSince := []
  nmaUpdates := []
  groups := []
  colls := []
  redRx := []
  redTx := []
  retracted := []
  stepDigests := []
  closes := []
  qps := []
  sessions := []
  bells := []
  keys := []
  sensors := []
  egSent := 0
  replayBuf := []
  pldmTid := 0
  signReqs := []
  challenge := none
  debugExpiry := 0
  flash := []
  incLimit := 0
  update := none
  recov := Recov.none_
  pend := PendInt.fresh

end Sys2Proof.Machine
end

