-- ==== Sys2Proof/Machine/Ops.lean ====
section
/-!
DEFINITION. The named operations over the state that every family uses: finite maps, registers and their fields, the
module's addresses and memory with its error codes (R24 to R29, R258 to R263), time and beat position (R40, R51, R54),
host events and alerts (R402, R403), error records (R455 to R461).
-/

namespace Sys2Proof.Machine

open Sys2Proof

/-! ### Finite maps -/

/-- The value at a key; an unlisted key reads as `d`. -/
def sparseGet {α : Type} : Sparse α → Nat → α → α
  | [], _, d => d
  | (k, v) :: r, a, d => if k = a then v else sparseGet r a d

/-- Put a value at its place in key order. -/
def sparsePut {α : Type} : Sparse α → Nat → α → Sparse α
  | [], a, v => [(a, v)]
  | (k, w) :: r, a, v =>
    if a < k then (a, v) :: (k, w) :: r
    else if a = k then (a, v) :: r
    else (k, w) :: sparsePut r a v

/-- Remove a key. -/
def sparseDel {α : Type} : Sparse α → Nat → Sparse α
  | [], _ => []
  | (k, w) :: r, a => if k = a then sparseDel r a else (k, w) :: sparseDel r a

/-- Write a value: the default is not listed. -/
def sparseSet {α : Type} [DecidableEq α] (m : Sparse α) (a : Nat) (v d : α) : Sparse α :=
  if v = d then sparseDel m a else sparsePut m a v

/-- The canonical form: keys strictly rising, above `lo`, and no entry holding its default. -/
def sparseWf {α : Type} [DecidableEq α] (dflt : Nat → α) : Sparse α → Bool
  | [] => true
  | (k, v) :: r => decide (v ≠ dflt k) && (r.all (fun p => decide (k < p.1))) && sparseWf dflt r

/-! ### Bits -/

/-- Bit i of a number. -/
def bitOf (n i : Nat) : Bool := (n >>> i) % 2 == 1

/-- The bits of `n` from `lo`, `w` wide. -/
def bitsOf (n lo w : Nat) : Nat := (n >>> lo) % 2 ^ w

/-- `n` with its `w` bits from `lo` replaced by those of `v`. -/
def putBits (n lo w v : Nat) : Nat := n - (bitsOf n lo w <<< lo) + ((v % 2 ^ w) <<< lo)

/-- 1 for true. -/
def b2n (b : Bool) : Nat := if b then 1 else 0

/-- The number of ones among the low `w` bits. -/
def popCount (n w : Nat) : Nat := (List.range w).foldl (fun c i => c + b2n (bitOf n i)) 0

/-- The two's-complement value of the low `w` bits. -/
def signedOf (n w : Nat) : Int :=
  let m := n % 2 ^ w
  if m < 2 ^ (w - 1) then (m : Int) else (m : Int) - (2 ^ w : Nat)

/-- The low `w` bits of an integer in two's complement. -/
def wrapInt (v : Int) (w : Nat) : Nat := (v % ((2 ^ w : Nat) : Int)).toNat

/-- A byte of a number, byte 0 lowest (R5). -/
def byteN (n i : Nat) : Byte := BitVec.ofNat 8 (n >>> (8 * i))

/-- The `k` little-endian bytes of a number (R5). -/
def leBytes (n k : Nat) : List Byte := (List.range k).map (byteN n)

/-- The number whose little-endian bytes these are (R5). -/
def ofLe : List Byte → Nat
  | [] => 0
  | b :: r => b.toNat + 256 * ofLe r

/-- Bytes lo to lo + n − 1 of a structure, as a number. -/
def leField (l : List Byte) (lo n : Nat) : Nat := ofLe ((l.drop lo).take n)

/-- n / d rounded to the nearest integer, ties to even (d > 0). -/
def roundDivEven (n d : Int) : Int :=
  let q := n / d
  let r := n % d
  if 2 * r < d then q else if 2 * r > d then q + 1 else if q % 2 = 0 then q else q + 1

/-! ### Registers -/

/-- The stored value of a register: its active bank. -/
def State.reg (s : State) (a : Nat) : Word := sparseGet s.regs a (coldOf a)

/-- Store a register's value. -/
def State.setReg (s : State) (a : Nat) (v : Word) : State :=
  { s with regs := sparseSet s.regs a v (coldOf a) }

/-- The staged bank of a register (R243). -/
def State.stagedReg (s : State) (a : Nat) : Word := sparseGet s.staged a (coldOf a)

/-- Store into the staged bank. -/
def State.setStaged (s : State) (a : Nat) (v : Word) : State :=
  { s with staged := sparseSet s.staged a v (coldOf a) }

/-- A field of a word, as a number. -/
def Field.get (f : Field) (w : Word) : Nat := bitsOf w.toNat f.lo f.width

/-- A word with a field replaced. -/
def Field.put (f : Field) (w : Word) (v : Nat) : Word := BitVec.ofNat 64 (putBits w.toNat f.lo f.width v)

/-- A field of a register. -/
def State.fld (s : State) (a : Nat) (f : Field) : Nat := f.get (s.reg a)

/-- Replace a field of a register. -/
def State.setFld (s : State) (a : Nat) (f : Field) (v : Nat) : State := s.setReg a (f.put (s.reg a) v)

/-- Add to a counter field that saturates. -/
def State.count (s : State) (a : Nat) (f : Field) (n : Nat) : State :=
  s.setFld a f (min (s.fld a f + n) (2 ^ f.width - 1))

/-- Add to a counter field that wraps. -/
def State.countWrap (s : State) (a : Nat) (f : Field) (n : Nat) : State :=
  s.setFld a f ((s.fld a f + n) % 2 ^ f.width)

/-- Set or clear bit `i` of a field that is a mask. -/
def State.setBit (s : State) (a : Nat) (f : Field) (i : Nat) (b : Bool) : State :=
  s.setFld a f (putBits (s.fld a f) i 1 (b2n b))

/-- Bit `i` of a field that is a mask. -/
def State.bit (s : State) (a : Nat) (f : Field) (i : Nat) : Bool := bitOf (s.fld a f) i

/-- Return a register to its Cold value. -/
def State.coldReg (s : State) (a : Nat) : State := s.setReg a (coldOf a)

/-- Record something sent outward. -/
def State.emit (s : State) (o : Out) : State := { s with out := o :: s.out }

/-! ### Status codes (R217) -/

def stDone : Nat := 0x00
def stDoneCounts : Nat := 0x01
def stAcquiredOrphan : Nat := 0x02
def stBusy : Nat := 0x03
def stDescriptor : Nat := 0x10
def stAddress : Nat := 0x11
def stOverlap : Nat := 0x12
def stFormat : Nat := 0x13
def stData : Nat := 0x20
def stLink : Nat := 0x21
def stMissing : Nat := 0x22
def stMismatch : Nat := 0x23
def stCancelled : Nat := 0x30
def stLate : Nat := 0x40

/-- A failing status: 0x10 or above other than CANCELLED, the LATE flag apart (R215). -/
def failing (st : Nat) : Bool := decide (0x10 ≤ st % 0x40) && decide (st ≠ stCancelled)

/-! ### Module state (R428), service and domains (R32, R441) -/

def mAon : Nat := 1
def mBoot : Nat := 2
def mEarly : Nat := 3
def mFull : Nat := 4
def mDegraded : Nat := 5
def mRecovery : Nat := 6
def mDetaching : Nat := 7

/-- HUB_ID_ID_STATE. -/
def State.mode (s : State) : Nat := s.fld R.ID_STATE F.ID_STATE_STATE

/-- The module has main power and its image's service: any state but OFF and AON. -/
def State.mainUp (s : State) : Bool := s.powered && decide (2 ≤ s.mode)

/-- The module executes queues: EARLY, FULL, DEGRADED or DETACHING. -/
def State.serving (s : State) : Bool :=
  s.powered && (s.mode == mEarly || s.mode == mFull || s.mode == mDegraded || s.mode == mDetaching)

/-- Domain k is on and not closing (R441, R443). -/
def State.domUp (s : State) (k : Nat) : Bool :=
  s.bit R.PWR_DOM_STAT F.PWR_DOM_STAT_ON k && !(s.bit R.PWR_DOM_CLOSING F.PWR_DOM_CLOSING_DOM k)

/-- Domain k is on, closing or not: what its units have already accepted still runs (R443). -/
def State.domOn (s : State) (k : Nat) : Bool := s.bit R.PWR_DOM_STAT F.PWR_DOM_STAT_ON k

/-- Die d can still run what its units have accepted. -/
def State.dieOn (s : State) (d : Nat) : Bool :=
  s.bit R.ID_UNITS F.ID_UNITS_DIE_IN_SERVICE d && !(s.bit R.RST_STAT F.RST_STAT_DIE_RESET d) && s.domOn (9 * d + 8)

/-- Stack st can still apply what it has accepted. -/
def State.stackOn (s : State) (st : Nat) : Bool := s.bit R.ID_UNITS F.ID_UNITS_STACK_IN_SERVICE st && s.domOn (36 + st)

/-- Work that a closing domain had accepted, and the accesses it makes, is served (R443): run it as though nothing closed. -/
def State.served (s : State) (f : State → State) : State :=
  let c := s.reg R.PWR_DOM_CLOSING
  if c = 0 then f s else (f (s.setReg R.PWR_DOM_CLOSING 0)).setReg R.PWR_DOM_CLOSING c

/-- Die d is in service for its engines, easels and blocks: ID_UNITS, no die reset running (R436), die control on. -/
def State.dieUp (s : State) (d : Nat) : Bool :=
  s.bit R.ID_UNITS F.ID_UNITS_DIE_IN_SERVICE d && !(s.bit R.RST_STAT F.RST_STAT_DIE_RESET d) && s.domUp (9 * d + 8)

/-- Stack s is in service and its domain on (R29, R441). -/
def State.stackUp (s : State) (st : Nat) : Bool :=
  s.bit R.ID_UNITS F.ID_UNITS_STACK_IN_SERVICE st && s.domUp (36 + st)

/-- A register block serves (R32): its die in service and its power domain on. -/
def State.blockUp (s : State) : Block → Bool
  | .hubId => s.powered
  | .sec => s.powered
  | .pwr => s.powered
  | .hostp => s.mainUp && s.domUp 52
  | .beat => s.mainUp
  | .ryf _ => s.mainUp
  | .pend => s.mainUp
  | .red => s.mainUp
  | .err => s.mainUp
  | .pert => s.mainUp
  | .lock => s.mainUp
  | .cpq => s.mainUp
  | .trn => s.mainUp
  | .canv d => s.mainUp && s.dieUp d
  | .pal d => s.mainUp && s.dieUp d
  | .slv d => s.mainUp && s.dieUp d
  | .mov d => s.mainUp && s.dieUp d
  | .cpd d => s.mainUp && s.dieUp d
  | .dpwr d => s.mainUp && s.dieUp d
  | .dlock d => s.mainUp && s.bit R.ID_UNITS F.ID_UNITS_DIE_IN_SERVICE d && s.domUp (9 * d + 8)
  | .ddbg d => s.mainUp && s.dieUp d
  | .rand d => s.mainUp && s.dieUp d
  | .nma st => s.mainUp && s.domUp (36 + st)

/-! ### Addresses (R24 to R29) -/

/-- Base of the SRAM of die d. -/
def sramBase (d : Nat) : Nat := 0x100000000000 + d * 0x400000000

/-- Bytes of SRAM per die: 14 GiB. -/
def sramSize : Nat := 0x380000000

/-- The canonical address of stack-local offset o of stack st: its interleaved address (R25). -/
def hbmKey (st o : Nat) : Nat := ((o / 4096) * 65536) + st * 4096 + o % 4096

/-- Stack of a canonical HBM address. -/
def hbmStack (k : Nat) : Nat := (k / 4096) % 16

/-- Stack-local offset of a canonical HBM address. -/
def hbmOffset (k : Nat) : Nat := (k / 65536) * 4096 + k % 4096

/-- The canonical address of a byte of memory; none: not an HBM or SRAM address. -/
def memKey (a : Nat) : Option Nat :=
  if a < 0x10000000000 then some a
  else if a < 0x20000000000 then
    some (hbmKey ((a - 0x10000000000) / 0x1000000000) (a % 0x1000000000))
  else if 0x100000000000 ≤ a ∧ a < 0x101000000000 then
    if (a - 0x100000000000) % 0x400000000 < sramSize then some a else none
  else none

/-- A canonical address is in HBM. -/
def isHbm (k : Nat) : Bool := decide (k < 0x10000000000)

/-- Die of a canonical SRAM address. -/
def sramDie (k : Nat) : Nat := (k - 0x100000000000) / 0x400000000

/-- Offset in its die's SRAM of a canonical SRAM address. -/
def sramOff (k : Nat) : Nat := (k - 0x100000000000) % 0x400000000

/-- The byte at a canonical address can be accessed now (R24, R29, R145, R430, R441). -/
def State.keyUp (s : State) (k : Nat) : Bool :=
  if isHbm k then
    s.powered && (s.mode == mFull || s.mode == mDegraded || s.mode == mDetaching) && s.stackUp (hbmStack k)
  else
    let d := sramDie k
    let core := (sramOff k / 4096) % 2048
    s.bit R.ID_UNITS F.ID_UNITS_DIE_IN_SERVICE d && s.domUp (9 * d + 4 + core / 512) &&
      (if s.mode == mEarly then d == 0 && decide (sramOff k < 0x80000000)
       else s.powered && (s.mode == mFull || s.mode == mDegraded || s.mode == mDetaching))

/-- Local address a is a mapped byte of memory. -/
def State.mappedByte (s : State) (a : Nat) : Bool :=
  match memKey a with
  | none => false
  | some k => s.keyUp k

/-- The granules of [a, a + n) that decide whether all of it is mapped: whether a granule is mapped depends on its stack or
core alone, so the first 2,048, the last, and the first of each stack's own view decide. -/
def decisiveGranules (a n : Nat) : List Nat :=
  let g0 := a / 4096
  let g1 := (a + n - 1) / 4096
  g1 :: ((List.range (min (g1 - g0 + 1) 2048)).map (fun i => g0 + i) ++
    ((List.range 17).map (fun k => 0x10000000 + k * 0x1000000)).filter (fun g => decide (g0 < g) && decide (g < g1)))

/-- SRAM address space slot of an address (R24); none outside it. -/
def sramSlot (a : Nat) : Option Nat :=
  if 0x100000000000 ≤ a ∧ a < 0x101000000000 then some ((a - 0x100000000000) / 0x400000000) else none

/-- Every byte of [a, a + n) is mapped memory. -/
def State.mappedRange (s : State) (a n : Nat) : Bool :=
  n == 0 ||
  (sramSlot a == sramSlot (a + n - 1) && (memKey (a + n - 1)).isSome &&
    (decisiveGranules a n).all (fun g => s.mappedByte (max a (min (g * 4096) (a + n - 1)))))

/-- The canonical addresses of n consecutive bytes from local address a (an unmapped one stands for itself). -/
def keysOf (a n : Nat) : List Nat := (List.range n).map (fun i => (memKey (a + i)).getD (a + i))

/-- The module's own address (0 while unassigned). -/
def State.ownAddr (s : State) : Nat := s.fld R.ID_ADDR F.ID_ADDR_MODULE_ADDR

/-- Module field of a global address (R27). -/
def gaModule (g : Nat) : Nat := (g / 0x1000000000000) % 0x10000

/-- Local part of a global address. -/
def gaLocal (g : Nat) : Nat := g % 0x1000000000000

/-- The address names this module (R27). In EARLY only module field 0x0000 does (R430). -/
def State.isOwn (s : State) (g : Nat) : Bool :=
  gaModule g == 0 || (gaModule g == s.ownAddr && s.ownAddr != 0 && s.mode != mEarly)

/-- The module field names another module: 0x0001 to 0x3FFF, not this one (R27); refused in EARLY (R430). -/
def State.isRemote (s : State) (g : Nat) : Bool :=
  !(s.isOwn g) && decide (1 ≤ gaModule g) && decide (gaModule g ≤ 0x3FFF) && s.mode != mEarly

/-! ### Memory and its codes -/

/-- The stored byte at a canonical address, before any alteration. -/
def memByte (m : List Host.Cell) (k : Nat) : Byte := sparseGet m k 0

/-- Store a byte. -/
def memSet (m : List Host.Cell) (k : Nat) (b : Byte) : List Host.Cell := sparseSet m k b 0

/-- The canonical form of memory: addresses strictly rising, no entry equal to what an unlisted address reads as. -/
def Memory.wf (m : List Host.Cell) : Bool := sparseWf (fun _ => (0 : Byte)) m

/-- The unit of error correction that holds a canonical address: 64-byte sector or aligned 8-byte SRAM word. -/
def codeUnit (k : Nat) : Nat := if isHbm k then (k / 64) * 64 else (k / 8) * 8

/-- Bytes of the code unit at a canonical address. -/
def unitLen (k : Nat) : Nat := if isHbm k then 64 else 8

/-- The alteration pattern of a code unit: zero where it is sound. -/
def State.pattern (s : State) (u : Nat) : BitVec 512 := sparseGet s.altered u 0

/-- Bad symbols of a pattern: altered bytes in HBM, altered bits in SRAM (R259, R263). -/
def badSymbols (u : Nat) (p : BitVec 512) : Nat :=
  if isHbm u then (List.range 64).foldl (fun c i => c + b2n (bitsOf p.toNat (8 * i) 8 != 0)) 0
  else popCount p.toNat 64

/-- The byte a read delivers: as stored, alteration included (R261). -/
def State.byteAt (s : State) (k : Nat) : Byte :=
  memByte s.mem k ^^^ byteN (s.pattern (codeUnit k)).toNat (k - codeUnit k)

/-- n bytes from a local address, as stored. -/
def State.peek (s : State) (a n : Nat) : List Byte := (keysOf a n).map s.byteAt

/-- Write bytes without any check of codes. -/
def State.poke (s : State) (kb : List (Nat × Byte)) : State :=
  { s with mem := kb.foldl (fun m p => memSet m p.1 p.2) s.mem }

/-! ### Time -/

/-- Ticks of 1/126 ns per rc, µs and ms. -/
def rcTicks : Nat := 1260
def usTicks : Nat := 126000
def msTicks : Nat := 126000000

/-- Ticks per ac of a clock point (R447): 1.125, 1.5, 1.75, 2.0, 2.25 GHz. -/
def acTicks : Nat → Nat
  | 0 => 112
  | 1 => 84
  | 2 => 72
  | 3 => 63
  | _ => 56

/-- UPTIME in rc (R51). -/
def State.uptime (s : State) : Nat := s.now / rcTicks

/-- The point in force on die d. -/
def State.point (s : State) (d : Nat) : Nat := s.fld (R.DPWR_STAT d) F.DPWR_STAT_POINT

/-- The hub clock's point: the highest among the dies in service, or 1.125 GHz (R447). -/
def State.hubPoint (s : State) : Nat :=
  (List.range 4).foldl (fun m d =>
    if s.bit R.ID_UNITS F.ID_UNITS_DIE_IN_SERVICE d then max m (s.point d) else m) 0

/-- Time of the hub clock in ac with 16 fraction bits, counted from 2^36 ac before auxiliary power good so that the times of
earlier edges stay positive when a clock change rescales them (R43). -/
def State.hubTime (s : State) : Nat := (s.hubAc + 2 ^ 36) * 65536

/-- Tracker states that advance the position: LOCKED, COAST, MASTER. -/
def beatAdvances (st : Nat) : Bool := st == 2 || st == 3 || st == 5

/-- BEAT_STAT.STATE. -/
def State.beatState (s : State) : Nat := s.fld R.BEAT_STAT F.BEAT_STAT_STATE

/-- The position with its 16 further fraction bits at hub time t (R40, R41): on the line last set, which runs on beyond
its target at the same rate; held in the other states. -/
def State.posAt (s : State) (t : Nat) : Nat :=
  let k := s.tracker
  if beatAdvances s.beatState then
    if k.t1 ≤ k.t0 then k.pos1
    else k.pos0 + (t - k.t0) * (k.pos1 - k.pos0) / (k.t1 - k.t0)
  else k.pos0

/-- BEAT_POS: the 64-bit position now. -/
def State.position (s : State) : Nat := (s.posAt s.hubTime / 65536) % 2 ^ 64

/-- The 16-byte time stamp (R54). -/
def State.stamp (s : State) : List Byte :=
  leBytes (s.uptime + (s.fld R.LIFETIME F.LIFETIME_POWERON_ID) * 2 ^ 64 + 1 * 2 ^ 96 + s.beatState * 2 ^ 100) 16

/-! ### Host events and alerts -/

def mirrorMode : Nat := 1
def roleFace : Nat := 1
def roleBack : Nat := 2

/-- The module is a mirror back (R368). -/
def State.mirrorBack (s : State) : Bool :=
  s.fld R.PEND_CFG F.PEND_CFG_MODE == mirrorMode && s.fld R.PEND_STAT F.PEND_STAT_ROLE == roleBack

/-- Set an ALERT_STATUS bit: 0 FATAL, 1 DEFERRED, 2 EVT_LOST, 3 PAIR, 4 STATE. In AON only FATAL and STATE can be set (R403). -/
def State.alert (s : State) (i : Nat) : State :=
  if s.mode == mAon && !(i == 0 || i == 4) then s
  else s.setBit R.HOSTP_ALERT F.HOSTP_ALERT_STATUS i true

/-- ALERT_N is driven low (R403). -/
def State.alertLow (s : State) : Bool :=
  s.fld R.HOSTP_ALERT F.HOSTP_ALERT_STATUS &&& s.fld R.HOSTP_ALERT F.HOSTP_ALERT_MASK != 0

/-- A wait or an action whose position had passed takes effect at once: BEAT_EVCNT.LATE counts it (R47, R49). -/
def State.countLate (s : State) (late : Bool) : State := if late then s.count R.BEAT_EVCNT F.BEAT_EVCNT_LATE 1 else s

/-- MAIN_BUSY_N is low from BOOT to DETACHING and released in AON and OFF (R474). -/
def State.mainBusyLow (s : State) : Bool := s.powered && decide (mBoot ≤ s.mode)

/-- The 96-byte event payload (R402). -/
def State.eventPayload (s : State) (kind : Nat) (body : List Byte) : List Byte :=
  [BitVec.ofNat 8 kind] ++ List.replicate 7 0 ++ s.stamp ++ leBytes (s.reg R.BEAT_HOST_TAG).toNat 8 ++
    ((body ++ List.replicate 64 0).take 64)

/-- Queue an event for sending, or count it lost (R402). -/
def State.queueEvent (s : State) (kind : Nat) (body : List Byte) : State :=
  if s.events.length < 256 then
    let p := s.eventPayload kind body
    let t : State := { s with events := s.events ++ [HostEvent.mk s.eventSeq p], eventSeq := s.eventSeq + 1 }
    (t.count R.HOSTP_EVT_CNT F.HOSTP_EVT_CNT_SENT 1).emit
      { kind := .event, nums := [s.eventSeq, 0, s.fld R.HOSTP_EVT F.HOSTP_EVT_SESSION], bytes := p }
  else
    let t : State := { s with eventLost := s.eventLost + 1 }
    (t.count R.HOSTP_EVT_CNT F.HOSTP_EVT_CNT_LOST 1).alert 2

/-- Raise a host event of a kind, if enabled; a mirror back sends none (R402, R368). -/
def State.hostEvent (s : State) (kind : Nat) (body : List Byte) : State :=
  if s.mainUp && bitOf (s.fld R.HOSTP_EVT F.HOSTP_EVT_ENABLE) (kind - 1) && !s.mirrorBack then s.queueEvent kind body else s

/-! ### Error records -/

def clsCorrected : Nat := 1
def clsDeferred : Nat := 2
def clsFatal : Nat := 3

/-- What an error record says beside its time, position, SEQ and origin (R455). -/
structure ErrRec where
  cls : Nat
  code : Nat
  unit : Nat
  sub : Nat := 0
  status : Nat := 0
  info0 : Nat := 0
  info1 : Nat := 0
  info2 : Nat := 0
  injected : Bool := false

/-- The 64 bytes of a record (R455). -/
def State.errBytes (s : State) (r : ErrRec) : List Byte :=
  [BitVec.ofNat 8 (r.cls + 4 * b2n r.injected)] ++ leBytes r.code 2 ++
  [BitVec.ofNat 8 r.sub, BitVec.ofNat 8 r.unit, BitVec.ofNat 8 r.status] ++
  leBytes s.ownAddr 2 ++ leBytes (s.reg R.ERR_WSEQ).toNat 8 ++ leBytes s.position 8 ++
  leBytes r.info0 8 ++ leBytes r.info1 8 ++ leBytes r.info2 8 ++ s.stamp

/-- Store a record's 64 bytes as the eight words of a register run. -/
def State.setWords (s : State) (base : Nat → Nat) (bytes : List Byte) : State :=
  (List.range 8).foldl (fun s w => s.setReg (base w) (BitVec.ofNat 64 (leField bytes (8 * w) 8))) s

/-- Put a finished record into the ring: slot, overrun, class counts, fatal latch (R457, R459). -/
def State.ringWrite (s : State) (cls : Nat) (bytes : List Byte) : State :=
  let n := (s.reg R.ERR_WSEQ).toNat
  let s := if n - (s.reg R.ERR_RSEQ).toNat ≥ 512 then s.count R.ERR_CNT F.ERR_CNT_OVERRUN 1 else s
  let s := s.setWords (R.ERR_RING (n % 512)) bytes
  let s := s.setReg R.ERR_WSEQ (BitVec.ofNat 64 (n + 1))
  let s := s.count R.ERR_CNT (if cls = clsCorrected then F.ERR_CNT_CORRECTED
             else if cls = clsDeferred then F.ERR_CNT_DEFERRED else F.ERR_CNT_FATAL) 1
  if cls = clsFatal ∧ s.fld R.ERR_STAT F.ERR_STAT_FATAL_VALID = 0 then
    (s.setWords R.ERR_FATAL bytes).setFld R.ERR_STAT F.ERR_STAT_FATAL_VALID 1
  else s

/-- The throttle of R458: whether a corrected record may be written now, with the count of its interval. -/
def State.ceAdmit (s : State) : Bool × State :=
  let j := s.uptime / 100000
  let n := if s.ceIndex = j then s.ceCount else 0
  let lim := s.fld R.ERR_CFG F.ERR_CFG_CE_LIMIT
  if lim ≠ 0 ∧ lim ≤ n then (false, { s with ceIndex := j, ceCount := n })
  else (true, { s with ceIndex := j, ceCount := n + 1 })

/-- Deliver a record: host event kind 0x02 and alert (R461). -/
def State.errDeliver (s : State) (cls : Nat) (bytes : List Byte) : State :=
  let lim := s.fld R.ERR_CFG F.ERR_CFG_EVT_CLASS
  let s := if lim ≠ 0 ∧ lim ≤ cls then s.hostEvent 2 bytes else s
  if cls = clsFatal then s.alert 0 else if cls = clsDeferred then s.alert 1 else s

/-- Write an error record under R455 to R461. A corrected record beyond the throttle is only counted. -/
def State.errRecord (s : State) (r : ErrRec) : State :=
  if r.cls = clsCorrected then
    let (ok, s) := s.ceAdmit
    if ok then
      let b := s.errBytes r
      (s.ringWrite r.cls b).errDeliver r.cls b
    else s.count R.ERR_CNT F.ERR_CNT_THROTTLED 1
  else
    let b := s.errBytes r
    (s.ringWrite r.cls b).errDeliver r.cls b

/-! ### Reads and writes of memory by a unit of the module -/

/-- Who reads or writes: unit ID and module queue number of the command (0xFF: none). -/
structure Who where
  unit : Nat
  queue : Nat
  deriving DecidableEq, Repr

/-- Write back the held sectors that an ordinary access reaches: the write replaces the whole sector (R262, R269). -/
def State.writeBackHeld (s : State) (hit : Nat → Bool) : State :=
  if s.held = [] then s else
  { s with
    altered := s.altered.filter (fun p => !(s.held.any (fun h => h.2.any (fun x => x.sector == p.1 && hit x.sector)))),
    held := (s.held.map (fun h => (h.1, h.2.filter (fun x => !(hit x.sector))))).filter (fun h => !h.2.isEmpty) }

/-- Count and record a correction of a sector or word (R260, R263). -/
def State.corrected (s : State) (u : Nat) : State :=
  if isHbm u then
    let st := hbmStack u
    let s := s.count (R.NMA_CE_CNT st) F.NMA_CE_CNT_MODULE 1
    if s.ceSeen.contains u then s else
    let t : State := { s with ceSeen := u :: s.ceSeen }
    t.errRecord
      { cls := clsCorrected, code := 0x0301, unit := 0xF0 + st, sub := (hbmOffset u / 256) % 64,
        info0 := hbmOffset u, injected := true }
  else s.count R.ERR_SRAM (F.ERR_SRAM_CORR (sramDie u)) 1

/-- Report an uncorrectable sector or word to its reader (R261, R263). -/
def State.uncorrectable (s : State) (w : Who) (u : Nat) : State :=
  if isHbm u then
    let st := hbmStack u
    ((s.count (R.NMA_UE_CNT st) F.NMA_UE_CNT_READ 1).setFld (R.NMA_UE_ADDR st) F.NMA_UE_ADDR_SECTOR
      (hbmOffset u / 64)).errRecord
      { cls := clsDeferred, code := 0x0302, unit := 0xF0 + st, sub := (hbmOffset u / 256) % 64, status := stData,
        info0 := hbmOffset u, info1 := w.unit + 256 * w.queue, injected := true }
  else
    s.errRecord { cls := clsDeferred, code := 0x0304, unit := w.unit, sub := sramDie u, status := stData,
                  info0 := u, info1 := w.unit + 256 * w.queue, injected := true }

/-- Correct a unit in place: the write-back makes it sound (R260, R263). -/
def State.repair (s : State) (u : Nat) : State := { s with altered := sparseDel s.altered u }

/-- One altered unit is read: corrected, uncorrectable and then reported by `tell`, or beyond its code (R259 to R263, R490).
True: ERROR_DATA. -/
def State.decodeUnit (s : State) (tell : State → State) (u : Nat) : State × Bool :=
  let n := badSymbols u (s.pattern u)
  let (c, t) := if isHbm u then (2, 4) else (1, 2)
  if n ≤ c then ((s.repair u).corrected u, false)
  else if n ≤ t then (tell s, true)
  else
    -- R490: reported, miscorrected (and counted as a correction), or returned as stored; a fresh free choice each time
    let f := (Config.freeValue s.draws).toNat
    let s := { s with draws := s.draws + 1 }
    if f % 3 = 0 then (tell s, true)
    else if f % 3 = 1 then (s, false)
    else
      let v := Config.beyondCodeData (BitVec.ofNat 512 s.draws) (s.pattern u)
      let s := s.poke ((List.range (unitLen u)).map (fun i => (u + i, byteN v.toNat i)))
      ((s.repair u).corrected u, false)

/-- One altered unit is read by a unit of the module, which is told of an uncorrectable one. -/
def State.readUnit (s : State) (w : Who) (u : Nat) : State × Bool := s.decodeUnit (fun s => s.uncorrectable w u) u

/-- A unit of the module reads the bytes at these canonical addresses: held sectors are written back first, every altered
unit among them is treated once. True: some unit was uncorrectable. The bytes are then `byteAt`. -/
def State.readKeys (s : State) (w : Who) (keys : List Nat) : State × Bool :=
  let s := s.writeBackHeld (fun u => keys.any (fun k => codeUnit k == u))
  (s.altered.map Prod.fst).foldl (fun (p : State × Bool) u =>
    if keys.any (fun k => codeUnit k == u) then
      let (s, e) := p.1.readUnit w u
      (s, p.2 || e)
    else p) (s, false)

/-- A unit writes bytes at canonical addresses, as one command's write set. A write of a whole code unit replaces it; a
partial write of an altered unit merges, and is refused where the unit is uncorrectable (R262, R263). True: refused. -/
def State.writeKeys (s : State) (kb : List (Nat × Byte)) : State × Bool :=
  let s := s.writeBackHeld (fun u => kb.any (fun p => codeUnit p.1 == u))
  let (s, bad) := (s.altered.map Prod.fst).foldl (fun (p : State × List Nat) u =>
    if kb.any (fun q => codeUnit q.1 == u) then
      let whole := (List.range (unitLen u)).all (fun i => kb.any (fun q => q.1 == u + i))
      if whole then (p.1.repair u, p.2)
      else
        let (c, _) := if isHbm u then (2, 4) else (1, 2)
        if badSymbols u (p.1.pattern u) ≤ c then ((p.1.repair u).corrected u, p.2)
        else
          let s := if isHbm u then
              (p.1.count (R.NMA_UE_CNT (hbmStack u)) F.NMA_UE_CNT_WRITE 1) else p.1
          (s, u :: p.2)
    else p) (s, [])
  (s.poke (kb.filter (fun q => !(bad.contains (codeUnit q.1)))), !bad.isEmpty)

/-- Read n bytes at a local address: the bytes, and whether an uncorrectable unit was among them. -/
def State.readMem (s : State) (w : Who) (a n : Nat) : List Byte × State × Bool :=
  let ks := keysOf a n
  let (s, e) := s.readKeys w ks
  (ks.map s.byteAt, s, e)

/-- Write bytes at a local address. True: a merge was refused. -/
def State.writeMem (s : State) (a : Nat) (bs : List Byte) : State × Bool :=
  s.writeKeys ((keysOf a bs.length).zip bs)

/-! ### Free values -/

/-- Draw a free value. -/
def State.draw (s : State) : Word × State := (Config.freeValue s.draws, { s with draws := s.draws + 1 })

/-! ### Outcomes -/

/-- The outcome of a command that ran. -/
abbrev Res := Host.Outcome State Fault Refusal

/-- A command acts while auxiliary power is good; in OFF nothing acts (R428). -/
def State.alive (s : State) (t : State) : Res := if s.powered then .next t else .next s

/-- A command acts while main power serves the hub: every state but OFF and AON. -/
def State.whenMain (s : State) (t : State) : Res := if s.mainUp then .next t else .next s

/-- A command acts while queues and engines serve (EARLY, FULL, DEGRADED, DETACHING). -/
def State.whenServing (s : State) (t : State) : Res := if s.serving then .next t else .next s

end Sys2Proof.Machine
end

