-- ==== Sys2Proof/Machine/LinkBase.lean ====
section
/-!
DEFINITION. A port's link (R298, R299): its credits, its retry buffer, and the packets it sends.
-/

namespace Sys2Proof.Machine

open Sys2Proof

/-- The link of a port. -/
def State.link (s : State) (p : Nat) : LinkPort := sparseGet s.links p LinkPort.down

/-- Store a port's link. -/
def State.setLink (s : State) (p : Nat) (l : LinkPort) : State :=
  { s with links := sparseSet s.links p l LinkPort.down }

/-- 64-byte credit units of a packet: header and payload (log 13). -/
def creditUnits (len : Nat) : Nat := (16 + len + 63) / 64

/-- The VC as a Fin. -/
def vcOf (vc : Nat) : Fin 16 := Fin.ofNat 16 vc

/-- Spend credits of a port. -/
def State.spendCredit (s : State) (p vc len : Nat) : State :=
  let l := s.link p
  let c := sparseGet l.credits vc 0
  s.setLink p { l with credits := sparseSet l.credits vc (c - creditUnits len) 0 }

/-- A packet as it leaves a port in the frame of a given LSEQ. -/
def RawPkt.out (r : RawPkt) (p lseq : Nat) : Out :=
  { kind := .packet,
    nums := [p, r.type, r.hdr.vc.val, r.hdr.dst.toNat, r.hdr.src.toNat, r.hdr.seq.toNat, r.hdr.addr.toNat,
             b2n r.hdr.err, b2n r.hdr.retry, r.hdr.hops.val, lseq],
    bytes := r.body }

/-- Hand a packet to a port's egress: it takes the next LSEQ, spends credit, and stays in the retry buffer until LACK covers it
(R298). -/
def State.egress (s : State) (p : Nat) (r : RawPkt) : State :=
  let s := s.spendCredit p r.hdr.vc.val r.body.length
  let l := s.link p
  (s.setLink p { l with txSeq := (l.txSeq + 1) % 4096, unacked := l.unacked ++ [(l.txSeq, r)] }).emit (r.out p l.txSeq)

end Sys2Proof.Machine
end

