-- ==== Sys2Proof/Machine/Beat.lean ====
section
/-!
DEFINITION. The beat tracker (R36 to R46) and the powered minutes (R52): the meanings of the tracker's events.
-/

namespace Sys2Proof.Machine

open Sys2Proof

/-- ac per µs at a clock point (R447). -/
def acPerUs (pt : Nat) : Nat := usTicks / acTicks pt

/-- A measured interval lies between 2 µs and 10 ms (R36); ac with 16 fraction bits. -/
def State.periodOk (s : State) (m : Nat) : Bool :=
  decide (2 * acPerUs s.hubPoint * 65536 ≤ m) && decide (m ≤ 10000 * acPerUs s.hubPoint * 65536)

/-- A generator period in rc as ac with 16 fraction bits. -/
def State.rcToAc (s : State) (rc : Nat) : Nat := rc * rcTicks * 65536 / acTicks s.hubPoint

/-- Replace the tracker's internal state, with BEAT_PERIOD showing P. -/
def State.setTracker (s : State) (t : Tracker) : State :=
  { s with tracker := t }.setReg R.BEAT_PERIOD (BitVec.ofNat 64 (t.per % 2 ^ 48))

/-- Enter a tracker state. -/
def State.setBeatState (s : State) (st : Nat) : State := s.setFld R.BEAT_STAT F.BEAT_STAT_STATE st

/-- The acceptance half-window TOL/256 × P (R41). -/
def State.beatWindow (s : State) (p : Nat) : Nat := s.fld R.BEAT_CFG F.BEAT_CFG_TOL * p / 256

/-- |a − b|. -/
def absDiff (a b : Nat) : Nat := if a ≤ b then b - a else a - b

/-- Number of the beat whose boundary is the present target. -/
def Tracker.k (t : Tracker) : Nat := t.pos1 / 2 ^ 32

/-- Hold the position at p, in a state that holds it; TIMELINE advances where the position is set lower (R45). -/
def State.repos (s : State) (old new : Nat) : State :=
  if new / 65536 < old / 65536 then s.countWrap R.BEAT_STAT F.BEAT_STAT_TIMELINE 1 else s

/-- The master followed shows in BEAT_STAT and BEAT_MASTER_SERIAL. -/
def State.follow (s : State) (m : Option (Nat × Nat)) : State :=
  match m with
  | none => s
  | some (rank, serial) =>
    ({ s with tracker := { s.tracker with follow := m } }.setFld R.BEAT_STAT F.BEAT_STAT_MASTER_RANK_SEEN rank).setReg
      R.BEAT_MASTER_SERIAL (BitVec.ofNat 64 serial)

/-- Write the record of an entry to COAST (R46). -/
def State.coastRecord (s : State) (k : Nat) : State :=
  s.errRecord { cls := clsCorrected, code := 0x0101, unit := 0xD9, info0 := k, info1 := (s.reg R.BEAT_STAT).toNat }

/-- Write the record of an entry to LOST (R46): why is 0 for 64 coasted beats, 1 for a lower token number. -/
def State.lostRecord (s : State) (k why : Nat) : State :=
  s.errRecord { cls := clsDeferred, code := 0x0102, unit := 0xD9, info0 := k, info1 := why }

/-- Enter SEARCH with the position held at its last value (R44). -/
def State.enterSearch (s : State) : State :=
  let p := s.posAt s.hubTime
  (({ s with tracker := { s.tracker with pos0 := p, t0 := s.hubTime, acq := [], coasted := 0, lastReal := false, follow := none } }
    ).setBeatState 1).setFld R.BEAT_STAT F.BEAT_STAT_TAKEN_OVER 0

/-- Enter IDLE, the position held (R44). -/
def State.enterIdle (s : State) : State :=
  let p := s.posAt s.hubTime
  (({ s with tracker := { s.tracker with pos0 := p, t0 := s.hubTime, acq := [], coasted := 0, lastReal := false, follow := none } }
    ).setBeatState 0).setFld R.BEAT_STAT F.BEAT_STAT_TAKEN_OVER 0

/-- The module's own serial. -/
def State.serial (s : State) : Nat := (s.reg R.ID_SERIAL).toNat

/-- Become the local-generator master: the first boundary one period after the apply, numbered BEAT_NEXT_NUM (R44). The
position stands at the beat before it until then. -/
def State.enterGenerator (s : State) : State :=
  let old := s.posAt s.hubTime
  let n := s.fld R.BEAT_NEXT_NUM F.BEAT_NEXT_NUM_NUM
  let p := s.rcToAc (s.fld R.BEAT_GEN_PERIOD F.BEAT_GEN_PERIOD_PERIOD_RC)
  let t := s.hubTime
  let start := if n = 0 then 0 else (n - 1) * 2 ^ 32
  let s := (s.repos old start).setTracker
    { s.tracker with t0 := t, pos0 := start, t1 := t + p, pos1 := n * 2 ^ 32, per := p, lastE := t, lastReal := false,
                     coasted := 0, acq := [], genNext := t + p, follow := none }
  (((s.setBeatState 5).setFld R.BEAT_STAT F.BEAT_STAT_TAKEN_OVER 0).setFld R.BEAT_STAT F.BEAT_STAT_MASTER_RANK_SEEN
    (s.fld R.BEAT_CFG F.BEAT_CFG_MASTER_RANK)).setReg R.BEAT_MASTER_SERIAL (s.reg R.ID_SERIAL)

/-- The transition of an applied change of SOURCE (R44); an apply that leaves SOURCE as it was changes no state. -/
def State.sourceApplied (s : State) (old : Nat) : State :=
  let src := s.fld R.BEAT_CFG F.BEAT_CFG_SOURCE
  if src = old then s
  else if src = 0 then s.enterIdle
  else if src = 3 then s.enterGenerator
  else s.enterSearch

/-- Four consecutive intervals bounded by five edges (newest first), each within tolerance of the first of them (R44). -/
def acqDone (tol : Nat) (acq : List (Nat × Nat)) : Option Nat :=
  match acq with
  | (e5, _) :: (e4, _) :: (e3, _) :: (e2, _) :: (e1, _) :: _ =>
    let i1 := e2 - e1
    let w := tol * i1 / 256
    if absDiff (e3 - e2) i1 ≤ w ∧ absDiff (e4 - e3) i1 ≤ w ∧ absDiff (e5 - e4) i1 ≤ w then some (e5 - e4) else none
  | _ => none

/-- An edge while in SEARCH or LOST: R44's acquisition, with R36's rejected intervals breaking the run, and the number of
R45. `num` is a token's number. -/
def State.acquire (s : State) (e : Nat) (num : Option Nat) : State :=
  let tag := match num with | none => 0 | some n => n + 1
  let last := s.tracker.acq.head?
  let bad := match last with | none => false | some (l, _) => !(s.periodOk (e - l))
  let s := if bad then s.count R.BEAT_EVCNT F.BEAT_EVCNT_BAD_PERIOD 1 else s
  let acq := ((e, tag) :: (if bad then [] else s.tracker.acq)).take 5
  match acqDone (s.fld R.BEAT_CFG F.BEAT_CFG_TOL) acq with
  | none => { s with tracker := { s.tracker with acq := acq } }
  | some p =>
    let old := s.tracker.pos0
    let n := match num with
      | some n => n
      | none => if s.beatState = 1 then s.fld R.BEAT_NEXT_NUM F.BEAT_NEXT_NUM_NUM else (old / 2 ^ 32 + 1) % 2 ^ 48
    let new := n * 2 ^ 32
    (((s.repos old new).setTracker
      { s.tracker with t0 := e, pos0 := new, t1 := e + p, pos1 := (n + 1) * 2 ^ 32, per := p, lastE := e, lastReal := true,
                       coasted := 0, acq := [] }).setBeatState 2).setFld R.BEAT_LAST_ERR F.BEAT_LAST_ERR_PHASE_ERR 0

/-- An accepted edge at time e for the present beat (R41); `skip` beats are passed over by an adopted number (R46). -/
def State.acceptEdge (s : State) (e skip : Nat) : State :=
  let t := s.tracker
  let k := t.k
  let pos := s.posAt e
  let m := e - t.lastE
  let bad := t.lastReal && !(s.periodOk m)
  let s := if bad then s.count R.BEAT_EVCNT F.BEAT_EVCNT_BAD_PERIOD 1 else s
  let g : Nat := 2 ^ s.fld R.BEAT_CFG F.BEAT_CFG_GAIN
  let per := if t.lastReal && !bad
    then (roundDivEven ((t.per : Int) * g + ((m : Int) - t.per)) g).toNat else t.per
  let err := wrapInt (((pos : Int) - (k * 2 ^ 32 : Nat)) / 65536) 16
  let s := s.setFld R.BEAT_LAST_ERR F.BEAT_LAST_ERR_PHASE_ERR err
  (s.setTracker { t with t0 := e, pos0 := pos + skip * 2 ^ 32, t1 := e + per, pos1 := (k + skip + 1) * 2 ^ 32, per := per,
                         lastE := e, lastReal := true, coasted := 0 }).setBeatState 2

/-- An ignored edge (R41). -/
def State.spurious (s : State) : State := s.count R.BEAT_EVCNT F.BEAT_EVCNT_SPURIOUS 1

/-- An edge at time e reaches the tracker (R41, R44, R46); `num` is a token's number. -/
def State.trackerEdge (s : State) (e : Nat) (num : Option Nat) : State :=
  let st := s.beatState
  let t := s.tracker
  if st = 1 ∨ st = 4 then s.acquire e num
  else if st = 2 then
    let inWin := decide (absDiff e t.t1 ≤ s.beatWindow t.per)
    match num with
    | none => if inWin then s.acceptEdge e 0 else s.spurious
    | some n =>
      if n = t.k then (if inWin then s.acceptEdge e 0 else s.spurious)
      else if t.k < n then
        (if inWin then (s.count R.BEAT_EVCNT F.BEAT_EVCNT_NUM_SLIP 1).acceptEdge e (n - t.k) else s.spurious)
      else
        -- R46: a smaller number; the position is held where it stands
        let p := s.posAt s.hubTime
        let s := ({ s with tracker := { t with pos0 := p, t0 := s.hubTime, acq := [], coasted := 0, lastReal := false } }
          ).setBeatState 4
        s.lostRecord (p / 2 ^ 32) 1
  else if st = 3 then
    let near := decide (4 * absDiff e t.t1 ≤ t.per)
    if near && (match num with | none => true | some n => n == t.k) then s.acceptEdge e 0 else s.spurious
  else s

/-! ### Injection kind 0 (R466) -/

/-- One step of the Galois LFSR with feedback polynomial x^64 + x^63 + x^61 + x^60 + 1. -/
def lfsrStep (v : Word) : Word :=
  if v.getLsbD 0 then (v >>> 1) ^^^ 0xD800000000000000 else v >>> 1

/-- Advance the LFSR 64 steps. -/
def lfsr64 (v : Word) : Word := (List.range 64).foldl (fun x _ => lfsrStep x) v

/-- Kind k acts (R465, R466). -/
def State.pert (s : State) (k : Nat) : Bool :=
  bitOf (s.fld R.SEC_DEBUG F.SEC_DEBUG_SCOPE) 1 && bitOf (s.fld R.PERT_CTL F.PERT_CTL_ENABLE) k

/-- One draw of kind k's LFSR. -/
def State.pertDraw (s : State) (k : Nat) : Nat × State :=
  let v := lfsr64 (s.lfsr.getD k 0)
  (v.toNat, { s with lfsr := s.lfsr.set k v })

/-- Jitter: the time at which the tracker sees an edge of time e, or none where it is removed (R466, kind 0). -/
def State.jitter (s : State) (e : Nat) : Option Nat × State :=
  if s.pert 0 then
    let (d, s) := s.pertDraw 0
    if d % 65536 < s.fld R.PERT_BEAT F.PERT_BEAT_DROP then (none, s.count R.PERT_CNT F.PERT_CNT_DROPPED 1)
    else
      let j := s.fld R.PERT_BEAT F.PERT_BEAT_JITTER_NS
      let ns : Int := (d % (2 * j + 1) : Nat) - (j : Int)
      let dt : Int := ns * 126 * 65536 / (acTicks s.hubPoint : Int)
      (some ((e : Int) + dt).toNat, s)
  else (some e, s)

/-! ### Meanings -/

/-- BEAT_EDGE: a rising edge on the wire, now (R41, R44). It reaches the tracker while SOURCE is wire. -/
def execBeatEdge (s : State) : Res :=
  s.whenMain (
    if s.fld R.BEAT_CFG F.BEAT_CFG_SOURCE = 1 then
      let (e, s) := s.jitter s.hubTime
      match e with
      | none => s
      | some e => s.trackerEdge e none
    else s)

/-- Beat k is coasted (R42): the instant is the end of its window. -/
def State.coast (s : State) : State :=
  let t := s.tracker
  let k := t.k
  let i := t.t1 + s.beatWindow t.per
  let p := s.posAt i
  let entering := s.beatState = 2
  let s := s.count R.BEAT_EVCNT F.BEAT_EVCNT_COASTED 1
  let s := (s.setTracker { t with t0 := i, pos0 := p, t1 := t.t1 + t.per, pos1 := (k + 1) * 2 ^ 32, lastE := t.t1,
                                  lastReal := false, coasted := t.coasted + 1 }).setBeatState 3
  if entering then s.coastRecord k else s

/-- BEAT_COAST: no edge was accepted by the end of the window of beat k (R42). -/
def execBeatCoast (s : State) : Res :=
  s.whenMain (
    if (s.beatState = 2 ∨ s.beatState = 3) ∧ s.tracker.coasted < 64 ∧
       s.tracker.t1 + s.beatWindow s.tracker.per ≤ s.hubTime then s.coast
    else s)

/-- BEAT_LOST_ENTRY: 64 consecutive coasted beats; the position is held at b:0xFFFF, b the last coasted beat (R44). -/
def execBeatLostEntry (s : State) : Res :=
  s.whenMain (
    if s.beatState = 3 ∧ 64 ≤ s.tracker.coasted then
      let b := s.tracker.k - 1
      let s := ({ s with tracker := { s.tracker with pos0 := b * 2 ^ 32 + 0xFFFF0000, t0 := s.hubTime, acq := [],
                                                      lastReal := false } }).setBeatState 4
      s.lostRecord b 0
    else s)

/-- MASTER_TAKEOVER (R38): an eligible token follower reaches TAKEOVER coasted beats. -/
def execMasterTakeover (s : State) : Res :=
  s.whenMain (
    if s.beatState = 3 ∧ s.fld R.BEAT_CFG F.BEAT_CFG_SOURCE = 2 ∧ s.fld R.BEAT_CFG F.BEAT_CFG_MASTER_ELIG = 1 ∧
       s.fld R.BEAT_CFG F.BEAT_CFG_TAKEOVER ≤ s.tracker.coasted then
      let t := s.tracker
      let rc := (roundDivEven (t.per * acTicks s.hubPoint : Nat) (65536 * rcTicks : Nat)).toNat
      let s := { s with tracker := { t with genNext := t.t1, genRc := rc, coasted := 0, follow := none } }
      ((((s.setBeatState 5).setFld R.BEAT_STAT F.BEAT_STAT_TAKEN_OVER 1).setFld R.BEAT_STAT
        F.BEAT_STAT_MASTER_RANK_SEEN (s.fld R.BEAT_CFG F.BEAT_CFG_MASTER_RANK)).setReg R.BEAT_MASTER_SERIAL
        (s.reg R.ID_SERIAL))
    else s)

/-- A fabric port is up at version 3: it carries tokens (R37, R318). -/
def State.portV3 (s : State) (p : Nat) : Bool :=
  s.fld (R.RYF_PORT_STAT p) F.RYF_PORT_STAT_STATE == 4 && s.fld (R.RYF_PORT_STAT p) F.RYF_PORT_STAT_VERSION == 3 &&
    s.fld R.RYF_STAT F.RYF_STAT_EXCLUDED == 0

/-- The body of a token (R318). -/
def tokenBody (num serial rank corr : Nat) : List Byte :=
  leBytes num 6 ++ [0, 0] ++ leBytes serial 8 ++ [BitVec.ofNat 8 rank] ++ List.replicate 7 0 ++ leBytes corr 4 ++ List.replicate 4 0

/-- Send the token of beat k on every version-3 port, as master (R37, R318, R319: CORR starts at the time since the boundary,
in TU). -/
def State.sendTokens (s : State) (k corr : Nat) : State :=
  let h : Hdr := { dst := 0xFFFF, src := BitVec.ofNat 16 s.ownAddr, vc := 1, hops := 0, err := false, retry := false, seq := 0, addr := 0 }
  (List.range 16).foldl (fun s p =>
    if s.portV3 p then
      s.egress p { hdr := h, type := 0x10, body := tokenBody k s.serial (s.fld R.BEAT_CFG F.BEAT_CFG_MASTER_RANK) corr }
    else s) s

/-- GENERATOR_BOUNDARY (R37): the local generator reaches its boundary. -/
def execGeneratorBoundary (s : State) : Res :=
  s.whenMain (
    if s.beatState = 5 ∧ s.tracker.genNext ≤ s.hubTime then
      let t := s.tracker
      let k := t.k
      let taken := s.fld R.BEAT_STAT F.BEAT_STAT_TAKEN_OVER = 1
      let rc := if taken then t.genRc else s.fld R.BEAT_GEN_PERIOD F.BEAT_GEN_PERIOD_PERIOD_RC
      let p := s.rcToAc rc
      let s' := s.setTracker { t with t0 := t.genNext, pos0 := k * 2 ^ 32, t1 := t.genNext + p, pos1 := (k + 1) * 2 ^ 32,
                                      per := p, lastE := t.genNext, genNext := t.genNext + p }
      if taken ∨ s.fld R.BEAT_CFG F.BEAT_CFG_TOKEN_OUT = 1 then
        s'.sendTokens k ((s.hubTime - t.genNext) * acTicks s.hubPoint * 16 / (65536 * 126))
      else s'
    else s)

/-- RESYNC: acquisition restarts in SEARCH, whatever was applied (R44). -/
def State.resync (s : State) : State := s.enterSearch

/-- RESYNC: a write of BEAT_CTL.RESYNC alone (R44, R488). -/
def execResync (s : State) : Res := s.whenMain s.resync

/-- The tracker rescales at a change of the hub clock from ticks `o` to ticks `n` per ac (R43). The times of past edges are
carried into the new ac as well (log 12). -/
def State.rescale (s : State) (o n : Nat) : State :=
  let t := s.tracker
  let now := s.hubTime
  let sc := fun (x : Nat) => (roundDivEven (x * o : Nat) (n : Nat)).toNat
  let past := fun (e : Nat) => if e ≤ now then now - sc (now - e) else now + sc (e - now)
  s.setTracker { t with per := sc t.per, t0 := now, pos0 := s.posAt now, t1 := past t.t1, lastE := past t.lastE,
                        genNext := past t.genNext, acq := t.acq.map (fun p => (past p.1, p.2)) }

/-- LIFETIME_MINUTE (R52): a powered minute has elapsed; at the stored limit a new limit is written first. -/
def execLifetimeMinute (s : State) : Res :=
  s.alive (
    let m := s.fld R.LIFETIME F.LIFETIME_MINUTES
    let p := s.fld R.LIFETIME F.LIFETIME_POWERON_ID
    if m - p < s.uptime / 6000000000 then
      let s := if m + 1 ≥ s.lifeLimit then { s with lifeLimit := s.lifeLimit + 16 } else s
      s.setFld R.LIFETIME F.LIFETIME_MINUTES (m + 1)
    else s)

/-- A read of BEAT_POS: the position, with UPTIME latched in the same cycle (R209). -/
def State.readBeatPos (s : State) : Word × State :=
  (BitVec.ofNat 64 s.position, s.setReg R.BEAT_POS_UPTIME (BitVec.ofNat 64 s.uptime))

end Sys2Proof.Machine
end

