-- ==== Sys2Proof/Machine/Formats.lean ====
section
/-!
DEFINITION. The number formats (R56 to R87, R487): the exact value of every code, and the exact result and events of every
conversion.
-/

namespace Sys2Proof.Machine

open Sys2Proof

/-! ### Format codes (R56) -/

def fLog4 : Nat := 0x01
def fLog8 : Nat := 0x02
def fLog16 : Nat := 0x03
def fInt8 : Nat := 0x08
def fInt32 : Nat := 0x0A
def fInt64 : Nat := 0x0B
def fE4M3 : Nat := 0x10
def fE5M2 : Nat := 0x11
def fBf16 : Nat := 0x12
def fFp16 : Nat := 0x13
def fFp32 : Nat := 0x14
def fAcc64 : Nat := 0x20

/-- The listed format codes (R56). -/
def fmtKnown (f : Nat) : Bool :=
  [fLog4, fLog8, fLog16, fInt8, fInt32, fInt64, fE4M3, fE5M2, fBf16, fFp16, fFp32, fAcc64].contains f

/-- Bits of an element (R56). -/
def fmtBits (f : Nat) : Nat :=
  if f = fLog4 then 4
  else if f = fLog8 ∨ f = fInt8 ∨ f = fE4M3 ∨ f = fE5M2 then 8
  else if f = fLog16 ∨ f = fBf16 ∨ f = fFp16 then 16
  else if f = fInt32 ∨ f = fFp32 then 32
  else if f = fInt64 then 64
  else 128

/-- A log format. -/
def fmtIsLog (f : Nat) : Bool := f == fLog4 || f == fLog8 || f == fLog16

/-- A two's complement integer format. -/
def fmtIsInt (f : Nat) : Bool := f == fInt8 || f == fInt32 || f == fInt64

/-! ### Exact values -/

/-- An exact dyadic number ±mant × 2^exp; the sign of a zero is kept. -/
structure Dy where
  neg : Bool
  mant : Nat
  exp : Int
  deriving DecidableEq, Repr

/-- A value that a code stands for. -/
inductive Num where
  | nan
  | inf (neg : Bool)
  | fin (v : Dy)
  deriving DecidableEq, Repr

/-- Zero. -/
def Num.zero : Num := .fin ⟨false, 0, 0⟩

/-- An integer. -/
def Num.ofInt (v : Int) : Num := .fin ⟨decide (v < 0), v.natAbs, 0⟩

/-- T8 (R60). -/
def t8 : List Nat := [2048, 2233, 2435, 2656, 2896, 3158, 3444, 3756]

/-- T16[f] for f = 0 to 63 (R64). -/
def t16Part0 : List Nat := [
  32768, 32857, 32946, 33035, 33125, 33215, 33305, 33395,
  33486, 33576, 33667, 33759, 33850, 33942, 34034, 34126,
  34219, 34312, 34405, 34498, 34591, 34685, 34779, 34874,
  34968, 35063, 35158, 35253, 35349, 35445, 35541, 35637,
  35734, 35831, 35928, 36025, 36123, 36221, 36319, 36417,
  36516, 36615, 36715, 36814, 36914, 37014, 37114, 37215,
  37316, 37417, 37518, 37620, 37722, 37824, 37927, 38030,
  38133, 38236, 38340, 38444, 38548, 38653, 38757, 38863 ]

/-- T16[f] for f = 64 to 127 (R64). -/
def t16Part1 : List Nat := [
  38968, 39074, 39180, 39286, 39392, 39499, 39606, 39714,
  39821, 39929, 40037, 40146, 40255, 40364, 40473, 40583,
  40693, 40804, 40914, 41025, 41136, 41248, 41360, 41472,
  41584, 41697, 41810, 41923, 42037, 42151, 42265, 42380,
  42495, 42610, 42726, 42841, 42958, 43074, 43191, 43308,
  43425, 43543, 43661, 43780, 43898, 44017, 44137, 44256,
  44376, 44497, 44617, 44738, 44859, 44981, 45103, 45225,
  45348, 45471, 45594, 45718, 45842, 45966, 46091, 46216 ]

/-- T16[f] for f = 128 to 191 (R64). -/
def t16Part2 : List Nat := [
  46341, 46467, 46593, 46719, 46846, 46973, 47100, 47228,
  47356, 47484, 47613, 47742, 47871, 48001, 48131, 48262,
  48393, 48524, 48655, 48787, 48920, 49052, 49185, 49319,
  49452, 49586, 49721, 49856, 49991, 50126, 50262, 50399,
  50535, 50672, 50810, 50947, 51085, 51224, 51363, 51502,
  51642, 51782, 51922, 52063, 52204, 52346, 52488, 52630,
  52773, 52916, 53059, 53203, 53347, 53492, 53637, 53782,
  53928, 54074, 54221, 54368, 54515, 54663, 54811, 54960 ]

/-- T16[f] for f = 192 to 255 (R64). -/
def t16Part3 : List Nat := [
  55109, 55258, 55408, 55558, 55709, 55860, 56012, 56163,
  56316, 56468, 56622, 56775, 56929, 57083, 57238, 57393,
  57549, 57705, 57861, 58018, 58176, 58333, 58491, 58650,
  58809, 58968, 59128, 59289, 59449, 59611, 59772, 59934,
  60097, 60260, 60423, 60587, 60751, 60916, 61081, 61247,
  61413, 61579, 61746, 61914, 62081, 62250, 62419, 62588,
  62757, 62928, 63098, 63269, 63441, 63613, 63785, 63958,
  64132, 64306, 64480, 64655, 64830, 65006, 65182, 65359 ]

/-- T16 (R64). -/
def t16 (f : Nat) : Nat :=
  if f < 64 then t16Part0.getD f 0 else if f < 128 then t16Part1.getD (f - 64) 0
  else if f < 192 then t16Part2.getD (f - 128) 0 else t16Part3.getD (f - 192) 0

/-- The linear value 2^(e/8) of R60, as a sign and an integer e. -/
def lin8e (neg : Bool) (e : Int) : Dy := ⟨neg, t8.getD (e % 8).toNat 0, e / 8 - 11⟩

/-- The linear value 2^(e/256) of R64. -/
def lin16e (neg : Bool) (e : Int) : Dy := ⟨neg, t16 (e % 256).toNat, e / 256 - 15⟩

/-- Value of a LOG8 code (R59, R60). -/
def lin8 (c : Nat) : Num :=
  let neg := bitOf c 7
  let m := c % 128
  if m = 0 then (if neg then .nan else .zero)
  else if m = 127 then .inf neg
  else if m < 8 then .fin ⟨neg, m, -11⟩
  else .fin (lin8e neg ((m : Int) - 72))

/-- Value of a LOG16 code (R63, R64). -/
def lin16 (c : Nat) : Num :=
  let neg := bitOf c 15
  let m := c % 32768
  if m = 0 then (if neg then .nan else .zero)
  else if m = 32767 then .inf neg
  else if m < 256 then .fin ⟨neg, m, -71⟩
  else .fin (lin16e neg ((m : Int) - 16384))

/-- The LOG8 code of a LOG4 code (R62). -/
def log4to8 (c : Nat) : Nat :=
  let m := c % 8
  if m = 0 then 0 else 128 * b2n (bitOf c 3) + (72 + 4 * m - 16)

/-- Value of a floating code with `e` exponent bits, `m` mantissa bits and a bias. `ieee` tells whether the top exponent
holds infinity and NaNs; without it (E4M3) only the all-ones magnitude is NaN (R58). -/
def linFloat (e m bias : Nat) (ieee : Bool) (c : Nat) : Num :=
  let neg := bitOf c (e + m)
  let ex := bitsOf c m e
  let fr := bitsOf c 0 m
  if ex = 2 ^ e - 1 ∧ ieee = true then (if fr = 0 then .inf neg else .nan)
  else if ex = 2 ^ e - 1 ∧ fr = 2 ^ m - 1 then .nan
  else if ex = 0 then .fin ⟨neg, fr, 1 - (bias : Int) - m⟩
  else .fin ⟨neg, 2 ^ m + fr, (ex : Int) - bias - m⟩

/-- Reserved fields of an ACC64 element are zero (R84). -/
def accOk (c : Nat) : Bool := decide (c / 2 ^ 83 = 0)

/-- Value of an ACC64 element (R84). -/
def linAcc (c : Nat) : Num :=
  let tag := bitsOf c 80 2
  if tag = 1 then .inf false else if tag = 2 then .inf true else if tag = 3 then .nan
  else
    let v := signedOf c 64
    .fin ⟨decide (v < 0), v.natAbs, signedOf (bitsOf c 64 16) 16⟩

/-- The exact value of a code of a format. -/
def numOf (f c : Nat) : Num :=
  if f = fLog4 then lin8 (log4to8 c)
  else if f = fLog8 then lin8 c
  else if f = fLog16 then lin16 c
  else if f = fInt8 then .ofInt (signedOf c 8)
  else if f = fInt32 then .ofInt (signedOf c 32)
  else if f = fInt64 then .ofInt (signedOf c 64)
  else if f = fE4M3 then linFloat 4 3 7 false c
  else if f = fE5M2 then linFloat 5 2 15 true c
  else if f = fBf16 then linFloat 8 7 127 true c
  else if f = fFp16 then linFloat 5 10 15 true c
  else if f = fFp32 then linFloat 8 23 127 true c
  else linAcc c

/-! ### Conversion control (R68, R69) -/

/-- How a command converts: RND (0 nearest, 1 stochastic, 2 toward zero) and OVF_INF, with the element's random byte. -/
structure Cvt where
  rnd : Nat
  ovfInf : Bool
  r : Nat
  deriving DecidableEq, Repr

/-- To nearest, saturating: the control where a rule names none. -/
def Cvt.nearest : Cvt := ⟨0, false, 0⟩

/-- The CVT byte is no reserved encoding for a command other than a sliver instruction (R7, R68). -/
def cvtOk (b : Nat) : Bool := decide (b / 8 = 0) && decide (b % 4 < 2)

/-- The control of a CVT byte and an element's random byte. -/
def Cvt.ofByte (b r : Nat) : Cvt := ⟨b % 4, bitOf b 2, r⟩

/-- The same with its random byte replaced. -/
def Cvt.with (c : Cvt) (r : Nat) : Cvt := { c with r := r }

/-- A converted code with its events (R69). -/
structure CvRes where
  code : Nat
  ovf : Bool := false
  unf : Bool := false
  inv : Bool := false
  deriving DecidableEq, Repr

/-- Counts of the three events. -/
structure EvCount where
  ovf : Nat
  unf : Nat
  inv : Nat
  deriving DecidableEq, Repr

def EvCount.zero : EvCount := ⟨0, 0, 0⟩

def EvCount.add (e : EvCount) (r : CvRes) : EvCount := ⟨e.ovf + b2n r.ovf, e.unf + b2n r.unf, e.inv + b2n r.inv⟩

def EvCount.plus (e f : EvCount) : EvCount := ⟨e.ovf + f.ovf, e.unf + f.unf, e.inv + f.inv⟩

/-- Some event was raised. -/
def EvCount.any (e : EvCount) : Bool := e.ovf + e.unf + e.inv != 0

/-! ### Rounding (R70, R73, R87, R487) -/

/-- mant × 2^exp on the grid of step 2^g, in steps: to nearest even, stochastic, or toward zero. -/
def roundLin (c : Cvt) (mant : Nat) (exp g : Int) : Nat :=
  if g ≤ exp then mant * 2 ^ (exp - g).toNat
  else
    let d : Nat := 2 ^ (g - exp).toNat
    if c.rnd = 0 then (roundDivEven (mant : Int) (d : Int)).toNat
    else if c.rnd = 1 then (mant * 512 + (2 * c.r + 1) * d) / (512 * d)
    else mant / d

/-- The largest n with 2^n ≤ (mant × 2^exp)^k; mant > 0 (R73, R487). -/
def floorLog (k mant : Nat) (exp : Int) : Int := (Nat.log2 (mant ^ k) : Int) + k * exp

/-- k × log2(mant × 2^exp) rounded to an integer: to nearest (R73), stochastic (R87) or toward zero (R487); mant > 0. -/
def roundLog (c : Cvt) (k mant : Nat) (exp : Int) : Int :=
  let l := Nat.log2 (mant ^ k)
  let n : Int := (l : Int) + k * exp
  if c.rnd = 0 then (if 2 ^ (2 * l + 1) < mant ^ (2 * k) then n + 1 else n)
  else if c.rnd = 1 then (if 2 ^ (512 * (l + 1)) ≤ mant ^ (512 * k) * 2 ^ (2 * c.r + 1) then n + 1 else n)
  else n

/-- mant × 2^exp < 2^x. -/
def ltPow (mant : Nat) (exp x : Int) : Bool :=
  mant == 0 || decide ((Nat.log2 mant : Int) + exp < x)

/-! ### Targets -/

/-- A finite value to LOG8 or LOG16 (R70, R71, R74, R75): `k` the log steps per octave, `tail` the exponent below which the
tail grid 2^grid holds, `off` the code of 1.0, `top` the largest finite code, `w` the code's magnitude bits. -/
def toLog (c : Cvt) (k : Nat) (tail grid : Int) (off top w : Nat) (v : Dy) : CvRes :=
  let sg := if v.neg then 2 ^ w else 0
  if v.mant = 0 then { code := 0 }
  else if ltPow v.mant v.exp tail then
    let t := roundLin c v.mant v.exp grid
    if t = 0 then { code := 0, unf := true } else { code := sg + t }
  else
    let m := (off : Int) + roundLog c k v.mant v.exp
    if (top : Int) < m then { code := sg + (if c.ovfInf then top + 1 else top), ovf := true }
    else { code := sg + m.toNat }

/-- An exact value to LOG8. -/
def toLog8 (c : Cvt) : Num → CvRes
  | .nan => { code := 0x80 }
  | .inf n => { code := 0x7F + 0x80 * b2n n }
  | .fin v => toLog c 8 (-8) (-11) 72 126 7 v

/-- An exact value to LOG16. -/
def toLog16 (c : Cvt) : Num → CvRes
  | .nan => { code := 0x8000 }
  | .inf n => { code := 0x7FFF + 0x8000 * b2n n }
  | .fin v => toLog c 256 (-63) (-71) 16384 32766 15 v

/-- An exact value to LOG4 (R72, R74, R75). a < 2^−2.5: a^2 < 2^−5. Stochastic and toward zero: n below −3 gives zero
(R487), the grid and the clamp being those of R72 (R87). -/
def toLog4 (c : Cvt) : Num → CvRes
  | .nan => { code := 0, inv := true }
  | .inf n => { code := 7 + 8 * b2n n, ovf := true }
  | .fin v =>
    let sg := if v.neg then 8 else 0
    if v.mant = 0 then { code := 0 }
    else
      let n := roundLog c 2 v.mant v.exp
      let small := if c.rnd = 2 then decide (n < -3)
        else ltPow (v.mant ^ 2) (2 * v.exp) (-5)
      if small then { code := 0, unf := true }
      else
        let n := max n (-3)
        if 3 < n then { code := sg + 7, ovf := true } else { code := sg + (4 + n).toNat }

/-- A floating target: exponent bits, mantissa bits, bias, the largest finite code, the infinity code, the NaN code (R79 to
R81). -/
structure FloatFmt where
  e : Nat
  m : Nat
  bias : Nat
  top : Nat
  inf : Option Nat
  nan : Nat

def ffE4M3 : FloatFmt := ⟨4, 3, 7, 0x7E, none, 0x7F⟩
def ffE5M2 : FloatFmt := ⟨5, 2, 15, 0x7B, some 0x7C, 0x7E⟩
def ffBf16 : FloatFmt := ⟨8, 7, 127, 0x7F7F, some 0x7F80, 0x7FC0⟩
def ffFp16 : FloatFmt := ⟨5, 10, 15, 0x7BFF, some 0x7C00, 0x7E00⟩
def ffFp32 : FloatFmt := ⟨8, 23, 127, 0x7F7FFFFF, some 0x7F800000, 0x7FC00000⟩

/-- The code of an overflowing magnitude (R80). -/
def FloatFmt.overflow (f : FloatFmt) (c : Cvt) (neg : Bool) : CvRes :=
  let sg := if neg then 2 ^ (f.e + f.m) else 0
  { code := sg + (if c.ovfInf then f.inf.getD f.nan else f.top), ovf := true }

/-- An exact value to a floating format. -/
def toFloat (f : FloatFmt) (c : Cvt) : Num → CvRes
  | .nan => { code := f.nan }
  | .inf n =>
    match f.inf with
    | some i => { code := i + (if n then 2 ^ (f.e + f.m) else 0) }
    | none => f.overflow c n
  | .fin v =>
    let sg := if v.neg then 2 ^ (f.e + f.m) else 0
    if v.mant = 0 then { code := sg }
    else
      let emin : Int := 1 - (f.bias : Int)
      let ex := max ((Nat.log2 v.mant : Int) + v.exp) emin
      let q := roundLin c v.mant v.exp (ex - f.m)
      let code := (ex - emin).toNat * 2 ^ f.m + q
      if f.top < code then f.overflow c v.neg
      else { code := sg + code, unf := q == 0 }

/-- An exact value to an integer of w bits (R82, R81). -/
def toInt (w : Nat) (c : Cvt) : Num → CvRes
  | .nan => { code := 0, inv := true }
  | .inf n => { code := if n then 2 ^ (w - 1) else 2 ^ (w - 1) - 1, ovf := true }
  | .fin v =>
    let q := roundLin c v.mant v.exp 0
    if v.neg then
      if 2 ^ (w - 1) < q then { code := 2 ^ (w - 1), ovf := true } else { code := wrapInt (-(q : Int)) w }
    else if 2 ^ (w - 1) ≤ q then { code := 2 ^ (w - 1) - 1, ovf := true } else { code := q }

/-- An ACC64 element: value on the grid, window, tag, SAT (R84). -/
def accCode (v : Int) (w : Int) (tag : Nat) (sat : Bool) : Nat :=
  if tag = 0 then wrapInt v 64 + wrapInt w 16 * 2 ^ 64 + b2n sat * 2 ^ 82
  else tag * 2 ^ 80 + b2n sat * 2 ^ 82

/-- An exact value to ACC64 of window w (R86). -/
def toAcc (w : Int) (c : Cvt) : Num → CvRes
  | .nan => { code := accCode 0 0 3 false }
  | .inf n => { code := accCode 0 0 (if n then 2 else 1) false }
  | .fin v =>
    let q : Int := roundLin c v.mant v.exp w
    let x := if v.neg then -q else q
    if x < -(2 ^ 63) then { code := accCode (-(2 ^ 63)) w 0 true, ovf := true }
    else if 2 ^ 63 ≤ x then { code := accCode (2 ^ 63 - 1) w 0 true, ovf := true }
    else { code := accCode x w 0 false }

/-- An exact value to a format; `w` is the ACC64 window. -/
def toFmt (f : Nat) (w : Int) (c : Cvt) (x : Num) : CvRes :=
  if f = fLog4 then toLog4 c x
  else if f = fLog8 then toLog8 c x
  else if f = fLog16 then toLog16 c x
  else if f = fInt8 then toInt 8 c x
  else if f = fInt32 then toInt 32 c x
  else if f = fInt64 then toInt 64 c x
  else if f = fE4M3 then toFloat ffE4M3 c x
  else if f = fE5M2 then toFloat ffE5M2 c x
  else if f = fBf16 then toFloat ffBf16 c x
  else if f = fFp16 then toFloat ffFp16 c x
  else if f = fFp32 then toFloat ffFp32 c x
  else toAcc w c x

/-- A value times 2^k (R88, R89): exact. -/
def Num.scale (k : Int) : Num → Num
  | .fin v => .fin { v with exp := v.exp + k }
  | x => x

/-- A code of a log format with its sign as the code's top bit: the smallest normal magnitude, the largest finite one. -/
structure LogFmt where
  bits : Nat
  steps : Nat
  off : Nat
  low : Nat
  top : Nat

def lf8 : LogFmt := ⟨7, 8, 72, 8, 126⟩
def lf16 : LogFmt := ⟨15, 256, 16384, 256, 32766⟩

/-- The code of magnitude offset n (a logarithm in steps) in the log region, with R74 above the top. -/
def LogFmt.put (l : LogFmt) (c : Cvt) (neg : Bool) (n : Int) : CvRes :=
  let sg := if neg then 2 ^ l.bits else 0
  if (l.top : Int) < l.off + n then { code := sg + (if c.ovfInf then l.top + 1 else l.top), ovf := true }
  else { code := sg + (l.off + n).toNat }

/-- A log code times 2^k to LOG8 or LOG16 of at least its own precision, by code (R76, R89): the logarithm is kept exactly
while it stays normal; a tail code, or a result below the normal codes, comes from the linear value (DEDUCED, log 16). -/
def widen (src dst : LogFmt) (lin : Num) (conv : Num → CvRes) (c : Cvt) (k : Int) (x : Nat) : CvRes :=
  let m := x % 2 ^ src.bits
  let neg := bitOf x src.bits
  let sg := if neg then 2 ^ dst.bits else 0
  if m = 0 then { code := sg }
  else if m = src.top + 1 then { code := sg + dst.top + 1 }
  else if m < src.low then
    (if k = 0 ∧ src.bits = dst.bits then { code := x } else conv (lin.scale k))
  else
    let e : Int := ((m : Int) - src.off) * (dst.steps / src.steps : Nat) + dst.steps * k
    if dst.off + e < dst.low then conv (lin.scale k) else dst.put c neg e

/-- LOG16 times 2^k to LOG8 by code (R77). -/
def log16to8 (c : Cvt) (k : Int) (x : Nat) : CvRes :=
  let m := x % 32768
  let neg := bitOf x 15
  let sg := 0x80 * b2n neg
  let e : Int := (m : Int) - 16384 + 256 * k
  let lin := (lin16 x).scale k
  if m = 0 then { code := sg }
  else if m = 32767 then { code := sg + 0x7F }
  else if m < 256 then toLog8 c lin
  else if c.rnd = 0 then
    let n := roundDivEven e 32
    if n < -64 then
      -- step 4: step 1 of R70 for this source
      match lin with
      | .fin v =>
        let t := roundLin c v.mant v.exp (-11)
        if t = 0 then { code := 0, unf := true } else { code := sg + t }
      | _ => { code := 0 }
    else lf8.put c neg n
  else if -2048 ≤ e then lf8.put c neg (if c.rnd = 1 then (16 * e + 2 * c.r + 1) / 512 else e / 32)
  else toLog8 c lin

/-- Convert a code times 2^k from one format to another (R70 to R89): between log formats by code where R76 and R77 say so. -/
def convertScaled (src dst : Nat) (w : Int) (c : Cvt) (k : Int) (x : Nat) : CvRes :=
  if src = fLog4 ∧ dst = fLog4 ∧ k = 0 then { code := if x % 8 = 0 then 0 else x }
  else if src = fLog4 ∧ dst = fLog8 then widen lf8 lf8 (lin8 (log4to8 x)) (toLog8 c) c k (log4to8 x)
  else if src = fLog4 ∧ dst = fLog16 then widen lf8 lf16 (lin8 (log4to8 x)) (toLog16 c) c k (log4to8 x)
  else if src = fLog8 ∧ dst = fLog8 then widen lf8 lf8 (lin8 x) (toLog8 c) c k x
  else if src = fLog8 ∧ dst = fLog16 then widen lf8 lf16 (lin8 x) (toLog16 c) c k x
  else if src = fLog16 ∧ dst = fLog16 then widen lf16 lf16 (lin16 x) (toLog16 c) c k x
  else if src = fLog16 ∧ dst = fLog8 then log16to8 c k x
  else toFmt dst w c ((numOf src x).scale k)

/-- Convert a code without a scale. -/
def convert (src dst : Nat) (w : Int) (c : Cvt) (x : Nat) : CvRes := convertScaled src dst w c 0 x

/-- The code is a finite nonzero tail code (R97). -/
def isTail (f x : Nat) : Bool :=
  if f = fLog8 then decide (0 < x % 128) && decide (x % 128 < 8)
  else if f = fLog16 then decide (0 < x % 32768) && decide (x % 32768 < 256)
  else false

end Sys2Proof.Machine
end

