-- ==== Sys2Proof/Machine/Palette.lean ====
section
/-!
DEFINITION. Palette scales, sketch passes, stale marks (R88 to R98), random streams and the bind table (R99 to R103), and
the meanings of the register writes of the PAL and RAND blocks.
-/

namespace Sys2Proof.Machine

open Sys2Proof

/-! ### Scale sets (R92) -/

/-- Set 63: no scale. -/
def noSet : Nat := 63

/-- A role's set number is no reserved encoding, and its channel extent fits the palette (R92). -/
def roleOk (p c : Nat) : Bool := p == noSet || (decide (p < 48) && decide (p + (c + 255) / 256 ≤ 48))

/-- The sets a role uses. -/
def roleSets (p c : Nat) : List Nat := if p = noSet then [] else (List.range ((c + 255) / 256)).map (fun i => p + i)

/-- Two roles use no common set. -/
def rolesApart (p c q d : Nat) : Bool :=
  p == noSet || q == noSet || decide (p + (c + 255) / 256 ≤ q) || decide (q + (d + 255) / 256 ≤ p)

/-- The scale of channel c under set p on die d. -/
def State.scaleOf (s : State) (d p c : Nat) : Int :=
  if p = noSet then 0
  else
    let e := c % 256
    signedOf (s.fld (R.PAL_SCALE d (p + c / 256) (e / 8)) (F.PAL_SCALE_SCALE (e % 8))) 8

/-- Write one scale of a set. -/
def State.setScale (s : State) (d p e : Nat) (x : Int) : State :=
  s.setFld (R.PAL_SCALE d p (e / 8)) (F.PAL_SCALE_SCALE (e % 8)) (wrapInt x 8)

/-! ### Stale-scale counters (R97, R98) -/

/-- The SAT and ZERO events of a command, per set. -/
abbrev Tally := Sparse Nat

/-- Count a conversion's events against the entry of channel c (R97), and in the command's tally (R98). A channel whose set
would lie beyond 47 counts nothing. -/
def State.countInto (s : State) (t : Tally) (d p c f : Nat) (r : CvRes) : State × Tally :=
  let q := p + c / 256
  if p = noSet ∨ 48 ≤ q then (s, t)
  else
    let a := R.PAL_CNT d q ((c % 256) / 2)
    let hi := decide (c % 2 = 1)
    let s := if r.ovf then s.count a (if hi then F.PAL_CNT_SAT_HI else F.PAL_CNT_SAT_LO) 1 else s
    let s := if !r.ovf && isTail f r.code then s.count a (if hi then F.PAL_CNT_TAIL_HI else F.PAL_CNT_TAIL_LO) 1 else s
    let s := if r.unf then s.count a (if hi then F.PAL_CNT_ZERO_HI else F.PAL_CNT_ZERO_LO) 1 else s
    let n := b2n r.ovf + b2n r.unf
    (s, if n = 0 then t else sparseSet t q (sparseGet t q 0 + n) 0)

/-- The conversion advanced a counter of R97. -/
def palCounted (p c f : Nat) (r : CvRes) : Bool :=
  p != noSet && decide (p + c / 256 < 48) && (r.ovf || r.unf || isTail f r.code)

/-- Mark a set stale or fresh. -/
def State.setStale (s : State) (d p : Nat) (b : Bool) : State := s.setBit (R.PAL_STALE d) F.PAL_STALE_STALE p b

/-- The end of a command that converted into sets (R98). -/
def State.markStale (s : State) (d : Nat) (t : Tally) : State :=
  let th := s.fld (R.PAL_AUTO d) F.PAL_AUTO_THRESH
  if th = 0 then s else t.foldl (fun s p => if th ≤ p.2 then s.setStale d p.1 true else s) s

/-- Some set of a role is stale (AUTO, R95). -/
def State.anyStale (s : State) (d p c : Nat) : Bool :=
  (roleSets p c).any (fun q => s.bit (R.PAL_STALE d) F.PAL_STALE_STALE q)

/-! ### Sketch pass (R95, R96) -/

/-- |a| < |b| for exact finite values. -/
def magLt (a b : Dy) : Bool :=
  let e := min a.exp b.exp
  decide (a.mant * 2 ^ (a.exp - e).toNat < b.mant * 2 ^ (b.exp - e).toNat)

/-- The larger of a running maximum and a value's magnitude; NaN and infinity are ignored. -/
def magMax (m : Dy) : Num → Dy
  | .fin v => if magLt m v then v else m
  | _ => m

/-- The target octave of a log format on a die. -/
def State.targetOctave (s : State) (d f : Nat) : Int :=
  if f = fLog4 then signedOf (s.fld (R.PAL_CFG d) F.PAL_CFG_TGT4) 4
  else if f = fLog8 then signedOf (s.fld (R.PAL_CFG d) F.PAL_CFG_TGT8) 8
  else signedOf (s.fld (R.PAL_CFG d) F.PAL_CFG_TGT16) 8

/-- Derive and write the scale of channel c from its largest magnitude. -/
def State.sketchChannel (s : State) (d p f c : Nat) (amax : Dy) : State :=
  if amax.mant = 0 then s.count (R.PAL_SKCNT d) F.PAL_SKCNT_EMPTY 1
  else
    let x := (Nat.log2 amax.mant : Int) + amax.exp - s.targetOctave d f
    let y := min 127 (max (-128) x)
    let s := if y = x then s else s.count (R.PAL_SKCNT d) F.PAL_SKCNT_CLAMPED 1
    s.setScale d (p + c / 256) (c % 256) y

/-- A sketch pass: the largest magnitudes of channels 0, 1, … are written as scales, and the sets' stale bits cleared. -/
def State.sketch (s : State) (d p f : Nat) (amax : List Dy) : State :=
  let s := (amax.zipIdx).foldl (fun s a => s.sketchChannel d p f a.2 a.1) s
  let s := (roleSets p amax.length).foldl (fun s q => s.setStale d q false) s
  s.count (R.PAL_SKCNT d) F.PAL_SKCNT_SKETCHES 1

/-! ### Random streams (R99 to R101) -/

/-- Block i of the stream of key K and stream ID S. -/
def streamBlock (key : List Byte) (sid i : Nat) : List Byte := shake128 (key ++ leBytes sid 8 ++ leBytes i 8) 168

/-- n bytes of the stream from byte offset b. -/
def streamBytes (key : List Byte) (sid b n : Nat) : List Nat :=
  if n = 0 then [] else
  let first := b / 168
  let last := (b + n - 1) / 168
  ((((List.range (last - first + 1)).flatMap (fun j => streamBlock key sid (first + j))).drop (b % 168)).take n).map
    BitVec.toNat

/-- The stream bytes at these offsets: each block is formed once. -/
def streamAt (key : List Byte) (sid : Nat) (offs : List Nat) : List Nat :=
  let blocks := offs.foldl (fun (m : Sparse (List Byte)) o =>
    if m.any (fun p => p.1 == o / 168) then m else sparsePut m (o / 168) (streamBlock key sid (o / 168))) []
  offs.map (fun o => ((sparseGet blocks (o / 168) []).getD (o % 168) 0).toNat)

/-- The key of bind entry n of die d: bytes 0 to 15. -/
def State.bindKey (s : State) (d n : Nat) : List Byte :=
  leBytes (s.reg (R.RAND_KEY_LO d n)).toNat 8 ++ leBytes (s.reg (R.RAND_KEY_HI d n)).toNat 8

/-- A unit may draw through an entry: valid, and its CONSUMER is the unit or any unit of the die (R102). -/
def State.bindOk (s : State) (d n unit : Nat) : Bool :=
  s.fld (R.RAND_BIND d n) F.RAND_BIND_VALID == 1 &&
    (s.fld (R.RAND_BIND d n) F.RAND_BIND_CONSUMER == 0xFF || s.fld (R.RAND_BIND d n) F.RAND_BIND_CONSUMER == unit)

/-- Stream bytes through an entry. -/
def State.bindBytes (s : State) (d n b cnt : Nat) : List Nat :=
  streamBytes (s.bindKey d n) (s.reg (R.RAND_STREAM d n)).toNat b cnt

/-- Stream bytes at offsets through an entry. -/
def State.bindAt (s : State) (d n : Nat) (offs : List Nat) : List Nat :=
  streamAt (s.bindKey d n) (s.reg (R.RAND_STREAM d n)).toNat offs

/-! ### The alias check (R103) -/

/-- The valid entries of all dies: die, entry. -/
def State.validBinds (s : State) : List (Nat × Nat) :=
  ((List.range 4).flatMap (fun d => (List.range 64).map (fun n => (d, n)))).filter
    (fun p => s.fld (R.RAND_BIND p.1 p.2) F.RAND_BIND_VALID == 1)

/-- Two entries hold the same pair and are not both SHARED. -/
def State.aliased (s : State) (p q : Nat × Nat) : Bool :=
  p != q && s.reg (R.RAND_KEY_LO p.1 p.2) == s.reg (R.RAND_KEY_LO q.1 q.2) &&
    s.reg (R.RAND_KEY_HI p.1 p.2) == s.reg (R.RAND_KEY_HI q.1 q.2) &&
    s.reg (R.RAND_STREAM p.1 p.2) == s.reg (R.RAND_STREAM q.1 q.2) &&
    !(s.fld (R.RAND_BIND p.1 p.2) F.RAND_BIND_SHARED == 1 && s.fld (R.RAND_BIND q.1 q.2) F.RAND_BIND_SHARED == 1)

/-- Every entry's ALIAS bit, and each die's ALIAS_ANY, follow the valid entries. -/
def State.aliasBits (s : State) : State :=
  let v := s.validBinds
  let on := v.filter (fun p => v.any (fun q => s.aliased p q))
  let s := ((List.range 4).flatMap (fun d => (List.range 64).map (fun n => (d, n)))).foldl (fun s p =>
    let b := b2n (on.contains p)
    if s.fld (R.RAND_BIND p.1 p.2) F.RAND_BIND_ALIAS = b then s
    else s.setFld (R.RAND_BIND p.1 p.2) F.RAND_BIND_ALIAS b) s
  (List.range 4).foldl (fun s d => s.setFld (R.RAND_STAT d) F.RAND_STAT_ALIAS_ANY (b2n (on.any (fun p => p.1 == d)))) s

/-- The check of a changed valid entry; true: an alias was found. -/
def State.aliasCheck (s : State) (unit d n : Nat) : State × Bool :=
  if s.fld (R.RAND_BIND d n) F.RAND_BIND_VALID = 0 then (s.aliasBits, false)
  else
    let hits := s.validBinds.filter (fun q => s.aliased (d, n) q)
    let s := hits.foldl (fun s q =>
      (s.count (R.RAND_STAT d) F.RAND_STAT_ALIAS_CNT 1).errRecord
        { cls := clsCorrected, code := 0x0201, unit := unit, sub := d, info0 := q.2 + 256 * q.1, info1 := n + 256 * d }) s
    (s.aliasBits, !hits.isEmpty)

/-- Write an entry's key half. -/
def State.keyWrite (s : State) (d n : Nat) (hi : Bool) (v : Word) : State :=
  let a := if hi then R.RAND_KEY_HI d n else R.RAND_KEY_LO d n
  if s.reg a = v then s else ((s.setReg a v).aliasCheck 0xFF d n).1

/-- Write an entry's stream ID. -/
def State.streamWrite (s : State) (d n : Nat) (v : Word) : State :=
  if s.reg (R.RAND_STREAM d n) = v then s else ((s.setReg (R.RAND_STREAM d n) v).aliasCheck 0xFF d n).1

/-- Write an entry's control word: CONSUMER, VALID, SHARED. A write of VALID 1 runs the check. -/
def State.bindWrite (s : State) (d n : Nat) (v : Word) : State :=
  ((s.setReg (R.RAND_BIND d n) ((s.reg (R.RAND_BIND d n) &&& 0x400) ||| (v &&& 0x3FF))).aliasCheck 0xFF d n).1

/-- Bind an entry as one write (RBIND, R210): true: an alias was found. -/
def State.bindEntry (s : State) (unit d n consumer : Nat) (valid shared : Bool) (lo hi sid : Word) : State × Bool :=
  let s := ((s.setReg (R.RAND_KEY_LO d n) lo).setReg (R.RAND_KEY_HI d n) hi).setReg (R.RAND_STREAM d n) sid
  (s.setReg (R.RAND_BIND d n) (BitVec.ofNat 64 (consumer % 256 + 256 * b2n valid + 512 * b2n shared +
    1024 * s.fld (R.RAND_BIND d n) F.RAND_BIND_ALIAS))).aliasCheck unit d n

/-! ### Meanings -/

/-- PAL_STALE_WRITE (R98): writing 1 clears a set's mark. -/
def execPalStaleWrite (d : Fin 4) (v : Word) (s : State) : Res :=
  s.alive (if s.blockUp (.pal d) then s.setReg (R.PAL_STALE d.val) (s.reg (R.PAL_STALE d.val) &&& ~~~ v) else s)

/-- RAND_KEY_WRITE (R103): `hi` names RAND_KEY_HI. -/
def execRandKeyWrite (d : Fin 4) (n : Fin 64) (hi : Bool) (v : Word) (s : State) : Res :=
  s.alive (if s.blockUp (.rand d) then s.keyWrite d.val n.val hi v else s)

/-- RAND_STREAM_WRITE (R103). -/
def execRandStreamWrite (d : Fin 4) (n : Fin 64) (v : Word) (s : State) : Res :=
  s.alive (if s.blockUp (.rand d) then s.streamWrite d.val n.val v else s)

/-- RAND_BIND_WRITE (R103). -/
def execRandBindWrite (d : Fin 4) (n : Fin 64) (v : Word) (s : State) : Res :=
  s.alive (if s.blockUp (.rand d) then s.bindWrite d.val n.val v else s)

end Sys2Proof.Machine
end

