-- ==== Sys2Proof/Machine/FabricBase.lean ====
section
/-!
DEFINITION. Sending over the fabric (R299 to R302, R311, R312, R315): routes, flows, requests and their answers. Every unit
that talks to another module uses these operations.
-/

namespace Sys2Proof.Machine

open Sys2Proof

def tWrite : Nat := 0x18
def tReadReq : Nat := 0x19
def tReadResp : Nat := 0x1A
def tWriteAck : Nat := 0x1B
def tLockOp : Nat := 0x11
def tLockResp : Nat := 0x12
def tRegRd : Nat := 0x13
def tRegWr : Nat := 0x14

/-- A fabric port is UP and carries every VC: an excluded module's ports carry VC0 alone (R309). -/
def State.portUp (s : State) (p : Nat) : Bool :=
  s.fld (R.RYF_PORT_STAT p) F.RYF_PORT_STAT_STATE == 4 && s.fld R.RYF_STAT F.RYF_STAT_EXCLUDED == 0

/-- A fabric port has trained: HELLO, ADMIT, UP or REFUSED; it carries VC0. -/
def State.portLinked (s : State) (p : Nat) : Bool :=
  let st := s.fld (R.RYF_PORT_STAT p) F.RYF_PORT_STAT_STATE
  st == 2 || st == 3 || st == 4 || st == 5

/-- The power domain of a fabric port: 53 for L0 to L7, 54 for L8 to L15 (R441). -/
def portDomain (p : Nat) : Nat := if p < 8 then 53 else 54

/-- A route entry's fields (R311). -/
def rtValid (e : Word) : Bool := e.getLsbD 63
def rtAltValid (e : Word) : Bool := e.getLsbD 62
def rtV3 (e : Word) : Bool := e.getLsbD 61
def rtPrimary (e : Word) : Nat := bitsOf e.toNat 52 4
def rtAlt (e : Word) : Nat := bitsOf e.toNat 48 4
def rtMinMask (e : Word) : Nat := bitsOf e.toNat 32 16

/-- A port has credit for a packet. -/
def State.hasCredit (s : State) (p vc len : Nat) : Bool := decide (creditUnits len ≤ sparseGet (s.link p).credits vc 0)

/-- The port a packet takes here: PRIMARY for deterministic traffic, with credit for the VC (R298); for VC12 to VC14 the up
port of MIN_MASK with the most credits for the VC, the lowest on a tie, if it has enough (R311, R312). -/
def State.routePort (s : State) (dst vc len : Nat) : Option Nat :=
  let e := s.reg (R.RYF_ROUTE dst)
  let p := rtPrimary e
  if !(rtValid e) then none
  else if 12 ≤ vc ∧ vc ≤ 14 then
    (List.range 16).foldl (fun (b : Option Nat) p =>
      let c := sparseGet (s.link p).credits vc 0
      if bitOf (rtMinMask e) p && s.portUp p && s.hasCredit p vc len then
        match b with
        | none => some p
        | some q => if sparseGet (s.link q).credits vc 0 < c then some p else b
      else b) none
  else if (vc ≤ 1 || rtV3 e || decide (15 ≤ vc)) && s.portUp p && s.hasCredit p vc len then some p else none

/-- The destination has a usable route for a VC at all (R311): a valid entry, version 3 where the VC needs it. -/
def State.routeKnown (s : State) (dst vc : Nat) : Bool :=
  let e := s.reg (R.RYF_ROUTE dst)
  rtValid e && (!(decide (2 ≤ vc ∧ vc ≤ 11)) || rtV3 e)

/-- A packet of the same flow waits: a deterministic one may not pass it (R301). -/
def State.flowWaits (s : State) (r : RawPkt) : Bool :=
  decide (r.hdr.vc.val < 12) && s.fabric.bulkWait.any (fun w => w.2.hdr.dst == r.hdr.dst && w.2.hdr.vc == r.hdr.vc && w.2.hdr.src == r.hdr.src)

/-- Send a packet that is complete: on its route, or into the wait for credit or for the coordinator's update (R312, R313).
One without any route for its VC stays unsent, and R302 ends its request (R311). -/
def State.sendRaw (s : State) (r : RawPkt) : State :=
  match if s.flowWaits r then none else s.routePort r.hdr.dst.toNat r.hdr.vc.val r.body.length with
  | some p => s.egress p r
  | none =>
    if s.routeKnown r.hdr.dst.toNat r.hdr.vc.val then
      { s with fabric := { s.fabric with bulkWait := s.fabric.bulkWait ++ [(s.now, r)] } }
    else s

/-- Waiting packets try again, oldest first; those that R302 has given up are dropped (R313). -/
def State.releaseWaiting (s : State) : State :=
  let old := 2 * s.fld R.RYF_CFG F.RYF_CFG_E2E_US * usTicks
  let t : State := { s with fabric := { s.fabric with bulkWait := [] } }
  s.fabric.bulkWait.foldl (fun s (w : Nat × RawPkt) =>
    if w.1 + old < s.now then s
    else
      match if s.flowWaits w.2 then none else s.routePort w.2.hdr.dst.toNat w.2.hdr.vc.val w.2.body.length with
      | some p => s.egress p w.2
      | none => { s with fabric := { s.fabric with bulkWait := s.fabric.bulkWait ++ [w] } }) t

/-- Key of the flow to dst on vc. -/
def flowKey (m vc : Nat) : Nat := 16 * m + vc

/-- The next SEQ of a flow, taken. -/
def State.takeSeq (s : State) (dst vc : Nat) : Nat × State :=
  let n := sparseGet s.fabric.txFlow (flowKey dst vc) 0
  (n, { s with fabric := { s.fabric with txFlow := sparseSet s.fabric.txFlow (flowKey dst vc) ((n + 1) % 65536) 0 } })

/-- Send a packet on its flow's next SEQ. -/
def State.sendPkt (s : State) (dst vc type addr : Nat) (body : List Byte) : Nat × State :=
  let (n, s) := s.takeSeq dst vc
  (n, s.sendRaw { hdr := { dst := BitVec.ofNat 16 dst, src := BitVec.ofNat 16 s.ownAddr, vc := vcOf vc, hops := 0, err := false,
                           retry := false, seq := BitVec.ofNat 16 n, addr := BitVec.ofNat 48 addr }, type := type, body := body })

/-- The module is the back of a running mirror pair: it answers nobody (R368, R370). -/
def State.silentBack (s : State) : Bool := s.mirrorBack && s.fld R.PEND_STAT F.PEND_STAT_STATE == 3

/-- Send a request and remember it until it is answered (R302). Its SEQ is returned. A mirror back sends none of its own but
for collective traffic and its probe: it waits for the face's replicated reply (R370). -/
def State.sendReq (s : State) (dst vc type addr : Nat) (body : List Byte) (o : ReqOwner) : Nat × State :=
  let (n, s) := if s.silentBack ∧ type < 0x20 ∧ o ≠ .probe then s.takeSeq dst vc else s.sendPkt dst vc type addr body
  let k := match o.queue with
    | some q => sparseGet s.fabric.issued q 0
    | none => 0
  let issued := match o.queue with
    | some q => sparseSet s.fabric.issued q (k + 1) 0
    | none => s.fabric.issued
  (n, { s with fabric := { s.fabric with issued := issued, requests := s.fabric.requests ++
        [{ dst := dst, vc := vc, seq := n, type := type, addr := addr, body := body, resent := false, owner := o,
           sentAt := s.now, joined := false, nth := k }] } })

/-- Answer a request: the response carries the request's SEQ (log 14), and is remembered for a resent request (R302). -/
def State.respond (s : State) (h : Hdr) (type : Nat) (err : Bool) (addr : Nat) (body : List Byte) : State :=
  let s := { s with fabric := { s.fabric with executed :=
    { src := h.src.toNat, vc := h.vc.val, seq := h.seq.toNat, type := type, err := err, addr := addr, body := body,
      doneAt := s.now } :: s.fabric.executed } }
  s.sendRaw { hdr := { dst := h.src, src := BitVec.ofNat 16 s.ownAddr, vc := h.vc, hops := 0, err := err, retry := false,
                       seq := h.seq, addr := BitVec.ofNat 48 addr }, type := type, body := body }

/-- What the ADDR of an answer to a broadcast adds to the register's address: its SEQ is of another flow (log 33). -/
def bcastMark : Nat := 2 ^ 47

/-- The pending request that a response answers: a response carries its request's SEQ and ADDR (log 14). One of a bulk request
that moved to VC15 on its way comes back on VC15 (R300, R312). -/
def State.findReq (s : State) (h : Hdr) : Option Request :=
  let hit := fun (r : Request) => r.dst == h.src.toNat && r.seq == h.seq.toNat &&
    (match r.owner with
     | .bcast _ _ => r.addr + bcastMark == h.addr.toNat
     | _ => r.addr == h.addr.toNat)
  match s.fabric.requests.find? (fun r => hit r && r.vc == h.vc.val) with
  | some r => some r
  | none => if h.vc.val = 15 then s.fabric.requests.find? (fun r => hit r && decide (12 ≤ r.vc)) else none

/-- Forget a request. -/
def State.dropReq (s : State) (r : Request) : State :=
  { s with fabric := { s.fabric with requests := s.fabric.requests.filter (fun x =>
      !(x.dst == r.dst && x.vc == r.vc && x.seq == r.seq && x.addr == r.addr)) } }

/-- The executed record of a request that arrives again, within twice E2E_US (R302). -/
def State.findExecuted (s : State) (h : Hdr) : Option Executed :=
  s.fabric.executed.find? (fun x => x.src == h.src.toNat && x.seq == h.seq.toNat &&
    (x.vc == h.vc.val || (decide (12 ≤ x.vc ∧ 12 ≤ h.vc.val) && (x.vc == 15 || h.vc.val == 15) && x.addr == h.addr.toNat)) &&
    decide (s.now ≤ x.doneAt + 2 * s.fld R.RYF_CFG F.RYF_CFG_E2E_US * usTicks))

/-- The incarnation that the membership lists for a module address (R239, R310). -/
def State.memberIncarn (s : State) (a : Nat) : Option Nat :=
  (s.members.find? (fun m => m.addr == a)).map Member.incarn

end Sys2Proof.Machine
end

