-- ==== Sys2Proof/Machine/Queue.lean ====
section
/-!
DEFINITION. Queues of the easels: their registers, states, fetches, completion rings and records, faults (R194 to R201,
R215, R216, R222).
-/

namespace Sys2Proof.Machine

open Sys2Proof

def qOff : Nat := 0
def qIdle : Nat := 1
def qRun : Nat := 2
def qWait : Nat := 3
def qStopped : Nat := 4
def qFaulted : Nat := 5

def onSem : Nat := 1
def onBeat : Nat := 2
def onEpoch : Nat := 3
def onLock : Nat := 4
def onFence : Nat := 5
def onBuffer : Nat := 6
def onSlot : Nat := 7
def onAhead : Nat := 8
def onFetch : Nat := 9

/-- Easel of a module queue (R21). -/
def easelOf (q : Nat) : Nat := q / 16

/-- Unit ID of an easel (R20). -/
def easelUnit (e : Nat) : Nat := 0xC4 + e

/-- Kind of an easel (R21): 0 canvas, 1 sliver, 2 move, 3 collective, 4 host, 5 pendant. -/
def easelKind (e : Nat) : Nat := if e < 12 then e % 3 else e - 9

/-- Die of an easel below 12. -/
def easelDie (e : Nat) : Nat := e / 3

/-- The easel of a queue serves: its die in service, or main power for a hub easel. -/
def State.easelUp (s : State) (q : Nat) : Bool :=
  s.serving && (if q < 192 then s.dieUp (easelDie (easelOf q)) else true)

def State.qint (s : State) (q : Nat) : QueueInt := sparseGet s.queues q QueueInt.empty

def State.setQint (s : State) (q : Nat) (i : QueueInt) : State :=
  { s with queues := sparseSet s.queues q i QueueInt.empty }

/-- Change a queue's internals. -/
def State.updQ (s : State) (q : Nat) (f : QueueInt → QueueInt) : State := s.setQint q (f (s.qint q))

def State.qState (s : State) (q : Nat) : Nat := s.fld (R.QSTAT q) F.QSTAT_STATE

/-- Set a queue's state, with its wait cause; the fault field stays. -/
def State.setQState (s : State) (q st on : Nat) : State :=
  (s.setFld (R.QSTAT q) F.QSTAT_STATE st).setFld (R.QSTAT q) F.QSTAT_WAIT_ON on

/-- Scalar register i of a queue: s0 reads as zero (R199). -/
def State.sreg (s : State) (q i : Nat) : Nat := if i = 0 then 0 else (s.reg (R.QSREG q i)).toNat

/-- Write scalar register i: writes to s0 are discarded. -/
def State.setSreg (s : State) (q i v : Nat) : State :=
  if i = 0 then s else s.setReg (R.QSREG q i) (BitVec.ofNat 64 v)

/-- Predicate i: p0 reads as 1. -/
def State.pred (s : State) (q i : Nat) : Bool := if i = 0 then true else bitOf (s.fld (R.QPRED q) F.QPRED_P) i

/-- Write predicate i: writes to p0 are discarded. -/
def State.setPred (s : State) (q i : Nat) (b : Bool) : State :=
  if i = 0 then s else s.setBit (R.QPRED q) F.QPRED_P i b

def State.qpc (s : State) (q : Nat) : Nat := (s.reg (R.QPC q)).toNat

def State.setPc (s : State) (q pc : Nat) : State := s.setReg (R.QPC q) (BitVec.ofNat 64 pc)

/-- The easel as a reader of memory, for a queue. -/
def easelWho (q : Nat) : Who := { unit := easelUnit (easelOf q), queue := q }

/-- An instruction of `cost` words has completed: the list's count rises, the PC moves, the queue runs on (R198, R204). -/
def State.finishInstr (s : State) (q cost pc : Nat) : State :=
  ((s.updQ q (fun i => { i with issued := i.issued + cost, wait := none })).setPc q pc).setQState q qRun 0

/-- The waiting one-word instruction of a queue completes. -/
def State.finishWait (s : State) (q : Nat) : State := s.finishInstr q 1 ((s.qpc q + 8) % 2 ^ 64)

/-- The waiting instruction completes with a status in a register. -/
def State.finishWaitRd (s : State) (q rd v : Nat) : State := (s.setSreg q rd v).finishWait q

/-- A queue waits. -/
def State.waitOn (s : State) (q on : Nat) (w : WaitOn) : State :=
  (s.updQ q (fun i => { i with wait := some w })).setQState q qWait on

/-- A waiting queue whose cause has gone issues its instruction again. -/
def State.reissue (s : State) (q : Nat) : State :=
  (s.updQ q (fun i => { i with wait := none })).setQState q qRun 0

/-! ### Completion ring -/

def State.crecLog (s : State) (q : Nat) : Nat := s.fld (R.QCFG q) F.QCFG_CREC_LOG

/-- Global address of completion slot i. -/
def State.slotAddr (s : State) (q i : Nat) : Nat :=
  (s.reg (R.CBASE q)).toNat + 64 * (i % 2 ^ s.crecLog q)

/-- CTAIL − CHEAD, modulo 2^32. -/
def State.slotsUsed (s : State) (q : Nat) : Nat :=
  (s.fld (R.CTAIL q) F.CTAIL_CTAIL + 2 ^ 32 - s.fld (R.CHEAD q) F.CHEAD_CHEAD) % 2 ^ 32

/-- A slot is free. -/
def State.slotFree (s : State) (q : Nat) : Bool := decide (s.slotsUsed q < 2 ^ s.crecLog q)

/-- The slot that would be reserved next lies, aligned, in this module's memory (R195). -/
def State.slotMapped (s : State) (q i : Nat) : Bool :=
  let a := s.slotAddr q i
  (s.reg (R.CBASE q)).toNat % 64 == 0 && s.isOwn a && s.mappedRange (gaLocal a) 64

/-- Reserve the next slot: its number. -/
def State.reserveSlot (s : State) (q : Nat) : Nat × State :=
  let i := s.fld (R.CTAIL q) F.CTAIL_CTAIL
  (i, s.setFld (R.CTAIL q) F.CTAIL_CTAIL ((i + 1) % 2 ^ 32))

/-- What a completion record says (R216). -/
structure CompRec where
  status : Nat
  cmd : Nat := 0
  kind : Nat
  unit : Nat
  tag : Nat
  seq : Nat
  epoch : Nat
  pc : Nat
  res0 : Nat := 0
  res1 : Nat := 0

/-- The 64 bytes of a completion record in slot i (R216). -/
def State.recBytes (s : State) (q i : Nat) (r : CompRec) : List Byte :=
  [BitVec.ofNat 8 r.status, BitVec.ofNat 8 q, BitVec.ofNat 8 r.cmd, BitVec.ofNat 8 r.kind, BitVec.ofNat 8 r.unit,
   BitVec.ofNat 8 (((i >>> s.crecLog q) % 2) ^^^ 1)] ++
  leBytes r.tag 2 ++ leBytes r.seq 8 ++ leBytes r.epoch 8 ++ leBytes r.pc 8 ++ leBytes r.res0 8 ++ leBytes r.res1 8 ++ s.stamp

/-- Write record i into its slot, or count it lost where the slot has become unmapped (R216). -/
def State.writeRec (s : State) (q i : Nat) (r : CompRec) : State :=
  if s.slotMapped q i then (s.writeMem (gaLocal (s.slotAddr q i)) (s.recBytes q i r)).1
  else s.count (R.QERR q) F.QERR_REC_LOST 1

/-- A control instruction or fetch faults (R201): FAULTED with the PC on the word, the error record, and the queue-fault
record if the ring has a free slot. -/
def State.queueFault (s : State) (q status word : Nat) : State :=
  let pc := s.qpc q
  let s := (s.updQ q (fun i => { i with wait := none })).setQState q qFaulted 0
  let s := s.setFld (R.QSTAT q) F.QSTAT_FAULT status
  let s := s.errRecord { cls := clsDeferred, code := 0x0204, unit := easelUnit (easelOf q), status := status, info0 := pc, info1 := q }
  if s.crecLog q ≠ 0 ∧ s.slotFree q = true ∧ s.slotMapped q (s.fld (R.CTAIL q) F.CTAIL_CTAIL) = true then
    let (i, s) := s.reserveSlot q
    s.writeRec q i { status := status, kind := 3, unit := easelUnit (easelOf q), tag := (s.qint q).tag,
                     seq := (s.reg (R.QSEQ q)).toNat, epoch := s.fld (R.QEPOCH q) F.QEPOCH_EPOCH, pc := pc, res0 := word }
  else s

/-- A remote ST's refusal is reported at the first instruction boundary after it arrives, naming the ST word (R489). -/
def State.reportSt (s : State) (q : Nat) : State :=
  match (s.qint q).stFault with
  | none => s
  | some (st, pc) =>
    let word := leField ((keysOf (gaLocal pc) 8).map s.byteAt) 0 8
    ((s.updQ q (fun i => { i with stFault := none })).setPc q pc).queueFault q st word

/-! ### Fetch -/

/-- An address of a ring, list or branch target is acceptable (R195): this module's memory, aligned. -/
def State.fetchable (s : State) (g al n : Nat) : Bool :=
  g % al == 0 && s.isOwn g && s.mappedRange (gaLocal g) n

/-- Fetch n bytes at a global address for a queue: the bytes, or the status of the fetch fault (R195). -/
def State.fetch (s : State) (q g al n : Nat) : Except Nat (List Byte) × State :=
  if s.fetchable g al n then
    let (b, s, e) := s.readMem (easelWho q) (gaLocal g) n
    (if e then .error stData else .ok b, s)
  else (.error stAddress, s)

/-! ### List ends -/

/-- Entries pending: TAIL − HEAD modulo 2^32. -/
def State.pendingEntries (s : State) (q : Nat) : Nat :=
  (s.fld (R.QTAIL q) F.QTAIL_TAIL + 2 ^ 32 - s.fld (R.QHEAD q) F.QHEAD_HEAD) % 2 ^ 32

/-- The list of a queue ends with a status: its list-end record, HEAD advances, RUN or IDLE (R194, R216). -/
def State.endList (s : State) (q status : Nat) : State :=
  let i := s.qint q
  let s := if i.wantRec then
      let r : CompRec := { status := status, kind := 2, unit := easelUnit (easelOf q), tag := i.tag, seq := i.entry,
                           epoch := s.fld (R.QEPOCH q) F.QEPOCH_EPOCH, pc := s.qpc q, res0 := i.issued }
      let b := s.recBytes q i.slot r
      let s := s.writeRec q i.slot r
      if s.fld (R.QCFG q) F.QCFG_NOTIFY = 1 then s.hostEvent 1 b else s
    else s
  let s := s.setQint q { QueueInt.empty with remoteSts := i.remoteSts, stFault := i.stFault }
  let s := s.setFld (R.QHEAD q) F.QHEAD_HEAD ((s.fld (R.QHEAD q) F.QHEAD_HEAD + 1) % 2 ^ 32)
  let s := s.setFld (R.QSTAT q) F.QSTAT_FAULT 0
  s.setQState q (if s.pendingEntries q = 0 then qIdle else qRun) 0

/-- A queue's commands that have not completed. -/
def State.qCmds (s : State) (q : Nat) : List Cmd := s.cmds.filter (fun c => c.queue == q)

/-- A disabling or resetting queue whose commands have all completed reaches OFF (R197, R438). -/
def State.settleOff (s : State) (q : Nat) : State :=
  let i := s.qint q
  if (i.disabling || i.resetting) && (s.qCmds q).isEmpty then
    (s.setQint q (if i.resetting then QueueInt.empty
      else { QueueInt.empty with remoteSts := i.remoteSts, stFault := i.stFault })).setReg (R.QSTAT q) 0
  else s

end Sys2Proof.Machine
end

