-- ==== Sys2Proof/Machine/Sync.lean ====
section
/-!
DEFINITION. Semaphores, locks, arbiters and staged configuration (R224 to R247): the stores' and arbiters' operations, and
the meanings of the commands that are events of theirs.
-/

namespace Sys2Proof.Machine

open Sys2Proof

/-! ### Semaphores (R232 to R236) -/

/-- The place of a store: LOCK for store 4, DLOCK of die d for store d. -/
def storePlace (store : Nat) : Nat := if store = 4 then 0 else store + 1

/-- A semaphore ID names a semaphore that exists (R205). -/
def semOk (id : Nat) : Bool :=
  let st := bitsOf id 13 3
  let ix := bitsOf id 0 13
  (decide (st < 4) && decide (ix < 4096)) || st == 4

/-- The store's module part serves: a die store's die in service. -/
def State.storePresent (s : State) (store : Nat) : Bool :=
  store == 4 || (s.bit R.ID_UNITS F.ID_UNITS_DIE_IN_SERVICE store && s.domUp (9 * store + 8))

/-- The store's die is in reset: operations directed at it wait (R236). -/
def State.storeInReset (s : State) (store : Nat) : Bool :=
  store != 4 && s.bit R.RST_STAT F.RST_STAT_DIE_RESET store

/-- Count of a semaphore. -/
def State.semCount (s : State) (store ix : Nat) : Nat :=
  s.fld (R.SEM (storePlace store) (ix / 2)) (if ix % 2 = 0 then F.SEM_COUNT_LO else F.SEM_COUNT_HI)

/-- Set the count of a semaphore. -/
def State.setSem (s : State) (store ix v : Nat) : State :=
  s.setFld (R.SEM (storePlace store) (ix / 2)) (if ix % 2 = 0 then F.SEM_COUNT_LO else F.SEM_COUNT_HI) v

/-- A waiter on this semaphore. -/
def SemWaiter.at (w : SemWaiter) (store ix : Nat) : Bool := w.store == store && w.index == ix

/-- Grant the consuming head waiter and those that follow it as far as the count allows; `ws` is the list that remains to
be looked at (R233, R234 step 3). -/
def State.grantConsuming (s : State) (store ix : Nat) : List SemWaiter → State
  | [] => s
  | w :: r =>
    if w.at store ix && !w.nocons then
      if w.n ≤ s.semCount store ix then
        let s := s.setSem store ix (s.semCount store ix - w.n)
        let s := { s with semWaiters := s.semWaiters.erase w }
        (s.finishWait w.queue).grantConsuming store ix r
      else s
    else s.grantConsuming store ix r

/-- Complete the NOCONS waiters that the count satisfies (R234 step 4). -/
def State.grantNocons (s : State) (store ix : Nat) : List SemWaiter → State
  | [] => s
  | w :: r =>
    if w.at store ix && w.nocons && decide (w.n ≤ s.semCount store ix) then
      let s := { s with semWaiters := s.semWaiters.erase w }
      (s.finishWait w.queue).grantNocons store ix r
    else s.grantNocons store ix r

/-- Grant the waiters of a semaphore (R233, R234). -/
def State.semGrant (s : State) (store ix : Nat) : State :=
  let s := s.grantConsuming store ix s.semWaiters
  s.grantNocons store ix s.semWaiters

/-- Add a signed amount, clamped, and grant (R232, R234). A store in die reset keeps the signal waiting (R236). -/
def State.semAdd (s : State) (store ix : Nat) (n : Int) : State :=
  let v : Int := (s.semCount store ix : Int) + n
  let c : Nat := if v < 0 then 0 else min v.toNat (2 ^ 32 - 1)
  let s := if (c : Int) = v then s else s.count (R.SEM_CNT (storePlace store)) F.SEM_CNT_SATURATED 1
  (s.setSem store ix c).semGrant store ix

/-- A completion signal (R215): held while the store is in die reset (R236). -/
def State.semSignal (s : State) (id : Nat) : State :=
  let st := bitsOf id 13 3
  if s.storeInReset st then { s with heldSignals := s.heldSignals ++ [(st, bitsOf id 0 13)] }
  else s.semAdd st (bitsOf id 0 13) 1

/-- A register write of both counts of word w, then the grants (R234 step 1, R232). -/
def State.semWrite (s : State) (pl w : Nat) (v : Word) : State :=
  let st := if pl = 0 then 4 else pl - 1
  let s := s.setReg (R.SEM pl w) v
  (s.semGrant st (2 * w)).semGrant st (2 * w + 1)

/-- A queue leaves every semaphore waiter list (R197, R233). -/
def State.leaveSems (s : State) (q : Nat) : State :=
  { s with semWaiters := s.semWaiters.filter (fun w => w.queue != q) }

/-! ### Locks (R237 to R242) -/

/-- Number of locks in a store (R205). -/
def lockMax (store : Nat) : Nat := if store = 4 then 1024 else 256

/-- The owner that a lock record names. -/
def State.lockOwner (s : State) (store ix : Nat) : LockOwner :=
  let a := R.LOCK_OWN (storePlace store) ix
  { module := s.fld a F.LOCK_OWN_MODULE, unit := s.fld a F.LOCK_OWN_UNIT, queue := s.fld a F.LOCK_OWN_QUEUE,
    incarn := (s.reg (R.LOCK_INC (storePlace store) ix)).toNat, qincarn := s.fld a F.LOCK_OWN_QINCARN }

/-- Write a lock record. -/
def State.setLock (s : State) (store ix : Nat) (o : LockOwner) : State :=
  (s.setReg (R.LOCK_OWN (storePlace store) ix)
    (BitVec.ofNat 64 (o.queue % 256 + (o.unit % 256) * 2 ^ 8 + (o.module % 65536) * 2 ^ 16 + (o.qincarn % 2 ^ 32) * 2 ^ 32))).setReg
    (R.LOCK_INC (storePlace store) ix) (BitVec.ofNat 64 o.incarn)

/-- The free record. -/
def LockOwner.free : LockOwner := ⟨0, 0, 0, 0, 0⟩

/-- The owner that a LOCK of queue q names (R206); MODULE 0x0000 is this module. -/
def State.ownerOf (s : State) (q : Nat) : LockOwner :=
  { module := 0, unit := easelUnit (easelOf q), queue := q, incarn := (s.reg R.ID_INCARN).toNat,
    qincarn := s.fld (R.QINCARN q) F.QINCARN_INCARN }

/-- An owner is orphaned (R239). -/
def State.orphaned (s : State) (o : LockOwner) : Bool :=
  if o.module = 0 then
    o.incarn != (s.reg R.ID_INCARN).toNat || o.qincarn != s.fld (R.QINCARN o.queue) F.QINCARN_INCARN
  else s.memberIncarn o.module != some o.incarn

/-- Answer the requester of a lock: a local queue's waiting instruction completes with the status, a remote one gets
LOCK_RESP. -/
def State.lockAnswer (s : State) (w : LockWaiter) (status : Nat) : State :=
  if w.owner.module = 0 then
    match (s.qint w.owner.queue).wait with
    | some (.lock rd _) => s.finishWaitRd w.owner.queue rd status
    | _ => s
  else if w.mute then s
  else
    s.respond { dst := BitVec.ofNat 16 s.ownAddr, src := BitVec.ofNat 16 w.owner.module, vc := 1, hops := 0, err := false,
                retry := false, seq := BitVec.ofNat 16 w.seq, addr := 0 } tLockResp false (w.store * 8192 + w.index)
      [BitVec.ofNat 8 status]

/-- The head waiter acquires a lock that is free or orphaned (R238). -/
def State.lockGrant (s : State) (store ix : Nat) : State :=
  match s.lockWaiters.find? (fun w => w.store == store && w.index == ix) with
  | none => s
  | some w =>
    let o := s.lockOwner store ix
    let status := if o.unit = 0 then stDone else stAcquiredOrphan
    let pl := storePlace store
    let s := if o.unit = 0 then s else s.count (R.LOCK_CNT pl) F.LOCK_CNT_ORPHAN 1
    ({ s with lockWaiters := s.lockWaiters.erase w }.setLock store ix w.owner).lockAnswer w status

/-- What a store decides of an acquire (R238). -/
inductive LockVerdict where
  | got (status : Nat)
  | holds
  | busy
  | joins
  deriving DecidableEq, Repr

/-- The acquire outcomes of R238. -/
def State.lockVerdict (s : State) (store ix : Nat) (o : LockOwner) (try_ : Bool) : LockVerdict :=
  let c := s.lockOwner store ix
  if c.unit = 0 then .got stDone
  else if c.unit = 0xFF then .got stAcquiredOrphan
  else if c = o then .holds
  else if s.orphaned c then .got stAcquiredOrphan
  else if try_ then .busy else .joins

/-- Count and write what an acquire does to the record. -/
def State.lockApply (s : State) (store ix : Nat) (w : LockWaiter) (v : LockVerdict) : State :=
  let pl := storePlace store
  match v with
  | .got st =>
    let s := if st = stAcquiredOrphan then s.count (R.LOCK_CNT pl) F.LOCK_CNT_ORPHAN 1 else s
    s.setLock store ix w.owner
  | .busy => s.count (R.LOCK_CNT pl) F.LOCK_CNT_BUSY 1
  | .joins => { s with lockWaiters := s.lockWaiters ++ [w] }
  | .holds => s

/-- Release a lock held by exactly this owner: true where it was; the head waiter then acquires it. -/
def State.lockRelease (s : State) (store ix : Nat) (o : LockOwner) : Bool × State :=
  if s.lockOwner store ix = o ∧ o.unit ≠ 0 then (true, (s.setLock store ix LockOwner.free).lockGrant store ix) else (false, s)

/-- What a store answers to an acquire that joins its waiter list: the lock itself is answered when it is granted (log 37). -/
def lockJoined : Nat := 0xFF

/-- Answer a lock request of another module; a request that the partner answers is answered by it alone (R369). -/
def State.lockReply (s : State) (mute err : Bool) (h : Hdr) (status : Nat) : State :=
  if mute then s else s.respond h tLockResp err h.addr.toNat [BitVec.ofNat 8 status]

/-- A lock request of another module is decided at store st (R238): kind 0 acquire, 1 with TRY, 2 release, 3 a waiter that
leaves its list. -/
def State.lockDecide (s : State) (mute : Bool) (h : Hdr) (kind st ix : Nat) (o : LockOwner) : State :=
  if kind ≤ 1 then
    let v := s.lockVerdict st ix o (kind == 1)
    let s := s.lockApply st ix { store := st, index := ix, owner := o, seq := h.seq.toNat, mute := mute } v
    match v with
    | .got k => s.lockReply mute false h k
    | .busy => s.lockReply mute false h stBusy
    | .holds => s.lockReply mute false h stDescriptor
    | .joins => s.lockReply mute false h lockJoined
  else if kind = 2 then
    match s.lockRelease st ix o with
    | (true, s) => s.lockReply mute false h stDone
    | (false, s) => s.lockReply mute false h stDescriptor
  else
    let s : State := { s with lockWaiters := s.lockWaiters.filter (fun w => !(w.store == st && w.index == ix && w.owner == o)) }
    ((s.lockRelease st ix o).2).lockReply mute false h stDone

/-- A LOCK_OP arrives (R237, R238, log 15): ADDR is store × 8192 + index. One directed at a store in die reset waits (R236). -/
def State.lockOpRx (s : State) (mute : Bool) (h : Hdr) (body : List Byte) : State :=
  let st := h.addr.toNat / 8192
  let ix := h.addr.toNat % 8192
  if s.mode = mEarly then s.lockReply mute true h stAddress
  else if 4 < st ∨ lockMax st ≤ ix then s.lockReply mute false h stDescriptor
  else if s.storePresent st = false then s.lockReply mute true h stAddress
  else if s.storeInReset st then
    { s with fabric := { s.fabric with lockOps := s.fabric.lockOps ++ [{ hdr := h, type := if mute then 0 else tLockOp, body := body }] } }
  else
    s.lockDecide mute h (leField body 0 1) st ix
      { module := h.src.toNat, unit := leField body 1 1, queue := leField body 2 1, incarn := leField body 3 8,
        qincarn := leField body 11 4 }

/-- The lock requests that waited for a store in die reset go on (R236). -/
def State.lockOpsGo (s : State) : State :=
  let l := s.fabric.lockOps
  l.foldl (fun s r => s.lockOpRx (r.type == 0) r.hdr r.body) { s with fabric := { s.fabric with lockOps := [] } }

/-- A queue's local waits on locks end (R238). -/
def State.leaveLocks (s : State) (q : Nat) : State :=
  { s with lockWaiters := s.lockWaiters.filter (fun w => !(w.owner.module == 0 && w.owner.queue == q)) }

/-- A store re-examines its held records: an orphaned owner's lock passes to its head waiter (R239). -/
def State.lockReexamine (s : State) (store : Nat) : State :=
  ((s.lockWaiters.filter (fun w => w.store == store)).map LockWaiter.index).eraseDups.foldl (fun s ix =>
    let c := s.lockOwner store ix
    if c.unit = 0 ∨ c.unit = 0xFF ∨ s.orphaned c then s.lockGrant store ix else s) s

/-- A register write to LOCK_OWN: zero frees the lock; any other value is reserved (R242, R9). -/
def State.lockOwnWrite (s : State) (pl ix : Nat) (v : Word) : State :=
  if v = 0 then
    let st := if pl = 0 then 4 else pl - 1
    (s.setLock st ix LockOwner.free).lockGrant st ix
  else s

/-! ### Arbiters (R224 to R231) -/

/-- Key of an arbiter: place (0 hub, 1 + d die d), resource r, number u of the arbiter among its resource's. -/
def arbKey (pl r u : Nat) : Nat := (pl * 8 + r) * 65536 + u

/-- Largest burst (R224). A brush's burst is the whole program or task: no limit in units. -/
def arbBurst (pl r : Nat) : Nat :=
  if pl = 0 then (if r = 3 then 1 else 4)
  else if r = 0 then 8 else if r = 1 then 4 else if r = 2 then 16 else if r = 3 then 2 ^ 64 else 1

def State.arb (s : State) (k : Nat) : Arbiter := sparseGet s.arbs k Arbiter.fresh

def State.setArb (s : State) (k : Nat) (a : Arbiter) : State := { s with arbs := sparseSet s.arbs k a Arbiter.fresh }

/-- Quota of class c for resource r at a place (R226). -/
def State.quota (s : State) (pl r c : Nat) : Nat :=
  s.fld (R.ARB_QUOTA pl r)
    (if c = 0 then F.ARB_QUOTA_Q0 else if c = 1 then F.ARB_QUOTA_Q1 else if c = 2 then F.ARB_QUOTA_Q2 else F.ARB_QUOTA_Q3)

/-- Class c is masked for the rest of the window (R226). -/
def State.classMasked (s : State) (pl r : Nat) (a : Arbiter) (c : Nat) : Bool :=
  s.quota pl r c != 0 && decide (s.quota pl r c ≤ a.used.getD c 0)

/-- Order of a privileged requester (R227): 7 for the others. -/
def arbPriv : ArbSrc → Nat
  | .beatToken => 0
  | .security => 1
  | .mgmt c => 2 + c.val
  | .pendant => 6
  | _ => 7

/-- Unit ID of a privileged requester, for the record of R229. -/
def privUnit (p : Nat) : Nat := if p = 0 then 0xD9 else if p = 1 then 0xDA else if p < 6 then 0xE0 + (p - 2) else easelUnit 14

/-- Hold limit of a privileged requester (R229). -/
def State.holdLimit (s : State) (pl p : Nat) : Nat :=
  s.fld (R.ARB_HOLD pl)
    (if p = 0 then F.ARB_HOLD_BEAT else if p = 1 then F.ARB_HOLD_SEC else if p < 6 then F.ARB_HOLD_MC else F.ARB_HOLD_PEND)

/-- The requester behind an ask, with its class: QCFG.CLASS of its queue, LOCK_ARB_CLASS for the three without one; a
privileged requester cut off in this window competes as class 3 (R225, R229). -/
def State.arbReq (s : State) (a : Arbiter) (k : ArbAsk) : ArbReq :=
  let n := k.number.toNat
  match k.src with
  | .queue q => ⟨7, s.fld (R.QCFG q.val) F.QCFG_CLASS, n⟩
  | .coll => ⟨7, s.fld (R.ARB_CLASS 0) F.ARB_CLASS_COLL, n⟩
  | .fabricRx => ⟨7, s.fld (R.ARB_CLASS 0) F.ARB_CLASS_FABRIC_RX, n⟩
  | .hostRx => ⟨7, s.fld (R.ARB_CLASS 0) F.ARB_CLASS_HOST_RX, n⟩
  | p => if a.cut.contains (arbPriv p) then ⟨7, 3, n⟩ else ⟨arbPriv p, 0, n⟩

/-- The requester's REQ_LIVE is high: a queue's easel serves (R228); the other requesters live with the hub. -/
def State.arbLive (s : State) : ArbSrc → Bool
  | .queue q => s.easelUp q.val
  | _ => s.mainUp

/-- Cycles until a request is visible: kind 3 of the perturbation delays it at one arbiter, privileged ones never (R466). -/
def State.arbDelay (s : State) (pl r : Nat) (a : Arbiter) (k : ArbAsk) : Nat :=
  let q := s.arbReq a k
  let here := s.pert 3 && s.fld R.PERT_GRANT F.PERT_GRANT_R == r &&
    (if pl = 0 then s.fld R.PERT_GRANT F.PERT_GRANT_PLACE == 0
     else s.fld R.PERT_GRANT F.PERT_GRANT_PLACE == 1 && s.fld R.PERT_GRANT F.PERT_GRANT_DIE == pl - 1) &&
    bitOf (s.fld R.PERT_GRANT F.PERT_GRANT_CLASS_MASK) q.cls
  if q.priv < 7 ∨ here = false then 0 else s.fld R.PERT_GRANT F.PERT_GRANT_CYCLES - k.age

/-- The lowest number above the last granted, wrapping (R227). `last` is that number plus one. -/
def nextAbove (last : Nat) (rs : List ArbReq) : Option ArbReq :=
  let least := fun (l : List ArbReq) => l.foldl (fun (b : Option ArbReq) x =>
    match b with
    | none => some x
    | some y => if x.number < y.number then some x else b) none
  match least (rs.filter (fun x => decide (last ≤ x.number))) with
  | some x => some x
  | none => least rs

/-- The grant of a cycle whose resource is free (R227): the winner and whether it is an idle grant. -/
def State.arbChoose (s : State) (pl r : Nat) (a : Arbiter) (rs : List ArbReq) : Option (ArbReq × Bool) :=
  match rs.foldl (fun (b : Option ArbReq) x =>
      if x.priv < 7 then (match b with | none => some x | some y => if x.priv < y.priv then some x else b) else b) none with
  | some p => some (p, false)
  | none =>
    let cls := fun (m : Bool) => (List.range 4).find? (fun c =>
      s.classMasked pl r a c == m && rs.any (fun x => x.cls == c))
    match cls false with
    | some c => (nextAbove (a.last.getD c 0) (rs.filter (fun x => x.cls == c))).map (fun x => (x, false))
    | none =>
      match cls true with
      | some c => (nextAbove (a.last.getD c 0) (rs.filter (fun x => x.cls == c))).map (fun x => (x, true))
      | none => none

/-- The hint of a requester that is not granted (R231), counted from the cycle in which it asks: `a` holds the counts before
that cycle's grant and names its winner as the holder. `delay` is what an injected grant delay still adds (R466). -/
def State.arbHint (s : State) (pl r : Nat) (a : Arbiter) (rs : List ArbReq) (x : ArbReq) (delay : Nat) : Nat :=
  if x.priv = 7 ∧ s.classMasked pl r a x.cls = true then 0xFFFF
  else
    let hold := match a.holder with
      | some h => if h.priv < 7 then s.holdLimit pl h.priv - a.held else 0
      | none => 0
    let above := (List.range 4).foldl (fun t c =>
      if c < x.cls && rs.any (fun y => y.priv == 7 && y.cls == c) && !(s.classMasked pl r a c) then
        if s.quota pl r c = 0 then t + 0xFFFF else t + (s.quota pl r c - a.used.getD c 0)
      else t) 0
    let last := a.last.getD x.cls 0
    let pos := fun (y : ArbReq) => if last ≤ y.number then y.number - last else y.number + 256 - last
    let ahead := (rs.filter (fun y => x.priv == 7 && y != x && y.priv == 7 && y.cls == x.cls &&
      (a.holder == some y || decide (pos y < pos x)))).length
    min 0xFFFF (hold + above + ahead * arbBurst pl r + delay)

/-- The hints of a cycle: to every requester but the one granted, those whose request is still delayed included. -/
def State.arbHints (s : State) (pl r : Nat) (a : Arbiter) (rs : List ArbReq) (hid : List ArbAsk) : List (ArbReq × Nat) :=
  (rs.filter (fun x => a.holder != some x)).map (fun x => (x, s.arbHint pl r a rs x 0)) ++
    hid.map (fun k => (s.arbReq a k, s.arbHint pl r a rs (s.arbReq a k) (s.arbDelay pl r a k)))

/-- Withdraw the holder at a unit boundary, its progress kept (R230). -/
def Arbiter.withdraw (a : Arbiter) (h : ArbReq) : Arbiter :=
  { a with holder := none, units := 0, held := 0, kept := (h, a.units) :: a.kept.filter (fun p => p.1 != h) }

/-- One arbitration cycle at an arbiter: the holder goes on, is withdrawn, or a grant is made; hints follow. -/
def State.arbCycle (s : State) (pl r u : Nat) (asks : List ArbAsk) : State :=
  let key := arbKey pl r u
  let a := s.arb key
  let here := asks.filter (fun k => s.arbLive k.src)
  let live := here.filter (fun k => s.arbDelay pl r a k == 0)
  let hid := here.filter (fun k => s.arbDelay pl r a k != 0)
  let rs := live.map (s.arbReq a)
  -- R228: what is no longer live loses its history
  let a := { a with kept := a.kept.filter (fun p => rs.contains p.1), cycle := a.cycle + 1 }
  let a := match a.holder with
    | some h => if rs.contains h then a else { a with holder := none, units := 0, held := 0 }
    | none => a
  let (s, a) := match a.holder with
    | some h =>
      if h.priv < 7 then (s, a)
      else if rs.any (fun x => decide (x.priv < 7)) || rs.any (fun x => decide (x.cls < h.cls) && !(s.classMasked pl r a x.cls))
              || s.classMasked pl r a h.cls then
        (s.count (R.ARB_STAT pl) F.ARB_STAT_PREEMPT 1, a.withdraw h)
      else if arbBurst pl r ≤ a.units then (s, { a with holder := none, units := 0, held := 0 })
      else (s, a)
    | none => (s, a)
  match a.holder with
  | some h =>
    let hints := s.arbHints pl r a rs hid
    let a := if h.priv < 7 then { a with units := a.units + 1, held := a.held + 1 }
      else { a with units := a.units + 1, used := a.used.set h.cls (a.used.getD h.cls 0 + 1) }
    s.setArb key { a with hints := hints }
  | none =>
    match s.arbChoose pl r a rs with
    | none => s.setArb key { a with hints := s.arbHints pl r a rs hid }
    | some (w, idle) =>
      let ready := live.all (fun k => s.arbReq a k != w || k.ready)
      if ready then
        let s := if idle then s.count (R.ARB_STAT pl) F.ARB_STAT_IDLE 1 else s
        let done := ((a.kept.find? (fun p => p.1 == w)).map Prod.snd).getD 0
        let a := { a with kept := a.kept.filter (fun p => p.1 != w), holder := some w, held := 0 }
        let a := if w.priv < 7 then a else { a with last := a.last.set w.cls (w.number + 1) }
        let hints := s.arbHints pl r a rs hid
        let a := if w.priv < 7 then { a with units := done + 1, held := 1 }
          else if idle then { a with holder := none, kept := (w, (done + 1) % arbBurst pl r) :: a.kept }
          else { a with units := done + 1, used := a.used.set w.cls (a.used.getD w.cls 0 + 1) }
        s.setArb key { a with hints := hints }
      else
        (s.count (R.ARB_STAT pl) F.ARB_STAT_DECLINED 1).setArb key { a with hints := s.arbHints pl r a rs hid }

/-- The resource exists at the place (R224). -/
def arbExists (pl r : Nat) : Bool := if pl = 0 then decide (r < 4) else decide (r < 5)

/-- ARB_GRANT (R227 to R231): one arbitration cycle of arbiter u of resource r, with the requests standing in it. -/
def execArbGrant (pl : Fin 5) (r : Fin 5) (u : BitVec 16) (asks : List ArbAsk) (s : State) : Res :=
  s.whenMain (if arbExists pl.val r.val then s.arbCycle pl.val r.val u.toNat asks else s)

/-- ARB_WINDOW_RESET (R226): the window has run its length; the used counts return to zero and cut-offs end. -/
def execArbWindowReset (pl : Fin 5) (r : Fin 5) (u : BitVec 16) (s : State) : Res :=
  s.whenMain (
    let key := arbKey pl.val r.val u.toNat
    let a := s.arb key
    if arbExists pl.val r.val && decide (s.fld (R.ARB_WINDOW pl.val) F.ARB_WINDOW_LEN ≤ a.cycle) then
      s.setArb key { a with used := [0, 0, 0, 0], cycle := 0, cut := [] }
    else s)

/-- ARB_CUTOFF (R229): a privileged holder has reached its hold limit. -/
def execArbCutoff (pl : Fin 5) (r : Fin 5) (u : BitVec 16) (s : State) : Res :=
  s.whenMain (
    let key := arbKey pl.val r.val u.toNat
    let a := s.arb key
    match a.holder with
    | none => s
    | some h =>
      if h.priv < 7 ∧ s.holdLimit pl.val h.priv ≤ a.held then
        let who := if h.priv = 0 then 0 else if h.priv = 1 then 1 else if h.priv < 6 then 2 else 3
        let s := s.setArb key { (a.withdraw h) with cut := h.priv :: a.cut }
        let s := s.setBit (R.ARB_CUT pl.val) F.ARB_CUT_WHO who true
        let s := s.setFld (R.ARB_CUT pl.val) F.ARB_CUT_LAST_R r.val
        let s := s.count (R.ARB_STAT pl.val) F.ARB_STAT_CUT 1
        s.errRecord { cls := clsCorrected, code := 0x0205, unit := privUnit h.priv, sub := r.val,
                      info0 := (if pl.val = 0 then 0 else 1 + 16 * (pl.val - 1)), info1 := a.held }
      else s)

/-- A write of 1 clears bits of ARB_CUT.WHO (R229, W1C). -/
def State.arbCutClear (s : State) (pl mask : Nat) : State :=
  s.setFld (R.ARB_CUT pl) F.ARB_CUT_WHO (s.fld (R.ARB_CUT pl) F.ARB_CUT_WHO &&& (15 - mask % 16))

/-! ### Staged configuration (R243 to R247) -/

/-- The blocks that apply masks can name, each with its bit: hub blocks 0 to 15 by number, die blocks at 16 + 9d + i. -/
def applyBlocks : List (Nat × Block) :=
  [(0, .hubId), (1, .sec), (2, .beat), (3, .pwr), (4, .hostp), (5, .ryf 0), (6, .ryf 1), (7, .ryf 2), (8, .ryf 3), (9, .pend),
   (10, .red), (11, .err), (12, .pert), (13, .lock), (14, .cpq), (15, .trn)] ++
  ([0, 1, 2, 3] : List (Fin 4)).flatMap (fun d =>
    [(16 + 9 * d.val, Block.canv d), (17 + 9 * d.val, Block.pal d), (18 + 9 * d.val, Block.slv d), (19 + 9 * d.val, Block.mov d),
     (20 + 9 * d.val, Block.cpd d), (21 + 9 * d.val, Block.dpwr d), (22 + 9 * d.val, Block.dlock d),
     (23 + 9 * d.val, Block.ddbg d), (24 + 9 * d.val, Block.rand d)])

/-- Base address of a block. -/
def blockBase : Block → Nat
  | .hubId => regWindow
  | .sec => regWindow + 0x10000
  | .beat => regWindow + 0x20000
  | .pwr => regWindow + 0x30000
  | .hostp => regWindow + 0x40000
  | .ryf p => regWindow + 0x50000 + 0x10000 * p.val
  | .pend => regWindow + 0x90000
  | .red => regWindow + 0xA0000
  | .err => regWindow + 0xB0000
  | .pert => regWindow + 0xC0000
  | .lock => regWindow + 0xD0000
  | .cpq => regWindow + 0xE0000
  | .trn => regWindow + 0xF0000
  | .canv d => dieBlk d.val 0
  | .pal d => dieBlk d.val 0x10000
  | .slv d => dieBlk d.val 0x20000
  | .mov d => dieBlk d.val 0x30000
  | .cpd d => dieBlk d.val 0x40000
  | .dpwr d => dieBlk d.val 0x50000
  | .dlock d => dieBlk d.val 0x60000
  | .ddbg d => dieBlk d.val 0x70000
  | .rand d => dieBlk d.val 0x80000
  | .nma st => nmaBase st.val

/-- Copy a block's whole staged bank into its active bank (R245). -/
def State.applyBlock (s : State) (b : Block) : State :=
  (rowsOf b).foldl (fun s p =>
    if p.row.st = 0 then s else
    (List.range p.count).foldl (fun s i =>
      let a := blockBase b + p.base + p.stride * i
      s.setReg a ((s.reg a &&& ~~~ p.row.st) ||| (s.stagedReg a &&& p.row.st))) s) s

/-- Bits named by a request: hub mask in [15:0], die mask above. -/
def ApplyReq.names (r : ApplyReq) : Nat := r.hubMask + r.dieMask * 65536

/-- Blocks named by any pending request. -/
def State.pendingNames (s : State) : Nat := s.applies.foldl (fun m p => m ||| p.2.names) 0

/-- The pending request of a slot. -/
def State.applySlot (s : State) (slot : Nat) : Option ApplyReq := (s.applies.find? (fun p => p.1 == slot)).map Prod.snd

/-- The clock of a slot in ac: the hub's for slot 0, the die's for slot d + 1 (R244). -/
def State.slotClock (s : State) (slot : Nat) : Nat :=
  if slot = 0 then s.hubAc else (s.power.dies.getD (slot - 1) DieLoop.fresh).acCount

/-- Request an apply (R244, R246): ignored where a named block is already named or the slot is full. -/
def State.applyRequest (s : State) (slot : Nat) (atBeat : Bool) (hub die : Nat) (fromBeat : Bool) : State :=
  let r : ApplyReq := { atBeat := atBeat, dueAc := s.slotClock slot + 64, target := (s.position / 65536 + 1) * 65536,
                        hubMask := hub, dieMask := die, fromBeat := fromBeat }
  if (s.applySlot slot).isSome || (s.pendingNames &&& r.names) != 0 then s.count (R.APPLY_CNT slot) F.APPLY_CNT_IGNORED 1
  else { s with applies := s.applies ++ [(slot, r)] }

/-- Mode CANCEL: discard the request of its own register (R246). -/
def State.applyCancel (s : State) (slot : Nat) (fromBeat : Bool) : State :=
  { s with applies := s.applies.filter (fun p => !(p.1 == slot && p.2.fromBeat == fromBeat)) }

/-- The preconditions of the named blocks hold together (R245): an apply of SLV_LEND waits for lent work on the brushes it
changes (R168). -/
def State.applyReady (s : State) (r : ApplyReq) : Bool :=
  (List.range 4).all (fun d =>
    !(bitOf r.dieMask (9 * d + 2)) ||
    (let old := s.reg (R.SLV_LEND d)
     let new := s.stagedReg (R.SLV_LEND d)
     (List.range 32).all (fun b =>
       !(s.lent.contains (32 * d + b)) ||
       (old = new ∨ (F.SLV_LEND_ROW_BASE.get old = F.SLV_LEND_ROW_BASE.get new ∧
                     F.SLV_LEND_ROW_COUNT.get old = F.SLV_LEND_ROW_COUNT.get new ∧
                     bitOf (F.SLV_LEND_LEND_MASK.get old) b = bitOf (F.SLV_LEND_LEND_MASK.get new) b)))))

/-- A pending request is due: its 64 ac have passed, or its boundary has been reached or released (R244, R49, R50). -/
def State.applyDue (s : State) (slot : Nat) (r : ApplyReq) : Bool :=
  if r.atBeat then decide (r.target ≤ s.position) && (beatAdvances s.beatState || r.target == 0)
  else decide (r.dueAc ≤ s.slotClock slot)

/-- An apply takes effect on all its named blocks at once; a block that is down is skipped and its staged bank kept
(R245, R247). A changed SOURCE moves the tracker (R44). -/
def State.applyEffect (s : State) (slot : Nat) (r : ApplyReq) : State :=
  let src := s.fld R.BEAT_CFG F.BEAT_CFG_SOURCE
  let s := { s with applies := s.applies.filter (fun p => p.1 != slot) }
  let s := (applyBlocks.filter (fun p => bitOf r.names p.1)).foldl (fun s p =>
    if s.blockUp p.2 then s.applyBlock p.2 else s.count (R.APPLY_CNT slot) F.APPLY_CNT_SKIPPED 1) s
  (s.count (R.APPLY_CNT slot) F.APPLY_CNT_APPLIED 1).sourceApplied src

end Sys2Proof.Machine
end

