-- ==== Sys2Proof/Machine/Cmds.lean ====
section
/-!
DEFINITION. Dispatched commands (R212 to R220): headers, engines, epochs and their outcomes, local veto words (R336, R348,
R491), and what finishing a command records.
-/

namespace Sys2Proof.Machine

open Sys2Proof

/-! ### Epochs and veto words -/

def vetoNonfinite : Nat := 0x01
def vetoSpike : Nat := 0x02
def vetoData : Nat := 0x04
def vetoMissing : Nat := 0x08
def vetoMismatch : Nat := 0x10
def vetoSoftware : Nat := 0x20

/-- E_s: the last epoch committed or cancelled (R218, R356). -/
def State.settled (s : State) : Nat := s.fld R.TRN_SETTLED F.TRN_SETTLED_EPOCH

/-- What the module holds of an epoch. -/
inductive EpochState where
  | unsettled
  | committed
  | cancelled
  | unknown
  deriving DecidableEq, Repr

/-- The outcome of epoch e (R220, R356). -/
def State.epochState (s : State) (e : Nat) : EpochState :=
  let es := s.settled
  if es < e then .unsettled
  else if es - e < s.fld R.TRN_SETTLED F.TRN_SETTLED_HIST_VALID then
    (if s.bit R.TRN_HIST F.TRN_HIST_OUTCOME (es - e) then .committed else .cancelled)
  else .unknown

/-- The local veto word of epoch e: zero while it holds none (R491). -/
def State.vetoWord (s : State) (e : Nat) : Nat :=
  if s.fld (R.RED_LVETO (e % 8)) F.RED_LVETO_EPOCH = e then s.fld (R.RED_LVETO (e % 8)) F.RED_LVETO_VETO else 0

/-- TRN_STAT.PENDING counts the epochs that hold a word. -/
def State.countVetoes (s : State) : State :=
  s.setFld R.TRN_STAT F.TRN_STAT_PENDING
    ((List.range 8).foldl (fun n j => n + b2n (s.fld (R.RED_LVETO j) F.RED_LVETO_EPOCH != 0)) 0)

/-- Epoch e holds a word from now on, with these bits ORed in (R491). -/
def State.holdVeto (s : State) (e bits : Nat) : State :=
  if e ≤ s.settled ∨ s.settled + 8 < e then s
  else
    let w := s.vetoWord e
    (s.setReg (R.RED_LVETO (e % 8)) (BitVec.ofNat 64 (e + (w ||| bits) * 2 ^ 48))).countVetoes

/-- Epoch e frees its word (R353). -/
def State.freeVeto (s : State) (e : Nat) : State :=
  if s.fld (R.RED_LVETO (e % 8)) F.RED_LVETO_EPOCH = e then (s.setReg (R.RED_LVETO (e % 8)) 0).countVetoes else s

/-- A veto event of epoch e (R348): it goes to e, or to the lowest epoch that has not captured, or waits. -/
def State.vetoEvent (s : State) (e bits : Nat) : State :=
  let es := s.settled
  if e = 0 then s
  else if es + 8 < e then s.count R.TRN_CNT F.TRN_CNT_LATE_VETO 1
  else if es < e ∧ s.captured.contains e = false then s.holdVeto e bits
  else
    let s := s.count R.TRN_CNT F.TRN_CNT_LATE_VETO 1
    match ((List.range 8).map (fun i => es + 1 + i)).find? (fun f => !(s.captured.contains f)) with
    | some f => s.holdVeto f bits
    | none => { s with pendingVeto := s.pendingVeto ||| bits }

/-! ### Headers and engines (R212, R214) -/

/-- A field of a command's descriptor. -/
def Cmd.at (c : Cmd) (lo n : Nat) : Nat := leField c.desc lo n

def Cmd.code (c : Cmd) : Nat := c.at 0 1
def Cmd.sig (c : Cmd) : Bool := bitOf (c.at 0 8) 16
def Cmd.rec_ (c : Cmd) : Bool := bitOf (c.at 0 8) 17
def Cmd.gated (c : Cmd) : Bool := bitOf (c.at 0 8) 18
def Cmd.ord (c : Cmd) : Bool := bitOf (c.at 0 8) 19
def Cmd.halt (c : Cmd) : Bool := bitOf (c.at 0 8) 20
def Cmd.dieField (c : Cmd) : Nat := bitsOf (c.at 0 8) 30 2
def Cmd.sem (c : Cmd) : Nat := c.at 4 2
def Cmd.tag (c : Cmd) : Nat := c.at 6 2

/-- The command is a collective. -/
def isCollective (code : Nat) : Bool := decide (0x20 ≤ code) && decide (code < 0x24)

/-- The die on whose units a command runs; 4: the hub. -/
def Cmd.die (c : Cmd) : Nat :=
  if c.queue < 192 then c.queue / 48 else if easelKind (easelOf c.queue) = 4 then c.dieField else 4

/-- The engine that executes a command, by number: logical canvas c of die d at 16d + c, brushes of die d at 64 + d, move
engine of die d at 68 + d, the collective engine 72, the pendant transfer engine 73. -/
def Cmd.engine (c : Cmd) : Nat :=
  let k := easelKind (easelOf c.queue)
  if k = 0 then 16 * c.die + (c.at 8 1) % 16
  else if k = 1 then 64 + c.die
  else if k = 2 ∨ k = 4 then 68 + c.die
  else if k = 3 then 72 else 73

/-- Pending commands an engine accepts from one queue (R214). -/
def engineCap (e : Nat) : Nat := if e < 64 then 16 else if e < 68 then 8 else if e < 72 then 64 else if e = 72 then 256 else 32

/-- Lowest set bit of a mask. -/
def lowBit (m w : Nat) : Nat := ((List.range w).find? (fun i => bitOf m i)).getD 0

/-- Executing unit of a command (R20, R216). -/
def Cmd.unitId (c : Cmd) : Nat :=
  let e := c.engine
  if e < 64 then (e / 16) * 0x30 + e % 16
  else if e < 68 then (e - 64) * 0x30 + 0x10 + lowBit (c.at 16 4) 32
  else if e < 72 then 0xC0 + (e - 68) else if e = 72 then 0xD8 else 0xDC

/-- The reader or writer that a command is. -/
def Cmd.who (c : Cmd) : Who := { unit := c.unitId, queue := c.queue }

/-- The same dispatch. -/
def Cmd.is (c : Cmd) (q n : Nat) : Bool := c.queue == q && c.seq == n

def State.findCmd (s : State) (q n : Nat) : Option Cmd := s.cmds.find? (fun c => c.is q n)

/-- Change a dispatched command. -/
def State.updCmd (s : State) (q n : Nat) (f : Cmd → Cmd) : State :=
  { s with cmds := s.cmds.map (fun c => if c.is q n then f c else c) }

/-- Store a command's new record over its old one. -/
def State.putCmd (s : State) (c : Cmd) : State := s.updCmd c.queue c.seq (fun _ => c)

/-- Commands dispatched before this one. -/
def State.before (s : State) (c : Cmd) : List Cmd := s.cmds.takeWhile (fun x => !(x.is c.queue c.seq))

/-- Commands of a queue on an engine that have not completed. -/
def State.pendingOn (s : State) (q e : Nat) : Nat := (s.cmds.filter (fun c => c.queue == q && c.engine == e)).length

/-- Ticks of n ac on the die of a command (the hub's clock for hub units). -/
def State.acDur (s : State) (die n : Nat) : Nat := n * acTicks (if die < 4 then s.point die else s.hubPoint)

/-- A command has done its work: its status and results, to complete from `due` on. -/
def State.finish (s : State) (c : Cmd) (status res0 res1 due : Nat) : State :=
  s.updCmd c.queue c.seq (fun x => { x with phase := .finished, status := status, res0 := res0, res1 := res1, due := due })

/-- A command ends at once with a status and no results. -/
def State.fail (s : State) (c : Cmd) (status : Nat) : State := s.finish c status 0 0 s.now

/-- A counting status: DONE_COUNTS where a counter advanced (R69). -/
def doneStatus (counted : Bool) : Nat := if counted then stDoneCounts else stDone

/-- A format that the service level offers (R430). -/
def State.offered (s : State) (f : Nat) : Bool := !(s.mode == mEarly && f == fLog16)

/-- The die of an engine; 4: the hub. -/
def engineDie (e : Nat) : Nat := if e < 64 then e / 16 else if e < 68 then e - 64 else if e < 72 then e - 68 else 4

/-- An engine can run what it has accepted: its die in service, and no engine reset running. -/
def State.engineUp (s : State) (e : Nat) : Bool :=
  !(s.engResets.contains e) && (if engineDie e < 4 then s.dieOn (engineDie e) else s.mainUp)

/-- The power domains that an engine's command uses: canvas quad, SRAM quarters of its brushes, die control (R133, R152). -/
def State.engineDoms (s : State) (c : Cmd) : List Nat :=
  let e := c.engine
  let d := engineDie e
  if e < 64 then [9 * d + s.fld (R.CANV_MAP d) (F.CANV_MAP_PHYS (e % 16)) / 4, 9 * d + 8]
  else if e < 68 then (9 * d + 8) :: ((List.range 4).filter (fun k => bitsOf (c.at 16 4) (8 * k) 8 != 0)).map (fun k => 9 * d + 4 + k)
  else if e < 72 then [9 * d + 8] else []

/-- A domain that a command's engine uses is closing. -/
def State.engineClosing (s : State) (c : Cmd) : Bool :=
  (s.engineDoms c).any (fun k => s.bit R.PWR_DOM_CLOSING F.PWR_DOM_CLOSING_DOM k)

end Sys2Proof.Machine
end

