-- ==== Sys2Proof/Machine/PendBase.lean ====
section
/-!
DEFINITION. The pair's state as other units see it (R364 to R368), sending over the pendant ports, and the handover that a
fault causes (R382).
-/

namespace Sys2Proof.Machine

open Sys2Proof

def psUnpaired : Nat := 0
def psJoining : Nat := 1
def psSyncing : Nat := 2
def psPaired : Nat := 3
def psSolo : Nat := 4
def psBroken : Nat := 5
def psDetaching : Nat := 6

def State.pairState (s : State) : Nat := s.fld R.PEND_STAT F.PEND_STAT_STATE

def State.setPairState (s : State) (x : Nat) : State := s.setFld R.PEND_STAT F.PEND_STAT_STATE x

def State.role (s : State) : Nat := s.fld R.PEND_STAT F.PEND_STAT_ROLE

/-- The module runs in mirror mode. -/
def State.mirror (s : State) : Bool := s.fld R.PEND_CFG F.PEND_CFG_MODE == mirrorMode

/-- The module runs in shadow mode. -/
def State.shadow (s : State) : Bool := s.fld R.PEND_CFG F.PEND_CFG_MODE == 2

/-- A pendant port Pp is up. -/
def State.pendUp (s : State) (p : Nat) : Bool := s.bit R.PEND_STAT F.PEND_STAT_LINKS p

/-- The up pendant port that carries a packet: the lower one where both are up (R365 spreads traffic in no stated way;
log 17). -/
def State.pendPort (s : State) : Option Nat := if s.pendUp 0 then some 0 else if s.pendUp 1 then some 1 else none

/-- Send a pendant packet of a type, with numbers of its own and bytes. -/
def State.sendPend (s : State) (type : Nat) (nums : List Nat) (bytes : List Byte) : State :=
  match s.pendPort with
  | some p => s.emit { kind := .pendant, nums := p :: type :: nums, bytes := bytes }
  | none => s

/-- Change the pair's internal state. -/
def State.updPend (s : State) (f : PendInt → PendInt) : State := { s with pend := f s.pend }

/-- The pair ID of this module (R364): from its straps, else PEND_CFG.PAIR_ID. -/
def State.pairId (s : State) : Nat :=
  if s.fld R.ID_STRAPS F.ID_STRAPS_STRAP_VALID = 1 then
    let slot := s.fld R.ID_STRAPS F.ID_STRAPS_SLOT
    s.fld R.ID_STRAPS F.ID_STRAPS_NODE * 4 + min slot (7 - slot) + 1
  else s.fld R.PEND_CFG F.PEND_CFG_PAIR_ID

/-- PEND_STAT as it reads. -/
def State.pendStat (s : State) : Nat := (F.PEND_STAT_PAIR_ID.put (s.reg R.PEND_STAT) s.pairId).toNat

/-- A change of pair state or role is told to the host: event kind 0x04 and ALERT_STATUS.PAIR (R402, R403). -/
def State.pairChange (s : State) (f : State → State) : State :=
  let old := s.pendStat
  let t := f s
  let new := t.pendStat
  if s.pairState = t.pairState ∧ s.role = t.role then t else (t.hostEvent 4 (leBytes old 8 ++ leBytes new 8)).alert 3

/-- A fault that leaves a mirror module unable to compute or answer: a face hands over and enters BROKEN, a back enters
BROKEN (R382). -/
def State.faultHandover (s : State) : State :=
  if s.mirror && s.pairState == psPaired then
    if s.role = roleFace then
      ((s.sendPend 0x37 [] []).count R.PEND_CNT F.PEND_CNT_HANDOVER 1).pairChange (fun s =>
        ((s.setPairState psBroken).setFld R.PEND_STAT F.PEND_STAT_ROLE roleBack).setFld R.HOSTP_STAT F.HOSTP_STAT_SILENT 1)
    else s.pairChange (fun s => s.setPairState psBroken)
  else s

/-- The highest ingress sequence held: acted on, or waiting without a gap (R369). -/
def State.ingHigh (s : State) : Nat :=
  s.pend.heldIn.foldl (fun n (x : Nat × IngressItem) => if x.1 = n + 1 then x.1 else n) s.pend.ingDone

/-- A local range in GiB fields of a register: SIZE and BASE. -/
def State.gibRange (s : State) (a : Nat) (size base : Field) : Nat × Nat := (s.fld a base * 2 ^ 30, s.fld a size * 2 ^ 30)

/-- The areas that only pendant transfers write (R376). -/
def State.pendAreas (s : State) : List (Nat × Nat) :=
  if s.shadow then
    [s.gibRange R.PEND_RESV F.PEND_RESV_RSIZE F.PEND_RESV_RBASE, s.gibRange R.PEND_DAREA F.PEND_DAREA_DSIZE F.PEND_DAREA_DBASE].filter
      (fun r => r.2 != 0)
  else []

end Sys2Proof.Machine
end

