-- ==== Sys2Proof/Machine/Tensor.lean ====
section
/-!
DEFINITION. Tensor descriptors (R272 to R280): their fields, checks, element addresses and bounds; reading and writing of
elements; the bytes of other modules that a command gathers or writes over the fabric (R279, R315); the start of a
dispatched command (R214, R215, R220, R357, R359).
-/

namespace Sys2Proof.Machine

open Sys2Proof

/-! ### The descriptor (R272) -/

/-- A parsed tensor descriptor. -/
structure TD where
  base : Nat
  fmt : Nat
  rank : Nat
  layout : Nat
  n : Nat
  ext : List Nat
  str : List Int
  gshape : List Nat
  shards : List Nat
  group : List Nat
  /-- the bytes that must be zero are zero -/
  clean : Bool
  deriving DecidableEq, Repr

/-- Parse the 128 bytes of a tensor descriptor. -/
def TD.parse (b : List Byte) : TD where
  base := leField b 0 8
  fmt := leField b 8 1
  rank := leField b 9 1
  layout := leField b 10 1
  n := leField b 12 2
  ext := (List.range 6).map (fun d => leField b (16 + 4 * d) 4)
  str := (List.range 6).map (fun d => signedOf (leField b (40 + 6 * d) 6) 48)
  gshape := (List.range 6).map (fun d => leField b (80 + 4 * d) 4)
  shards := (List.range 6).map (fun d => leField b (104 + 2 * d) 2)
  group := (List.range 6).map (fun d => leField b (116 + d) 1)
  clean := leField b 11 1 == 0 && leField b 14 2 == 0 && leField b 76 4 == 0 && leField b 122 6 == 0

def TD.plane (t : TD) : Bool := bitOf t.layout 0
def TD.dist (t : TD) : Bool := bitOf t.layout 1

/-- Extents and strides of the dimensions that the tensor has. -/
def TD.exts (t : TD) : List Nat := t.ext.take t.rank
def TD.strs (t : TD) : List Int := t.str.take t.rank

/-- Elements of the tensor (R273). -/
def TD.count (t : TD) : Nat := t.exts.foldl (· * ·) 1

/-- Rows of one element in plane layout (R147). -/
def planeWidth (f : Nat) : Nat := if f = fAcc64 then 83 else fmtBits f

/-- Nibbles of an element in element layout. -/
def fmtNibbles (f : Nat) : Nat := fmtBits f / 4

/-- The first core and row of a plane tensor, by the inverse of R146. -/
def offsetToRow (o : Nat) : Nat × Nat := ((o / 4096) % 2048, (o / 4096 / 2048) * 32 + (o / 128) % 32)

/-- Byte offset of a row of a core in its die's SRAM (R146). -/
def rowOffset (c r : Nat) : Nat := ((r / 32) * 2048 + c) * 4096 + (r % 32) * 128

/-- BASE lies in SRAM. -/
def TD.inSram (t : TD) : Bool :=
  let a := gaLocal t.base
  decide (0x100000000000 ≤ a) && (memKey a).isSome

def TD.core0 (t : TD) : Nat := (offsetToRow (sramOff (gaLocal t.base))).1
def TD.row0 (t : TD) : Nat := (offsetToRow (sramOff (gaLocal t.base))).2

/-- Row blocks of a plane tensor. -/
def TD.blocks (t : TD) : Nat := (t.count + 1023) / 1024

/-- Rows of R148 that a plane tensor breaks none of; one whose BASE is not in SRAM is refused by R275 later. -/
def TD.planeOk (t : TD) : Bool :=
  decide (1 ≤ t.n) && t.strs.all (· == 0) && t.base % 128 == 0 &&
    (!t.inSram || (decide (t.core0 + t.n ≤ 2048) &&
      (t.blocks == 0 || decide (t.row0 + planeWidth t.fmt * ((t.blocks - 1) / t.n + 1) ≤ 57344))))

/-- The element layout is unbroken (R274). -/
def TD.elementOk (t : TD) : Bool :=
  t.n == 0 &&
    (if t.fmt = fLog4 then
      (t.rank == 0 || t.str.getD 0 0 == 1) && (t.strs.drop 1).all (fun x => x % 2 == 0)
     else t.base % (fmtBits t.fmt / 8) == 0)

/-- One dimension's distribution (R277). -/
def distDimOk (ext gshape shards group : Nat) : Bool :=
  if shards = 1 then group == 0 && gshape == ext
  else decide (2 ≤ shards) && decide (shards ≤ 16383) && decide (ext ≤ gshape)

/-- Encodings and shape of a descriptor stand (R7, R56, R273, R274, R275, R277). -/
def TD.ok (t : TD) : Bool :=
  t.clean && decide (t.layout < 4) && decide (t.rank ≤ 6) && fmtKnown t.fmt &&
    (t.ext.drop t.rank).all (· == 0) && (t.str.drop t.rank).all (· == 0) && (t.gshape.drop t.rank).all (· == 0) &&
    (t.shards.drop t.rank).all (· == 0) && (t.group.drop t.rank).all (· == 0) &&
    decide (t.count ≤ 2 ^ 40) &&
    (if t.dist then
      (List.range t.rank).all (fun d => distDimOk (t.ext.getD d 0) (t.gshape.getD d 0) (t.shards.getD d 0) (t.group.getD d 0))
     else t.gshape.all (· == 0) && t.shards.all (· == 0) && t.group.all (· == 0)) &&
    (if t.plane then t.planeOk else t.elementOk)

/-! ### Places of elements -/

/-- The multi-index of the element of linear index j, innermost first. -/
def coords : List Nat → Nat → List Nat
  | [], _ => []
  | e :: r, j => (j % e) :: coords r (j / e)

/-- The linear index of a multi-index. -/
def linear : List Nat → List Nat → Nat
  | [], _ => 0
  | e :: r, i => i.headD 0 + e * linear r i.tail

/-- Σ index × stride. -/
def dot : List Nat → List Int → Int
  | i :: r, x :: q => (i : Int) * x + dot r q
  | _, _ => 0

/-- Nibble address of an element in element layout, counted from global address 0. -/
def TD.nib (t : TD) (i : List Nat) : Nat := ((2 * t.base : Nat) + (fmtNibbles t.fmt : Int) * dot i t.strs).toNat

/-- Global byte address of row k of the block of element E, the byte of its lane (R146, R148). -/
def TD.planeByte (t : TD) (e k : Nat) : Nat :=
  let i := e / 1024
  let die := t.base - sramOff (gaLocal t.base)
  die + rowOffset (t.core0 + i % t.n) (t.row0 + planeWidth t.fmt * (i / t.n) + k) + (e % 1024) / 8

/-- The global byte addresses that an element's bits lie in. -/
def TD.bytesOf (t : TD) (i : List Nat) : List Nat :=
  if t.plane then (List.range (planeWidth t.fmt)).map (t.planeByte (linear t.exts i))
  else
    let b := t.nib i
    (List.range ((fmtNibbles t.fmt + 1) / 2)).map (fun k => b / 2 + k)

/-- The code of an element, read through a function of global byte addresses. -/
def TD.codeAt (t : TD) (rd : Nat → Byte) (i : List Nat) : Nat :=
  if t.plane then
    let e := linear t.exts i
    ((List.range (planeWidth t.fmt)).foldr (fun k v => 2 * v + b2n (bitOf (rd (t.planeByte e k)).toNat (e % 8))) 0)
  else
    let b := t.nib i
    if t.fmt = fLog4 then ((rd (b / 2)).toNat / (if b % 2 = 0 then 1 else 16)) % 16
    else ofLe ((t.bytesOf i).map rd)

/-- A write of some bits of a byte: global address, mask, value. -/
structure BitWrite where
  addr : Nat
  mask : Nat
  val : Nat
  deriving DecidableEq, Repr

/-- The writes that store an element's code. In plane layout an ACC64 element keeps its low 83 bits (R147). -/
def TD.writes (t : TD) (i : List Nat) (code : Nat) : List BitWrite :=
  if t.plane then
    let e := linear t.exts i
    (List.range (planeWidth t.fmt)).map (fun k =>
      { addr := t.planeByte e k, mask := 2 ^ (e % 8), val := b2n (bitOf code k) * 2 ^ (e % 8) })
  else
    let b := t.nib i
    if t.fmt = fLog4 then
      [if b % 2 = 0 then { addr := b / 2, mask := 0x0F, val := code % 16 }
       else { addr := b / 2, mask := 0xF0, val := 16 * (code % 16) }]
    else (t.bytesOf i).zipIdx.map (fun p => { addr := p.1, mask := 0xFF, val := (byteN code p.2).toNat })

/-! ### Bounds (R279, R280) -/

/-- The bound of a non-empty tensor: lowest and highest byte (global addresses, as integers). -/
def TD.bound (t : TD) : Int × Int :=
  if t.plane then
    let die : Int := (t.base : Int) - sramOff (gaLocal t.base)
    let g := (t.blocks - 1) / t.n
    let last := rowOffset (t.core0 + (t.blocks - 1) % t.n) (t.row0 + planeWidth t.fmt * (g + 1) - 1) + 127
    let full := if g = 0 then 0 else rowOffset (t.core0 + t.n - 1) (t.row0 + planeWidth t.fmt * g - 1) + 127
    (die + rowOffset t.core0 t.row0, die + max last full)
  else
    let u : Int := fmtNibbles t.fmt
    let ends := (t.exts.zip t.strs).foldl (fun (p : Int × Int) q =>
      let d := ((q.1 : Int) - 1) * q.2 * u
      if d < 0 then (p.1 + d, p.2) else (p.1, p.2 + d)) ((2 * t.base : Int), (2 * t.base : Int))
    (ends.1 / 2, (ends.2 + u - 1) / 2)

/-- Region of a local address (R24): 0 interleaved HBM, 1 stack-local HBM, 2 + d SRAM of die d. -/
def regionOf (a : Nat) : Option Nat :=
  if a < 0x10000000000 then some 0
  else if a < 0x20000000000 then some 1
  else match sramSlot a with
    | some d => if (memKey a).isSome then some (2 + d) else none
    | none => none

/-- The bound of a tensor lies in one region of the module BASE names, and is mapped there (R279). What is mapped in another
module is for that module to say. -/
def State.boundOk (s : State) (t : TD) : Bool :=
  let b := t.bound
  decide (0 ≤ b.1) &&
    (let lo := b.1.toNat
     let hi := b.2.toNat
     gaModule lo == gaModule t.base && lo / 2 ^ 64 == 0 && gaModule hi == gaModule t.base &&
     (regionOf (gaLocal lo)).isSome && regionOf (gaLocal lo) == regionOf (gaLocal hi) &&
     (if s.isOwn t.base then s.mappedRange (gaLocal lo) (hi - lo + 1)
      else s.isRemote t.base && s.mode != mEarly))

/-- Insert a dimension in order of |stride|. -/
def insertDim (x : Nat × Nat) : List (Nat × Nat) → List (Nat × Nat)
  | [] => [x]
  | y :: r => if x.1 ≤ y.1 then x :: y :: r else y :: insertDim x r

/-- A destination does not alias itself (R280). -/
def TD.apart (t : TD) : Bool :=
  let ds := ((t.exts.zip t.strs).filter (fun p => decide (2 ≤ p.1))).foldr (fun p l => insertDim (p.2.natAbs, p.1) l) []
  t.plane ||
    ((ds.foldl (fun (p : Bool × Nat) d => (p.1 && decide (p.2 ≤ d.1), d.1 * d.2)) (true, 1)).1)

/-- The lowest offset of stack st whose interleaved address is at least x (R25). -/
def inStackFrom (st x : Nat) : Nat :=
  let g := x / 4096
  if g % 16 < st then (g / 16) * 4096 else if g % 16 = st then (g / 16) * 4096 + x % 4096 else (g / 16 + 1) * 4096

/-- A range of the interleaved view meets a range of the stack-local view: the two name one storage (R26). -/
def viewsMeet (x n a m : Nat) : Bool :=
  (List.range 16).any (fun st =>
    let b := 0x10000000000 + st * 0x1000000000
    let lo := max a b
    let hi := min (a + m) (b + 0x1000000000)
    decide (lo < hi) &&
      (let o := max (lo - b) (inStackFrom st x)
       decide (b + o < hi) && decide (hbmKey st o < x + n)))

/-- Two local ranges share storage. -/
def rangesMeet (a b : Nat × Nat) : Bool :=
  if a.1 < 0x10000000000 ∧ 0x10000000000 ≤ b.1 ∧ b.1 < 0x20000000000 then viewsMeet a.1 a.2 b.1 b.2
  else if b.1 < 0x10000000000 ∧ 0x10000000000 ≤ a.1 ∧ a.1 < 0x20000000000 then viewsMeet b.1 b.2 a.1 a.2
  else decide (a.1 < b.1 + b.2) && decide (b.1 < a.1 + a.2)

/-- The local part of a tensor's bound: start and length. -/
def TD.extent (t : TD) : Nat × Nat := (gaLocal t.bound.1.toNat, (t.bound.2 - t.bound.1).toNat + 1)

/-- Two tensors overlap: same module, bounds intersect. -/
def State.overlap (s : State) (a b : TD) : Bool :=
  ((s.isOwn a.base && s.isOwn b.base) || gaModule a.base == gaModule b.base) && rangesMeet a.extent b.extent

/-! ### Reading descriptors (R272, R276, R219) -/

/-- Keep bytes read at issue or at start. -/
def State.capture (s : State) (c : Cmd) (a : Nat) (b : List Byte) : State :=
  s.updCmd c.queue c.seq (fun x => { x with capt := (a, b) :: x.capt })

/-- The captured bytes at an address. -/
def Cmd.captured (c : Cmd) (a : Nat) : Option (List Byte) := (c.capt.find? (fun p => p.1 == a)).map Prod.snd

/-- Read n aligned descriptor bytes in this module: captured ones first. FAULT_ADDRESS or ERROR_DATA as the status. -/
def State.readDesc (s : State) (c : Cmd) (a al n : Nat) : Except Nat (List Byte) × State :=
  match c.captured a with
  | some b => (.ok b, s)
  | none =>
    if a % al = 0 ∧ s.isOwn a = true ∧ s.mappedRange (gaLocal a) n = true then
      let (b, s, e) := s.readMem c.who (gaLocal a) n
      if e then (.error stData, s) else (.ok b, s.capture c a b)
    else (.error stAddress, s)

/-- Read a tensor descriptor. -/
def State.readTd (s : State) (c : Cmd) (a : Nat) : Except Nat TD × State :=
  let (r, s) := s.readDesc c a 128 128
  (r.map TD.parse, s)

/-- A tensor descriptor as memory holds it, with no error check: for bounds. -/
def State.peekTd (s : State) (c : Cmd) (a : Nat) : Option TD :=
  match c.captured a with
  | some b => some (TD.parse b)
  | none => if a % 128 = 0 ∧ s.isOwn a = true ∧ s.mappedRange (gaLocal a) 128 = true then some (TD.parse (s.peek (gaLocal a) 128)) else none

/-- The local range of a tensor in this module: start and length. -/
def State.localBound (s : State) (t : TD) : List (Nat × Nat) :=
  if t.ok && decide (t.count ≠ 0) && s.isOwn t.base && decide (0 ≤ t.bound.1) then
    [t.extent]
  else []

/-- The local range of the tensor whose descriptor lies at an address. -/
def State.tdRange (s : State) (c : Cmd) (a : Nat) : List (Nat × Nat) :=
  match s.peekTd c a with
  | some t => s.localBound t
  | none => []

/-- The destination descriptor named by the DRAIN descriptor of a RING STREAM (R128). -/
def State.ringDst (s : State) (c : Cmd) : Nat :=
  if s.isOwn (c.at 48 8) then leField (s.peek (gaLocal (c.at 48 8)) 64) 16 8 else 1

/-- The ranges of this module that a command may write (R279, R357, R359). -/
def State.writeBounds (s : State) (c : Cmd) : List (Nat × Nat) :=
  match c.code with
  | 0x01 => if bitOf (c.at 10 1) 0 then [(gaLocal (c.at 56 8), 1088)] else []
  | 0x02 => if bitOf (c.at 10 1) 3 then s.tdRange c (s.ringDst c) else []
  | 0x03 => s.tdRange c (c.at 16 8)
  | 0x30 => if c.gated then [(sramBase c.die, sramSize)] else []
  | k =>
    if 0x10 ≤ k ∧ k < 0x18 then s.tdRange c (c.at 32 8)
    else if 0x20 ≤ k ∧ k < 0x24 then s.tdRange c (c.at 24 8)
    else []

/-- Refused by an evaluation window (R357). -/
def State.evalRefuses (s : State) (rs : List (Nat × Nat)) : Bool :=
  s.fld R.TRN_EVAL_STAT F.TRN_EVAL_STAT_IN_SLOT == 1 &&
    (List.range 4).any (fun w =>
      s.fld (R.TRN_EVAL_WIN w) F.TRN_EVAL_WIN_ENABLE == 1 &&
        rs.any (fun r => rangesMeet r (s.fld (R.TRN_EVAL_WIN w) F.TRN_EVAL_WIN_BASE * 2 ^ 30,
          s.fld (R.TRN_EVAL_WIN w) F.TRN_EVAL_WIN_SIZE * 2 ^ 30)))

/-- A gated command of a later epoch waits for the snapshot to read the regions it writes (R359). -/
def State.snapHolds (s : State) (c : Cmd) : Bool :=
  match s.snap with
  | none => false
  | some n => c.gated && decide (n.epoch < c.epoch) &&
      (n.regions.drop n.done).any (fun r => (s.writeBounds c).any (fun x => rangesMeet r x))

/-- A DELTA or RESYNC that has not read its source holds gated commands of later epochs off it (R377, R385). -/
def State.deltaHolds (s : State) (c : Cmd) : Bool :=
  c.gated && s.cmds.any (fun d => (d.code == 0x41 || d.code == 0x42) && d.phase == .accepted && decide (d.at 24 6 < c.epoch) &&
    (s.tdRange d (d.at 16 8)).any (fun r => (s.writeBounds c).any (fun x => rangesMeet r x)))

/-- The write bound meets the partner's copy or the staging area (R376). Pendant transfers alone write there. -/
def State.pendRefuses (s : State) (c : Cmd) : Bool :=
  decide (c.code < 0x40) && (s.writeBounds c).any (fun x => s.pendAreas.any (fun r => rangesMeet r x))

/-! ### Starting (R214, R215, R220) -/

/-- What the start of a command finds. -/
inductive StartKind where
  /-- it may not start yet, or is no such command -/
  | no
  /-- it starts -/
  | go (c : Cmd)
  /-- it ends with this status without running (R220, R357) -/
  | ended (c : Cmd) (status : Nat)
  deriving DecidableEq, Repr

/-- Whether command n of queue q, of one of the given codes, starts now. A canvas orders its commands by R119 instead. -/
def State.startOf (s : State) (q n : Nat) (code : Nat) : StartKind :=
  match s.findCmd q n with
  | none => .no
  | some c =>
    if c.phase ≠ .accepted ∨ c.code ≠ code ∨ s.serving = false ∨ s.engineUp c.engine = false then .no
    else if c.ord ∧ (s.before c).any (fun x => x.queue == q) = true then .no
    else if 64 ≤ c.engine ∧ (s.before c).any (fun x => x.queue == q && x.engine == c.engine && x.phase == .accepted) = true then .no
    else if c.gated ∧ isCollective c.code = false ∧ s.epochState c.epoch ≠ .committed then
      match s.epochState c.epoch with
      | .cancelled => .ended c stCancelled
      | .unknown => .ended c stMissing
      | _ => .no
    else if s.snapHolds c || s.deltaHolds c then .no
    else if s.evalRefuses (s.writeBounds c) || s.pendRefuses c then .ended c stAddress
    else .go c

/-- Count a refusal of R357. -/
def State.countRefused (s : State) : State := s.countWrap R.TRN_EVAL_STAT F.TRN_EVAL_STAT_REFUSED 1

/-- A write from outside, to a range of local addresses, is refused: an evaluation window is read-only (R357), and pendant
transfers alone write the pendant areas (R376). -/
def State.guardWrite (s : State) (a n : Nat) : Bool × State :=
  if s.evalRefuses [(a, n)] then (true, s.countRefused)
  else (s.pendAreas.any (fun r => rangesMeet r (a, n)), s)

/-- Run a command's body where it starts, or end it. -/
def State.starting (s : State) (q n code : Nat) (body : State → Cmd → State) : State :=
  match s.startOf q n code with
  | .no => s
  | .ended c st => (if st = stAddress ∧ s.evalRefuses (s.writeBounds c) = true then s.countRefused else s).fail c st
  | .go c =>
    let s := s.updCmd q n (fun x => { x with phase := .started })
    if s.engineClosing c then s.served (fun s => body s c) else body s c

/-! ### Bytes of this and other modules -/

/-- A gathered remote byte. -/
def rxByte (rx : List (Nat × List Byte)) (g : Nat) : Byte :=
  match rx.find? (fun p => decide (p.1 ≤ g) && decide (g < p.1 + p.2.length)) with
  | some p => p.2.getD (g - p.1) 0
  | none => 0

/-- The byte at a global address as a command reads it. -/
def State.rdByte (s : State) (c : Cmd) (g : Nat) : Byte :=
  if s.isOwn g then s.byteAt ((memKey (gaLocal g)).getD 0) else rxByte c.rx g

/-- Canonical keys of the bytes of this module among global addresses. -/
def State.ownKeys (s : State) (gs : List Nat) : List Nat :=
  (gs.filter s.isOwn).map (fun g => (memKey (gaLocal g)).getD 0)

/-- Pieces of at most 256 bytes of a range. -/
def pieces (g n : Nat) : List (Nat × Nat) :=
  (List.range ((n + 255) / 256)).map (fun i => (g + 256 * i, min 256 (n - 256 * i)))

/-- The bulk channel of a queue's commands (R312). -/
def State.bulkVc (s : State) (q : Nat) : Nat := 12 + min (s.fld (R.QCFG q) F.QCFG_CLASS) 2

/-- Ask other modules for the bytes of these global ranges: READ_REQ in pieces (R302, R315). True: it must wait. -/
def State.gather (s : State) (c : Cmd) (rs : List (Nat × Nat)) : State × Bool :=
  let need := (rs.filter (fun r => s.isRemote r.1)).flatMap (fun r => pieces r.1 r.2)
  if need.isEmpty ∨ c.rx ≠ [] then (s, false)
  else
    let s := need.foldl (fun s p =>
      (s.sendReq (gaModule p.1) (s.bulkVc c.queue) tReadReq (gaLocal p.1) (leBytes p.2 8) (.cmd c.queue c.seq)).2) s
    (s.updCmd c.queue c.seq (fun x => { x with phase := .started, open_ := x.open_ + need.length }), true)

/-- The global range of a tensor in another module. -/
def TD.range (t : TD) : Nat × Nat := (t.bound.1.toNat, (t.bound.2 - t.bound.1).toNat + 1)

/-- Keys of a list without repeats, in order of first appearance. -/
def dedupNat : List Nat → List Nat
  | [] => []
  | x :: r => x :: (dedupNat r).filter (· != x)

/-- Put some bits into the bytes of a memory. -/
def pokeBits (m : List Host.Cell) (w : BitWrite) : List Host.Cell :=
  let k := (memKey (gaLocal w.addr)).getD 0
  memSet m k (if w.mask = 0xFF then BitVec.ofNat 8 w.val
    else BitVec.ofNat 8 (((memByte m k).toNat &&& (0xFF - w.mask)) ||| w.val))

/-- Write bits in this module in order, with the codes' merges (R262, R263). True: a merge was refused. -/
def State.writeBits (s : State) (ws : List BitWrite) : State × Bool :=
  let own := ws.filter (fun w => s.isOwn w.addr)
  let m := own.foldl pokeBits s.mem
  let ks := dedupNat (own.map (fun w => (memKey (gaLocal w.addr)).getD 0))
  if s.altered = [] ∧ s.held = [] then ({ s with mem := m }, false)
  else s.writeKeys (ks.map (fun k => (k, memByte m k)))

/-- Consecutive whole bytes of a list of writes as runs of at most 256 bytes: address, bytes. -/
def runsOf : List BitWrite → List (Nat × List Byte)
  | [] => []
  | w :: r =>
    match runsOf r with
    | (a, b) :: t =>
      if a = w.addr + 1 ∧ b.length < 256 then (w.addr, BitVec.ofNat 8 w.val :: b) :: t
      else (w.addr, [BitVec.ofNat 8 w.val]) :: (a, b) :: t
    | [] => [(w.addr, [BitVec.ofNat 8 w.val])]

/-- Bit writes merged into whole bytes, one per address in rising order: later writes go over earlier ones, bits that no
write covers keep the gathered byte's. -/
def mergeWrites (rx : List (Nat × List Byte)) (ws : List BitWrite) : List BitWrite :=
  (ws.foldl (fun (m : Sparse Nat) w =>
    let old := sparseGet m w.addr (rxByte rx w.addr).toNat
    sparsePut m w.addr ((old &&& (0xFF - w.mask)) ||| w.val)) []).map (fun p => { addr := p.1, mask := 0xFF, val := p.2 })

/-- Send the writes to other modules as WRITE packets (R302, R315): how many requests. -/
def State.sendWrites (s : State) (c : Cmd) (ws : List BitWrite) : State × Nat :=
  let rx := ((s.findCmd c.queue c.seq).map Cmd.rx).getD []
  let rs := runsOf (mergeWrites rx (ws.filter (fun w => s.isRemote w.addr)))
  (rs.foldl (fun s p =>
    (s.sendReq (gaModule p.1) (s.bulkVc c.queue) tWrite (gaLocal p.1) p.2 (.cmd c.queue c.seq)).2) s, rs.length)

/-- The bytes of other modules that a LOG4 destination may share: they are read first (R57). -/
def State.sharedBytes (s : State) (t : TD) : List (Nat × Nat) :=
  if t.fmt = fLog4 ∧ s.isRemote t.base = true ∧ t.count ≠ 0 then [t.range] else []

/-- A command's writes take effect and it finishes; one that wrote to another module completes only once every write is
acknowledged (R215). -/
def State.finishWrites (s : State) (c : Cmd) (ws : List BitWrite) (status res0 res1 due : Nat) : State :=
  let (s, bad) := s.writeBits ws
  let (s, k) := s.sendWrites c ws
  let s := s.finish c (if bad then stData else status) res0 res1 due
  s.updCmd c.queue c.seq (fun x => { x with open_ := x.open_ + k })

end Sys2Proof.Machine
end

