-- ==== Sys2Proof/Machine/Canvas.lean ====
section
/-!
DEFINITION. Canvas arrays (R105 to R142): products, accumulators, banks, the order of canvas commands, PRIME, STREAM, DRAIN,
PACK, batch gates, retirement and the debug window, with the meanings of their commands.
-/

namespace Sys2Proof.Machine

open Sys2Proof

/-! ### Geometry (R120) -/

/-- CANV_MODE.PACKING of a logical canvas: 0 ONE, 1 FOUR, 2 SIXTEEN. -/
def State.packing (s : State) (d c : Nat) : Nat := s.fld (R.CANV_MODE d) (F.CANV_MODE_PACKING c)

/-- The canvas has LOG16 groups. -/
def State.wide (s : State) (d c : Nat) : Bool := s.fld (R.CANV_MODE d) (F.CANV_MODE_WIDTH c) == 1

/-- Problems of a packing. -/
def packProblems (m : Nat) : Nat := if m = 0 then 1 else if m = 1 then 4 else 16

/-- Physical span P (R113). -/
def packSpan (m : Nat) : Nat := if m = 0 then 256 else if m = 1 then 128 else 64

/-- Logical size S. -/
def packSize (m : Nat) (wide : Bool) : Nat := if wide then packSpan m / 2 else packSpan m

/-- Entries per column per problem C. -/
def packEntries (m : Nat) : Nat := if m = 0 then 4096 else if m = 1 then 2048 else 1024

/-- The logical canvas shares a physical one (R137). -/
def State.sharedCanvas (s : State) (d c : Nat) : Bool := s.bit (R.CANV_STAT d) F.CANV_STAT_SHARED c

/-- The logical canvas is lost (R140). -/
def State.lostCanvas (s : State) (d c : Nat) : Bool := s.bit (R.CANV_STAT d) F.CANV_STAT_LOST c

/-- Physical canvas serving a logical one. -/
def State.physCanvas (s : State) (d c : Nat) : Nat := s.fld (R.CANV_MAP d) (F.CANV_MAP_PHYS c)

/-- Entries a command on a logical canvas may name (R120, R137). -/
def State.entriesOf (s : State) (d c : Nat) : Nat :=
  let n := packEntries (s.packing d c)
  if s.sharedCanvas d c then n / 2 else n

/-- Key of a row of a bank: 0 active, 1 shadow. -/
def bankKey (d c p b k : Nat) : Nat := ((((d * 16 + c) * 16 + p) * 2 + b) * 256) + k

/-- Key of an entry. -/
def entryKey (d c p e : Nat) : Nat := ((d * 16 + c) * 16 + p) * 4096 + e

/-- Key of a problem. -/
def probKey (d c p : Nat) : Nat := (d * 16 + c) * 16 + p

def State.prob (s : State) (d c p : Nat) : ProbInt := sparseGet s.probs (probKey d c p) ProbInt.fresh

def State.updProb (s : State) (d c p : Nat) (f : ProbInt → ProbInt) : State :=
  { s with probs := sparseSet s.probs (probKey d c p) (f (s.prob d c p)) ProbInt.fresh }

/-! ### Banks -/

/-- The cells of row k of a bank. -/
def State.bankRow (s : State) (d c p b k : Nat) : List (Nat × Int) := sparseGet s.banks (bankKey d c p b k) []

/-- Store a row of cells; a row of zero codes is not listed. -/
def State.setBankRow (s : State) (d c p b k : Nat) (r : List (Nat × Int)) : State :=
  { s with banks := sparseSet s.banks (bankKey d c p b k) (if r.all (fun x => x == (0, 0)) then [] else r) [] }

/-- Exchange the banks of a problem (R117). -/
def State.swapBanks (s : State) (d c p : Nat) : State :=
  (List.range 256).foldl (fun s k =>
    let a := s.bankRow d c p 0 k
    let b := s.bankRow d c p 1 k
    if a = [] ∧ b = [] then s else (s.setBankRow d c p 0 k b).setBankRow d c p 1 k a) s

/-! ### Products and accumulators -/

/-- The value of a cell or weight: a code of the cell's width times 2^x (R88, R107). -/
def cellNum (wide : Bool) (c : Nat × Int) : Num := ((if wide then lin16 c.1 else lin8 c.1)).scale c.2

/-- The product of R107. -/
def product (a w : Num) : Num :=
  match a, w with
  | .nan, _ => .nan
  | _, .nan => .nan
  | .inf x, .inf y => .inf (x != y)
  | .inf x, .fin v => if v.mant = 0 then .nan else .inf (x != v.neg)
  | .fin v, .inf x => if v.mant = 0 then .nan else .inf (x != v.neg)
  | .fin v, .fin u => .fin ⟨v.neg != u.neg, v.mant * u.mant, v.exp + u.exp⟩

/-- Tags combine (R110): 0 finite, 1 and 2 the infinities, 3 NaN. -/
def joinTags (a b : Nat) : Nat := if a = 0 then b else if b = 0 ∨ a = b then a else 3

/-- A product enters an entry (R109, R110). -/
def AccEntry.add (e : AccEntry) (p : Num) : AccEntry :=
  match p with
  | .nan => { e with tag := 3 }
  | .inf n => { e with tag := joinTags e.tag (if n then 2 else 1) }
  | .fin v =>
    if v.mant = 0 then e
    else
      let q : Int := if e.w ≤ v.exp then (v.mant : Int) * 2 ^ (v.exp - e.w).toNat
        else roundDivEven v.mant (2 ^ (e.w - v.exp).toNat)
      let big := decide (2 ^ 63 - 1 < q)
      let q := if big then 2 ^ 63 - 1 else q
      { e with v := if v.neg then e.v - q else e.v + q, sat := e.sat || big }

/-- V as it reads (R111). -/
def AccEntry.read (e : AccEntry) : Int × Bool :=
  if e.v < -(2 ^ 63) then (-(2 ^ 63), true) else if 2 ^ 63 ≤ e.v then (2 ^ 63 - 1, true) else (e.v, e.sat)

/-- The entries of all S columns of entry e of a problem. -/
def State.accRow (s : State) (d c p e : Nat) (sz : Nat) : List AccEntry :=
  match sparseGet s.accs (entryKey d c p e) [] with
  | [] => List.replicate sz AccEntry.empty
  | r => r

/-- Store a row of entries; a row of empty sums with W = 0 is not listed. -/
def State.setAccRow (s : State) (d c p e : Nat) (r : List AccEntry) : State :=
  { s with accs := sparseSet s.accs (entryKey d c p e) (if r.all (fun x => x == AccEntry.empty) then [] else r) [] }

/-- Clear a canvas's entries and banks (R122). -/
def State.clearCanvas (s : State) (d c : Nat) : State :=
  let k := d * 16 + c
  { s with
    accs := s.accs.filter (fun x => x.1 / (16 * 4096) != k),
    banks := s.banks.filter (fun x => x.1 / (16 * 2 * 256) != k),
    probs := s.probs.filter (fun x => x.1 / 16 != k),
    replayIds := sparseDel s.replayIds k }

/-! ### The order of commands on one canvas (R119) -/

def Cmd.prob (c : Cmd) : Nat := c.at 9 1
def Cmd.flags (c : Cmd) : Nat := c.at 10 1
def Cmd.canvas (c : Cmd) : Nat := c.at 8 1 % 16

/-- Entries a STREAM or DRAIN names: first and one past the last. A RING STREAM may use every entry from E0 on. -/
def Cmd.entrySpan (c : Cmd) : Nat × Nat :=
  (c.at 38 2, if c.code = 2 ∧ bitOf c.flags 3 = true then 65536 else c.at 38 2 + c.at 32 4)

/-- Two commands name a common entry. -/
def spansMeet (a b : Cmd) : Bool :=
  a.prob == b.prob && decide (a.entrySpan.1 < b.entrySpan.2) && decide (b.entrySpan.1 < a.entrySpan.2)

/-- Command c must still wait for the earlier command e of its canvas. -/
def canvasWaits (shared : Bool) (c e : Cmd) : Bool :=
  let begun := e.phase != .accepted
  if e.code = 4 ∨ c.code = 4 then true
  else if c.code = 1 then
    e.prob == c.prob && (e.code == 1 || (e.code == 2 && bitOf e.flags 0 && !begun)) ||
      (shared && e.code == 2)
  else if c.code = 2 then
    (e.code == 1 && bitOf c.flags 0 && e.prob == c.prob) || (e.code == 2 && e.prob == c.prob && !begun) ||
      (e.code == 3 && spansMeet c e && !begun) || (e.code == 2 && bitOf e.flags 3 && spansMeet c e)
  else e.code == 2 && spansMeet c e

/-- The canvas command may start: no earlier command holds what it needs (R119), its STREAM's turn has come (R114), and a
PACK of a shared canvas finds both idle (R137). -/
def State.canvasReady (s : State) (c : Cmd) : Bool :=
  let d := c.die
  let shared := s.sharedCanvas d c.canvas
  let mate := 16 * d + (c.canvas ^^^ 1)
  (s.before c).all (fun e =>
    if e.engine = c.engine then !(canvasWaits shared c e)
    else if shared ∧ e.engine = mate then !(c.code == 4 || e.code == 4) else true) &&
    (c.code != 2 || decide ((s.prob d c.canvas c.prob).nextRead ≤ s.now))

/-! ### Windows (R132) -/

/-- Extent of dimension i, 1 where the tensor has none. -/
def TD.ext1 (t : TD) (i : Nat) : Nat := if i < t.rank then t.ext.getD i 0 else 1

/-- The dimension of the first window index, and of the second: TR takes dimension 0 as the first. -/
def firstDim (tr : Bool) : Nat := if tr then 0 else 1
def secondDim (tr : Bool) : Nat := if tr then 1 else 0

/-- The coordinates of window element (a, b) at an outer index; none outside the tensor's extents. -/
def TD.window (t : TD) (tr : Bool) (outer a b : Nat) : Option (List Nat) :=
  let x := if tr then a else b
  let y := if tr then b else a
  let rest := t.exts.drop 2
  if x < t.ext1 0 ∧ y < t.ext1 1 ∧ outer < rest.foldl (· * ·) 1 then
    some (([x, y] ++ coords rest outer).take t.rank)
  else none

/-- Code of a window element as a command reads it; zero outside the extents. -/
def State.windowCode (s : State) (c : Cmd) (t : TD) (tr : Bool) (outer a b : Nat) : Nat :=
  match t.window tr outer a b with
  | some i => t.codeAt (s.rdByte c) i
  | none => 0

/-- The global bytes of a window's elements. -/
def TD.windowBytes (t : TD) (tr : Bool) (outer : Nat) (els : List (Nat × Nat)) : List Nat :=
  els.flatMap (fun p => match t.window tr outer p.1 p.2 with | some i => t.bytesOf i | none => [])

/-- All pairs of two ranges. -/
def grid (a0 na b0 nb : Nat) : List (Nat × Nat) :=
  (List.range na).flatMap (fun i => (List.range nb).map (fun j => (a0 + i, b0 + j)))

/-- Check a tensor that a canvas command names: a readable descriptor, sound, of element layout, in one of the formats
(R106, R278), offered (R56), and mapped (R279). -/
def State.canvasTensor (s : State) (t : TD) (fmts : List Nat) : Option Nat :=
  if !t.ok || t.plane || !(fmts.contains t.fmt) then some stDescriptor
  else if !(s.offered t.fmt) then some stFormat
  else if t.count ≠ 0 ∧ s.boundOk t = false then some stAddress
  else none

/-! ### Gates (R129 to R131) -/

def State.gate (s : State) (d g : Nat) : Gate := sparseGet s.gates (4 * d + g) Gate.fresh

/-- Store a gate, with its open-batch count. -/
def State.setGate (s : State) (d g : Nat) (x : Gate) : State :=
  { s with gates := sparseSet s.gates (4 * d + g) x Gate.fresh }.setFld (R.CANV_GATE_STAT d) (F.CANV_GATE_STAT_COUNT g)
    x.posts.length

/-- The latched mask of a gate. -/
def State.latched (s : State) (d g : Nat) : Nat :=
  (List.range 4).foldl (fun m w => m + (s.reg (R.CANV_GATE_MASK d g w)).toNat * 2 ^ (64 * w)) 0

/-- The mask of the posted slots. -/
def Gate.mask (x : Gate) : Nat := x.posts.foldl (fun m p => m ||| 2 ^ p.1) 0

/-- The gate follows its pendant (R131). -/
def State.follows (s : State) (d g : Nat) : Bool := s.fld (R.CANV_GATE_CFG d) (F.CANV_GATE_CFG_FOLLOW g) == 1

/-- The mask with which a waiting PRIME may close its gate now; none: it waits (R130, R131). -/
def State.gateCloses (s : State) (d g : Nat) (w : GateWait) (target deadline : Nat) : Option Nat :=
  let x := s.gate d g
  if s.follows d g then
    match x.masks.find? (fun p => p.1 == x.closes) with
    | some (_, m) => if m &&& x.mask = m then some m else none
    | none => none
  else if target ≤ x.posts.length ∨ w.released = true ∨ (deadline ≠ 0 ∧ deadline ≤ s.position) then some x.mask
  else none

/-- The manifest of a close (R130). -/
def State.manifest (s : State) (x : Gate) (m : Nat) : List Byte :=
  leBytes m 32 ++ leBytes (popCount m 256) 4 ++ leBytes 0 4 ++ leBytes s.position 8 ++ s.stamp ++
    (List.range 256).flatMap (fun i =>
      leBytes (if bitOf m i then ((x.posts.find? (fun p => p.1 == i)).map Prod.snd).getD 0 else 0) 4)

/-! ### PRIME (R116 to R118, R130, R134) -/

/-- Reserved fields and encodings of a PRIME descriptor, and its window (R7, R132, R133). -/
def State.primeOk (s : State) (c : Cmd) : Bool :=
  let d := c.die
  let m := s.packing d c.canvas
  let sz := packSize m (s.wide d c.canvas)
  c.at 50 6 == 0 && c.at 13 3 == 0 && decide (c.at 12 1 < 64) && decide (c.at 11 1 < 4) && decide (c.flags < 16) &&
    decide (c.at 9 1 < packProblems m) && decide (c.at 8 1 < 16) && decide (c.at 32 2 ≤ sz) && decide (c.at 34 2 ≤ sz) &&
    (!(bitOf c.flags 0) || (decide (1 ≤ c.at 48 2) && decide (c.at 48 2 ≤ 256)))

/-- Write the shadow bank of a PRIME's problem from its source under a column mask, and finish (R116, R118, R134). -/
def State.primeWrite (s : State) (c : Cmd) (t : TD) (mask : Nat) (late : Bool) (manifest : List Byte) : State :=
  let d := c.die
  let cv := c.canvas
  let p := c.prob
  let wide := s.wide d cv
  let sz := packSize (s.packing d cv) wide
  let rows := c.at 32 2
  let cols := c.at 34 2
  let tr := bitOf c.flags 3
  let byCol := bitOf c.flags 2
  let sset := c.at 12 1
  let ncols := (List.range cols).filter (bitOf mask)
  let dst := if wide then fLog16 else fLog8
  let (s, bad) := s.readKeys c.who (dedupNat (s.ownKeys (t.windowBytes tr (c.at 36 4)
    ((List.range rows).flatMap (fun k => ncols.map (fun n => (c.at 24 4 + k, c.at 28 4 + n)))))))
  let row := fun (k : Nat) => (List.range sz).map (fun n =>
    if k < rows ∧ n < cols ∧ bitOf mask n = true then
      let code := (convert t.fmt dst 0 Cvt.nearest (s.windowCode c t tr (c.at 36 4) (c.at 24 4 + k) (c.at 28 4 + n))).code
      if code = 0 then (0, 0) else (code, s.scaleOf d sset (if byCol then c.at 28 4 + n else c.at 24 4 + k))
    else ((0, 0) : Nat × Int))
  let shared := s.sharedCanvas d cv
  let s := (List.range sz).foldl (fun s k =>
    let r := row k
    let s := s.setBankRow d cv p 1 k r
    if shared then s.setBankRow d cv p 0 k r else s) s
  let id := sparseGet s.replayIds (16 * d + cv) 0
  let s := s.updProb d cv p (fun x => { x with shadow := id })
  let ac := s.acDur d 1
  let first := max (s.now + 4 * ac) ((s.prob d cv p).marker + packSpan (s.packing d cv) * ac)
  let s := if manifest = [] then s.finish c (if bad then stData else stDone) ncols.length 0 (first + sz * ac)
    else s.finishWrites c (manifest.zipIdx.map (fun x => { addr := c.at 56 8 + x.2, mask := 0xFF, val := x.1.toNat }))
      (if bad then stData else if late then stLate else stDone) ncols.length 0 (first + sz * ac)
  s

/-- Close gate g for the PRIME at the head of its waiters, where it may (R130). -/
def State.tryClose (s : State) (d g : Nat) : State :=
  let x := s.gate d g
  match x.waits with
  | [] => s
  | w :: rest =>
    match s.findCmd w.queue w.seq with
    | none => s.setGate d g { x with waits := rest }
    | some c =>
      match s.gateCloses d g w (c.at 48 2) (c.at 40 8) with
      | none => s
      | some m =>
        let body := s.manifest x m
        let own := !(s.follows d g)
        let s := s.countLate (own && w.late && !w.released)
        let s := (List.range 4).foldl (fun s i => s.setReg (R.CANV_GATE_MASK d g i) (BitVec.ofNat 64 (bitsOf m (64 * i) 64))) s
        let s := s.setGate d g { posts := [], closes := x.closes + 1, masks := x.masks.filter (fun p => p.1 != x.closes), waits := rest }
        let s := if s.mirror && s.pairState == psPaired && s.role == roleFace then
            s.sendPend 0x33 [d, g, x.closes] body else s
        match s.peekTd c (c.at 16 8) with
        | some t => s.primeWrite c t m (own && (w.late || w.released)) body
        | none => s.fail c stAddress

/-- A gate whose FOLLOW goes to 0: its waiting closes go by their own TARGET and DEADLINE, LATE where that has passed
(R130, R131, R380). -/
def State.gateOwn (s : State) (d g : Nat) : State :=
  let x := s.gate d g
  let late := fun (w : GateWait) =>
    match s.findCmd w.queue w.seq with
    | some c => { w with late := w.late || (c.at 40 8 != 0 && decide (c.at 40 8 < s.position)) }
    | none => w
  (s.setGate d g { x with waits := x.waits.map late, masks := [] }).tryClose d g

/-- A PRIME waits at its gate. -/
def State.armGate (s : State) (c : Cmd) : State :=
  let d := c.die
  let g := c.at 11 1
  let x := s.gate d g
  let dl := c.at 40 8
  let s := s.setGate d g { x with waits := x.waits ++
    [{ queue := c.queue, seq := c.seq, late := dl != 0 && decide (dl < s.position), released := false }] }
  s.tryClose d g

/-- The manifest address is acceptable: mapped here, or another module's. -/
def State.manOk (s : State) (g : Nat) : Bool :=
  (s.isOwn g && s.mappedRange (gaLocal g) 1088) || (s.isRemote g && s.mode != mEarly && gaModule (g + 1087) == gaModule g)

/-- The work of a PRIME once it starts. -/
def State.primeBody (s : State) (c : Cmd) : State :=
  let d := c.die
  let wide := s.wide d c.canvas
  if c.at 32 2 = 0 ∨ c.at 34 2 = 0 then s.fail c (if s.primeOk c then stDone else stDescriptor)
  else
    match s.readTd c (c.at 16 8) with
    | (.error st, s) => s.fail c st
    | (.ok t, s) =>
      let tr := bitOf c.flags 3
      let chans := t.ext1 (if bitOf c.flags 2 then secondDim tr else firstDim tr)
      if !(s.primeOk c) || !(roleOk (c.at 12 1) chans) then s.fail c stDescriptor
      else
        match s.canvasTensor t (if wide then [fLog8, fLog16] else [fLog8]) with
        | some st => s.fail c st
        | none =>
          if bitOf c.flags 0 ∧ s.manOk (c.at 56 8) = false then s.fail c stAddress
          else
            let (s, wait) := if t.count = 0 then (s, false) else s.gather c [t.range]
            if wait then s
            else if bitOf c.flags 0 then s.armGate c
            else s.primeWrite c t (if bitOf c.flags 1 then s.latched d (c.at 11 1) else 2 ^ 256 - 1) false []

/-- A canvas command starts under R119; its replay number advances (R138). -/
def State.canvasStart (s : State) (q n code : Nat) (body : State → Cmd → State) : State :=
  match s.findCmd q n with
  | none => s
  | some c =>
    if s.canvasReady c then
      s.starting q n code (fun s c =>
        let k := 16 * c.die + c.canvas
        body { s with replayIds := sparseSet s.replayIds k (sparseGet s.replayIds k 0 + 1) 0 } c)
    else s

/-- PRIME (R116): command n of queue q starts. -/
def execPrime (q : Fin 240) (n : Nat) (s : State) : Res := s.whenServing (s.canvasStart q.val n 0x01 State.primeBody)

/-! ### STREAM (R105 to R114, R117, R128) -/

/-- Reserved fields and encodings of a STREAM descriptor (R7, R108, R111, R128, R133). -/
def State.streamOk (s : State) (c : Cmd) : Bool :=
  let d := c.die
  let m := s.packing d c.canvas
  let ring := bitOf c.flags 3
  let wb := signedOf (c.at 40 2) 16
  let clear := bitOf c.flags 1 || ring
  c.at 56 8 == 0 && c.at 42 2 == 0 && c.at 36 2 == 0 && c.at 13 3 == 0 && decide (c.at 12 1 < 64) && c.at 11 1 == 0 &&
    decide (c.flags < 16) && decide (c.at 9 1 < packProblems m) && decide (c.at 8 1 < 16) &&
    (!clear || (decide (-32640 ≤ wb) && decide (wb ≤ 32640))) &&
    (if ring then decide (c.at 38 2 < s.entriesOf d c.canvas) else decide (c.at 38 2 + c.at 32 4 ≤ s.entriesOf d c.canvas))

/-- Add one weight row to the entries of one entry number: the products of every column (R105, R109). -/
def addRow (cells : List (List Num)) (ws : List Num) (acc : List AccEntry) : List AccEntry :=
  (cells.zip ws).foldl (fun acc p =>
    match p.2 with
    | .fin v =>
      if v.mant = 0 then
        -- a zero weight makes NaN of an infinite cell and zero of the rest
        if p.1.any (fun a => match a with | .fin _ => false | _ => true)
        then (acc.zip p.1).map (fun x => x.1.add (product x.2 p.2)) else acc
      else (acc.zip p.1).map (fun x => x.1.add (product x.2 p.2))
    | _ => (acc.zip p.1).map (fun x => x.1.add (product x.2 p.2))) acc

/-- Values of the cells of a bank: a row of zero codes is a row of zeros. -/
def State.bankNums (s : State) (d c p b sz : Nat) (wide : Bool) : List (List Num) :=
  (List.range sz).map (fun k =>
    match s.bankRow d c p b k with
    | [] => List.replicate sz Num.zero
    | r => r.map (cellNum wide))

/-- The weights of row j of a STREAM: codes after widening under the weight-row scale (R90, R106). -/
def State.weights (s : State) (c : Cmd) (t : TD) (sz j : Nat) (wide : Bool) : List Num :=
  let dst := if wide then fLog16 else fLog8
  (List.range sz).map (fun k =>
    let code := (convert t.fmt dst 0 Cvt.nearest (s.windowCode c t (bitOf c.flags 2) (c.at 44 4) (c.at 28 4 + k) (c.at 24 4 + j))).code
    cellNum wide (code, s.scaleOf c.die (c.at 12 1) (c.at 28 4 + k)))

/-- One STREAM row: into which entry, starting its tile or not. -/
def State.streamRow (s : State) (c : Cmd) (t : TD) (cells : List (List Num)) (j e : Nat) (clear : Bool) : State :=
  let d := c.die
  let sz := cells.length
  let row := s.accRow d c.canvas c.prob e sz
  let wb := signedOf (c.at 40 2) 16
  let row := if clear then List.replicate sz ⟨0, wb, 0, false, 0⟩ else row
  let row := row.map (fun x => { x with streams := x.streams + 1 })
  s.setAccRow d c.canvas c.prob e (addRow cells (s.weights c t sz j (s.wide d c.canvas)) row)

/-- Global bytes of weight rows j0 to j0 + n − 1. -/
def streamBytesOf (c : Cmd) (t : TD) (sz j0 n : Nat) : List Nat :=
  t.windowBytes (bitOf c.flags 2) (c.at 44 4) (grid (c.at 28 4) sz (c.at 24 4 + j0) n)

/-- A tile opens over these entries (R138). -/
def ProbInt.openTile (x : ProbInt) (es : List Nat) (start : Nat) : ProbInt :=
  let tiles := (x.tiles.map (fun t => { t with left := t.left.filter (fun e => !(es.contains e)) })).filter (fun t => !t.left.isEmpty)
  { x with tiles := tiles ++ [{ left := es, start := start }], failed := x.failed.filter (fun e => !(es.contains e)) }

/-- These entries have been read by a DRAIN with CLEAR. -/
def ProbInt.closeEntries (x : ProbInt) (es : List Nat) : ProbInt :=
  { x with
    tiles := (x.tiles.map (fun t => { t with left := t.left.filter (fun e => !(es.contains e)) })).filter (fun t => !t.left.isEmpty),
    failed := x.failed.filter (fun e => !(es.contains e)) }

/-- Rows entered at the left edge of the physical canvas. -/
def State.countRows (s : State) (c : Cmd) (n : Nat) : State :=
  s.countWrap (R.CANV_ROWS c.die (s.physCanvas c.die c.canvas)) F.CANV_ROWS_ROWS n

/-- The swap of a STREAM and its problem's timing. -/
def State.streamBegin (s : State) (c : Cmd) (reads : Nat) : State :=
  let d := c.die
  let cv := c.canvas
  let p := c.prob
  let ac := s.acDur d 1
  let s := s.updProb d cv p (fun x => { x with nextRead := s.now + reads * ac })
  if bitOf c.flags 0 then
    ((if s.sharedCanvas d cv then s else s.swapBanks d cv p)).updProb d cv p
      (fun x => { x with active := x.shadow, shadow := x.active, marker := s.now + 4 * ac })
  else s

/-- A STREAM without RING: all its rows (R113). -/
def State.streamPlain (s : State) (c : Cmd) (t : TD) : State :=
  let d := c.die
  let cv := c.canvas
  let m := s.packing d cv
  let wide := s.wide d cv
  let sz := packSize m wide
  let rows := c.at 32 4
  let e0 := c.at 38 2
  let clear := bitOf c.flags 1
  -- R121: sixteen-way LOG8 weights take two ac a row, through freezes
  let frz := if m = 2 ∧ t.fmt = fLog8 then rows - 1 else 0
  let s := s.streamBegin c (rows + frz)
  let (s, bad) := s.readKeys c.who (dedupNat (s.ownKeys (streamBytesOf c t sz 0 rows)))
  let cells := s.bankNums d cv c.prob 0 sz wide
  let s := (List.range rows).foldl (fun s j => s.streamRow c t cells j (e0 + j) clear) s
  let s := if clear then s.updProb d cv c.prob (fun x => x.openTile ((List.range rows).map (fun j => e0 + j)) x.active) else s
  let s := (s.countRows c rows).count (R.CANV_FRZ d (s.physCanvas d cv)) F.CANV_FRZ_FEED frz
  s.finish c (if bad then stData else stDone) rows frz (s.now + s.acDur d (rows + 2 * packSpan m + 4 + frz))

/-- The largest count of STREAMs added to an entry (R111). -/
def maxStreams : Nat := 16777216

/-- Some entry of a STREAM without CLEAR has taken all the STREAMs it may (R111). -/
def State.streamsFull (s : State) (c : Cmd) : Bool :=
  let sz := packSize (s.packing c.die c.canvas) (s.wide c.die c.canvas)
  !(bitOf c.flags 1) && !(bitOf c.flags 3) &&
    s.accs.any (fun r => decide (entryKey c.die c.canvas c.prob (c.at 38 2) ≤ r.1) &&
      decide (r.1 < entryKey c.die c.canvas c.prob (c.at 38 2 + c.at 32 4)) &&
      (r.2.take sz).any (fun x => decide (maxStreams ≤ x.streams)))

/-! ### DRAIN (R123 to R128) -/

/-- The fields of a DRAIN descriptor that a drain acts under. -/
structure DrainDesc where
  rb : Nat
  outer : Nat
  cols : Nat
  orgN : Nat
  orgJ : Nat
  dst : Nat
  bind : Nat
  skm : Nat
  oset : Nat
  cset : Nat
  cvt : Nat
  flags : Nat

def DrainDesc.of (b : List Byte) : DrainDesc :=
  { rb := leField b 48 8, outer := leField b 40 4, cols := leField b 36 2, orgN := leField b 28 4, orgJ := leField b 24 4,
    dst := leField b 16 8, bind := leField b 15 1, skm := leField b 14 1, oset := leField b 13 1, cset := leField b 12 1,
    cvt := leField b 11 1, flags := leField b 10 1 }

/-- Reserved fields and encodings of a DRAIN descriptor (R7). -/
def drainFieldsOk (b : List Byte) : Bool :=
  let f := DrainDesc.of b
  leField b 56 8 == 0 && leField b 44 4 == 0 && decide (f.bind < 64) && decide (f.skm < 4) && decide (f.oset < 64) &&
    decide (f.cset < 64) && cvtOk f.cvt && decide (f.flags < 16) && leField b 0 1 == 3

/-- The dimension that indexes OSET. -/
def DrainDesc.och (f : DrainDesc) : Nat :=
  let tr := bitOf f.flags 1
  if bitOf f.flags 3 then secondDim tr else firstDim tr

/-- Checks of a drain's destination and scales (R91, R92, R102, R124, R125, R279, R280). -/
def State.drainCheck (s : State) (c : Cmd) (f : DrainDesc) (t : TD) : Option Nat :=
  let tr := bitOf f.flags 1
  let oc := t.ext1 f.och
  let nc := t.ext1 (secondDim tr)
  if !t.ok || t.plane || !(roleOk f.oset oc) || !(roleOk f.cset nc) || !(rolesApart f.oset oc f.cset nc) ||
     (f.skm != 0 && (f.oset == noSet || !(fmtIsLog t.fmt))) || (t.fmt == fAcc64 && f.oset != noSet) ||
     (f.cvt % 4 == 1 && !(s.bindOk c.die f.bind c.unitId)) then some stDescriptor
  else if !(s.offered t.fmt) then some stFormat
  else if t.count ≠ 0 ∧ s.boundOk t = false then some stAddress
  else if !t.apart then some stOverlap
  else none

/-- The value of an entry times 2^x (R111, R123). -/
def AccEntry.num (e : AccEntry) (x : Int) : Num :=
  if e.tag = 1 then .inf false else if e.tag = 2 then .inf true else if e.tag = 3 then .nan
  else
    let v := e.read.1
    .fin ⟨decide (v < 0), v.natAbs, e.w + x⟩

/-- The zero of a format (NF_ZERO). -/
def fmtZero : Nat := 0

/-- A code that is NaN or infinity. -/
def nonfinite (f code : Nat) : Bool :=
  match numOf f code with
  | .fin _ => false
  | _ => true

/-- What a drain leaves: its writes, its counts, the tally of R98. -/
structure DrainRes where
  ws : List BitWrite
  nf : Nat
  counted : Bool
  tally : Tally

/-- One element to drain: destination coordinates, entry, its output column and OSET channel. -/
structure DrainEl where
  at_ : List Nat
  ent : AccEntry
  col : Nat
  ch : Nat

/-- The elements that a drain of these entries writes: entry number, row offset from ORG_J. -/
def State.drainEls (s : State) (c : Cmd) (f : DrainDesc) (t : TD) (es : List (Nat × Nat)) : List DrainEl :=
  let d := c.die
  let tr := bitOf f.flags 1
  let sz := packSize (s.packing d c.canvas) (s.wide d c.canvas)
  es.flatMap (fun e =>
    let row := s.accRow d c.canvas c.prob e.1 sz
    (List.range f.cols).filterMap (fun n =>
      (t.window tr f.outer (f.orgJ + e.2) (f.orgN + n)).map (fun i =>
        { at_ := i, ent := row.getD n AccEntry.empty, col := f.orgN + n,
          ch := if bitOf f.flags 3 then f.orgN + n else f.orgJ + e.2 })))

/-- The sketch of a drain (R125): the largest V × 2^(W + x_c) of each channel. -/
def State.drainSketch (s : State) (c : Cmd) (f : DrainDesc) (t : TD) (els : List DrainEl) : State :=
  let d := c.die
  let maxes := els.foldl (fun (m : Sparse Dy) x =>
    sparsePut m x.ch (magMax (sparseGet m x.ch ⟨false, 0, 0⟩) (x.ent.num (s.scaleOf d f.cset x.col)))) []
  s.sketch d f.oset t.fmt ((List.range (t.ext1 f.och)).map (fun ch => sparseGet maxes ch ⟨false, 0, 0⟩))

/-- Convert one drained element (R123, R124). -/
def State.drainCode (s : State) (d : Nat) (f : DrainDesc) (t : TD) (x : DrainEl) (r : Nat) : CvRes :=
  let xc := s.scaleOf d f.cset x.col
  if t.fmt = fAcc64 then { code := accCode x.ent.read.1 (x.ent.w + xc) x.ent.tag x.ent.read.2 }
  else toFmt t.fmt 0 (Cvt.ofByte f.cvt r) ((x.ent.num xc).scale (-(s.scaleOf d f.oset x.ch)))

/-- Count and place one converted element (R127). -/
def State.drainPut (s : State) (c : Cmd) (f : DrainDesc) (t : TD) (x : DrainEl) (r : CvRes) (a : DrainRes) : State × DrainRes :=
  let d := c.die
  let rc := R.CANV_DRCNT d c.canvas
  let nf := nonfinite t.fmt r.code
  let sat := x.ent.read.2
  let s := if nf then s.count rc F.CANV_DRCNT_NONFINITE 1 else s
  let s := if sat then s.count rc F.CANV_DRCNT_ACC_SAT 1 else s
  let s := if r.ovf then s.count rc F.CANV_DRCNT_OVERFLOW 1 else s
  let s := if r.unf then s.count rc F.CANV_DRCNT_UNDERFLOW 1 else s
  let s := if r.inv then s.count rc F.CANV_DRCNT_INVALID 1 else s
  let (s, tally) := s.countInto a.tally d f.oset x.ch t.fmt r
  let code := if nf && bitOf f.flags 2 then fmtZero else r.code
  (s, { ws := a.ws ++ t.writes x.at_ code, nf := a.nf + b2n nf,
        counted := a.counted || nf || sat || r.ovf || r.unf || r.inv || palCounted f.oset x.ch t.fmt r, tally := tally })

/-- Drain these entries of a command's problem under a DRAIN descriptor: counts, scales and clears; the writes and counts
are handed back (R123 to R127). -/
def State.drainRows (s : State) (c : Cmd) (f : DrainDesc) (t : TD) (es : List (Nat × Nat)) (clear : Bool) (tally : Tally) :
    State × DrainRes :=
  let d := c.die
  let els := s.drainEls c f t es
  let sk := f.skm == 1 || f.skm == 2 || (f.skm == 3 && s.anyStale d f.oset (t.ext1 f.och))
  let s := if sk then s.drainSketch c f t els else s
  let zero : DrainRes := ⟨[], 0, false, tally⟩
  let (s, a) :=
    if f.skm = 2 then (s, zero)
    else
      let rs := if f.cvt % 4 = 1 then s.bindAt d f.bind (els.map (fun x => f.rb + linear t.exts x.at_)) else els.map (fun _ => 0)
      (els.zip rs).foldl (fun (p : State × DrainRes) x =>
        p.1.drainPut c f t x.1 (p.1.drainCode d f t x.1 x.2) p.2) (s, zero)
  let sz := packSize (s.packing d c.canvas) (s.wide d c.canvas)
  let s := if clear then
      es.foldl (fun s e => s.setAccRow d c.canvas c.prob e.1
        (((s.accRow d c.canvas c.prob e.1 sz).zipIdx).map (fun x =>
          if x.2 < f.cols then { AccEntry.empty with w := x.1.w } else x.1))) s
    else s
  -- R346: the veto of a drain of an epoch
  let s := if c.epoch ≠ 0 ∧ a.nf ≠ 0 ∧ s.fld R.TRN_CFG F.TRN_CFG_NF_VETO = 1 ∧
      ¬(bitOf f.flags 2 = true ∧ s.fld R.TRN_CFG F.TRN_CFG_NFZ_EXEMPT = 1) then
      (s.vetoEvent c.epoch vetoNonfinite).count R.TRN_NF (F.TRN_NF_DIE d) 1
    else s
  (s, a)

/-- The work of a DRAIN once it starts. -/
def State.drainBody (s : State) (c : Cmd) : State :=
  let d := c.die
  let m := s.packing d c.canvas
  let sz := packSize m (s.wide d c.canvas)
  let f := DrainDesc.of c.desc
  let fieldsOk := drainFieldsOk c.desc && decide (c.at 9 1 < packProblems m) && decide (c.at 8 1 < 16) && decide (f.cols ≤ sz)
  if c.at 32 4 = 0 ∨ f.cols = 0 then s.fail c (if fieldsOk then stDone else stDescriptor)
  else
    match s.readTd c f.dst with
    | (.error st, s) => s.fail c st
    | (.ok t, s) =>
      let e0 := c.at 38 2
      let rows := c.at 32 4
      if !fieldsOk || decide (s.entriesOf d c.canvas < e0 + rows) then s.fail c stDescriptor
      else
        match s.drainCheck c f t with
        | some st => s.fail c st
        | none =>
          let (s, wait) := s.gather c (s.sharedBytes t)
          if wait then s else
          let es := (List.range rows).map (fun e => (e0 + e, e))
          let lost := (List.range rows).any (fun e => (s.prob d c.canvas c.prob).failed.contains (e0 + e))
          let clear := bitOf f.flags 0
          let (s, a) := s.drainRows c f t es clear []
          let s := if clear then s.updProb d c.canvas c.prob (fun x => x.closeEntries (es.map Prod.fst)) else s
          let s := s.updCmd c.queue c.seq (fun x => { x with palDie := d, tally := a.tally })
          let per := max 1 ((f.cols * fmtBits t.fmt + 2047) / 2048)
          s.finishWrites c a.ws (if lost then stData else doneStatus a.counted) a.nf 0 (s.now + s.acDur d (rows * per))

/-- DRAIN (R123): command n of queue q starts. -/
def execDrain (q : Fin 240) (n : Nat) (s : State) : Res := s.whenServing (s.canvasStart q.val n 0x03 State.drainBody)

/-! ### RING STREAM (R128) -/

/-- Stream row j of a RING STREAM into its entry; it is final 2P + 5 ac after its read. -/
def State.ringRow (s : State) (c : Cmd) (t : TD) (g : RingInt) (when_ : Nat) : State × RingInt :=
  let d := c.die
  let cv := c.canvas
  let m := s.packing d cv
  let wide := s.wide d cv
  let sz := packSize m wide
  let j := g.streamed
  let e0 := c.at 38 2
  let e := e0 + j % (s.entriesOf d cv - e0)
  let (s, bad) := s.readKeys c.who (dedupNat (s.ownKeys (streamBytesOf c t sz j 1)))
  let s := (s.streamRow c t (s.bankNums d cv c.prob 0 sz wide) j e true).countRows c 1
  (s, { g with streamed := j + 1, waiting := g.waiting ++ [(j, when_ + s.acDur d (2 * packSpan m + 5))], bad := g.bad || bad })

/-- Stream the rows of a RING STREAM that find free entries; `k` bounds how many. -/
def State.ringRows (s : State) (c : Cmd) (t : TD) (g : RingInt) (t0 : Nat) : Nat → State × RingInt
  | 0 => (s, g)
  | k + 1 =>
    let (s, g) := s.ringRow c t g t0
    s.ringRows c t g (t0 + s.acDur c.die 1) k

/-- The start of a RING STREAM. -/
def State.streamRing (s : State) (c : Cmd) (t : TD) : State :=
  let d := c.die
  match s.readDesc c (c.at 48 8) 1 64 with
  | (.error st, s) => s.fail c st
  | (.ok b, s) =>
    let f := DrainDesc.of b
    match s.readTd c f.dst with
    | (.error st, s) => s.fail c st
    | (.ok u, s) =>
      let sz := packSize (s.packing d c.canvas) (s.wide d c.canvas)
      if !(drainFieldsOk b) || decide (sz < f.cols) then s.fail c stDescriptor
      else
        match s.drainCheck c f u with
        | some st => s.fail c st
        | none =>
          let s := s.streamBegin c (c.at 32 4)
          let g : RingInt := { queue := c.queue, seq := c.seq, drain := b, streamed := 0, drained := 0, waiting := [],
                               nonfinite := 0, counted := false, bad := false }
          let (s, g) := s.ringRows c t g s.now (min (c.at 32 4) (s.entriesOf d c.canvas - c.at 38 2))
          { s with rings := s.rings ++ [g] }

/-- The work of a STREAM once it starts. -/
def State.streamBody (s : State) (c : Cmd) : State :=
  let wide := s.wide c.die c.canvas
  if c.at 32 4 = 0 then s.fail c (if s.streamOk c then stDone else stDescriptor)
  else
    match s.readTd c (c.at 16 8) with
    | (.error st, s) => s.fail c st
    | (.ok t, s) =>
      if !(s.streamOk c) || !(roleOk (c.at 12 1) (t.ext1 (firstDim (bitOf c.flags 2)))) || s.streamsFull c then
        s.fail c stDescriptor
      else
        match s.canvasTensor t (if wide then [fLog4, fLog8, fLog16] else [fLog4, fLog8]) with
        | some st => s.fail c st
        | none =>
          let (s, wait) := if t.count = 0 then (s, false) else s.gather c [t.range]
          if wait then s else if bitOf c.flags 3 then s.streamRing c t else s.streamPlain c t

/-- STREAM (R113): command n of queue q starts, at its first read. -/
def execStream (q : Fin 240) (n : Nat) (s : State) : Res := s.whenServing (s.canvasStart q.val n 0x02 State.streamBody)

/-- Replace a ring. -/
def State.putRing (s : State) (g : RingInt) : State :=
  { s with rings := s.rings.map (fun x => if x.queue = g.queue ∧ x.seq = g.seq then g else x) }

def State.dropRing (s : State) (q n : Nat) : State := { s with rings := s.rings.filter (fun x => !(x.queue == q && x.seq == n)) }

/-- One final row of a ring is drained and cleared; the next row that waited for its entry streams; after the last the
STREAM finishes (R128, R134). -/
def State.ringDrain (s : State) (c : Cmd) (g : RingInt) (j : Nat) : State :=
  let d := c.die
  let e0 := c.at 38 2
  let e := e0 + j % (s.entriesOf d c.canvas - e0)
  let f := DrainDesc.of g.drain
  match s.peekTd c f.dst, s.peekTd c (c.at 16 8) with
  | some u, some t =>
    let (s, a) := s.drainRows c f u [(e, j)] true (((s.findCmd c.queue c.seq).map Cmd.tally).getD [])
    let (s, bad) := s.writeBits a.ws
    let (s, k) := s.sendWrites c a.ws
    let s := s.updCmd c.queue c.seq (fun x => { x with palDie := d, tally := a.tally, open_ := x.open_ + k })
    let g := { g with drained := g.drained + 1, waiting := g.waiting.drop 1, nonfinite := g.nonfinite + a.nf,
                      counted := g.counted || a.counted, bad := g.bad || bad }
    let (s, g) := if g.streamed < c.at 32 4 then s.ringRow c t g s.now else (s, g)
    if g.drained = c.at 32 4 then
      (s.dropRing c.queue c.seq).finish c (if g.bad then stData else doneStatus g.counted) (c.at 32 4)
        (((s.findCmd c.queue c.seq).map Cmd.res1).getD 0) s.now
    else s.putRing g
  | _, _ => s.fail c stAddress

/-- RING_ENTRY_DRAIN (R128): the oldest undrained row of a RING STREAM has become final. -/
def execRingEntryDrain (q : Fin 240) (n : Nat) (s : State) : Res :=
  s.whenServing (
    match s.findCmd q.val n, s.rings.find? (fun x => x.queue == q.val && x.seq == n) with
    | some c, some g =>
      match g.waiting with
      | (j, when_) :: _ => if when_ ≤ s.now then s.ringDrain c g j else s
      | [] => s
    | _, _ => s)

/-! ### PACK (R120, R122) -/

/-- Set packing and width of a logical canvas and clear it. -/
def State.packCanvas (s : State) (d c mode : Nat) : State :=
  ((s.setFld (R.CANV_MODE d) (F.CANV_MODE_PACKING c) (mode % 4)).setFld (R.CANV_MODE d) (F.CANV_MODE_WIDTH c) (mode / 4)).clearCanvas d c

/-- The work of a PACK once it starts. -/
def State.packBody (s : State) (c : Cmd) : State :=
  let d := c.die
  let m := c.at 9 1
  if c.at 10 54 ≠ 0 ∨ 16 ≤ c.at 8 1 ∨ 8 ≤ m ∨ m % 4 = 3 ∨ m = 6 then s.fail c stDescriptor
  else if m / 4 = 1 ∧ s.offered fLog16 = false then s.fail c stFormat
  else
    let s := s.packCanvas d c.canvas m
    let s := if s.sharedCanvas d c.canvas then s.packCanvas d (c.canvas ^^^ 1) m else s
    s.finish c stDone 0 0 (s.now + s.acDur d 4096)

/-- PACK (R122): command n of queue q starts. -/
def execPack (q : Fin 240) (n : Nat) (s : State) : Res := s.whenServing (s.canvasStart q.val n 0x04 State.packBody)

/-! ### Gate events -/

/-- Post slot `slot` of gate g with a tag (R129). -/
def State.gatePost (s : State) (d g slot tag : Nat) : State :=
  let x := s.gate d g
  if x.posts.any (fun p => p.1 == slot) then s.count (R.CANV_GATE_DUP d) (F.CANV_GATE_DUP_DUP g) 1
  else (s.setGate d g { x with posts := x.posts ++ [(slot, tag)] }).tryClose d g

/-- GATE_POST (R129): a write to CANV_GATE_POST of die d. -/
def execGatePost (d : Fin 4) (g : Fin 4) (slot : Fin 256) (tag : BitVec 32) (s : State) : Res :=
  s.whenMain (if s.blockUp (.canv d) then s.gatePost d.val g.val slot.val tag.toNat else s)

/-- GATE_CLOSE (R130, R131): the PRIME at the head of gate g closes it, where it may. -/
def execGateClose (d : Fin 4) (g : Fin 4) (s : State) : Res :=
  s.whenServing (if s.dieUp d.val then s.tryClose d.val g.val else s)

/-! ### Retirement (R136 to R140) -/

/-- Why a physical canvas retires: record INFO0 bit (R136). -/
def retireParity : Nat := 0
def retireEcc : Nat := 1
def retireResidue : Nat := 2
def retireSoftware : Nat := 3

/-- A lost canvas's pending commands end with ERROR_DATA (R140). -/
def State.loseCanvas (s : State) (d c : Nat) : State :=
  let s := s.setBit (R.CANV_STAT d) F.CANV_STAT_LOST c true
  let mine := s.cmds.filter (fun x => x.engine == 16 * d + c)
  let s := mine.foldl (fun s x => (s.dropRing x.queue x.seq).fail x stData) s
  (List.range 4).foldl (fun s g =>
    let x := s.gate d g
    s.setGate d g { x with waits := x.waits.filter (fun w => !(mine.any (fun y => y.is w.queue w.seq))) }) s

/-- Tiles of a problem whose replay fails: the log overflowed, or an entry of C/2 or above (R138). -/
def failedTiles (x : ProbInt) (id half : Nat) : List OpenTile × List OpenTile :=
  (x.tiles.filter (fun t => decide (64 < id - t.start)), x.tiles.filter (fun t => t.left.any (fun e => decide (half ≤ e))))

/-- Replay of the guest's log on the host (R138): the results stand as an undisturbed canvas would have produced them
(R112), save the tiles whose replay fails. -/
def State.replay (s : State) (d guest host : Nat) : State :=
  let m := s.packing d guest
  let id := sparseGet s.replayIds (16 * d + guest) 0
  let half := packEntries m / 2
  let fails := (List.range (packProblems m)).map (fun p => failedTiles (s.prob d guest p) id half)
  let lowBad := fails.any (fun f => !f.1.isEmpty)
  let high := fails.any (fun f => !f.2.isEmpty)
  if lowBad || high then
    let s := (List.range (packProblems m)).foldl (fun s p =>
      let f := failedTiles (s.prob d guest p) id half
      s.updProb d guest p (fun x => { x with failed := (f.1 ++ f.2).flatMap OpenTile.left ++ x.failed })) s
    (s.count (R.CANV_HEALTH d) F.CANV_HEALTH_REPLAY_FAIL 1).errRecord
      { cls := clsDeferred, code := 0x0203, unit := d * 0x30 + host, status := stData, info0 := b2n lowBad + 2 * b2n high, info1 := guest }
  else s.count (R.CANV_HEALTH d) F.CANV_HEALTH_REPLAYS 1

/-- Physical canvas c of die d retires (R136, R137, R140). -/
def State.retire (s : State) (d c why : Nat) : State :=
  if s.bit (R.CANV_RETIRED d) F.CANV_RETIRED_RETIRED c then s
  else
    let s := s.setBit (R.CANV_RETIRED d) F.CANV_RETIRED_RETIRED c true
    let p := c ^^^ 1
    let gone := s.bit (R.CANV_RETIRED d) F.CANV_RETIRED_RETIRED p
    let s := if gone then s
      else
        let s := s.setFld (R.CANV_MAP d) (F.CANV_MAP_PHYS c) p
        (s.setBit (R.CANV_STAT d) F.CANV_STAT_SHARED c true).setBit (R.CANV_STAT d) F.CANV_STAT_SHARED p true
    let s := s.errRecord { cls := clsFatal, code := 0x0202, unit := d * 0x30 + c, info0 := 2 ^ why,
                           info1 := (s.reg (R.CANV_MAP d)).toNat }
    if gone then ((s.loseCanvas d c).loseCanvas d p).faultHandover else s.replay d c p

/-- CANVAS_RETIREMENT (R136): a self-check of physical canvas c of die d detects: 0 parity, 1 an uncorrectable entry, 2 a
residue mismatch; 3 is a single-bit entry error, which is corrected and counted and retires nothing. -/
def execCanvasRetirement (d : Fin 4) (c : Fin 16) (kind : Fin 4) (s : State) : Res :=
  s.whenMain (
    if s.dieUp d.val then
      if kind = 3 then s.count (R.CANV_HEALTH d.val) F.CANV_HEALTH_CORRECTED 1
      else
        let s := if kind = 0 then s.count (R.CANV_HEALTH d.val) F.CANV_HEALTH_PARITY 1
          else if kind = 2 then s.count (R.CANV_HEALTH d.val) F.CANV_HEALTH_RESIDUE 1 else s
        s.retire d.val c.val kind.val
    else s)

/-- A write of ones to CANV_RETIRED (R136). -/
def State.retireWrite (s : State) (d mask : Nat) : State :=
  (List.range 16).foldl (fun s c => if bitOf mask c then s.retire d c retireSoftware else s) s

/-- CANVAS_RETIRE_WRITE (R136): a write of ones to CANV_RETIRED of die d. -/
def execCanvasRetireWrite (d : Fin 4) (mask : BitVec 16) (s : State) : Res :=
  s.whenMain (if s.blockUp (.canv d) then s.retireWrite d.val mask.toNat else s)

/-! ### Freezes (R115) -/

/-- One freeze cycle of a die's canvases: every event due later comes one ac later; the cause's counter advances. -/
def State.freezeCanvas (s : State) (d phys : Nat) (f : Field) : State :=
  let ac := s.acDur d 1
  let hit := fun (c : Cmd) => decide (c.engine < 64) && c.die == d && s.physCanvas d c.canvas == phys && c.phase != .accepted &&
    (c.phase != .finished || decide (s.now < c.due))
  let t : State := { s with
    cmds := s.cmds.map (fun c => if hit c then
      { c with due := if c.phase = .finished then c.due + ac else c.due, res1 := if c.code = 2 then c.res1 + 1 else c.res1 } else c),
    probs := s.probs.map (fun p =>
      if p.1 / 256 = d ∧ s.physCanvas d ((p.1 / 16) % 16) = phys then
        (p.1, { p.2 with nextRead := if s.now < p.2.nextRead then p.2.nextRead + ac else p.2.nextRead,
                         marker := if s.now < p.2.marker then p.2.marker + ac else p.2.marker })
      else p) }
  t.count (R.CANV_FRZ d phys) f 1

/-! ### Debug window (R141) -/

/-- The accumulator window is open. -/
def State.ddbgOpen (s : State) : Bool := bitOf (s.fld R.SEC_DEBUG F.SEC_DEBUG_SCOPE) 0

/-- The entry that DDBG_SEL names. -/
def State.ddbgEntry (s : State) (d : Nat) : AccEntry :=
  let g := fun f => s.fld (R.DDBG_SEL d) f
  let c := g F.DDBG_SEL_CANVAS
  (s.accRow d c (g F.DDBG_SEL_PROB) (g F.DDBG_SEL_ENTRY) (packSize (s.packing d c) (s.wide d c))).getD (g F.DDBG_SEL_COL) AccEntry.empty

/-- Read DDBG_ACC_V: the value, with DDBG_ACC_X filled and the canvas frozen for a cycle (R141). -/
def State.ddbgRead (s : State) (d : Nat) : Nat × State :=
  if !s.ddbgOpen then (0, s)
  else
    let e := s.ddbgEntry d
    let x := wrapInt (e.v / 2 ^ 64) 32 * 2 ^ 32 + wrapInt e.w 16 * 2 ^ 16 + 4 * b2n e.read.2 + e.tag
    let s := s.setReg (R.DDBG_ACC_X d) (BitVec.ofNat 64 x)
    (wrapInt e.read.1 64,
     s.freezeCanvas d (s.physCanvas d (s.fld (R.DDBG_SEL d) F.DDBG_SEL_CANVAS)) F.CANV_FRZ_OTHER)

/-- DDBG_ACC_V_READ (R141): a read of DDBG_ACC_V of die d. -/
def execDdbgAccVRead (d : Fin 4) (s : State) : Res :=
  s.whenMain (
    if s.blockUp (.ddbg d) then
      let (v, t) := s.ddbgRead d.val
      t.emit { kind := .value, nums := [R.DDBG_ACC_V d.val, v], bytes := [] }
    else s)

/-- DDBG_STN: the selected cell's register from the bank that KIND names; zero while locked or for KIND 0. The layout of a
LOG16 tail is stated nowhere: a free value (R141, log 6). -/
def State.ddbgStn (s : State) (d : Nat) : Nat × State :=
  let g := fun f => s.fld (R.DDBG_SEL d) f
  let c := g F.DDBG_SEL_CANVAS
  let kind := g F.DDBG_SEL_KIND
  if !s.ddbgOpen || kind == 0 then (0, s)
  else
    let wide := s.wide d c
    let cell := (s.bankRow d c (g F.DDBG_SEL_PROB) (kind - 1) (g F.DDBG_SEL_ROW)).getD (g F.DDBG_SEL_COL) (0, 0)
    let w := if wide then 15 else 7
    let m := cell.1 % 2 ^ w
    let sg := 2 ^ 15 * b2n (bitOf cell.1 w)
    if m = 0 then (if bitOf cell.1 w then (sg + 3 * 2 ^ 13 + 2 ^ 12, s) else (0, s))
    else if m = 2 ^ w - 1 then (sg + 3 * 2 ^ 13, s)
    else if wide then
      (if m < 256 then
        let (v, s) := s.draw
        (sg + 2 ^ 13 + (v.toNat % 2 ^ 24) * 2 ^ 24, s)
       else (sg + 2 * 2 ^ 13 + wrapInt ((m : Int) - 16384 + 256 * cell.2) 24 * 2 ^ 24, s))
    else if m < 8 then (sg + 2 ^ 13 + wrapInt cell.2 8 * 16 + m, s)
    else (sg + 2 * 2 ^ 13 + wrapInt ((m : Int) - 72 + 8 * cell.2) 12, s)

/-! ### Resets (R142, R437) -/

/-- Forget what the canvases of a die hold: entries, banks, gates, rings. -/
def State.clearDieCanvases (s : State) (d : Nat) : State :=
  let s := (List.range 16).foldl (fun s c => s.clearCanvas d c) s
  let mine := s.cmds.filter (fun c => decide (c.engine < 64) && c.die == d)
  { s with gates := s.gates.filter (fun p => p.1 / 4 != d),
           rings := s.rings.filter (fun g => !(mine.any (fun c => c.is g.queue g.seq))) }

end Sys2Proof.Machine
end

