-- ==== Sys2Proof/Machine/Operands.lean ====
section
/-!
DEFINITION. The operand forms of the two instruction words the module fetches: the 64-bit command word of an easel (R199,
R202 to R212) and the 128-bit instruction of a sliver program (R170 to R173), with the fields each opcode uses.
-/

namespace Sys2Proof.Machine

open Sys2Proof

/-! ### Easel command words (R199) -/

/-- A field of a command word. -/
def cwOp (w : Nat) : Nat := bitsOf w 56 8
def cwPn (w : Nat) : Bool := bitOf w 55
def cwPs (w : Nat) : Nat := bitsOf w 52 3
def cwRd (w : Nat) : Nat := bitsOf w 47 5
def cwRa (w : Nat) : Nat := bitsOf w 42 5
def cwRb (w : Nat) : Nat := bitsOf w 37 5
def cwI (w : Nat) : Bool := bitOf w 36
def cwX (w : Nat) : Nat := bitsOf w 32 4
def cwImm (w : Nat) : Nat := bitsOf w 0 32

/-- IMM as a signed number. -/
def cwSimm (w : Nat) : Int := signedOf w 32

/-- Every opcode of the table. -/
def cwKnown (op : Nat) : Bool :=
  [0x00, 0x01, 0x10, 0x11, 0x12, 0x13, 0x14, 0x15, 0x16, 0x17, 0x18, 0x19, 0x1A, 0x1C, 0x1D, 0x20, 0x21, 0x28, 0x29, 0x30,
   0x31, 0x32, 0x33, 0x34, 0x35, 0x36, 0x37, 0x38, 0x39, 0x3A, 0x40].contains op

/-- Which of RD, RA, RB, I, X, IMM an opcode uses. RB and IMM of the arithmetic depend on I. -/
structure CwUse where
  rd : Bool
  ra : Bool
  rb : Bool
  i : Bool
  x : Bool
  imm : Bool

def cwUse (w : Nat) : CwUse :=
  let op := cwOp w
  let im := cwI w
  if 0x10 ≤ op ∧ op ≤ 0x18 then ⟨true, true, !im, true, false, im⟩
  else match op with
  | 0x19 => ⟨true, false, false, false, false, true⟩
  | 0x1A => ⟨true, false, false, false, false, true⟩
  | 0x1C => ⟨true, true, !im, true, true, im⟩
  | 0x1D => ⟨true, true, true, false, true, false⟩
  | 0x20 => ⟨true, true, false, false, true, true⟩
  | 0x21 => ⟨false, true, true, false, true, true⟩
  | 0x28 => ⟨false, false, false, false, false, true⟩
  | 0x29 => ⟨false, true, false, false, false, false⟩
  | 0x30 => ⟨false, true, true, false, true, true⟩
  | 0x31 => ⟨false, true, false, false, false, true⟩
  | 0x32 => ⟨false, true, true, false, false, true⟩
  | 0x33 => ⟨true, true, false, false, true, false⟩
  | 0x34 => ⟨true, true, false, false, false, false⟩
  | 0x35 => ⟨true, true, false, false, true, false⟩
  | 0x36 => ⟨false, true, false, false, false, false⟩
  | 0x37 => ⟨false, false, false, false, true, false⟩
  | 0x38 => ⟨true, false, false, false, true, false⟩
  | 0x39 => ⟨false, true, false, false, false, false⟩
  | 0x3A => ⟨true, true, false, false, false, true⟩
  | 0x40 => ⟨false, true, true, false, false, true⟩
  | _ => ⟨false, false, false, false, false, false⟩

/-- The fields an opcode does not use are zero. -/
def cwUnusedZero (w : Nat) : Bool :=
  let u := cwUse w
  (u.rd || cwRd w == 0) && (u.ra || cwRa w == 0) && (u.rb || cwRb w == 0) && (u.i || !(cwI w)) && (u.x || cwX w == 0) &&
    (u.imm || cwImm w == 0)

/-- The encodings of the used fields are no reserved ones (R202, R203, R205, R207 to R210, R212). -/
def cwFieldsOk (w : Nat) : Bool :=
  let x := cwX w
  let im := cwImm w
  match cwOp w with
  | 0x1C => decide (x ≤ 9) && decide (cwRd w < 8)
  | 0x1D => decide (x ≤ 3) && decide (cwRd w < 8) && decide (cwRa w < 8) && decide (cwRb w < 8)
  | 0x20 => decide (x ≤ 6)
  | 0x21 => decide (x ≤ 3)
  | 0x30 => decide (x ≤ 1) && decide (im < 65536)
  | 0x31 => decide (im < 65536)
  | 0x32 => decide (im < 65536)
  | 0x33 => decide (x ≤ 1)
  | 0x35 => decide (x ≤ 1)
  | 0x37 => decide (1 ≤ x) && decide (x ≤ 3)
  | 0x38 => decide (x ≤ 6)
  | 0x3A => decide (bitsOf im 10 22 = 0) && decide (bitsOf im 6 2 = 0)
  | 0x40 =>
    let a := bitsOf im 0 3
    let b := bitsOf im 3 3
    decide (bitsOf im 6 26 = 0) &&
      (if cwRa w = 0 then a == 0 else a != 0) && (if cwRb w = 0 then b == 0 else b != 0) &&
      !(cwRa w != 0 && cwRb w != 0 && a == b)
  | _ => true

/-- The word breaks no encoding rule of R199. -/
def cwOk (w : Nat) : Bool := cwKnown (cwOp w) && cwUnusedZero w && cwFieldsOk w

/-- Words an instruction counts against MAXW (R204). -/
def cwCost (w : Nat) : Nat := if cwOp w = 0x40 then 9 else 1

/-! ### Sliver instructions (R170) -/

def slOp (w : Nat) : Nat := bitsOf w 120 8
def slDfmt (w : Nat) : Nat := bitsOf w 112 8
def slSfmt (w : Nat) : Nat := bitsOf w 104 8
def slCvt (w : Nat) : Nat := bitsOf w 96 8
def slRnd (w : Nat) : Nat := bitsOf w 96 2
def slMmode (w : Nat) : Nat := bitsOf w 94 2
def slSb (w : Nat) : Bool := bitOf w 92
def slSa (w : Nat) : Bool := bitOf w 91
def slSd (w : Nat) : Bool := bitOf w 90
def slNoskip (w : Nat) : Bool := bitOf w 89
def slPred (w : Nat) : Bool := bitOf w 88
def slRd (w : Nat) : Nat := bitsOf w 72 16
def slRa (w : Nat) : Nat := bitsOf w 56 16
def slRb (w : Nat) : Nat := bitsOf w 40 16
/-- Layout I. -/
def slRop (w : Nat) : Nat := bitsOf w 28 3
def slCond (w : Nat) : Nat := bitsOf w 24 3
def slScope (w : Nat) : Nat := bitsOf w 23 1
/-- IMMB, for the opcodes that have it. -/
def slImmb (w : Nat) : Bool :=
  bitOf w 22 && [0x10, 0x11, 0x12, 0x13, 0x14, 0x18, 0x19, 0x1A, 0x1B, 0x1E].contains (slOp w)
def slShift (w : Nat) : Nat := bitsOf w 16 6
def slCin (w : Nat) : Bool := bitOf w 15
def slWb (w : Nat) : Nat := bitsOf w 8 7
def slUns (w : Nat) : Bool := bitOf w 7
def slW (w : Nat) : Nat := bitsOf w 0 7
/-- Layout F. -/
def slChm (w : Nat) : Bool := bitOf w 38
def slSmode (w : Nat) : Nat := bitsOf w 36 2
def slPset (w : Nat) : Nat := bitsOf w 30 6
def slBind (w : Nat) : Nat := bitsOf w 24 6
def slRoff (w : Nat) : Int := signedOf w 24

/-- Opcodes of the sliver table that use the common layout. -/
def slKnown (op : Nat) : Bool :=
  [0x00, 0x01, 0x08, 0x09, 0x0A, 0x0B, 0x10, 0x11, 0x12, 0x13, 0x14, 0x15, 0x18, 0x19, 0x1A, 0x1B, 0x1C, 0x1D, 0x1E, 0x1F,
   0x20, 0x21, 0x30, 0x31, 0x32, 0x33, 0x40, 0x41, 0x42, 0x43, 0x44, 0x45, 0x46, 0x47, 0x50, 0x51, 0x52, 0x60].contains op

/-- binary32, bfloat16, binary16. -/
def isFloat3 (f : Nat) : Bool := f == fFp32 || f == fBf16 || f == fFp16

/-- LOG8, LOG16. -/
def isLog2 (f : Nat) : Bool := f == fLog8 || f == fLog16

/-- Formats an opcode accepts (R171). -/
def slFmtOk (w : Nat) : Bool :=
  let op := slOp w
  let d := slDfmt w
  let f := slSfmt w
  if op = 0x1F then f == 0 && (d == 0 || (fmtKnown d && d != fAcc64))
  else if 0x30 ≤ op ∧ op ≤ 0x33 then d == f && isLog2 f
  else if 0x40 ≤ op ∧ op ≤ 0x46 then d == f && isFloat3 f
  else if op = 0x47 then d == 0 && isFloat3 f
  else if op = 0x50 then fmtKnown d && fmtKnown f && !(d == fFp32 && f == fFp32)
  else if op = 0x51 then d == fAcc64 && f == fAcc64
  else if op = 0x60 then
    d == f && (match slRop w with
      | 0 => f == 0
      | 1 => f == 0 || isFloat3 f || isLog2 f
      | 2 => f == 0 || isFloat3 f || isLog2 f
      | 3 => isFloat3 f
      | 4 => isLog2 f
      | 5 => f == fAcc64
      | _ => false)
  else d == 0 && f == 0

/-- The opcode names rows in RD, RA, RB (as rows, before IMMB and CHM). -/
def slUsesD (op : Nat) : Bool :=
  op == 0x0B || op == 0x10 || op == 0x11 || (decide (0x13 ≤ op) && decide (op ≤ 0x46)) || op == 0x50 || op == 0x51 || op == 0x60
def slUsesA (op : Nat) : Bool :=
  op == 0x0A || (decide (0x10 ≤ op) && decide (op ≤ 0x51) && op != 0x1F) || op == 0x60
def slUsesB (op : Nat) : Bool :=
  (decide (0x10 ≤ op) && decide (op ≤ 0x1B)) || op == 0x1E ||
    (decide (0x30 ≤ op) && decide (op ≤ 0x43)) || op == 0x45 || op == 0x46 || op == 0x47 || op == 0x51

/-- RB holds rows: operand B unless IMMB, or the channel plane of a CVT. -/
def slRowB (w : Nat) : Bool := (slUsesB (slOp w) && !(slImmb w)) || (slOp w == 0x50 && slChm w)

/-- RB holds a constant that the opcode uses. -/
def slValB (w : Nat) : Bool :=
  let op := slOp w
  slImmb w || op == 0x1F || op == 0x52 ||
    (op == 0x50 && ((slSmode w != 0 && !(slChm w)) || slDfmt w == fAcc64))

/-- The opcode takes an integer width in W. -/
def slIntW (w : Nat) : Bool :=
  let op := slOp w
  (decide (0x10 ≤ op) && decide (op ≤ 0x1E)) || (op == 0x1F && slDfmt w == 0) || op == 0x20 || op == 0x21 ||
    (op == 0x60 && slSfmt w == 0)

/-- The opcode rounds: its CVT byte is used. -/
def slRounds (w : Nat) : Bool :=
  let op := slOp w
  op == 0x30 || op == 0x31 || (decide (0x40 ≤ op) && decide (op ≤ 0x44)) || op == 0x50 ||
    (op == 0x60 && (slRop w == 3 || slRop w == 4))

/-- The instruction draws random bytes (R185). -/
def slDraws (w : Nat) : Bool := slOp w == 0x52 || (slRounds w && slOp w != 0x60 && slRnd w == 1)

/-- The bits of layout I or F that an opcode uses. -/
def slAuxMask (w : Nat) : Nat :=
  let op := slOp w
  let wu := if slIntW w then 0xFF else 0
  if (0x10 ≤ op ∧ op ≤ 0x21) ∨ op = 0x47 ∨ op = 0x60 then
    wu + (if op = 0x15 then 0x7F00 else 0) + (if op = 0x10 ∨ op = 0x11 then 0x8000 else 0) +
      (if op = 0x20 ∨ op = 0x21 then 0x3F0000 else 0) +
      (if slImmb w then 0x400000 else 0) +
      (if op = 0x12 ∨ op = 0x47 then 0x7000000 else 0) + (if op = 0x60 then 0x70800000 else 0)
  else (if slDraws w then 0x3FFFFFFF else 0) + (if op = 0x50 then 0x7FC0000000 else 0)

/-- The CVT scale fields of R182 and R183. -/
def slScaleOk (w : Nat) : Bool :=
  let sm := slSmode w
  if sm = 3 then false
  else if sm = 0 ∨ slDfmt w = fAcc64 then sm == 0 && !(slChm w) && slPset w == noSet
  else decide (slPset w < 48) && (slChm w || decide (slPset w + slRb w / 256 < 48))

/-- Levels of a REDUCE. -/
def slLevels (w : Nat) : Nat := if slScope w = 0 then 10 else 6

/-- The encoding of a common-layout instruction breaks no rule of R171. `inRep`: it stands in a REP span. -/
def slEncOk (w : Nat) (inRep : Bool) : Bool :=
  let op := slOp w
  slKnown op && !(bitOf w 93) && slFmtOk w &&
    !(slPred w && (op == 0x00 || op == 0x01 || op == 0x1E || op == 0x08)) &&
    (if slRounds w then decide (slCvt w < 8) && decide (slRnd w < 3) && !(op == 0x60 && slRnd w != 0) else slCvt w == 0) &&
    (if op = 0x12 ∨ op = 0x47 ∨ op = 0x0A ∨ op = 0x52 then slMmode w != 3 else slMmode w == 0) &&
    (bitsOf w 0 40 &&& slAuxMask w) == bitsOf w 0 40 &&
    (!(slIntW w) || (decide (1 ≤ slW w) && decide (slW w ≤ 64))) &&
    (op != 0x15 || (decide (1 ≤ slWb w) && decide (slWb w ≤ 64))) &&
    (!(op == 0x12 || op == 0x47) || decide (slCond w ≤ 5)) &&
    !(op == 0x60 && slRop w == 0 && decide (64 < slW w + slLevels w)) &&
    (op != 0x50 || slScaleOk w) && (op != 0x52 || decide (slRb w < 256)) &&
    (slUsesD op || slRd w == 0) && (slUsesA op || op == 0x1F || slRa w == 0) && (slRowB w || slValB w || slRb w == 0) &&
    (!(slSd w) || (inRep && slUsesD op)) && (!(slSa w) || (inRep && slUsesA op)) && (!(slSb w) || (inRep && slRowB w))

/-- The layouts of REP and SETRB (R185, R190). -/
def slRepOk (w : Nat) : Bool := bitsOf w 88 32 == 0 && bitsOf w 24 24 == 0 && bitsOf w 48 8 != 0
def slSetrbOk (w : Nat) : Bool := bitsOf w 66 54 == 0 && decide (bitsOf w 64 2 < 2)

/-! ### Operand rows (R147, R172) -/

/-- First row and number of rows of an operand. -/
structure RowSpan where
  first : Nat
  n : Nat
  deriving DecidableEq, Repr

/-- Plane widths of D, A, B. -/
def slWidths (w : Nat) : Nat × Nat × Nat :=
  let op := slOp w
  let n := slW w
  if op = 0x15 then (n + slWb w, n, slWb w)
  else if op = 0x1F then ((if slDfmt w = 0 then n else planeWidth (slDfmt w)), 0, 0)
  else if op = 0x0A then (0, 1, 0)
  else if op = 0x0B then (1, 0, 0)
  else if op = 0x52 then (0, 0, 0)
  else if op = 0x60 then
    let a := if slSfmt w = 0 then n else planeWidth (slSfmt w)
    ((if slRop w = 0 then n + slLevels w else a), a, 0)
  else if op = 0x47 then (0, planeWidth (slSfmt w), planeWidth (slSfmt w))
  else if op = 0x50 then (planeWidth (slDfmt w), planeWidth (slSfmt w), 16)
  else if 0x30 ≤ op then (planeWidth (slDfmt w), planeWidth (slDfmt w), planeWidth (slDfmt w))
  else (n, n, n)

/-- The rows of D, A and B in iteration `it` of a REP with this BSTRIDE (R190). -/
def slRows (w it bstride : Nat) : Option RowSpan × Option RowSpan × Option RowSpan :=
  let (wd, wa, wb) := slWidths w
  let row := fun (use : Bool) (first n : Nat) (adv : Bool) =>
    if use then some (RowSpan.mk (first + (if adv then it * bstride * n else 0)) n) else none
  (row (slUsesD (slOp w)) (slRd w) wd (slSd w), row (slUsesA (slOp w)) (slRa w) wa (slSa w), row (slRowB w) (slRb w) wb (slSb w))

/-- Opcodes whose destination may coincide with a source (R154). -/
def slMayCoincide (op : Nat) : Bool :=
  [0x10, 0x11, 0x18, 0x19, 0x1A, 0x1B, 0x1C, 0x1D, 0x1E, 0x20, 0x21].contains op

/-- Two row spans share a row. -/
def RowSpan.meets (a b : RowSpan) : Bool := decide (a.first < b.first + b.n) && decide (b.first < a.first + a.n)

/-- The destination overlaps a source in a way R154 forbids. -/
def slOverlap (op : Nat) (d : Option RowSpan) (src : List RowSpan) : Bool :=
  match d with
  | none => false
  | some x => src.any (fun y => x.meets y && !(x == y && slMayCoincide op))

end Sys2Proof.Machine
end

