-- ==== Sys2Proof/Machine/Flags.lean ====
section
/-!
DEFINITION. Conditions, predicates and latches: the comparisons of SETP and PLOG (R202), the integer lane arithmetic with its
carry latch and the mask latch of a sliver core (R149, R175 to R179).
-/

namespace Sys2Proof.Machine

open Sys2Proof

/-! ### Easel predicates (R202) -/

/-- COND of SETP on two 64-bit words. -/
def setpCond (x a b : Nat) : Bool :=
  let sa := signedOf a 64
  let sb := signedOf b 64
  match x with
  | 0 => a == b
  | 1 => a != b
  | 2 => decide (sa < sb)
  | 3 => decide (sa ≤ sb)
  | 4 => decide (sb < sa)
  | 5 => decide (sb ≤ sa)
  | 6 => decide (a < b)
  | 7 => decide (a ≤ b)
  | 8 => decide (b < a)
  | _ => decide (b ≤ a)

/-- PLOG's operation: AND, OR, XOR, ANDN. -/
def plogOp (x : Nat) (a b : Bool) : Bool :=
  match x with
  | 0 => a && b
  | 1 => a || b
  | 2 => a != b
  | _ => a && !b

/-! ### Lane latches (R149, R175) -/

/-- The new mask of a lane under MMODE. -/
def maskMode (mm : Nat) (old t : Bool) : Bool := if mm = 0 then t else if mm = 1 then old && t else old || t

/-- What an instruction reads of one lane: operands A and B, the channel, the random byte, the latches. -/
structure LaneIn where
  a : Nat
  b : Nat
  ch : Nat
  r : Nat
  carry : Bool
  mask : Bool

/-- What it gives the lane: the destination's code with the events it raised, new latches where it writes them, a palette
count (channel and conversion), and the bits of its skippable steps that the lane needs (R158). -/
structure LaneOut where
  res : CvRes := { code := 0 }
  carry : Option Bool := none
  mask : Option Bool := none
  pal : Option (Nat × CvRes) := none
  need : Nat := 0

/-- Operand B of an integer opcode: the rows, or the constant RB extended to W bits as UNS selects. -/
def intB (w : Nat) (x : LaneIn) : Nat :=
  if slImmb w then (if slUns w then slRb w % 2 ^ slW w else wrapInt (signedOf (slRb w) 16) (slW w)) else x.b

/-- A + B + c and the carry out of bit n − 1. -/
def addCarry (n a b : Nat) (c : Bool) : Nat × Bool :=
  let t := a + b + b2n c
  (t % 2 ^ n, decide (2 ^ n ≤ t))

/-- A + NOT B + c and the carry out: 1 means no borrow. -/
def subCarry (n a b : Nat) (c : Bool) : Nat × Bool := addCarry n a (2 ^ n - 1 - b % 2 ^ n) c

/-- An integer of n bits as UNS reads it. -/
def intVal (uns : Bool) (n v : Nat) : Int := if uns then ((v % 2 ^ n : Nat) : Int) else signedOf v n

/-- COND of CMP and FCMP, from the order of two values. -/
def condOf (c : Nat) (lt eq : Bool) : Bool :=
  match c with
  | 0 => eq
  | 1 => !eq
  | 2 => lt
  | 3 => lt || eq
  | 4 => !lt && !eq
  | _ => !lt

/-- ADD (R176). -/
def laneAdd (w : Nat) (x : LaneIn) : LaneOut :=
  let (v, c) := addCarry (slW w) x.a (intB w x) (slCin w && x.carry)
  { res := { code := v }, carry := some c }

/-- SUB (R176). -/
def laneSub (w : Nat) (x : LaneIn) : LaneOut :=
  let (v, c) := subCarry (slW w) x.a (intB w x) (!(slCin w) || x.carry)
  { res := { code := v }, carry := some c }

/-- CMP (R177): the carry latch as SUB sets it without CIN, and the mask under MMODE. -/
def laneCmp (w : Nat) (x : LaneIn) : LaneOut :=
  let b := intB w x
  let va := intVal (slUns w) (slW w) x.a
  let vb := intVal (slUns w) (slW w) b
  { carry := some (subCarry (slW w) x.a b true).2,
    mask := some (maskMode (slMmode w) x.mask (condOf (slCond w) (decide (va < vb)) (decide (va = vb)))) }

/-- MAX (R177): A on equal values. -/
def laneMax (w : Nat) (x : LaneIn) : LaneOut :=
  let b := intB w x
  { res := { code := if intVal (slUns w) (slW w) x.a < intVal (slUns w) (slW w) b then b else x.a } }

/-- MIN (R177). -/
def laneMin (w : Nat) (x : LaneIn) : LaneOut :=
  let b := intB w x
  { res := { code := if intVal (slUns w) (slW w) b < intVal (slUns w) (slW w) x.a then b else x.a } }

/-- MUL (R178): the exact product in W + WB bits. Operand B is serial: its bits are the steps. -/
def laneMul (w : Nat) (x : LaneIn) : LaneOut :=
  { res := { code := wrapInt (intVal (slUns w) (slW w) x.a * intVal (slUns w) (slWb w) x.b) (slW w + slWb w) }, need := x.b }

/-- AND, OR, XOR, ANDN, NOT, MOV (R179). -/
def laneAnd (w : Nat) (x : LaneIn) : LaneOut := { res := { code := x.a &&& intB w x } }
def laneOr (w : Nat) (x : LaneIn) : LaneOut := { res := { code := x.a ||| intB w x } }
def laneXor (w : Nat) (x : LaneIn) : LaneOut := { res := { code := x.a ^^^ intB w x } }
def laneAndn (w : Nat) (x : LaneIn) : LaneOut := { res := { code := x.a &&& (2 ^ slW w - 1 - intB w x % 2 ^ slW w) } }
def laneNot (w : Nat) (x : LaneIn) : LaneOut := { res := { code := 2 ^ slW w - 1 - x.a } }
def laneMov (_ : Nat) (x : LaneIn) : LaneOut := { res := { code := x.a } }

/-- SEL (R179): A where the mask is 1, else B. -/
def laneSel (w : Nat) (x : LaneIn) : LaneOut := { res := { code := if x.mask then x.a else intB w x } }

/-- The constant that CONST writes (R179). -/
def slConstVal (w : Nat) : Nat :=
  let imm := slRa w * 65536 + slRb w
  let f := slDfmt w
  if f = 0 then (if slUns w then imm % 2 ^ slW w else wrapInt (signedOf imm 32) (slW w))
  else if f = fInt64 then wrapInt (signedOf imm 32) 64
  else imm % 2 ^ planeWidth f

/-- CONST (R179). -/
def laneConst (w : Nat) (_ : LaneIn) : LaneOut := { res := { code := slConstVal w } }

/-- SHL (R179): a SHIFT of W or more gives fill. -/
def laneShl (w : Nat) (x : LaneIn) : LaneOut := { res := { code := (x.a <<< slShift w) % 2 ^ slW w } }

/-- SHR (R179). -/
def laneShr (w : Nat) (x : LaneIn) : LaneOut :=
  { res := { code := wrapInt (intVal (slUns w) (slW w) x.a / 2 ^ slShift w) (slW w) } }

/-- MNOT, MLD and RMASK write the mask latch (R175, R187). -/
def laneMnot (_ : Nat) (x : LaneIn) : LaneOut := { mask := some (!x.mask) }
def laneMld (w : Nat) (x : LaneIn) : LaneOut := { mask := some (maskMode (slMmode w) x.mask (x.a == 1)) }
def laneRmask (w : Nat) (x : LaneIn) : LaneOut := { mask := some (maskMode (slMmode w) x.mask (decide (x.r < slRb w % 256))) }

/-- MSET sets the mask; MST stores it. -/
def laneMset (_ : Nat) (_ : LaneIn) : LaneOut := { mask := some true }
def laneMst (_ : Nat) (x : LaneIn) : LaneOut := { res := { code := b2n x.mask } }

end Sys2Proof.Machine
end

