-- ==== Sys2Proof/Machine/Arith.lean ====
section
/-!
DEFINITION. Log and floating arithmetic of a sliver lane (R160 to R164, R180 to R184) and the combining steps of REDUCE
(R188): exact values, rounded once.
-/

namespace Sys2Proof.Machine

open Sys2Proof

/-- The control of an instruction's CVT byte with a lane's random byte. -/
def slControl (w r : Nat) : Cvt := Cvt.ofByte (slCvt w) r

/-- The NaN code of a format. -/
def nanCode (f : Nat) : Nat :=
  if f = fLog8 then 0x80 else if f = fLog16 then 0x8000
  else if f = fFp32 then ffFp32.nan else if f = fBf16 then ffBf16.nan else ffFp16.nan

/-- NaN from operands: INVALID where neither operand is NaN. -/
def nanOut (f : Nat) (inv : Bool) : CvRes := { code := nanCode f, inv := inv }

def Num.isNan : Num → Bool
  | .nan => true
  | _ => false

/-- Sign of a value. -/
def Num.neg : Num → Bool
  | .nan => false
  | .inf n => n
  | .fin v => v.neg

/-- The exact sum of two finite values; a zero sum is positive unless both are negative zeros. -/
def dyAdd (x y : Dy) : Dy :=
  let e := min x.exp y.exp
  let val := fun (v : Dy) => (if v.neg then -1 else 1) * ((v.mant * 2 ^ (v.exp - e).toNat : Nat) : Int)
  let t := val x + val y
  ⟨if t = 0 then x.neg && y.neg && x.mant == 0 && y.mant == 0 else decide (t < 0), t.natAbs, e⟩

/-- The exact product. -/
def dyMul (x y : Dy) : Dy := ⟨x.neg != y.neg, x.mant * y.mant, x.exp + y.exp⟩

/-- The quotient with a last bit that tells whether it is inexact: every rounding boundary of a format lies on a coarser
grid. -/
def dyDiv (x y : Dy) : Dy :=
  let n := x.mant * 2 ^ 320
  let q := n / y.mant
  ⟨x.neg != y.neg, 2 * q + b2n (n % y.mant != 0), x.exp - y.exp - 321⟩

/-- Integer square root by bits: the largest r with r^2 ≤ n, looking at `k` bits. -/
def isqrtFrom : Nat → Nat → Nat → Nat
  | 0, _, r => r
  | k + 1, n, r => let t := r + 2 ^ k; isqrtFrom k n (if t * t ≤ n then t else r)

def isqrt (n : Nat) : Nat := isqrtFrom (Nat.log2 n / 2 + 1) n 0

/-- The square root of a positive value with such a last bit. -/
def dySqrt (x : Dy) : Dy :=
  let odd := decide (x.exp % 2 = 1)
  let m := (if odd then 2 * x.mant else x.mant) * 2 ^ 400
  let e := if odd then x.exp - 1 else x.exp
  let q := isqrt m
  ⟨false, 2 * q + b2n (q * q != m), e / 2 - 201⟩

/-- A comparison of two values that are not NaN: less, equal. Zeros of both signs are equal. -/
def numOrder : Num → Num → Bool × Bool
  | .inf a, .inf b => (a && !b, a == b)
  | .inf a, _ => (a, false)
  | _, .inf b => (!b, false)
  | .fin x, .fin y =>
    let d := dyAdd x { y with neg := !y.neg }
    (d.neg && d.mant != 0, d.mant == 0)
  | _, _ => (false, false)

/-! ### Floating (R162, R181) -/

/-- A + B. -/
def fAdd (f : Nat) (c : Cvt) (a b : Nat) : CvRes :=
  match numOf f a, numOf f b with
  | .nan, _ => nanOut f false
  | _, .nan => nanOut f false
  | .inf x, .inf y => if x = y then { code := a } else nanOut f true
  | .inf _, _ => { code := a }
  | _, .inf _ => { code := b }
  | .fin x, .fin y => toFmt f 0 c (.fin (dyAdd x y))

/-- The code with its sign changed. -/
def fNeg (f b : Nat) : Nat := b ^^^ 2 ^ (fmtBits f - 1)

/-- A × B. -/
def fMul (f : Nat) (c : Cvt) (a b : Nat) : CvRes :=
  match numOf f a, numOf f b with
  | .nan, _ => nanOut f false
  | _, .nan => nanOut f false
  | .fin x, .fin y => toFmt f 0 c (.fin (dyMul x y))
  | x, y =>
    let zero := fun (v : Num) => match v with | .fin d => d.mant == 0 | _ => false
    if zero x || zero y then nanOut f true else toFmt f 0 c (.inf (x.neg != y.neg))

/-- A / B. -/
def fDiv (f : Nat) (c : Cvt) (a b : Nat) : CvRes :=
  match numOf f a, numOf f b with
  | .nan, _ => nanOut f false
  | _, .nan => nanOut f false
  | .inf _, .inf _ => nanOut f true
  | .inf x, y => toFmt f 0 c (.inf (x != y.neg))
  | x, .inf y => toFmt f 0 c (.fin ⟨x.neg != y, 0, 0⟩)
  | .fin x, .fin y =>
    if y.mant = 0 then (if x.mant = 0 then nanOut f true else toFmt f 0 c (.inf (x.neg != y.neg)))
    else if x.mant = 0 then toFmt f 0 c (.fin ⟨x.neg != y.neg, 0, 0⟩)
    else toFmt f 0 c (.fin (dyDiv x y))

/-- The square root of A. -/
def fSqrt (f : Nat) (c : Cvt) (a : Nat) : CvRes :=
  match numOf f a with
  | .nan => nanOut f false
  | .inf n => if n then nanOut f true else { code := a }
  | .fin x =>
    if x.mant = 0 then { code := a }
    else if x.neg then nanOut f true
    else toFmt f 0 c (.fin (dySqrt x))

/-- FMAX (R181): −0 lies below +0; NaN gives the canonical NaN. -/
def fMax (f a b : Nat) : Nat :=
  let x := numOf f a
  let y := numOf f b
  if x.isNan || y.isNan then nanCode f
  else
    let (lt, eq) := numOrder x y
    if lt || (eq && x.neg && !y.neg) then b else a

/-- FMIN (R181). -/
def fMin (f a b : Nat) : Nat :=
  let x := numOf f a
  let y := numOf f b
  if x.isNan || y.isNan then nanCode f
  else
    let (lt, eq) := numOrder x y
    if (!lt && !eq) || (eq && y.neg && !x.neg) then b else a

/-- FCMP's condition (R181): an unordered pair satisfies NE alone. -/
def fCond (f c a b : Nat) : Bool :=
  let x := numOf f a
  let y := numOf f b
  if x.isNan || y.isNan then c == 1
  else
    let (lt, eq) := numOrder x y
    condOf c lt eq

/-- The bits of operand B's significand, hidden bit included: the serial steps of FMUL (R158). -/
def fSerial (f b : Nat) : Nat :=
  let (e, m) := if f = fFp32 then (8, 23) else if f = fBf16 then (8, 7) else (5, 10)
  bitsOf b 0 m + (if bitsOf b m e = 0 then 0 else 2 ^ m)

/-! ### Log domain (R160, R161, R180) -/

def logFmtOf (f : Nat) : LogFmt := if f = fLog8 then lf8 else lf16

/-- An exact value to a log format. -/
def toLogF (f : Nat) (c : Cvt) (x : Num) : CvRes := if f = fLog8 then toLog8 c x else toLog16 c x

/-- LMUL (R160). -/
def lMul (f : Nat) (c : Cvt) (a b : Nat) : CvRes :=
  let l := logFmtOf f
  let ma := a % 2 ^ l.bits
  let mb := b % 2 ^ l.bits
  let neg := bitOf a l.bits != bitOf b l.bits
  let x := numOf f a
  let y := numOf f b
  let inf := fun (v : Num) => match v with | .inf _ => true | _ => false
  if x.isNan || y.isNan then nanOut f false
  else if (inf x && mb == 0) || (inf y && ma == 0) then nanOut f true
  else if inf x || inf y then toLogF f c (.inf neg)
  else if ma = 0 ∨ mb = 0 then { code := 0 }
  else if l.low ≤ ma ∧ l.low ≤ mb then
    let e : Int := (ma : Int) + mb - 2 * l.off
    if l.off + e < l.low then
      toLogF f c (.fin (if f = fLog8 then lin8e neg e else lin16e neg e))
    else l.put c neg e
  else
    match x, y with
    | .fin u, .fin v => toLogF f c (.fin (dyMul u v))
    | _, _ => { code := 0 }

/-- LADD (R161): an exact cancellation gives the positive zero code. -/
def lAdd (f : Nat) (c : Cvt) (a b : Nat) : CvRes :=
  match numOf f a, numOf f b with
  | .nan, _ => nanOut f false
  | _, .nan => nanOut f false
  | .inf x, .inf y => if x = y then { code := a } else nanOut f true
  | .inf _, _ => { code := a }
  | _, .inf _ => { code := b }
  | .fin x, .fin y => toLogF f c (.fin (dyAdd x y))

/-- LMAX and LMIN (R180): A on equal codes; the NaN code where an operand is NaN. -/
def lMax (f a b : Nat) : Nat :=
  let x := numOf f a
  let y := numOf f b
  if x.isNan || y.isNan then nanCode f else if (numOrder x y).1 then b else a

def lMin (f a b : Nat) : Nat :=
  let x := numOf f a
  let y := numOf f b
  if x.isNan || y.isNan then nanCode f else if (numOrder y x).1 then b else a

/-! ### ACC64 (R164, R110, R184) -/

/-- ACCADD of two elements: OVERFLOW where V saturates. -/
def accAdd (a b : Nat) : CvRes :=
  let tag := joinTags (bitsOf a 80 2) (bitsOf b 80 2)
  let sat := bitOf a 82 || bitOf b 82
  if tag ≠ 0 then { code := accCode 0 0 tag sat }
  else
    let wa := signedOf (bitsOf a 64 16) 16
    let wb := signedOf (bitsOf b 64 16) 16
    let w := min wa wb
    let t := signedOf a 64 * 2 ^ (wa - w).toNat + signedOf b 64 * 2 ^ (wb - w).toNat
    if 2 ^ 63 - 1 < t then { code := accCode (2 ^ 63 - 1) w 0 true, ovf := true }
    else if t < -(2 ^ 63 - 1) then { code := accCode (-(2 ^ 63 - 1)) w 0 true, ovf := true }
    else { code := accCode t w 0 sat }

/-- The operands' W differ: the lane needs the alignment stage (R158). -/
def accAligns (a b : Nat) : Bool := bitsOf a 64 16 != bitsOf b 64 16

/-! ### Lanes -/

def laneLmul (w : Nat) (x : LaneIn) : LaneOut := { res := lMul (slDfmt w) (slControl w x.r) x.a x.b }
def laneLadd (w : Nat) (x : LaneIn) : LaneOut := { res := lAdd (slDfmt w) (slControl w x.r) x.a x.b }
def laneLmax (w : Nat) (x : LaneIn) : LaneOut := { res := { code := lMax (slDfmt w) x.a x.b } }
def laneLmin (w : Nat) (x : LaneIn) : LaneOut := { res := { code := lMin (slDfmt w) x.a x.b } }
def laneFadd (w : Nat) (x : LaneIn) : LaneOut := { res := fAdd (slDfmt w) (slControl w x.r) x.a x.b }
def laneFsub (w : Nat) (x : LaneIn) : LaneOut :=
  { res := fAdd (slDfmt w) (slControl w x.r) x.a (fNeg (slDfmt w) x.b) }
def laneFmul (w : Nat) (x : LaneIn) : LaneOut :=
  { res := fMul (slDfmt w) (slControl w x.r) x.a x.b, need := fSerial (slDfmt w) x.b }
def laneFdiv (w : Nat) (x : LaneIn) : LaneOut := { res := fDiv (slDfmt w) (slControl w x.r) x.a x.b }
def laneFsqrt (w : Nat) (x : LaneIn) : LaneOut := { res := fSqrt (slDfmt w) (slControl w x.r) x.a }
def laneFmax (w : Nat) (x : LaneIn) : LaneOut := { res := { code := fMax (slDfmt w) x.a x.b } }
def laneFmin (w : Nat) (x : LaneIn) : LaneOut := { res := { code := fMin (slDfmt w) x.a x.b } }
def laneFcmp (w : Nat) (x : LaneIn) : LaneOut :=
  { mask := some (maskMode (slMmode w) x.mask (fCond (slSfmt w) (slCond w) x.a x.b)) }
def laneAccadd (_ : Nat) (x : LaneIn) : LaneOut := { res := accAdd x.a x.b, need := b2n (accAligns x.a x.b) }

/-- The W of a CVT into ACC64 (R183). -/
def slAccW (w : Nat) : Int := signedOf (slRb w) 16

/-- CVT (R182, R183): `scale` is the captured scale of a channel under PSET. -/
def laneCvt (w : Nat) (scale : Nat → Int) (x : LaneIn) : LaneOut :=
  let c := slControl w x.r
  let src := slSfmt w
  let dst := slDfmt w
  let sm := slSmode w
  if sm = 0 then { res := convertScaled src dst (slAccW w) c 0 x.a }
  else
    let ch := if slChm w then x.ch else slRb w
    let lost := decide (48 ≤ slPset w + ch / 256)
    let k : Int := if lost then 0 else if sm = 1 then -(scale ch) else scale ch
    let r := convertScaled src dst 0 c k x.a
    { res := if lost then { r with inv := true } else r,
      pal := if sm = 1 ∧ lost = false then some (ch, r) else none }

/-! ### REDUCE (R188, R189) -/

/-- One combining step of a REDUCE on two present values. -/
def redStep (w : Nat) (a b : Nat) : CvRes :=
  let f := slSfmt w
  let n := slW w
  match slRop w with
  | 0 => { code := wrapInt (intVal (slUns w) (n + slLevels w) a + intVal (slUns w) (n + slLevels w) b) (n + slLevels w) }
  | 1 => { code := if f = 0 then (if intVal (slUns w) n a < intVal (slUns w) n b then b else a)
           else if isLog2 f then lMax f a b else fMax f a b }
  | 2 => { code := if f = 0 then (if intVal (slUns w) n b < intVal (slUns w) n a then b else a)
           else if isLog2 f then lMin f a b else fMin f a b }
  | 3 => fAdd f (slControl w 0) a b
  | 4 => lAdd f (slControl w 0) a b
  | _ => accAdd a b

/-- What enters the tree: an integer to be added is widened. -/
def redLeaf (w a : Nat) : Nat :=
  if slRop w = 0 then wrapInt (intVal (slUns w) (slW w) a) (slW w + slLevels w) else a

/-- The result where nothing is present (R189). -/
def redEmpty (w : Nat) : Nat :=
  let f := slSfmt w
  let n := slW w
  match slRop w with
  | 1 => if f = 0 then (if slUns w then 0 else 2 ^ (n - 1)) else nanCode f
  | 2 => if f = 0 then (if slUns w then 2 ^ n - 1 else 2 ^ (n - 1) - 1) else nanCode f
  | 5 => accCode 0 0 0 false
  | _ => 0

/-- One level: positions two by two, the lower one as the first operand; an absent value gives way to the other. -/
def redLevel (w : Nat) : List (Option Nat) → List (Option Nat) × List CvRes
  | a :: b :: r =>
    let (vs, es) := redLevel w r
    match a, b with
    | none, _ => (b :: vs, es)
    | some _, none => (a :: vs, es)
    | some x, some y => let q := redStep w x y; (some q.code :: vs, q :: es)
  | l => (l, [])

/-- The whole tree of `n` levels: its result and the events of its steps, each raised in the position that received it. -/
def redTree (w : Nat) : Nat → List (Option Nat) → Option Nat × List CvRes
  | 0, l => ((l.head?).getD none, [])
  | n + 1, l =>
    let (vs, es) := redLevel w l
    let (v, r) := redTree w n vs
    (v, es ++ r)

end Sys2Proof.Machine
end

