-- ==== Sys2Proof/Machine/Memory.lean ====
section
/-!
DEFINITION. Events of the stacks: near-memory updates and their combining buffer (R266 to R270), the patrol scrub (R264),
refresh (R251).
-/

namespace Sys2Proof.Machine

open Sys2Proof

/-- An operation and a format that pair (R266). -/
def nmaPair (op f : Nat) : Bool :=
  (op == 0 && (f == fFp32 || f == fInt32 || f == fAcc64)) || ((op == 1 || op == 2) && (f == fFp32 || f == fInt32))

/-- INT32 addition, saturated. -/
def int32Add (a b : Nat) : CvRes :=
  let t := signedOf a 32 + signedOf b 32
  if 2 ^ 31 - 1 < t then { code := 2 ^ 31 - 1, ovf := true }
  else if t < -(2 ^ 31) then { code := 2 ^ 31, ovf := true } else { code := wrapInt t 32 }

/-- v op u (R267). -/
def nmaApply (op f : Nat) (ovfInf : Bool) (v u : Nat) : CvRes :=
  if f = fAcc64 then accAdd v u
  else if f = fInt32 then
    (if op = 0 then int32Add v u
     else if op = 1 then { code := if signedOf v 32 < signedOf u 32 then u else v }
     else { code := if signedOf u 32 < signedOf v 32 then u else v })
  else if op = 0 then fAdd fFp32 ⟨0, ovfInf, 0⟩ v u
  else { code := if op = 1 then fMax fFp32 v u else fMin fFp32 v u }

/-- A sector is held in its stack's combining buffer. -/
def State.heldAt (s : State) (st u : Nat) : Bool := (sparseGet s.held st []).any (fun h => h.sector == u)

/-- Write back the held sectors of a stack that a test picks (R269). -/
def State.writeBackIn (s : State) (st : Nat) (p : HeldSector → Bool) : State :=
  let l := sparseGet s.held st []
  { s with altered := s.altered.filter (fun a => !(l.any (fun h => p h && h.sector == a.1))),
           held := sparseSet s.held st (l.filter (fun h => !(p h))) [] }

/-- A command's sectors are written back when it completes (R269). -/
def State.writeBackCmd (s : State) (q n : Nat) : State :=
  (List.range 16).foldl (fun s st => s.writeBackIn st (fun h => h.queue == q && h.seq == n)) s

/-- An update has touched a sector: it becomes the most recently used; a 65th evicts the least recently used (R269). -/
def State.hold (s : State) (st u q n : Nat) : State :=
  let l := { sector := u, queue := q, seq := n : HeldSector } :: (sparseGet s.held st []).filter (fun h => h.sector != u)
  let s := { s with held := sparseSet s.held st l [] }
  match l.drop 64 with
  | [] => s
  | out => s.writeBackIn st (fun h => out.contains h)

/-- The command of an update ends early with a status: its other updates are not sent (R261, R262, R267). -/
def State.updateFails (s : State) (u : NmaUpdate) (status : Nat) : State :=
  let s := { s with nmaUpdates := s.nmaUpdates.filter (fun x => !(x.queue == u.queue && x.seq == u.seq)) }
  match s.findCmd u.queue u.seq with
  | some c =>
    if c.phase = .finished then s
    else (s.finish c status c.res0 c.res1 s.now).updCmd u.queue u.seq (fun x => { x with open_ := 0 })
  | none => s

/-- The counts of an applied update, and the end of its command after its last one (R215, R293). -/
def State.updateDone (s : State) (st : Nat) (u : NmaUpdate) (r : CvRes) : State :=
  let s := s.countWrap (R.NMA_UPD st) F.NMA_UPD_APPLIED 1
  let s := (s.count (R.NMA_EV st) F.NMA_EV_OVERFLOW (b2n r.ovf)).count (R.NMA_EV st) F.NMA_EV_INVALID (b2n r.inv)
  match s.findCmd u.queue u.seq with
  | some c =>
    let ev := b2n r.ovf + b2n r.unf + b2n r.inv
    let status := if ev ≠ 0 ∧ c.status = stDone then stDoneCounts else c.status
    let s := s.putCmd { c with status := status, res0 := c.res0 + 1, res1 := c.res1 + ev, open_ := c.open_ - 1 }
    if c.open_ ≤ 1 then
      s.updCmd u.queue u.seq (fun x => { x with phase := .finished, due := max x.due s.now })
    else s
  | none => s

/-- Apply one update to its element, through the combining buffer unless NOCOMBINE is set (R267 to R269). -/
def State.nmaStep (s : State) (st : Nat) (u : NmaUpdate) : State :=
  let s := { s with nmaUpdates := s.nmaUpdates.erase u }
  let n := fmtBits u.fmt / 8
  let sec := codeUnit u.addr
  let who := match s.findCmd u.queue u.seq with | some c => c.who | none => { unit := 0xFF, queue := 0xFF }
  let combine := s.fld (R.NMA_CFG st) F.NMA_CFG_NOCOMBINE == 0
  let held := s.heldAt st sec
  let (s, bad) :=
    if held || s.pattern sec == 0 then (s, false)
    else if badSymbols sec (s.pattern sec) ≤ 2 then ((s.repair sec).corrected sec, false)
    else if badSymbols sec (s.pattern sec) ≤ 4 then (s.count (R.NMA_UE_CNT st) F.NMA_UE_CNT_WRITE 1, true)
    else s.readUnit who sec
  if bad then s.updateFails u stData
  else
    let ks := (List.range n).map (fun i => u.addr + i)
    let v := ofLe (ks.map s.byteAt)
    if u.fmt = fAcc64 ∧ (accOk v = false ∨ accOk u.val = false) then s.updateFails u stDescriptor
    else
      let r := nmaApply u.op u.fmt u.ovfInf v u.val
      let s := s.poke (ks.zip (leBytes r.code n))
      let s := if held then s.countWrap (R.NMA_MERGE st) F.NMA_MERGE_MERGED 1 else s
      let s := if combine then s.hold st sec u.queue u.seq else s
      s.updateDone st u r

/-- NMA_UPDATE (R267): the stack applies the update that arrived first. -/
def execNmaUpdate (st : Fin 16) (s : State) : Res :=
  s.whenServing (
    match s.nmaUpdates.find? (fun u => hbmStack u.addr == st.val) with
    | none => s
    | some u => if s.stackOn st.val then s.nmaStep st.val u else s)

/-- A write of NMA_CFG (R264, R269): a set NOCOMBINE writes back every held sector. -/
def State.nmaCfgWrite (s : State) (st : Nat) (v : Word) : State :=
  let s := s.setReg (R.NMA_CFG st) (v &&& 0x100FF)
  if s.fld (R.NMA_CFG st) F.NMA_CFG_NOCOMBINE = 1 then s.writeBackIn st (fun _ => true) else s

/-- NMA_CFG_WRITE (R264, R269). -/
def execNmaCfgWrite (st : Fin 16) (v : BitVec 64) (s : State) : Res :=
  s.alive (if s.blockUp (.nma st) then s.nmaCfgWrite st.val v else s)

/-- The scrub finds an uncorrectable sector (R264): it is counted and recorded, with no unit as the reader and no command. -/
def State.scrubBad (s : State) (st u : Nat) : State :=
  ((s.count (R.NMA_UE_CNT st) F.NMA_UE_CNT_SCRUB 1).setFld (R.NMA_UE_ADDR st) F.NMA_UE_ADDR_SECTOR (hbmOffset u / 64)).errRecord
    { cls := clsDeferred, code := 0x0302, unit := 0xF0 + st, sub := (hbmOffset u / 256) % 64, info0 := hbmOffset u,
      info1 := 0xFFFF, injected := true }

/-- The scrub reads a sector (R260, R264). -/
def State.scrubSector (s : State) (st u : Nat) : State :=
  if s.pattern u = 0 then s else (s.decodeUnit (fun s => s.scrubBad st u) u).1

/-- PATROL_SCRUB (R264): the scrub of a stack reads its next sector; the last one ends the pass. -/
def execPatrolScrub (st : Fin 16) (s : State) : Res :=
  s.whenMain (
    if s.stackUp st.val && s.fld (R.NMA_CFG st.val) F.NMA_CFG_SCRUB_HOURS != 0 then
      let i := s.fld (R.NMA_SCRUB st.val) F.NMA_SCRUB_SECTOR
      let u := hbmKey st.val (64 * i)
      let s := (s.writeBackHeld (fun x => x == u)).scrubSector st.val u
      let last := decide (i + 1 = 2 ^ 30)
      let s := (s.setFld (R.NMA_SCRUB st.val) F.NMA_SCRUB_SECTOR ((i + 1) % 2 ^ 30)).setFld (R.NMA_STAT st.val)
        F.NMA_STAT_SCRUBBING (b2n !last)
      if last then
        { s.countWrap (R.NMA_SCRUB st.val) F.NMA_SCRUB_PASSES 1 with
          ceSeen := s.ceSeen.filter (fun x => hbmStack x != st.val) }
      else s
    else s)

/-- REFRESH (R251): a hold of a pseudo-channel changes only timing. -/
def execHbmRefresh (_st : Fin 16) (_pc : Fin 64) (s : State) : Res := .next s

end Sys2Proof.Machine
end

