-- ==== Sys2Proof/Machine/Sliver.lean ====
section
/-!
DEFINITION. Sliver cores (R143 to R169) and their instructions (R170 to R193): programs on brushes, rows and lanes, costs,
faults, lending.
-/

namespace Sys2Proof.Machine

open Sys2Proof

/-! ### Rows and lanes (R143, R146, R147) -/

/-- Lanes of a core and cores of a brush. -/
def laneCount : Nat := 1024
def brushCores : Nat := 64

/-- The canonical address of the first byte of row r of core c of die d. -/
def rowKey (d c r : Nat) : Nat := sramBase d + rowOffset c r

/-- The 1,024 bits of a row, lane l at bit l. -/
def State.rowBits (s : State) (d c r : Nat) : Nat :=
  ofLe ((List.range 128).map (fun i => s.byteAt (rowKey d c r + i)))

/-- The values that the lanes of a core hold in the rows of an operand. -/
def State.laneVals (s : State) (d c : Nat) (sp : Option RowSpan) : List Nat :=
  match sp with
  | none => List.replicate laneCount 0
  | some x =>
    let rows := (List.range x.n).map (fun k => s.rowBits d c (x.first + k))
    if rows.all (· == 0) then List.replicate laneCount 0
    else (List.range laneCount).map (fun l => rows.foldr (fun r v => 2 * v + b2n (bitOf r l)) 0)

/-- The bits of a list, the first lowest. -/
def packBits : List Bool → Nat
  | [] => 0
  | b :: r => b2n b + 2 * packBits r

/-- The bytes of a core's rows that change where the active lanes take new values. -/
def State.rowWrites (s : State) (d c : Nat) (sp : Option RowSpan) (active : Nat) (vals : List Nat) : List (Nat × Byte) :=
  match sp with
  | none => []
  | some x =>
    (List.range x.n).flatMap (fun k =>
      let old := s.rowBits d c (x.first + k)
      let new := packBits (vals.map (fun v => bitOf v k))
      let bits := (old - (old &&& active)) + (new &&& active)
      if bits = old then []
      else ((List.range 128).filter (fun i => byteN bits i != byteN old i)).map
        (fun i => (rowKey d c (x.first + k) + i, byteN bits i)))

/-! ### Brushes and programs -/

def brushKey (d b : Nat) : Nat := 32 * d + b

/-- Unit ID of a brush (R20, R143). -/
def brushUnit (d b : Nat) : Nat := d * 0x30 + 0x10 + b

/-- A brush is powered and in service (R152, SLV_STAT.PRESENT). -/
def State.brushUp (s : State) (d b : Nat) : Bool := s.mainUp && s.dieOn d && s.domOn (9 * d + 4 + b / 8)

def State.brushRun (s : State) (k : Nat) : Option BrushRun := (s.brushRuns.find? (fun p => p.1 == k)).map Prod.snd

def State.setBrush (s : State) (k : Nat) (r : BrushRun) : State := { s with brushRuns := sparsePut s.brushRuns k r }

def State.delBrush (s : State) (k : Nat) : State := { s with brushRuns := sparseDel s.brushRuns k }

def State.latch (s : State) (k : Nat) : Latches := sparseGet s.latches k Latches.start

def State.setLatch (s : State) (k : Nat) (l : Latches) : State := { s with latches := sparseSet s.latches k l Latches.start }

def State.sliverRun (s : State) (q n : Nat) : Option SliverRun := s.slivers.find? (fun r => r.queue == q && r.seq == n)

def State.updSliver (s : State) (q n : Nat) (f : SliverRun → SliverRun) : State :=
  { s with slivers := s.slivers.map (fun r => if r.queue == q && r.seq == n then f r else r) }

/-- The dispatch completes when every brush of its mask has finished (R151): with the status of the lowest-numbered brush
that stopped (R153, R263), or DONE or DONE_COUNTS (R167). -/
def State.sliverDone (s : State) (q n : Nat) : State :=
  if s.brushRuns.any (fun p => p.2.queue == q && p.2.seq == n) then s
  else
    match s.sliverRun q n, s.findCmd q n with
    | some r, some c =>
      let mask := r.stopped.foldl (fun m p => m ||| 2 ^ p.1) 0
      let low := lowBit mask 32
      let v := ((r.stopped.find? (fun p => p.1 == low)).map Prod.snd).getD 0
      let s := { s with slivers := s.slivers.filter (fun x => !(x.queue == q && x.seq == n)) }
      s.finish c (if mask = 0 then doneStatus r.counted else v / 2 ^ 56) mask v (max s.now r.until_)
    | _, _ => s

/-- A brush stops with a fault or an error (R153, R191, R263): SLV_FAULT records that of the lowest-numbered one. -/
def State.brushStop (s : State) (d b : Nat) (r : BrushRun) (status row : Nat) : State :=
  let v := r.index % 2 ^ 32 + (row % 65536) * 2 ^ 32 + b * 2 ^ 48 + status * 2 ^ 56
  let first := match s.sliverRun r.queue r.seq with
    | some x => x.stopped.all (fun p => decide (b < p.1))
    | none => true
  let s := if first then s.setReg (R.SLV_FAULT d) (BitVec.ofNat 64 v) else s
  let s := s.updSliver r.queue r.seq (fun x => { x with stopped := x.stopped ++ [(b, v)] })
  (s.delBrush (brushKey d b)).sliverDone r.queue r.seq

/-- The instruction after one at `index` (R190). -/
def BrushRun.next (r : BrushRun) : BrushRun :=
  match r.rep with
  | none => { r with index := r.index + 1 }
  | some p =>
    if r.index + 1 < p.start + p.span then { r with index := r.index + 1 }
    else if p.iter < p.count then { r with index := p.start, rep := some { p with iter := p.iter + 1 } }
    else { r with index := r.index + 1, rep := none }

/-- An instruction occupies its brush for `t` ac (R157). -/
def State.brushTime (s : State) (d b : Nat) (r : BrushRun) (t : Nat) : State × BrushRun :=
  let e := max s.now r.busy + s.acDur d t
  ((s.countWrap (R.SLV_BBUSY d b) F.SLV_BBUSY_BUSY t).updSliver r.queue r.seq (fun x => { x with until_ := max x.until_ e }),
   { r with busy := e })

/-- What an instruction of a brush finds at issue. -/
structure SlCtx where
  d : Nat
  b : Nat
  run : BrushRun
  prog : SliverRun
  w : Nat
  rd : Option RowSpan
  ra : Option RowSpan
  rb : Option RowSpan

/-- The instruction is done: time passes and the brush goes on. -/
def State.brushNext (s : State) (c : SlCtx) (t : Nat) : State :=
  let (s, r) := s.brushTime c.d c.b c.run t
  s.setBrush (brushKey c.d c.b) r.next

/-- The first row that an instruction may not touch (R172, R156, R430), lowest row first. -/
def State.badRow (s : State) (c : SlCtx) : Option Nat :=
  let spans := [c.rd, c.ra, c.rb].filterMap id
  let top := if s.mode = mEarly then 8192 else 57344
  let lent := bitOf c.prog.lendMask c.b && c.prog.lendCount != 0
  let beyond := spans.filterMap (fun x => if top < x.first + x.n then some (max x.first top) else none)
  let inWin := spans.filterMap (fun x =>
    let lo := max x.first c.prog.lendBase
    if lent && decide (lo < min (x.first + x.n) (c.prog.lendBase + c.prog.lendCount)) then some lo else none)
  (beyond ++ inWin).foldl (fun (m : Option Nat) r => match m with | none => some r | some y => some (min y r)) none

/-- The state with the palette and bind table that the dispatch captured (R186). -/
def State.withCapture (s : State) (p : SliverRun) : State := { s with regs := p.capt }

/-- The status with which an instruction ends at issue (R171 to R173), and the row it names. -/
def State.slFault (s : State) (c : SlCtx) : Option (Nat × Nat) :=
  let op := slOp c.w
  let cap := s.withCapture c.prog
  if !(slEncOk c.w c.run.rep.isSome) ||
      (slDraws c.w && !(cap.bindOk c.d (slBind c.w) (brushUnit c.d c.b))) then some (stDescriptor, 0)
  else if !(s.offered (slDfmt c.w)) || !(s.offered (slSfmt c.w)) then some (stFormat, 0)
  else
    match s.badRow c with
    | some r => some (stAddress, r)
    | none =>
      if slOverlap op c.rd ([c.ra, c.rb].filterMap id) then some (stOverlap, 0) else none

/-- Issue the next instruction of a brush where it is of this opcode (R151, R153, R191): a fetch that fails, a reserved
opcode and a broken instruction stop the brush; any other runs `body`. -/
def State.brushIssue (s : State) (d b op : Nat) (check : SlCtx → State → Option (Nat × Nat)) (body : SlCtx → State → State) : State :=
  if !(s.serving && s.brushUp d b) || s.lent.contains (brushKey d b) then s
  else
    match s.brushRun (brushKey d b) with
    | none => s
    | some r =>
      match s.sliverRun r.queue r.seq with
      | none => s
      | some p =>
        let g := (p.prog + 16 * r.index) % 2 ^ 64
        if !(s.fetchable g 16 16) then s.brushStop d b r stAddress 0
        else
          let (bytes, t, e) := s.readMem { unit := brushUnit d b, queue := r.queue } (gaLocal g) 16
          let w := ofLe bytes
          if e then t.brushStop d b r stData 0
          else if !(slKnown (slOp w) || slOp w == 2 || slOp w == 3) then t.brushStop d b r stDescriptor 0
          else if slOp w ≠ op then s
          else
            let (it, bs) := match r.rep with | some x => (x.iter, x.bstride) | none => (0, 0)
            let (rd, ra, rb) := slRows w it bs
            let c : SlCtx := ⟨d, b, r, p, w, rd, ra, rb⟩
            match check c t with
            | some (st, row) => t.brushStop d b r st row
            | none => body c t

/-! ### Costs (R157, R192, R193) -/

/-- Cost of one instruction: fixed part, skippable steps and their full cost, and what follows the wait for random bytes. -/
structure SlCost where
  fixed : Nat
  steps : Nat := 0
  stepCost : Nat := 0
  post : Nat := 0

/-- A leg of a conversion to binary32 and from it. -/
def cvtTo32 (f : Nat) : Nat :=
  if f = fLog4 then 72 else if f = fLog8 then 64 else if f = fLog16 then 300 else if f = fInt8 then 40
  else if f = fInt32 then 140 else if f = fInt64 then 200 else if f = fE4M3 ∨ f = fE5M2 then 24 else if f = fBf16 then 16
  else if f = fFp16 then 40 else if f = fAcc64 then 180 else 0

def cvtFrom32 (f : Nat) : Nat :=
  if f = fLog4 then 150 else if f = fLog8 then 230 else if f = fLog16 then 420 else if f = fInt8 then 60
  else if f = fInt32 then 100 else if f = fInt64 then 160 else if f = fE4M3 ∨ f = fE5M2 then 72 else if f = fBf16 then 48
  else if f = fFp16 then 96 else if f = fAcc64 then 200 else 0

/-- By format: binary32, bfloat16, binary16. -/
def byFloat (f a b c : Nat) : Nat := if f = fFp32 then a else if f = fBf16 then b else c

/-- One combining step of a REDUCE, in full. -/
def redStepCost (w : Nat) : Nat :=
  let f := slSfmt w
  match slRop w with
  | 3 => byFloat f 312 128 168
  | 4 => if f = fLog8 then 150 else 420
  | 5 => 75 + 384
  | _ => if f = 0 then 2 * slW w + 1 else if isLog2 f then (if f = fLog8 then 17 else 33) else byFloat f 69 37 37

/-- The cost tables. -/
def slCost (w : Nat) : SlCost :=
  let n := slW w
  let f := slSfmt w
  let k : SlCost := match slOp w with
    | 0x10 | 0x11 | 0x12 => { fixed := n + 1 }
    | 0x13 | 0x14 => { fixed := 2 * n + 1 }
    | 0x15 => { fixed := 0, steps := slWb w, stepCost := n + 1 }
    | 0x18 | 0x19 | 0x1A | 0x1B | 0x1C | 0x1D | 0x1E | 0x20 | 0x21 => { fixed := n }
    | 0x1F => { fixed := (slWidths w).1 }
    | 0x30 => { fixed := if f = fLog8 then 40 else 96 }
    | 0x31 => { fixed := if f = fLog8 then 150 else 420 }
    | 0x32 | 0x33 => { fixed := if f = fLog8 then 17 else 33 }
    | 0x40 | 0x41 => { fixed := byFloat f 312 128 168 }
    | 0x42 => { fixed := byFloat f 48 30 36, steps := byFloat f 24 8 11, stepCost := byFloat f 25 9 12 }
    | 0x43 | 0x44 => { fixed := byFloat f 688 136 214 }
    | 0x45 | 0x46 => { fixed := byFloat f 69 37 37 }
    | 0x47 => { fixed := byFloat f 35 19 19 }
    | 0x50 =>
      { fixed := if f = fLog4 ∧ slDfmt w = fLog8 then 8 else if f = fLog16 ∧ slDfmt w = fLog8 then 40
                 else cvtTo32 f + cvtFrom32 (slDfmt w) }
    | 0x51 => { fixed := 75, steps := 1, stepCost := 384 }
    | 0x52 => { fixed := 0, post := 9 }
    | 0x60 =>
      let lv := slLevels w
      if slRop w = 0 then { fixed := (List.range lv).foldl (fun t i => t + 2 * (n + i) + 1) 0 + n + lv }
      else { fixed := lv * (redStepCost w + (slWidths w).2.1) + (slWidths w).2.1 }
    | _ => { fixed := 1 }
  if slDraws w && slOp w != 0x52 then { k with post := 8 } else k

/-- An instruction touches a stacked layer: 4 ac more (R157). -/
def SlCtx.stacked (c : SlCtx) : Bool := ([c.rd, c.ra, c.rb].filterMap id).any (fun x => decide (8192 < x.first + x.n))

/-- Steps that the strands of a core skip, and the cost of the costliest one, given what each lane needs (R158). -/
def strandSteps (k : SlCost) (skip : Bool) (needs : List Nat) : Nat × Nat :=
  (List.range 32).foldl (fun (p : Nat × Nat) t =>
    let need := ((needs.drop (32 * t)).take 32).foldl (fun m x => m ||| x) 0
    let n := if skip then popCount need k.steps else k.steps
    (p.1 + (k.steps - n), max p.2 (n * k.stepCost + (k.steps - n)))) (0, 0)

/-- The wait for random bytes of an uncontended unit beyond the part that runs beside it (R166). -/
def randStall (w fixed : Nat) : Nat := if slDraws w then 391 - fixed else 0

/-! ### Running an instruction on the lanes -/

/-- What the 1,024 lanes of one core give. -/
structure CoreOut where
  writes : List (Nat × Byte)
  carry : Nat
  mask : Nat
  ev : EvCount
  pals : List (Nat × CvRes)
  skipped : Nat
  cost : Nat

/-- Active lanes of core i of a brush (R150). -/
def activeBits (w : Nat) (l : Latches) (i : Nat) : Nat :=
  if slPred w then bitsOf l.mask (1024 * i) 1024 else 2 ^ 1024 - 1

/-- Run a lane function on core i of the brush. -/
def State.runCore (s : State) (c : SlCtx) (k : SlCost) (skip : Bool) (l : Latches) (rand : List Nat) (fn : LaneIn → LaneOut)
    (i : Nat) : CoreOut :=
  let core := 64 * c.b + i
  let act := activeBits c.w l i
  let as := s.laneVals c.d core c.ra
  let bs := s.laneVals c.d core c.rb
  let lanes := (List.range laneCount).zip (as.zip (bs.zip rand))
  let outs := lanes.map (fun p =>
    let on := bitOf act p.1
    let cy := bitOf l.carry (1024 * i + p.1)
    let mk := bitOf l.mask (1024 * i + p.1)
    (on, cy, mk, if on then fn { a := p.2.1, b := p.2.2.1, ch := p.2.2.1, r := p.2.2.2, carry := cy, mask := mk } else {}))
  let st := strandSteps k skip (outs.map (fun o => o.2.2.2.need))
  { writes := s.rowWrites c.d core c.rd act (outs.map (fun o => o.2.2.2.res.code)),
    carry := packBits (outs.map (fun o => o.2.2.2.carry.getD o.2.1)),
    mask := packBits (outs.map (fun o => o.2.2.2.mask.getD o.2.2.1)),
    ev := outs.foldl (fun e o => e.add o.2.2.2.res) EvCount.zero,
    pals := outs.filterMap (fun o => o.2.2.2.pal), skipped := st.1, cost := st.2 }

/-- Count a brush's events (R167). -/
def State.brushEvents (s : State) (c : SlCtx) (e : EvCount) : State :=
  let a := R.SLV_BEV c.d c.b
  let s := ((s.count a F.SLV_BEV_OVERFLOW e.ovf).count a F.SLV_BEV_UNDERFLOW e.unf).count a F.SLV_BEV_INVALID e.inv
  if e.any then s.updSliver c.run.queue c.run.seq (fun x => { x with counted := true }) else s

/-- Count palette events of a CVT (R97, R98). -/
def State.brushPals (s : State) (c : SlCtx) (pals : List (Nat × CvRes)) : State :=
  pals.foldl (fun s p =>
    if palCounted (slPset c.w) p.1 (slDfmt c.w) p.2 then
      match s.findCmd c.run.queue c.run.seq with
      | some m =>
        let (s, t) := s.countInto m.tally c.d (slPset c.w) p.1 (slDfmt c.w) p.2
        (s.updCmd c.run.queue c.run.seq (fun x => { x with tally := t })).updSliver c.run.queue c.run.seq
          (fun x => { x with counted := true })
      | none => s
    else s) s

/-- The bad words among the rows an instruction reads, and among the destination words that it writes in part: each is
treated once (R263). The lowest row that stays uncorrectable stops the brush afterwards. -/
def State.rowErrors (s : State) (c : SlCtx) (l : Latches) : State × Option Nat :=
  (s.altered.map Prod.fst).foldl (fun (p : State × Option Nat) u =>
    if isHbm u || sramDie u != c.d then p
    else
      let (core, row) := offsetToRow (sramOff u)
      if core / 64 ≠ c.b then p
      else
        let inRow := fun (x : Option RowSpan) => match x with
          | some y => decide (y.first ≤ row) && decide (row < y.first + y.n)
          | none => false
        let word := (sramOff u % 128) / 8
        let whole := bitsOf (activeBits c.w l (core % 64)) (64 * word) 64 == 2 ^ 64 - 1
        if inRow c.ra || inRow c.rb || (inRow c.rd && !whole) then
          let (s, e) := p.1.readUnit { unit := brushUnit c.d c.b, queue := c.run.queue } u
          (s, if e then some (match p.2 with | none => row | some r => min r row) else p.2)
        else if inRow c.rd then (p.1.repair u, p.2)
        else p) (s, none)

/-- The instruction has run: its writes, latches and counts take effect and its time passes; a brush that read an
uncorrectable word stops now (R263). -/
def State.brushRetire (s : State) (c : SlCtx) (bad : Option Nat) (t stall skipped : Nat) : State :=
  let s := s.countWrap (R.SLV_BSKIP c.d c.b) F.SLV_BSKIP_SKIPPED skipped
  let s := if stall = 0 then s else s.count (R.SLV_BSTALL c.d c.b) F.SLV_BSTALL_RAND stall
  match bad with
  | none => s.brushNext c t
  | some row =>
    let (s, r) := s.brushTime c.d c.b c.run t
    s.brushStop c.d c.b r stData row

/-- Skipping is on for an instruction (R158). -/
def State.skipOn (s : State) (c : SlCtx) : Bool :=
  !(slNoskip c.w) && s.fld (R.SLV_CFG c.d) F.SLV_CFG_FORCE_NOSKIP == 0

/-- The random bytes of the lanes of core i (R165, R185). -/
def State.laneRand (s : State) (c : SlCtx) (i : Nat) : List Nat :=
  if slDraws c.w then
    let step : Int := match c.run.rep with | some x => x.iter * x.rstep | none => 0
    let at_ := wrapInt ((c.run.base : Int) + slRoff c.w + step) 64
    s.bindBytes c.d (slBind c.w) (at_ + 1024 * (64 * c.b + i)) laneCount
  else List.replicate laneCount 0

/-- Run a lane function on every core of the brush. -/
def State.runLanes (s : State) (c : SlCtx) (fn : LaneIn → LaneOut) : State :=
  let key := brushKey c.d c.b
  let l := s.latch key
  let k := slCost c.w
  let skip := s.skipOn c
  let cap := s.withCapture c.prog
  let (s, bad) := s.rowErrors c l
  let outs := (List.range brushCores).map (fun i => s.runCore c k skip l (cap.laneRand c i) fn i)
  let s := s.poke (outs.flatMap CoreOut.writes)
  let s := s.setLatch key
    { carry := outs.foldr (fun o v => v * 2 ^ 1024 + o.carry) 0, mask := outs.foldr (fun o v => v * 2 ^ 1024 + o.mask) 0 }
  let s := s.brushEvents c (outs.foldl (fun e o => e.plus o.ev) EvCount.zero)
  let s := s.brushPals c (outs.flatMap CoreOut.pals)
  let fixed := k.fixed + outs.foldl (fun m o => max m o.cost) 0
  let stall := randStall c.w fixed
  s.brushRetire c bad ((if c.stacked then 4 else 0) + fixed + stall + k.post) stall (outs.foldl (fun t o => t + o.skipped) 0)

/-- Issue an instruction that acts lane by lane. -/
def State.slvLane (s : State) (d b : Nat) (op : Nat) (fn : Nat → LaneIn → LaneOut) : Res :=
  s.whenServing (s.brushIssue d b op (fun c s => s.slFault c) (fun c s => s.runLanes c (fn c.w)))

/-! ### REDUCE (R188, R189) -/

/-- The results of a REDUCE for each core and lane, and its events. -/
def State.reduceVals (s : State) (c : SlCtx) (l : Latches) : List (List Nat) × List CvRes :=
  let vals := (List.range brushCores).map (fun i =>
    (s.laneVals c.d (64 * c.b + i) c.ra).zipIdx.map (fun p =>
      if bitOf (activeBits c.w l i) p.2 then some (redLeaf c.w p.1) else none))
  if slScope c.w = 0 then
    let r := vals.map (fun v => redTree c.w 10 v)
    (r.map (fun x => List.replicate laneCount (x.1.getD (redEmpty c.w))), r.flatMap Prod.snd)
  else
    let r := (List.range laneCount).map (fun j => redTree c.w 6 (vals.map (fun v => v.getD j none)))
    (List.replicate brushCores (r.map (fun x => x.1.getD (redEmpty c.w))), r.flatMap Prod.snd)

/-- Run a REDUCE. -/
def State.runReduce (s : State) (c : SlCtx) : State :=
  let l := s.latch (brushKey c.d c.b)
  let (s, bad) := s.rowErrors c l
  let (vals, evs) := s.reduceVals c l
  let s := s.poke (vals.zipIdx.flatMap (fun p => s.rowWrites c.d (64 * c.b + p.2) c.rd (activeBits c.w l p.2) p.1))
  let s := s.brushEvents c (evs.foldl EvCount.add EvCount.zero)
  s.brushRetire c bad ((if c.stacked then 4 else 0) + (slCost c.w).fixed) 0 0

/-! ### Control instructions -/

/-- The opcode of instruction k of a program, read ahead. -/
def State.peekOp (s : State) (p : SliverRun) (k : Nat) : Nat :=
  let g := (p.prog + 16 * k) % 2 ^ 64
  if s.fetchable g 16 16 then slOp (leField (s.peek (gaLocal g) 16) 0 16) else 0

/-- A REP may not stand in a span, and its span may hold an END as its last instruction alone (R190). -/
def State.repFault (c : SlCtx) (s : State) : Option (Nat × Nat) :=
  if !(slRepOk c.w) || c.run.rep.isSome ||
      (List.range (bitsOf c.w 48 8 - 1)).any (fun i => s.peekOp c.prog (c.run.index + 1 + i) == 1) then some (stDescriptor, 0)
  else none

/-! ### Dispatch and lending -/

/-- The registers that a sliver dispatch captures: palette scales and bind table of its die (R186). -/
def State.captureRegs (s : State) (d : Nat) : Sparse Word :=
  s.regs.filter (fun p => (decide (blockBase (.pal (Fin.ofNat 4 d)) ≤ p.1) && decide (p.1 < blockBase (.pal (Fin.ofNat 4 d)) + 0x10000)) ||
    (decide (blockBase (.rand (Fin.ofNat 4 d)) ≤ p.1) && decide (p.1 < blockBase (.rand (Fin.ofNat 4 d)) + 0x10000)))

/-- Brushes named by a mask. -/
def maskBrushes (m : Nat) : List Nat := (List.range 32).filter (fun b => bitOf m b)

/-- A SLIVER_RUN starts (R151, R152): latches take their program-start values, the random base is zero. -/
def State.sliverStart (s : State) (c : Cmd) : State :=
  let d := c.die
  let mask := c.at 16 4
  let prog := c.at 8 8
  if mask = 0 then s.finish c stDone 0 0 s.now
  else if (maskBrushes mask).any (fun b => !(s.brushUp d b)) || prog % 16 != 0 || !(s.isOwn prog) then s.fail c stAddress
  else
    let lend := s.reg (R.SLV_LEND d)
    let run : SliverRun :=
      { queue := c.queue, seq := c.seq, die := d, prog := prog, capt := s.captureRegs d,
        lendMask := F.SLV_LEND_LEND_MASK.get lend, lendBase := F.SLV_LEND_ROW_BASE.get lend,
        lendCount := F.SLV_LEND_ROW_COUNT.get lend, stopped := [], counted := false, until_ := s.now }
    let s := { s with slivers := s.slivers ++ [run] }
    let s := s.updCmd c.queue c.seq (fun x => { x with palDie := d })
    (maskBrushes mask).foldl (fun s b =>
      (s.setBrush (brushKey d b) { queue := c.queue, seq := c.seq, index := 0, rep := none, base := 0, busy := s.now }).setLatch
        (brushKey d b) Latches.start) s

/-- A brush that the command names still runs an earlier program: the dispatch waits (log 20). -/
def State.brushesBusy (s : State) (c : Cmd) : Bool :=
  (maskBrushes (c.at 16 4)).any (fun b => (s.brushRun (brushKey c.die b)).isSome)

/-- SLIVER_RUN: the dispatch starts on the brushes of its mask. -/
def execSliverRun (q : Fin 240) (n : Nat) (s : State) : Res :=
  s.whenServing (
    match s.findCmd q.val n with
    | none => s
    | some c => if s.brushesBusy c then s else s.starting q.val n 0x30 (fun s c => s.sliverStart c))

/-- LEND_GRANT (R156, R168): a lendable brush is granted to the collective engine, which has work, at an instruction boundary
under LEND_PREEMPT, else once no program runs on it. A preempted brush spends 2 ac on its save and 2 ac on its restore. -/
def execLendGrant (d : Fin 4) (b : Fin 32) (s : State) : Res :=
  s.whenServing (
    let k := brushKey d.val b.val
    let lend := s.reg (R.SLV_LEND d.val)
    let ok := s.brushUp d.val b.val && bitOf (F.SLV_LEND_LEND_MASK.get lend) b.val &&
      F.SLV_LEND_ROW_COUNT.get lend != 0 && !(s.lent.contains k) &&
      s.cmds.any (fun c => isCollective c.code && c.phase == .started)
    let grant := fun (s : State) => ({ s with lent := s.lent ++ [k], lentSince := sparsePut s.lentSince k (s.now + 1) } : State)
    if !ok then s
    else
      match s.brushRun k with
      | none => grant s
      | some r =>
        if s.fld (R.SLV_CFG d.val) F.SLV_CFG_LEND_PREEMPT = 1 then
          (grant (s.setBrush k { r with busy := max s.now r.busy + s.acDur d.val 4 })).count (R.SLV_BSTALL d.val b.val)
            F.SLV_BSTALL_LEND 4
        else s)

/-- Lent work on a brush ends: the cycles it took count, and a preempted program goes on (R156). -/
def State.lendEnd (s : State) (d b : Nat) : State :=
  let k := brushKey d b
  let t := s.now + 1 - sparseGet s.lentSince k (s.now + 1)
  let s := { s with lent := s.lent.filter (· != k), lentSince := sparseDel s.lentSince k }
  let s := s.count (R.SLV_BSTALL d b) F.SLV_BSTALL_LEND (t / acTicks (s.point d))
  match s.brushRun k with
  | none => s
  | some r => s.setBrush k ({ r with busy := max r.busy s.now } : BrushRun)

/-! ### The instructions -/

/-- NOP (R191): nothing for 1 ac. -/
def execSlvNop (d : Fin 4) (b : Fin 32) (s : State) : Res :=
  s.whenServing (s.brushIssue d.val b.val 0x00 (fun c s => s.slFault c) (fun c s => s.brushNext c 1))

/-- END (R191): the program ends for its brush. -/
def execSlvEnd (d : Fin 4) (b : Fin 32) (s : State) : Res :=
  s.whenServing (s.brushIssue d.val b.val 0x01 (fun c s => s.slFault c) (fun c s =>
    let (s, _) := s.brushTime c.d c.b c.run 1
    (s.delBrush (brushKey c.d c.b)).sliverDone c.run.queue c.run.seq))

/-- REP (R190): the span that follows runs COUNT + 1 times. -/
def execSlvRep (d : Fin 4) (b : Fin 32) (s : State) : Res :=
  s.whenServing (s.brushIssue d.val b.val 0x02 (fun c s => State.repFault c s) (fun c s =>
    let (s, r) := s.brushTime c.d c.b c.run 1
    s.setBrush (brushKey c.d c.b)
      { r with index := r.index + 1,
               rep := some { start := r.index + 1, span := bitsOf c.w 48 8, count := bitsOf c.w 56 16, iter := 0,
                             bstride := bitsOf c.w 72 16, rstep := signedOf c.w 24 } }))

/-- SETRB (R185): the random base is set, or added to. -/
def execSetrb (d : Fin 4) (b : Fin 32) (s : State) : Res :=
  s.whenServing (s.brushIssue d.val b.val 0x03
    (fun c _ => if slSetrbOk c.w then none else some (stDescriptor, 0))
    (fun c s =>
      let v := bitsOf c.w 0 64
      s.brushNext { c with run := { c.run with base := if bitsOf c.w 64 2 = 0 then v else (c.run.base + v) % 2 ^ 64 } } 1))

/-- MSET (R175). -/
def execMset (d : Fin 4) (b : Fin 32) (s : State) : Res := s.slvLane d.val b.val 0x08 laneMset
/-- MNOT (R175). -/
def execMnot (d : Fin 4) (b : Fin 32) (s : State) : Res := s.slvLane d.val b.val 0x09 laneMnot
/-- MLD (R175). -/
def execMld (d : Fin 4) (b : Fin 32) (s : State) : Res := s.slvLane d.val b.val 0x0A laneMld
/-- MST (R175). -/
def execMst (d : Fin 4) (b : Fin 32) (s : State) : Res := s.slvLane d.val b.val 0x0B laneMst
/-- ADD (R176). -/
def execSlvAdd (d : Fin 4) (b : Fin 32) (s : State) : Res := s.slvLane d.val b.val 0x10 laneAdd
/-- SUB (R176). -/
def execSlvSub (d : Fin 4) (b : Fin 32) (s : State) : Res := s.slvLane d.val b.val 0x11 laneSub
/-- CMP (R177). -/
def execSlvCmp (d : Fin 4) (b : Fin 32) (s : State) : Res := s.slvLane d.val b.val 0x12 laneCmp
/-- MAX (R177). -/
def execSlvMax (d : Fin 4) (b : Fin 32) (s : State) : Res := s.slvLane d.val b.val 0x13 laneMax
/-- MIN (R177). -/
def execSlvMin (d : Fin 4) (b : Fin 32) (s : State) : Res := s.slvLane d.val b.val 0x14 laneMin
/-- MUL (R178). -/
def execSlvMul (d : Fin 4) (b : Fin 32) (s : State) : Res := s.slvLane d.val b.val 0x15 laneMul
/-- AND (R179). -/
def execSlvAnd (d : Fin 4) (b : Fin 32) (s : State) : Res := s.slvLane d.val b.val 0x18 laneAnd
/-- OR (R179). -/
def execSlvOr (d : Fin 4) (b : Fin 32) (s : State) : Res := s.slvLane d.val b.val 0x19 laneOr
/-- XOR (R179). -/
def execSlvXor (d : Fin 4) (b : Fin 32) (s : State) : Res := s.slvLane d.val b.val 0x1A laneXor
/-- ANDN (R179). -/
def execSlvAndn (d : Fin 4) (b : Fin 32) (s : State) : Res := s.slvLane d.val b.val 0x1B laneAndn
/-- NOT (R179). -/
def execSlvNot (d : Fin 4) (b : Fin 32) (s : State) : Res := s.slvLane d.val b.val 0x1C laneNot
/-- MOV (R179). -/
def execSlvMov (d : Fin 4) (b : Fin 32) (s : State) : Res := s.slvLane d.val b.val 0x1D laneMov
/-- SEL (R179). -/
def execSlvSel (d : Fin 4) (b : Fin 32) (s : State) : Res := s.slvLane d.val b.val 0x1E laneSel
/-- CONST (R179). -/
def execSlvConst (d : Fin 4) (b : Fin 32) (s : State) : Res := s.slvLane d.val b.val 0x1F laneConst
/-- SHL (R179). -/
def execSlvShl (d : Fin 4) (b : Fin 32) (s : State) : Res := s.slvLane d.val b.val 0x20 laneShl
/-- SHR (R179). -/
def execSlvShr (d : Fin 4) (b : Fin 32) (s : State) : Res := s.slvLane d.val b.val 0x21 laneShr
/-- LMUL (R160). -/
def execLmul (d : Fin 4) (b : Fin 32) (s : State) : Res := s.slvLane d.val b.val 0x30 laneLmul
/-- LADD (R161). -/
def execLadd (d : Fin 4) (b : Fin 32) (s : State) : Res := s.slvLane d.val b.val 0x31 laneLadd
/-- LMAX (R180). -/
def execLmax (d : Fin 4) (b : Fin 32) (s : State) : Res := s.slvLane d.val b.val 0x32 laneLmax
/-- LMIN (R180). -/
def execLmin (d : Fin 4) (b : Fin 32) (s : State) : Res := s.slvLane d.val b.val 0x33 laneLmin
/-- FADD (R162). -/
def execFadd (d : Fin 4) (b : Fin 32) (s : State) : Res := s.slvLane d.val b.val 0x40 laneFadd
/-- FSUB (R162). -/
def execFsub (d : Fin 4) (b : Fin 32) (s : State) : Res := s.slvLane d.val b.val 0x41 laneFsub
/-- FMUL (R162). -/
def execFmul (d : Fin 4) (b : Fin 32) (s : State) : Res := s.slvLane d.val b.val 0x42 laneFmul
/-- FDIV (R162). -/
def execFdiv (d : Fin 4) (b : Fin 32) (s : State) : Res := s.slvLane d.val b.val 0x43 laneFdiv
/-- FSQRT (R162). -/
def execFsqrt (d : Fin 4) (b : Fin 32) (s : State) : Res := s.slvLane d.val b.val 0x44 laneFsqrt
/-- FMAX (R181). -/
def execFmax (d : Fin 4) (b : Fin 32) (s : State) : Res := s.slvLane d.val b.val 0x45 laneFmax
/-- FMIN (R181). -/
def execFmin (d : Fin 4) (b : Fin 32) (s : State) : Res := s.slvLane d.val b.val 0x46 laneFmin
/-- FCMP (R181). -/
def execFcmp (d : Fin 4) (b : Fin 32) (s : State) : Res := s.slvLane d.val b.val 0x47 laneFcmp
/-- CVT (R182, R183), with the captured palette of its die. -/
def execSlvCvt (d : Fin 4) (b : Fin 32) (s : State) : Res :=
  s.whenServing (s.brushIssue d.val b.val 0x50 (fun c s => s.slFault c) (fun c s =>
    s.runLanes c (laneCvt c.w ((s.withCapture c.prog).scaleOf c.d (slPset c.w)))))
/-- ACCADD (R164, R184). -/
def execAccadd (d : Fin 4) (b : Fin 32) (s : State) : Res := s.slvLane d.val b.val 0x51 laneAccadd
/-- RMASK (R187). -/
def execRmask (d : Fin 4) (b : Fin 32) (s : State) : Res := s.slvLane d.val b.val 0x52 laneRmask
/-- REDUCE (R188, R189). -/
def execSlvReduce (d : Fin 4) (b : Fin 32) (s : State) : Res :=
  s.whenServing (s.brushIssue d.val b.val 0x60 (fun c s => s.slFault c) (fun c s => s.runReduce c))

end Sys2Proof.Machine
end

