-- ==== Sys2Proof/Machine/Collective.lean ====
section
/-!
DEFINITION. The collective engine (R321 to R343): groups, the fixed order of additions, segments and their copies, deadlines
and substitution, sample checks, veto words, retraction, completion.
-/

namespace Sys2Proof.Machine

open Sys2Proof

def tRedHdr : Nat := 0x20
def tRedData : Nat := 0x21
def tRedAck : Nat := 0x22
def tRetract : Nat := 0x23
def tRetractAck : Nat := 0x24

/-! ### Groups (R321 to R323) -/

/-- The group of a slot. -/
def State.group (s : State) (v : Nat) : Option Group := sparseGet s.groups v none

/-- Store a slot's group. -/
def State.setGroup (s : State) (v : Nat) (g : Option Group) : State :=
  { s with groups := sparseSet s.groups v g none }

/-- The slot in which a group ID is registered. -/
def State.slotOf (s : State) (gid : Nat) : Option Nat :=
  (List.range 10).find? (fun v => match s.group v with | some g => g.gid == gid | none => false)

/-- A member entry's fields (R321). -/
def GMember.parse (w : Nat) : GMember where
  module := bitsOf w 0 16
  backup := bitsOf w 16 16
  node := bitsOf w 32 10
  slot := bitsOf w 42 3
  mirror := bitOf w 45

/-- The members of a descriptor of M entries. -/
def membersOf (b : List Byte) (m : Nat) : List GMember :=
  (List.range m).map (fun r => GMember.parse (leField b (32 + 8 * r) 8))

/-- Module addresses that appear in the entries. -/
def memberAddrs (ms : List GMember) : List Nat :=
  ms.flatMap (fun m => m.module :: (if m.backup = 0 then [] else [m.backup]))

/-- Slots rise within a run. -/
def slotsRise : List GMember → Bool
  | a :: b :: r => (a.node != b.node || decide (a.slot < b.slot)) && slotsRise (b :: r)
  | _ => true

/-- The NODE labels of the runs, in order. -/
def runLabels : List GMember → List Nat
  | a :: b :: r => if a.node = b.node then runLabels (b :: r) else a.node :: runLabels (b :: r)
  | [a] => [a.node]
  | [] => []

/-- No value twice. -/
def noRepeat : List Nat → Bool
  | [] => true
  | x :: r => !(r.contains x) && noRepeat r

/-- A group descriptor is valid (R321, R322) for the module at an address and the channel of slot v. -/
def groupOk (own v : Nat) (b : List Byte) : Bool :=
  let m := leField b 2 2
  let ms := membersOf b m
  leField b 6 8 == 0 && leField b 14 8 == 0 && leField b 22 8 == 0 && leField b 30 2 == 0 &&
    decide (1 ≤ leField b 0 1) && leField b 1 1 == v + 2 && decide (1 ≤ m) && decide (m ≤ 16383) &&
    (List.range m).all (fun r => bitsOf (leField b (32 + 8 * r) 8) 46 18 == 0) &&
    ms.all (fun x => decide (1 ≤ x.module) && decide (x.module ≤ 0x3FFF) && decide (x.backup ≤ 0x3FFF) &&
      (!x.mirror || x.backup != 0)) &&
    slotsRise ms && noRepeat (runLabels ms) && leField b 4 2 == (runLabels ms).length &&
    noRepeat (memberAddrs ms) && own != 0 && (memberAddrs ms).contains own

/-- A slot has a collective in flight, or one waiting to complete. -/
def State.slotBusy (s : State) (v : Nat) : Bool := s.colls.any (fun c => c.slot == v)

/-- Show a slot's registration in RED_GCTL. -/
def State.showGroup (s : State) (v status : Nat) (g : Option Group) : State :=
  let s := s.setFld (R.RED_GCTL v) F.RED_GCTL_STATUS status
  match g with
  | some g =>
    ((((s.setFld (R.RED_GCTL v) F.RED_GCTL_VALID 1).setFld (R.RED_GCTL v) F.RED_GCTL_RANK g.rank).setFld (R.RED_GCTL v)
      F.RED_GCTL_MEMBERS g.members.length).setFld (R.RED_GCTL v) F.RED_GCTL_GROUP g.gid).setFld (R.RED_GCTL v)
      F.RED_GCTL_BACKUP_ROLE (b2n g.backup)
  | none =>
    ((((s.setFld (R.RED_GCTL v) F.RED_GCTL_VALID 0).setFld (R.RED_GCTL v) F.RED_GCTL_RANK 0).setFld (R.RED_GCTL v)
      F.RED_GCTL_MEMBERS 0).setFld (R.RED_GCTL v) F.RED_GCTL_GROUP 0).setFld (R.RED_GCTL v) F.RED_GCTL_BACKUP_ROLE 0

/-- Bind or free a slot: its group, its segments dropped, RED_GCTL and RED_STAT.BOUND (R323). -/
def State.bindGroup (s : State) (v status : Nat) (g : Option Group) : State :=
  let s := s.setGroup v g
  let s := { s with redRx := s.redRx.filter (fun x => x.slot != v) }
  (s.showGroup v status g).setBit R.RED_STAT F.RED_STAT_BOUND v g.isSome

/-- The collective engine as a reader with no command. -/
def collWho : Who := { unit := 0xD8, queue := 0xFF }

/-- Read a group descriptor at a global address of this module (R321, R323). -/
def State.readGroup (s : State) (a : Nat) : Option (List Byte) × State :=
  if a % 8 = 0 ∧ s.isOwn a = true ∧ s.mappedRange (gaLocal a) 32 = true then
    let (h, s, e) := s.readMem collWho (gaLocal a) 32
    let n := 8 * leField h 2 2
    if e ∨ s.mappedRange (gaLocal a) (32 + n) = false then (none, s)
    else
      let (b, s, e) := s.readMem collWho (gaLocal a) (32 + n)
      (if e then none else some b, s)
  else (none, s)

/-- Registration of slot v (R323). A collective in flight leaves all as it was, with STATUS BUSY. -/
def State.register (s : State) (v : Nat) : State :=
  if s.slotBusy v then s.setFld (R.RED_GCTL v) F.RED_GCTL_STATUS stBusy
  else
    match s.readGroup (s.reg (R.RED_GADDR v)).toNat with
    | (none, s) => s.bindGroup v stDescriptor none
    | (some b, s) =>
      let gid := leField b 0 1
      let taken := (List.range 10).any (fun u => u != v && s.slotOf gid == some u)
      if groupOk s.ownAddr v b = false ∨ taken = true then s.bindGroup v stDescriptor none
      else
        let ms := membersOf b (leField b 2 2)
        let rank := (ms.findIdx? (fun m => m.module == s.ownAddr || m.backup == s.ownAddr)).getD 0
        let new : Group :=
          { gid := gid, bytes := b, members := ms, rank := rank, backup := ms.any (fun m => m.backup == s.ownAddr), cseq := 0,
            epochs := [] }
        s.bindGroup v stDone (some new)

/-- GROUP_REGISTER (R323): a write of 1 to RED_GCTL.VALID of slot v. -/
def execGroupRegister (v : Fin 10) (s : State) : Res := s.whenMain (s.register v.val)

/-- A write of 0 to RED_GCTL.VALID of slot v (R323). -/
def State.unregister (s : State) (v : Nat) : State :=
  if s.slotBusy v then s.setFld (R.RED_GCTL v) F.RED_GCTL_STATUS stBusy else s.bindGroup v stDone none

/-- GROUP_UNREGISTER (R323). -/
def execGroupUnregister (v : Fin 10) (s : State) : Res := s.whenMain (s.unregister v.val)

/-! ### Runs and the node tree (R329, R330) -/

/-- Ranks of the group by run. -/
def Group.runs (g : Group) : List (List Nat) :=
  (runLabels g.members).map (fun n => (List.range g.members.length).filter (fun r => (g.members[r]?.map GMember.node) == some n))

def Group.nodeOf (g : Group) (r : Nat) : Nat := (g.members[r]?.map GMember.node).getD 0
def Group.slotAt (g : Group) (r : Nat) : Nat := (g.members[r]?.map GMember.slot).getD 0

/-- Index of the run of a rank. -/
def Group.runIdx (g : Group) (r : Nat) : Nat := ((runLabels g.members).findIdx? (· == g.nodeOf r)).getD 0

/-- Members of run j, lowest slot first. -/
def Group.run (g : Group) (j : Nat) : List Nat := g.runs.getD j []

/-- The holder of subtree (level, index k) of run j: its member with the lowest present slot. -/
def Group.holder (g : Group) (j level k : Nat) : Option Nat := (g.run j).find? (fun r => g.slotAt r / 2 ^ level == k)

/-- The root of run j. -/
def Group.root (g : Group) (j : Nat) : Nat := (g.run j).headD 0

def Group.nruns (g : Group) : Nat := (runLabels g.members).length

/-- This module's run and slot. -/
def Group.myRun (g : Group) : Nat := g.runIdx g.rank
def Group.mySlot (g : Group) : Nat := g.slotAt g.rank

/-- This member is the root of its run. -/
def Group.isRoot (g : Group) : Bool := g.root g.myRun == g.rank

/-! ### Operands -/

/-- Operand identities: sources 0 to 3, their first sums 4 and 5, subtree (level, k) of this run, the result, the running sum
of chain position j, the shard of rank r. -/
def opSrc (d : Nat) : Nat := d
def opHalf (h : Nat) : Nat := 4 + h
def opNode (l k : Nat) : Nat := 8 + 8 * l + k
def opResult : Nat := 40
def opChain (j : Nat) : Nat := 0x10000 + j
def opShard (r : Nat) : Nat := 0x20000 + r

/-- Key of an operand for a segment. -/
def opKey (op seg : Nat) : Nat := seg * 0x40000 + op

/-- The operand's value for a segment. -/
def Coll.val (c : Coll) (op seg : Nat) : Option OpVal := (c.ops.find? (fun p => p.1 == opKey op seg)).map Prod.snd

/-- Set an operand. -/
def Coll.put (c : Coll) (op seg : Nat) (v : OpVal) : Coll := { c with ops := sparsePut c.ops (opKey op seg) v }

/-- Elements of the global shape. -/
def Coll.total (c : Coll) : Nat := c.gext.foldl (· * ·) 1

/-- The collective adds (R329). -/
def Coll.adds (c : Coll) : Bool := c.code == 0x20 || c.code == 0x22

/-- Segments of the collective (R328): a CLOSE has one without elements. -/
def Coll.segs (c : Coll) : List Nat := if c.close then [0] else List.range ((c.total + 4095) / 4096)

/-- Element numbers of segment i. -/
def Coll.segElems (c : Coll) (i : Nat) : List Nat :=
  if c.close then [] else (List.range (min 4096 (c.total - 4096 * i))).map (fun k => 4096 * i + k)

/-- The rank whose shard holds an element. -/
def Coll.shardOf (c : Coll) (e : Nat) : Nat := (coords c.gext e).getD c.split 0 / c.shard

/-- The elements of an operand in segment i. -/
def Coll.elemsOf (c : Coll) (rank op i : Nat) : List Nat :=
  if 0x20000 ≤ op then (c.segElems i).filter (fun e => c.shardOf e == op - 0x20000)
  else if op = opResult ∧ c.code = 0x20 then (c.segElems i).filter (fun e => c.shardOf e == rank)
  else c.segElems i

/-- Segment i of an operand exists: it has elements, or belongs to a CLOSE. -/
def Coll.segHas (c : Coll) (rank op i : Nat) : Bool := c.close || !(c.elemsOf rank op i).isEmpty

/-- What a derivation needs: its output, its operands, and whether each is present by structure. -/
structure Derive where
  out : Nat
  left : Nat
  right : Nat
  hasL : Bool
  hasR : Bool

/-- The additions and copies of this member, each after those it depends on (R329, R330). -/
def Coll.derives (c : Coll) (g : Group) : List Derive :=
  if !c.adds then []
  else
    let j := g.myRun
    let slot := g.mySlot
    let src := fun d => c.srcs.getD d false
    let first := if c.close then [] else
      [⟨opHalf 0, opSrc 0, opSrc 1, src 0, src 1⟩, ⟨opHalf 1, opSrc 2, opSrc 3, src 2, src 3⟩,
       ⟨opNode 0 slot, opHalf 0, opHalf 1, src 0 || src 1, src 2 || src 3⟩]
    let node := ([1, 2, 3].filter (fun l => g.holder j l (slot / 2 ^ l) == some g.rank)).map (fun l =>
      let k := slot / 2 ^ l
      (⟨opNode l k, opNode (l - 1) (2 * k), opNode (l - 1) (2 * k + 1), (g.holder j (l - 1) (2 * k)).isSome,
        (g.holder j (l - 1) (2 * k + 1)).isSome⟩ : Derive))
    let chain := if g.isRoot then [(⟨opChain j, opChain (j - 1), opNode 3 0, j != 0, true⟩ : Derive)] else []
    first ++ node ++ chain

/-- The operands this member awaits from others, each with the rank it comes from (R330, R331). -/
def Coll.awaits (c : Coll) (g : Group) : List (Nat × Nat) :=
  let j := g.myRun
  let slot := g.mySlot
  let up := ([1, 2, 3].filter (fun l => g.holder j l (slot / 2 ^ l) == some g.rank)).flatMap (fun l =>
    let k := 2 * (slot / 2 ^ l) + 1
    match g.holder j (l - 1) k with
    | some r => if r = g.rank then [] else [(opNode (l - 1) k, r)]
    | none => [])
  let chain := if g.isRoot ∧ j ≠ 0 then [(opChain (j - 1), g.root (j - 1))] else []
  let last := g.root (g.nruns - 1)
  -- the member above in the node tree, for one that is no root
  let above := (([1, 2, 3].map (fun l => g.holder j l (slot / 2 ^ l))).find? (fun h => h != some g.rank)).join
  let spread := fun (src : Nat) =>
    if g.isRoot then (if src = g.rank then [] else [(opResult, src)])
    else match above with | some r => [(opResult, r)] | none => []
  if c.code = 0x20 then up ++ chain ++ (if last = g.rank then [] else [(opResult, last)])
  else if c.code = 0x22 then up ++ chain ++ spread last
  else if c.code = 0x21 then
    ((List.range g.members.length).filter (· != g.rank)).map (fun r => (opShard r, r))
  else spread c.root

/-- What a member does with an operand it has: where it sends it (role, level, rank), R330, R331, R341. LEVEL names the
node level of the receiving step, or the chain position of the receiving run (log 21). -/
def Coll.sends (c : Coll) (g : Group) (op : Nat) : List (Nat × Nat × Nat) :=
  let j := g.myRun
  let slot := g.mySlot
  let role := fun (r : Nat) => if c.close then 5 else r
  let down := [3, 2, 1].flatMap (fun l =>
    if g.holder j l (slot / 2 ^ l) = some g.rank then
      match g.holder j (l - 1) (2 * (slot / 2 ^ l)), g.holder j (l - 1) (2 * (slot / 2 ^ l) + 1) with
      | some _, some r => if r = g.rank then [] else [(role 3, 0, r)]
      | _, _ => []
    else [])
  let roots := ((List.range g.nruns).map g.root).filter (· != g.rank)
  if op = opResult then
    (if c.code = 0x20 ∨ c.code = 0x21 then []
     else
       let fromMe := if c.code = 0x22 then g.root (g.nruns - 1) == g.rank else c.root == g.rank
       let top := if c.code = 0x22 then g.root (g.nruns - 1) else c.root
       (if fromMe then roots.map (fun r => (role (if c.code = 0x22 then 3 else 4), 0, r)) else []) ++
         -- a copy goes down a run's tree from its root
         (if g.isRoot || top != g.rank then down else []))
  else if 0x20000 ≤ op then
    (if op = opShard g.rank then ((List.range g.members.length).filter (· != g.rank)).map (fun r => (4, 0, r)) else [])
  else if 0x10000 ≤ op then
    (if op = opChain j ∧ g.isRoot then
      (if j + 1 < g.nruns then [(role 2, j + 1, g.root (j + 1))]
       else if c.code = 0x20 then ((List.range g.members.length).filter (· != g.rank)).map (fun r => (role 3, 0, r))
       else [])
     else [])
  else if 8 ≤ op then
    let l := (op - 8) / 8
    let k := (op - 8) % 8
    -- the top holder of the subtree is the one that passes it up
    if g.holder j l k = some g.rank ∧ l < 3 then
      match g.holder j (l + 1) (k / 2) with
      | some r => if r = g.rank then [] else [(role (if l = 0 || (g.run j).all (fun x => x == g.rank || g.slotAt x / 2 ^ l != k) then 0 else 1), l + 1, r)]
      | none => []
    else []
  else []

/-! ### Sending segments (R341) -/

/-- Elements of consecutive numbers as runs: first number, codes. -/
def elemRuns : List (Nat × Nat) → List (Nat × List Nat)
  | [] => []
  | (e, v) :: r =>
    match elemRuns r with
    | (a, l) :: t => if a = e + 1 then (e, v :: l) :: t else (e, [v]) :: (a, l) :: t
    | [] => [(e, [v])]

/-- Codes of a format packed into whole 8-byte units (R299). -/
def packCodes (f : Nat) (l : List Nat) : List Byte :=
  let w := fmtBits f
  let n := l.foldr (fun v acc => v % 2 ^ w + acc * 2 ^ w) 0
  leBytes n (8 * ((l.length * w + 63) / 64))

/-- Codes that a packet's bytes hold. -/
def unpackCodes (f : Nat) (b : List Byte) : List Nat :=
  let w := fmtBits f
  let n := ofLe b
  (List.range (8 * b.length / w)).map (fun i => bitsOf n (w * i) w)

/-- A run cut into packets of at most 256 bytes. -/
def cutRun (f : Nat) (r : Nat × List Nat) : List (Nat × List Byte) :=
  let per := 2048 / fmtBits f
  (List.range ((r.2.length + per - 1) / per)).map (fun i => (r.1 + per * i, packCodes f ((r.2.drop (per * i)).take per)))

/-- The 32-byte payload of a RED_HDR (R341). -/
def redHdrBody (c : Coll) (g : Group) (role level seg count veto : Nat) : List Byte :=
  [0, 0, 0] ++ leBytes g.gid 1 ++ leBytes count 4 ++ leBytes seg 4 ++ leBytes level 2 ++ leBytes g.rank 2 ++
    leBytes (b2n g.backup + 2 * role) 1 ++ leBytes veto 1 ++ leBytes c.epoch 6 ++ c.digest

/-- Send a list of packets of one flow; the SEQ of the first is returned. -/
def State.sendAll (s : State) (dst vc : Nat) : List (Nat × Nat × List Byte) → Nat × State
  | [] => (0, s)
  | (t, a, b) :: r =>
    let (n, s) := s.sendPkt dst vc t a b
    (n, (s.sendAll dst vc r).2)

/-- Send one segment of an operand to one module, or note the failed send where no valid route exists (R331). -/
def State.sendSegTo (s : State) (c : Coll) (g : Group) (role level seg veto : Nat) (els : List (Nat × Nat)) (dst : Nat) :
    State × Bool :=
  let vc := c.slot + 2
  if s.routeKnown dst vc = false then (s, true)
  else
    let top := c.cseq * 2 ^ 32
    let pkts := (tRedHdr, top, redHdrBody c g role level seg els.length veto) ::
      ((elemRuns els).flatMap (cutRun c.fmt)).map (fun p => (tRedData, top + p.1, p.2))
    let (n, s) := s.sendAll dst vc pkts
    ({ s with redTx := s.redTx ++ [{ dst := dst, vc := vc, seq := n, cseq := c.cseq, seg := seg, pkts := pkts, resent := false,
                                     queue := c.queue, qseq := c.seq, sentAt := s.now }] }, false)

/-- The modules of a rank: its member, and its backup (R331). -/
def Group.modulesOf (g : Group) (r : Nat) : List Nat :=
  match g.members[r]? with
  | some m => m.module :: (if m.backup = 0 then [] else [m.backup])
  | none => []

/-- Send segment i of an operand where it goes. A rank's shard alone goes to it from a REDUCE_SCATTER. True: a send failed. -/
def State.sendOp (s : State) (c : Coll) (g : Group) (op i : Nat) (v : OpVal) : State × Bool :=
  (c.sends g op).foldl (fun (p : State × Bool) t =>
    let rank := t.2.2
    let els := (c.elemsOf g.rank op i).zip (v.data.getD [])
    let els := if op ≥ 0x10000 ∧ op < 0x20000 ∧ c.code = 0x20 ∧ t.1 = 3 then els.filter (fun e => c.shardOf e.1 == rank) else els
    let need := c.close || t.1 != 3 || c.code != 0x20 ||
      (c.segElems i).any (fun e => c.shardOf e == rank)
    if !need then p
    else (g.modulesOf rank).foldl (fun (p : State × Bool) m =>
      let (s, e) := p.1.sendSegTo c g t.1 t.2.1 i v.veto els m
      (s, p.2 || e)) p) (s, false)

/-! ### Collectives in flight -/

def Coll.is (c : Coll) (q n : Nat) : Bool := c.queue == q && c.seq == n

def State.findColl (s : State) (q n : Nat) : Option Coll := s.colls.find? (fun c => c.is q n)

/-- Store a collective. -/
def State.putColl (s : State) (c : Coll) : State :=
  { s with colls := s.colls.map (fun x => if x.is c.queue c.seq then c else x) }

/-- Acknowledge a segment (R341). -/
def State.ackSeg (s : State) (h : Hdr) (cseq seg : Nat) : State := s.respond h tRedAck false (cseq * 2 ^ 32 + seg) []

/-- The collective to which a received segment belongs. -/
def RedSeg.of (x : RedSeg) (c : Coll) : Bool := x.slot == c.slot && x.cseq == c.cseq

/-- The codes that a segment brings for these elements; an element that a mismatched contribution does not bring is a free
value (R324). -/
def RedSeg.codes (x : RedSeg) (f : Nat) (els : List Nat) : List (Option Nat) :=
  let got := x.pkts.flatMap (fun p => (unpackCodes f p.2).zipIdx.map (fun q => (p.1 + q.2, q.1)))
  els.map (fun e => (got.find? (fun p => p.1 == e)).map Prod.snd)

/-- A segment is whole: every element it announces has come. -/
def RedSeg.whole (x : RedSeg) (c : Coll) (els : List Nat) : Bool :=
  if x.digest = c.digest then decide (x.count ≤ ((x.codes c.fmt els).filter Option.isSome).length)
  else decide (x.count ≤ (x.pkts.map (fun p => 8 * p.2.length / fmtBits c.fmt)).sum)

/-- Fill absent codes with free values. -/
def State.fillCodes (s : State) : List (Option Nat) → List Nat × State
  | [] => ([], s)
  | some v :: r => let (l, s) := s.fillCodes r; (v :: l, s)
  | none :: r =>
    let (f, s) := s.draw
    let (l, s) := s.fillCodes r
    (f.toNat :: l, s)

/-- The segments of an operand's contribution that came from a module and are whole and not held. -/
def State.wholeFrom (s : State) (c : Coll) (rank op from_ m i : Nat) : Option RedSeg :=
  s.redRx.reverse.find? (fun x => x.of c && x.sender == from_ && x.seg == i && x.hdr.src.toNat == m && x.held == 0 &&
    x.whole c (c.elemsOf rank op i))

/-- RED_LAST and the record of a missing or mismatched contribution (R333, R335, R462). -/
def State.badContrib (s : State) (c : Coll) (status code rank : Nat) : State :=
  let s := s.setReg R.RED_LAST (BitVec.ofNat 64 (status * 2 ^ 56 + c.gid * 2 ^ 48 + c.cseq * 2 ^ 32 + rank * 2 ^ 16))
  s.errRecord { cls := clsDeferred, code := code, unit := 0xD8, status := status,
                info0 := c.gid * 2 ^ 56 + c.cseq * 2 ^ 32 + rank, info1 := c.epoch }

/-- A contribution of another digest (R324, R335): counted once, the bit goes into the step's output through its word. -/
def State.mismatch (s : State) (c : Coll) (rank : Nat) : State × Coll :=
  if c.mismatched.contains rank then (s, c)
  else
    let s := s.count R.RED_CNT F.RED_CNT_MISMATCH 1
    let s := (s.badContrib c stMismatch 0x0502 rank).vetoEvent c.epoch vetoMismatch
    (s, { c with mismatched := rank :: c.mismatched, counted := true })

/-- A received segment becomes the operand's value (R332): acknowledged, and no longer held. -/
def State.adopt (s : State) (c : Coll) (g : Group) (op from_ i : Nat) (x : RedSeg) : State × Coll :=
  let els := c.elemsOf g.rank op i
  let s := if x.acked then s else s.ackSeg x.hdr x.cseq x.seg
  let s := { s with redRx := s.redRx.filter (· != x) }
  let (s, c) := if x.digest = c.digest then (s, c) else s.mismatch c from_
  let bad := if x.digest = c.digest then 0 else vetoMismatch
  let (d, s) := if x.count = 0 then (none, s) else
    let (l, s) := s.fillCodes (x.codes c.fmt els)
    (some l, s)
  (s, c.put op i { data := d, veto := x.veto ||| bad })

/-- Adopt what has come for an awaited operand (R332): from the member; from either module of a mirrored pair; a plain
backup's copy is held. -/
def State.adoptOp (s : State) (c : Coll) (g : Group) (op from_ : Nat) : State × Coll :=
  match g.members[from_]? with
  | none => (s, c)
  | some m =>
    let mods := if m.mirror then [m.module, m.backup] else [m.module]
    c.segs.foldl (fun (p : State × Coll) i =>
      if (p.2.val op i).isSome || !(p.2.segHas g.rank op i) || p.2.judged.contains from_ then p
      else
        match mods.findSome? (fun a => p.1.wholeFrom p.2 g.rank op from_ a i) with
        | some x => p.1.adopt p.2 g op from_ i x
        | none => p) (s, c)

/-- The member's own local veto word of the epoch as it stands, ORed with its VETO field (R337). -/
def State.wordOf (s : State) (c : Coll) : Nat := (if c.epoch = 0 then 0 else s.vetoWord c.epoch) ||| c.vfield

/-- The operand that is this member's own contribution as it goes to others. -/
def Coll.ownOp (c : Coll) (g : Group) : Nat :=
  if c.adds then opNode 0 g.mySlot else if c.code = 0x21 then opShard g.rank else opResult

/-- An output is known. The member's own module sum carries its local veto word as it stands when its first segment is sent:
`now` for the first, and the same for the rest (R337). -/
def Coll.putOut (c : Coll) (g : Group) (now out i : Nat) (v : OpVal) : Coll :=
  if out = c.ownOp g ∧ c.adds = true ∧ c.close = false then
    let w := c.word.getD now
    { c with word := some w }.put out i { v with veto := v.veto ||| w }
  else c.put out i v

/-- Copies that need no addition (R189): an operand whose partner is absent by structure; and the result at the last root. -/
def Coll.fill (c : Coll) (g : Group) (now : Nat) : Coll :=
  let c := (c.derives g).foldl (fun c d =>
    if d.hasL && d.hasR then c
    else
      let src := if d.hasL then d.left else d.right
      c.segs.foldl (fun c i =>
        match c.val d.out i, c.val src i with
        | none, some v => c.putOut g now d.out i v
        | _, _ => c) c) c
  if c.adds && g.isRoot && g.myRun + 1 == g.nruns then
    c.segs.foldl (fun c i =>
      match c.val opResult i, c.val (opChain g.myRun) i with
      | none, some v =>
        let keep := (c.segElems i).zip (v.data.getD [])
        let mine := if c.code = 0x20 then keep.filter (fun e => c.shardOf e.1 == g.rank) else keep
        if c.code = 0x20 ∧ c.segHas g.rank opResult i = false then c
        else c.put opResult i { v with data := v.data.map (fun _ => mine.map Prod.snd) }
      | _, _ => c) c
  else c

/-- Forward every operand that has become known and was not sent. -/
def State.forward (s : State) (c : Coll) (g : Group) : State × Coll :=
  c.ops.foldl (fun (p : State × Coll) e =>
    if p.2.sent.contains e.1 then p
    else
      let (s, f) := p.1.sendOp p.2 g (e.1 % 0x40000) (e.1 / 0x40000) e.2
      (s, { p.2 with sent := e.1 :: p.2.sent, linkFail := p.2.linkFail || f })) (s, c)

/-- Elements of this member's DST that an operand fills: the operand, in order, that DST takes. -/
def Coll.outputs (c : Coll) (g : Group) : List Nat :=
  if c.code = 0x21 then (List.range g.members.length).map opShard else [opResult]

/-- The bytes of other modules that a LOG4 destination shares have come. -/
def Coll.dstReady (c : Coll) (s : State) : Bool :=
  c.close ||
    (match s.findCmd c.queue c.seq with
     | some x => (s.sharedBytes (TD.parse c.dst)).isEmpty || decide ((x.rx.map (fun p => p.2.length)).sum ≥ (TD.parse c.dst).range.2)
     | none => true)

/-- The index in DST of a global element. -/
def Coll.local_ (c : Coll) (rank e : Nat) : List Nat :=
  let i := coords c.gext e
  if c.code = 0x20 then i.set c.split (i.getD c.split 0 - rank * c.shard) else i

/-- Write what has come for DST (R331, R338). -/
def State.writeOut (s : State) (c : Coll) (g : Group) (op i : Nat) (v : OpVal) : State × Coll :=
  let els := (c.elemsOf g.rank op i).zip (v.data.getD [])
  let cmd := s.findCmd c.queue c.seq
  let nfz := match cmd with | some x => bitOf (x.at 9 1) 1 | none => false
  let dst := TD.parse c.dst
  let bad := (els.filter (fun e => nonfinite c.fmt e.2)).length
  let fix := fun (x : Nat) => if nfz && nonfinite c.fmt x then fmtZero else x
  let ws := els.flatMap (fun e => dst.writes (c.local_ g.rank e.1) (fix e.2))
  let (s, e) := s.writeBits ws
  let s := match cmd with
    | some x =>
      let (s, k) := s.sendWrites x ws
      s.updCmd c.queue c.seq (fun y => { y with open_ := y.open_ + k })
    | none => s
  let s := s.count R.RED_NF (if nfz then F.RED_NF_REPLACED else F.RED_NF_NONFINITE) bad
  let nf := bad != 0 && !nfz
  let s := if nf then s.vetoEvent c.epoch vetoNonfinite else s
  (s, { c with written := opKey op i :: c.written, elems := c.elems + els.length, nonfinite := c.nonfinite + bad,
               counted := c.counted || bad != 0, dataErr := c.dataErr || e,
               veto := c.veto ||| v.veto ||| (if nf then vetoNonfinite else 0) })

/-- Write every output segment that is known. -/
def State.writeOuts (s : State) (c : Coll) (g : Group) : State × Coll :=
  if c.dstReady s = false then (s, c)
  else
    (c.outputs g).foldl (fun (p : State × Coll) op =>
      c.segs.foldl (fun (p : State × Coll) i =>
        match p.2.val op i with
        | some v => if p.2.written.contains (opKey op i) then p else p.1.writeOut p.2 g op i v
        | none => p) p) (s, c)

/-- DST is written and the checks have finished (R342). -/
def Coll.complete (c : Coll) (g : Group) : Bool :=
  c.checks.isEmpty &&
    (c.outputs g).all (fun op => c.segs.all (fun i => !(c.segHas g.rank op i) || c.written.contains (opKey op i)))

/-- The segments of a collective that has ended are dropped, each acknowledged. -/
def State.dropSegs (s : State) (f : RedSeg → Bool) : State :=
  let out := s.redRx.filter f
  let s := out.reverse.foldl (fun s x => if x.acked then s else s.ackSeg x.hdr x.cseq x.seg) s
  { s with redRx := s.redRx.filter (fun x => !(f x)) }

/-- RESULT1 (R342). -/
def Coll.result1 (c : Coll) : Nat :=
  c.cseq * 2 ^ 48 + (c.nonfinite % 2 ^ 32) * 2 ^ 16 + (min c.subst 255) * 2 ^ 8 + c.veto

/-- A collective leaves the engine with a status. -/
def State.leaveColl (s : State) (c : Coll) (status : Nat) : State :=
  let s := { s with colls := s.colls.filter (fun x => !(x.is c.queue c.seq)) }
  let s := s.dropSegs (fun x => x.of c)
  match s.findCmd c.queue c.seq with
  | some x => s.finish x status c.elems c.result1 s.now
  | none => s

/-- The status of R342, with LATE where the deadline had passed or was released (R49, R50). -/
def Coll.status (c : Coll) : Nat :=
  if c.linkFail then stLink
  else if c.veto &&& vetoMismatch ≠ 0 then stMismatch
  else if c.veto &&& vetoMissing ≠ 0 then stMissing
  else if c.dataErr then stData
  else (if c.counted then stDoneCounts else stDone) + (if c.late || c.released then stLate else 0)

/-- A collective whose work is done ends: its result word enters the local word (R337), a CLOSE shows its result (R339). -/
def State.endColl (s : State) (c : Coll) : State :=
  let s := if c.epoch = 0 then s else s.holdVeto c.epoch c.veto
  let s := if c.close then
      s.setReg R.RED_GVETO (BitVec.ofNat 64 (c.gid * 2 ^ 56 + c.veto * 2 ^ 48 + c.epoch))
    else s
  s.leaveColl c c.status

/-- Acknowledge the whole segments of a collective, and drop what is no longer wanted: the later copy of a mirrored pair
(counted in DUP), a plain backup's copy once the member's is complete, anything of a rank already judged (R332). -/
def State.tidySegs (s : State) (c : Coll) (g : Group) : State :=
  let aw := c.awaits g
  let els := fun (x : RedSeg) => match aw.find? (fun p => p.2 == x.sender) with
    | some p => c.elemsOf g.rank p.1 x.seg
    | none => []
  let op := fun (x : RedSeg) => ((aw.find? (fun p => p.2 == x.sender)).map Prod.fst).getD 0
  let done := fun (x : RedSeg) => x.of c && x.held == 0 && x.whole c (els x)
  let s := (s.redRx.filter (fun x => done x && !x.acked)).reverse.foldl (fun s x => s.ackSeg x.hdr x.cseq x.seg) s
  let s := { s with redRx := s.redRx.map (fun x => if done x then { x with acked := true } else x) }
  let mem := fun (x : RedSeg) => g.members[x.sender]?
  let isBack := fun (x : RedSeg) => match mem x with | some m => m.backup == x.hdr.src.toNat && !m.mirror | none => false
  let mir := fun (x : RedSeg) => match mem x with | some m => m.mirror | none => false
  let whole := fun (x : RedSeg) => c.segs.all (fun i => !(c.segHas g.rank (op x) i) || (c.val (op x) i).isSome)
  let gone := fun (x : RedSeg) => done x && (if isBack x then whole x else (c.val (op x) x.seg).isSome)
  let s := s.count R.RED_CHK F.RED_CHK_DUP (s.redRx.filter (fun x => gone x && mir x)).length
  { s with redRx := s.redRx.filter (fun x => !(gone x)) }

/-- Everything that follows from what a collective now holds: adopt copies, fill, forward, write, end. -/
def State.pump (s : State) (q n : Nat) : State :=
  match s.findColl q n with
  | none => s
  | some c =>
    match s.group c.slot with
    | none => s
    | some g =>
      let (s, c) := (c.awaits g).foldl (fun (p : State × Coll) a => p.1.adoptOp p.2 g a.1 a.2) (s, c)
      let c := c.fill g (s.wordOf c)
      let (s, c) := s.forward c g
      let (s, c) := s.writeOuts c g
      let s := (s.putColl c).tidySegs c g
      if c.complete g then s.endColl c else s

/-! ### Substitution (R332, R333) -/

/-- The step or write that takes an awaited operand's segment has happened. -/
def Coll.consumed (c : Coll) (g : Group) (op i : Nat) : Bool :=
  c.written.contains (opKey op i) ||
    (c.derives g).any (fun d => (d.left == op || d.right == op) && (c.val d.out i).isSome)

/-- The substitution point of rank r's contribution is reached (R332): the deadline acts, or the member has left. -/
def State.pointReached (s : State) (c : Coll) (g : Group) (r : Nat) : Bool :=
  (c.deadline != 0 && (c.released || decide (c.deadline ≤ s.position))) ||
    (match g.members[r]? with
     | some m => if m.mirror then (s.memberIncarn m.module).isNone && (s.memberIncarn m.backup).isNone
                 else (s.memberIncarn m.module).isNone
     | none => false)

/-- The operand awaited from rank r at its substitution point: the backup's whole copy replaces what is not yet used, or it is
missing (R332, R333). -/
def State.substitute (s : State) (c : Coll) (g : Group) (op r : Nat) : State × Coll :=
  let need := c.segs.filter (fun i => c.segHas g.rank op i)
  if need.all (fun i => (c.val op i).isSome) || c.judged.contains r then (s, c)
  else
    let m := g.members[r]?
    let from_ := match m with | some m => if m.backup ≠ 0 ∧ m.mirror = false then some m.backup else none | none => none
    let copies := match from_ with
      | some b => need.map (fun i => s.wholeFrom c g.rank op r b i)
      | none => [none]
    let c := { c with judged := r :: c.judged, counted := true }
    let open_ := need.filter (fun i => !(c.consumed g op i))
    if copies.all Option.isSome then
      let s := s.count R.RED_CNT F.RED_CNT_SUBST 1
      let c := { c with subst := c.subst + 1 }
      (need.zip copies).foldl (fun (p : State × Coll) q =>
        match q.2 with
        | some x => if open_.contains q.1 then p.1.adopt p.2 g op r q.1 x else p
        | none => p) (s, c)
    else
      let s := s.count R.RED_CNT F.RED_CNT_MISSING 1
      let s := (s.badContrib c stMissing 0x0501 r).vetoEvent c.epoch vetoMissing
      (s, open_.foldl (fun c i => c.put op i { data := none, veto := vetoMissing }) c)

/-- The substitution point of one rank, or of every rank awaited. -/
def State.substitutePoint (s : State) (q n : Nat) (ranks : Nat → Bool) : State :=
  match s.findColl q n with
  | none => s
  | some c =>
    match s.group c.slot with
    | none => s
    | some g =>
      let (s, c) := (c.awaits g).foldl (fun (p : State × Coll) a =>
        if ranks a.2 && p.1.pointReached p.2 g a.2 then p.1.substitute p.2 g a.1 a.2 else p) (s, c)
      (s.putColl c).pump q n

/-- SUBSTITUTION_POINT (R332, R333): the deadline or a membership loss reaches the point for the contribution of a rank. -/
def execSubstitutionPoint (q : Fin 240) (n : Nat) (rank : Nat) (s : State) : Res :=
  s.whenServing (s.substitutePoint q.val n (fun r => r == rank))

/-! ### Starting (R325 to R328) -/

/-- Tensor descriptors that a collective names: SRC0 to SRC3, DST (0: none). -/
def collAddrs (c : Cmd) : List Nat := [c.at 32 8, c.at 40 8, c.at 48 8, c.at 56 8, c.at 24 8]

/-- Read the descriptors it names (R272). -/
def State.collTds (s : State) (c : Cmd) : List Nat → Except Nat (List (Option TD × List Byte)) × State
  | [] => (.ok [], s)
  | a :: r =>
    if a = 0 then
      match s.collTds c r with
      | (.ok l, s) => (.ok ((none, []) :: l), s)
      | x => x
    else
      match s.readDesc c a 128 128 with
      | (.error e, s) => (.error e, s)
      | (.ok b, s) =>
        match s.collTds c r with
        | (.ok l, s) => (.ok ((some (TD.parse b), b) :: l), s)
        | x => x

def cfClose (c : Cmd) : Bool := bitOf (c.at 9 1) 0

/-- Reserved fields of the collective descriptor (R325). -/
def collReserved (c : Cmd) : Bool :=
  c.at 9 1 / 16 == 0 && c.at 10 1 &&& 0xDF == 0 && c.at 12 2 == 0 && (c.code == 0x23 || c.at 14 2 == 0) &&
    (c.code == 0x22 || !(cfClose c))

/-- The dimension a distributed tensor is split on, for a group of M members (R326). -/
def splitDim (t : TD) (gid m : Nat) : Option Nat :=
  let ds := (List.range t.rank).filter (fun d => t.shards.getD d 0 != 1)
  match ds with
  | [d] => if t.shards.getD d 0 = m ∧ t.group.getD d 0 = gid then some d else none
  | _ => none

/-- The extent of a split dimension is this rank's shard. -/
def shardFits (t : TD) (d m rank : Nat) : Bool :=
  let gs := t.gshape.getD d 0
  let z := (gs + m - 1) / m
  t.ext.getD d 0 == min ((rank + 1) * z) gs - min (rank * z) gs

/-- The tensors agree (R326). On success: the shape of the collective as extents, split dimension. -/
def collShapes (c : Cmd) (g : Group) (srcs : List (Option TD)) (dst : Option TD) : Option (List Nat × Nat) :=
  let m := g.members.length
  let named := (dst :: srcs).filterMap id
  let whole := named.all (fun t => t.ok && !t.plane && decide (t.count ≤ 2 ^ 32))
  let same := fun (a b : TD) => a.fmt == b.fmt && a.rank == b.rank && a.ext == b.ext
  let only0 := (srcs.drop 1).all Option.isNone
  if cfClose c then (if dst.isNone && srcs.all Option.isNone then some ([], 0) else none)
  else if whole = false then none
  else
    match dst with
    | none => none
    | some t =>
      let present := srcs.filterMap id
      let sum := t.fmt == fFp32 || t.fmt == fAcc64
      if c.code = 0x22 then
        (if sum && !t.dist && !present.isEmpty && present.all (fun x => !x.dist && same x t) then some (t.exts, 0) else none)
      else if c.code = 0x20 then
        (match splitDim t g.gid m with
         | some d =>
           if sum && t.dist && shardFits t d m g.rank && !present.isEmpty &&
              present.all (fun x => !x.dist && x.fmt == t.fmt && x.rank == t.rank && x.ext == t.gshape) then
             some (t.gshape.take t.rank, d) else none
         | none => none)
      else if c.code = 0x21 then
        (match srcs.headD none with
         | some x =>
           (match splitDim x g.gid m with
            | some d =>
              if only0 && x.dist && shardFits x d m g.rank && !t.dist && t.fmt == x.fmt && t.rank == x.rank &&
                 t.ext == x.gshape then some (t.exts, d) else none
            | none => none)
         | none => none)
      else
        (if only0 && decide (c.at 14 2 < m) &&
            (match srcs.headD none with
             | some x => c.at 14 2 == g.rank && same x t
             | none => c.at 14 2 != g.rank) then some (t.exts, 0) else none)

/-- The dies that can be home (R330). -/
def State.lendDies (s : State) : List Nat :=
  (List.range 4).filter (fun d => s.dieUp d && !(s.resetHolds.contains d) && s.fld (R.SLV_LEND d) F.SLV_LEND_LEND_MASK != 0 &&
    decide (256 ≤ s.fld (R.SLV_LEND d) F.SLV_LEND_ROW_COUNT))

/-- A source lies on die d: its SRAM, or an HBM stack that it hosts (R16, R325). -/
def State.srcOnDie (s : State) (t : TD) (d : Nat) : Bool :=
  t.count == 0 ||
    (s.isOwn t.base &&
      (let e := t.extent
       match regionOf e.1 with
       | some 0 => -- interleaved view: every granule it reaches lies on a stack of the die
         (decisiveGranules e.1 e.2).all (fun g => (g % 16) / 4 == d) && decide (e.2 ≤ 16 * 4096)
       | some 1 => ((e.1 - 0x10000000000) / 0x1000000000) / 4 == d && ((e.1 + e.2 - 1 - 0x10000000000) / 0x1000000000) / 4 == d
       | some r => r == d + 2
       | none => false))

/-- COLL_DIGEST (R324). -/
def collDigest (c : Cmd) (g : Group) (dst : Option TD) : List Byte :=
  let (f, r, ex) := match dst with
    | some t => (t.fmt, t.rank, if t.dist then t.gshape else t.ext)
    | none => (0, 0, List.replicate 6 0)
  shake256 (g.bytes ++ leBytes c.code 1 ++ leBytes f 1 ++ leBytes r 1 ++ ex.flatMap (fun e => leBytes e 4) ++
    leBytes (c.at 14 2) 2) 8

/-- The checks of R327 in their order, and R280 after them. -/
def State.collCheck (s : State) (c : Cmd) (g : Option Group) (srcs : List (Option TD)) (dst : Option TD) :
    Except Nat (List Nat × Nat) :=
  let named := (dst :: srcs).filterMap id
  match g with
  | none => .error stDescriptor
  | some g =>
    if collReserved c = false then .error stDescriptor
    else
      match collShapes c g srcs dst with
      | none => .error stDescriptor
      | some sh =>
        if s.lendDies.isEmpty then .error stDescriptor
        else if named.any (fun t => !(s.offered t.fmt)) then .error stFormat
        else if (match dst with | some t => t.count == 0 | none => false) then .error stDone
        else if named.any (fun t => t.count != 0 && !(s.boundOk t)) ||
            srcs.zipIdx.any (fun p => match p.1 with | some t => !(s.srcOnDie t p.2) | none => false) then .error stAddress
        else if (match dst with | some t => !t.apart | none => false) then .error stOverlap
        else .ok sh

/-- The codes of a source in logical order, read by the engine: codes, uncorrectable. -/
def State.loadSrc (s : State) (c : Cmd) (t : TD) : List Nat × State × Bool :=
  let els := (List.range t.count).map (coords t.exts)
  let (s, e) := s.readKeys c.who (s.ownKeys (dedupNat (els.flatMap t.bytesOf)))
  (els.map (t.codeAt (s.rdByte c)), s, e)

/-- Load the sources in turn. -/
def State.loadSrcs (s : State) (c : Cmd) : List (Option TD) → List (Option (List Nat)) × State × Bool
  | [] => ([], s, false)
  | none :: r => let (l, s, e) := s.loadSrcs c r; (none :: l, s, e)
  | some t :: r =>
    let (v, s, e) := s.loadSrc c t
    let (l, s, e') := s.loadSrcs c r
    (some v :: l, s, e || e')

/-- Put a source's segments into the operands. -/
def Coll.putSrc (c : Coll) (rank op word : Nat) (codes : List Nat) : Coll :=
  let mine := if 0x20000 ≤ op then c.segs.flatMap (c.elemsOf rank op) else List.range c.total
  let l := mine.zip codes
  c.segs.foldl (fun c i =>
    let els := l.filter (fun e => e.1 / 4096 == i)
    if els.isEmpty then c else c.put op i { data := some (els.map Prod.snd), veto := word }) c

/-- The collective of a command whose checks have passed: its fixed part. -/
def State.newColl (s : State) (c : Cmd) (v : Nat) (g : Group) (srcs : List (Option TD)) (dst : Option TD) (dstB : List Byte)
    (gext : List Nat) (split cseq : Nat) : Coll :=
  let dies := s.lendDies
  let home := dies.getD (cseq % dies.length) 0
  let dl := c.at 16 8
  let n := s.fld R.RED_CFG F.RED_CFG_SAMPLE_LOG
  { queue := c.queue, seq := c.seq, slot := v, gid := g.gid, cseq := cseq, code := c.code, close := cfClose c,
    epoch := c.epoch, digest := collDigest c g dst, fmt := match dst with | some t => t.fmt | none => fFp32,
    gext := gext, split := split,
    shard := max 1 ((gext.getD split 1 + g.members.length - 1) / g.members.length), home := home,
    lend := s.fld (R.SLV_LEND home) F.SLV_LEND_LEND_MASK, srcs := srcs.map Option.isSome, dst := dstB, root := c.at 14 2,
    deadline := dl,
    sampled := (c.code == 0x20 || c.code == 0x22) && !(cfClose c) && !(bitOf (c.at 9 1) 3) &&
      s.fld R.RED_CFG F.RED_CFG_CHECK_OFF == 0 && (cseq + c.at 11 1) % 2 ^ n == 0,
    word := none, vfield := c.at 10 1,
    late := dl != 0 && decide (dl < s.position), released := false, ops := [], sent := [], written := [], judged := [],
    mismatched := [], veto := 0, elems := 0, nonfinite := 0, subst := 0, counted := false, linkFail := false,
    dataErr := false, checks := [] }

/-- The CLOSE of E on the commit group captures its contribution (R339, R348). -/
def State.capture_ (s : State) (c : Coll) : State :=
  if c.close && s.fld R.TRN_CFG F.TRN_CFG_COMMIT_GROUP == c.gid then { s with captured := c.epoch :: s.captured } else s

/-- The contribution of this member enters its operands (R337, R339). -/
def State.contribute (s : State) (c : Coll) (g : Group) (data : List (Option (List Nat))) : Coll :=
  let word := s.wordOf c
  let bad := if c.dataErr then vetoData else 0
  if c.close then c.put (opNode 0 g.mySlot) 0 { data := none, veto := word }
  else if c.adds then
    (List.range 4).foldl (fun c d =>
      match data.getD d none with
      | some l => c.putSrc g.rank (opSrc d) bad l
      | none => c) c
  else
    match data.headD none with
    | some l => c.putSrc g.rank (c.ownOp g) (word ||| bad) l
    | none => c

/-- A collective has started: its sources are read, its contribution enters, and what follows at once. -/
def State.runColl (s : State) (cmd : Cmd) (v : Nat) (g : Group) (srcs : List (Option TD)) (dst : Option TD) (dstB : List Byte)
    (gext : List Nat) (split cseq : Nat) : State :=
  let (data, s, e) := s.loadSrcs cmd srcs
  let acc := (srcs.zip data).any (fun p => match p.1, p.2 with
    | some t, some l => t.fmt == fAcc64 && l.any (fun x => !(accOk x))
    | _, _ => false)
  if acc then s.fail cmd stDescriptor
  else
    let c : Coll := { s.newColl cmd v g srcs dst dstB gext split cseq with dataErr := e }
    let s := s.countLate c.late
    let s := if c.epoch = 0 then s else s.holdVeto c.epoch 0
    let s := if cmd.at 10 1 = 0 then s else s.vetoEvent c.epoch vetoSoftware
    let c := s.contribute c g data
    let s := s.capture_ c
    let s := match dst with | some t => (s.gather cmd (s.sharedBytes t)).1 | none => s
    let s := ({ s with colls := s.colls ++ [c] }).pump c.queue c.seq
    if c.deadline != 0 && decide (c.deadline ≤ s.position) then s.substitutePoint c.queue c.seq (fun _ => true) else s

/-- CSEQ advances at a command of the group that starts, with the epoch remembered for R340. -/
def State.advanceCseq (s : State) (v : Nat) (g : Group) (e : Nat) : State :=
  let l := if e = 0 ∨ g.epochs.contains e = true then g.epochs else (e :: g.epochs).take 64
  s.setGroup v (some { g with cseq := (g.cseq + 1) % 65536, epochs := l })

/-- The work of a collective command that starts (R327, R340). -/
def State.collBody (s : State) (c : Cmd) : State :=
  let slot := s.slotOf (c.at 8 1)
  let grp := slot.bind s.group
  let s := match slot, grp with
    | some v, some g => s.advanceCseq v g c.epoch
    | _, _ => s
  if c.epoch ≠ 0 ∧ s.retracted.contains c.epoch = true then s.fail c stCancelled
  else
    match s.collTds c (collAddrs c) with
    | (.error e, s) => s.fail c e
    | (.ok l, s) =>
      let srcs := (l.take 4).map Prod.fst
      let dst := (l.getD 4 (none, [])).1
      match s.collCheck c grp srcs dst with
      | .error e => if e = stDone then s.finish c e 0 (((grp.map Group.cseq).getD 0) * 2 ^ 48) s.now else s.fail c e
      | .ok (gext, split) =>
        match slot, grp with
        | some v, some g => s.runColl c v g srcs dst (l.getD 4 (none, [])).2 gext split g.cseq
        | _, _ => s.fail c stDescriptor

/-- The order within a group (R328): earlier collectives of the group have started, a CLOSE waits until they have completed,
and 16 are in flight at most. -/
def State.collWaits (s : State) (q n : Nat) (close : Bool) : Bool :=
  match s.findCmd q n with
  | none => true
  | some c =>
    let same := (s.before c).filter (fun x => isCollective x.code && x.at 8 1 == c.at 8 1)
    cfClose c != close || same.any (fun x => close || x.phase == .accepted) ||
      decide (16 ≤ (s.colls.filter (fun x => x.gid == c.at 8 1)).length)

/-- A collective command of a code starts. -/
def State.collStart (s : State) (q n code : Nat) (close : Bool) : State :=
  if s.collWaits q n close then s else s.starting q n code State.collBody

/-- REDUCE_SCATTER (R325 to R331). CLOSE on it is reserved (R326). -/
def execReduceScatter (q : Fin 240) (n : Nat) (s : State) : Res :=
  s.whenServing (match s.findCmd q.val n with
    | some c => s.collStart q.val n 0x20 (cfClose c)
    | none => s)
/-- ALL_GATHER (R331). -/
def execAllGather (q : Fin 240) (n : Nat) (s : State) : Res :=
  s.whenServing (match s.findCmd q.val n with
    | some c => s.collStart q.val n 0x21 (cfClose c)
    | none => s)
/-- ALL_REDUCE (R329), without CLOSE. -/
def execAllReduce (q : Fin 240) (n : Nat) (s : State) : Res := s.whenServing (s.collStart q.val n 0x22 false)
/-- BROADCAST (R331). -/
def execBroadcast (q : Fin 240) (n : Nat) (s : State) : Res :=
  s.whenServing (match s.findCmd q.val n with
    | some c => s.collStart q.val n 0x23 (cfClose c)
    | none => s)
/-- CLOSE (R339): an ALL_REDUCE of the veto words alone. -/
def execCloseReduce (q : Fin 240) (n : Nat) (s : State) : Res := s.whenServing (s.collStart q.val n 0x22 true)

/-! ### Steps and their checks (R329, R334) -/

/-- One rounded addition of two codes (R162, R164). -/
def redAdd (f : Nat) (ovfInf : Bool) (x y : Nat) : CvRes := if f = fAcc64 then accAdd x y else fAdd fFp32 ⟨0, ovfInf, 0⟩ x y

/-- The sum of two operands (R189). -/
def redSum (f : Nat) (ovfInf : Bool) (a b : OpVal) : OpVal where
  data := match a.data, b.data with
    | some x, some y => some ((x.zip y).map (fun p => (redAdd f ovfInf p.1 p.2).code))
    | some x, none => some x
    | none, y => y
  veto := a.veto ||| b.veto

/-- The first step whose operands are both here (segments in order, then the order of the derivations). -/
def Coll.ready (c : Coll) (g : Group) : Option (Derive × Nat) :=
  c.segs.findSome? (fun i => ((c.derives g).find? (fun d => d.hasL && d.hasR && (c.val d.out i).isNone &&
    (c.val d.left i).isSome && (c.val d.right i).isSome)).map (fun d => (d, i)))

/-- The near-memory check of a step (R334): the first operand is written to the check buffer, the second applied as updates
there. The buffer is used from its base (log 22). -/
def State.nearCheck (s : State) (f : Nat) (ovfInf : Bool) (x y : List Nat) : State :=
  let n := fmtBits f / 8
  let base := s.fld R.RED_CHKBUF F.RED_CHKBUF_BASE * 2 ^ 20
  let rs := (x.zip y).map (fun p => nmaApply 0 f ovfInf p.1 p.2)
  let s := (s.writeMem base (rs.flatMap (fun r => leBytes r.code n))).1
  rs.zipIdx.foldl (fun s p =>
    let st := hbmStack ((memKey (base + n * p.2)).getD 0)
    ((s.countWrap (R.NMA_UPD st) F.NMA_UPD_APPLIED 1).count (R.NMA_EV st) F.NMA_EV_OVERFLOW (b2n p.1.ovf)).count (R.NMA_EV st)
      F.NMA_EV_INVALID (b2n p.1.inv)) s

/-- The first 16 bytes of SHAKE256 over a step's output segment (R334). -/
def stepDigest (f : Nat) (l : List Nat) : List Byte := shake256 (l.flatMap (fun v => leBytes v (fmtBits f / 8))) 16

/-- Key of a collective for the partner's digests. -/
def Coll.key (c : Coll) : Nat := c.slot * 65536 + c.cseq

/-- A pendant check has both digests (R334, R335): it is counted, and a difference is a mismatch of this rank's step. -/
def State.judgeCheck (s : State) (c : Coll) (g : Group) (own other : List Byte) : State × Coll :=
  let s := s.count R.RED_CHK F.RED_CHK_CHECKED 1
  let c := { c with counted := true }
  if own = other then (s, c)
  else
    let s := s.count R.RED_CNT F.RED_CNT_MISMATCH 1
    let s := (s.badContrib c stMismatch 0x0502 g.rank).vetoEvent c.epoch vetoMismatch
    (s, { c with veto := c.veto ||| vetoMismatch })

/-- The check of a step of a sampled collective (R334). -/
def State.stepCheck (s : State) (c : Coll) (g : Group) (key : Nat) (a b out : OpVal) (ovfInf : Bool) : State × Coll :=
  match a.data, b.data with
  | some x, some y =>
    if !c.sampled then (s, c)
    else
      let mirror := match g.members[g.rank]? with | some m => m.mirror | none => false
      if s.fld R.RED_CFG F.RED_CFG_CHECK_PATH = 1 ∧ mirror = true then
        if s.pairState = psPaired ∧ s.mirror = true then
          let dg := stepDigest c.fmt (out.data.getD [])
          let s := s.sendPend 0x34 [1, c.key, key] dg
          match s.stepDigests.find? (fun d => d.1 == c.key && d.2.1 == key) with
          | some d => ({ s with stepDigests := s.stepDigests.filter (fun e => e != d) }).judgeCheck c g dg d.2.2
          | none => (s, { c with checks := c.checks ++ [(key, dg)] })
        else (s.count R.RED_CHK F.RED_CHK_UNCHECKED 1, { c with counted := true })
      else
        let base := s.fld R.RED_CHKBUF F.RED_CHKBUF_BASE * 2 ^ 20
        if base = 0 ∨ s.mappedRange base (2 ^ 20) = false then
          (s.count R.RED_CHK F.RED_CHK_UNCHECKED 1, { c with counted := true })
        else ((s.nearCheck c.fmt ovfInf x y).count R.RED_CHK F.RED_CHK_CHECKED 1, { c with counted := true })
  | _, _ => (s, c)

/-- A lent brush of the home die, among those captured (R330). -/
def State.lentBrush (s : State) (c : Coll) : Option Nat :=
  (List.range 32).find? (fun b => bitOf c.lend b && s.lent.contains (brushKey c.home b))

/-- A step's output is known: stored, checked, and what follows. -/
def State.runStep (s : State) (c : Coll) (g : Group) (d : Derive) (i : Nat) (a b : OpVal) : State :=
  let ovf := match s.findCmd c.queue c.seq with | some x => bitOf (x.at 9 1) 2 | none => false
  let out := redSum c.fmt ovf a b
  let (s, c) := s.stepCheck (c.putOut g (s.wordOf c) d.out i out) g (opKey d.out i) a b out ovf
  (s.putColl c).pump c.queue c.seq

/-- REDUCE_STEP (R329, R330): the first ready step of a collective is performed on a brush lent by its home die, and its sum
goes on; the steps of a CLOSE have no data and need no brush. -/
def execReduceStep (q : Fin 240) (n : Nat) (s : State) : Res :=
  s.whenServing (
    match s.findColl q.val n with
    | none => s
    | some c =>
      match s.group c.slot with
      | none => s
      | some g =>
        match c.ready g with
        | none => s
        | some (d, i) =>
          match c.val d.left i, c.val d.right i with
          | some a, some b =>
            if c.close then s.runStep c g d i a b
            else
              match s.lentBrush c with
              | none => s
              | some br => (s.lendEnd c.home br).runStep c g d i a b
          | _, _ => s)

/-- A step digest of the partner arrives (R334). -/
def State.stepDigestRx (s : State) (ckey key : Nat) (dg : List Byte) : State :=
  match s.colls.find? (fun c => c.key == ckey && c.checks.any (fun x => x.1 == key)) with
  | some c =>
    match s.group c.slot, c.checks.find? (fun x => x.1 == key) with
    | some g, some x =>
      let (s, c) := s.judgeCheck { c with checks := c.checks.filter (fun y => y.1 != key) } g x.2 dg
      (s.putColl c).pump c.queue c.seq
    | _, _ => s
  | none => { s with stepDigests := s.stepDigests ++ [(ckey, key, dg)] }

/-- The pair has ended: checks that wait for the partner are not made (log 23). -/
def State.dropChecks (s : State) : State :=
  let s := { s with stepDigests := [] }
  s.colls.foldl (fun s c =>
    if c.checks.isEmpty then s
    else ((s.count R.RED_CHK F.RED_CHK_UNCHECKED c.checks.length).putColl { c with checks := [], counted := true }).pump
      c.queue c.seq) s

/-! ### Arrivals (R341) -/

/-- The bytes held for plain backups (R332). -/
def State.backupBytes (s : State) : Nat :=
  (s.redRx.map (fun x =>
    match s.group x.slot with
    | some g =>
      (match g.members[x.sender]? with
       | some m => if m.backup = x.hdr.src.toNat ∧ m.mirror = false then (x.pkts.map (fun p => p.2.length)).sum else 0
       | none => 0)
    | none => 0)).sum

/-- Go on with the collective of a segment, if it is in flight. -/
def State.pumpOf (s : State) (slot cseq : Nat) : State :=
  match s.colls.find? (fun c => c.slot == slot && c.cseq == cseq) with
  | some c => s.pump c.queue c.seq
  | none => s

/-- A segment header arrives (R341). A segment that nothing here can tell whole yet, its collective not having started, is
acknowledged at its header (log 40). It is discarded where it fits no group or sender; acknowledged and discarded for a
retracted epoch or a collective already past (R340, R332); held, unacknowledged, by injection kind 2 (R466, R467). -/
def State.redHdrRx (s : State) (h : Hdr) (b : List Byte) : State :=
  let v := h.vc.val - 2
  let cseq := h.addr.toNat / 2 ^ 32
  let from_ := leField b 14 2
  let seg := leField b 8 4
  match s.group v with
  | none => s
  | some g =>
    match g.members[from_]? with
    | none => s
    | some m =>
      let src := h.src.toNat
      if leField b 3 1 ≠ g.gid ∨ (src ≠ m.module ∧ (m.backup = 0 ∨ src ≠ m.backup)) then s
      else if s.retracted.contains (leField b 18 6) then s.ackSeg h cseq seg
      else
        let live := s.colls.any (fun c => c.slot == v && c.cseq == cseq)
        if live = false ∧ 32768 ≤ (cseq + 65536 - g.cseq) % 65536 then
          (if m.mirror then s.count R.RED_CHK F.RED_CHK_DUP 1 else s).ackSeg h cseq seg
        else
          let hold := s.pert 2 && s.fld R.PERT_CONTRIB F.PERT_CONTRIB_GROUP == g.gid &&
            decide (s.fld R.PERT_CONTRIB F.PERT_CONTRIB_RANK_LO ≤ from_) && decide (from_ ≤ s.fld R.PERT_CONTRIB F.PERT_CONTRIB_RANK_HI)
          let x : RedSeg :=
            { slot := v, hdr := h, cseq := cseq, sender := from_, level := leField b 12 2, seg := seg, count := leField b 4 4,
              epoch := leField b 18 6, veto := leField b 17 1, digest := (b.drop 24).take 8, pkts := [],
              held := if hold then s.now + s.fld R.PERT_CONTRIB F.PERT_CONTRIB_DELAY_US * usTicks + 1 else 0,
              acked := !live && !hold }
          let s := if x.acked then s.ackSeg h cseq seg else s
          let s := if hold then s.count R.PERT_CNT F.PERT_CNT_DELAYED 1 else s
          let same := fun (y : RedSeg) => y.slot == v && y.cseq == cseq && y.hdr.src == h.src && y.sender == from_ && y.seg == seg &&
            y.level == x.level
          ({ s with redRx := x :: s.redRx.filter (fun y => !(same y)) }).pumpOf v cseq

/-- Segment elements arrive (R341): they belong to the last header of their flow. A plain backup's segment that does not fit
the substitution buffer is dropped (R332). -/
def State.redDataRx (s : State) (h : Hdr) (b : List Byte) : State :=
  let v := h.vc.val - 2
  let cseq := h.addr.toNat / 2 ^ 32
  match s.redRx.find? (fun x => x.slot == v && x.hdr.src == h.src), s.group v with
  | some x, some g =>
    if x.cseq ≠ cseq then s
    else
      let isBack := match g.members[x.sender]? with | some m => m.backup == h.src.toNat && !m.mirror | none => false
      let mine := fun (y : RedSeg) => y.slot == v && y.hdr.src == h.src && y.cseq == cseq && y.sender == x.sender && y.seg == x.seg &&
        y.level == x.level
      if isBack = true ∧ s.fld R.RED_SUBBUF F.RED_SUBBUF_SIZE * 2 ^ 20 < s.backupBytes + b.length then
        (({ s with redRx := s.redRx.filter (fun y => !(mine y)) }).count R.RED_CHK F.RED_CHK_SUB_DROP 1).ackSeg x.hdr x.cseq x.seg
      else
        ({ s with redRx := s.redRx.map (fun y => if mine y then { y with pkts := y.pkts ++ [(h.addr.toNat % 2 ^ 32, b)] } else y) }
          ).pumpOf v cseq
  | _, _ => s

/-- A segment's acknowledgement arrives (R302, R341). -/
def State.redAckRx (s : State) (h : Hdr) : State :=
  { s with redTx := s.redTx.filter (fun x => !(x.dst == h.src.toNat && x.vc == h.vc.val && x.seq == h.seq.toNat &&
      x.cseq == h.addr.toNat / 2 ^ 32 && x.seg == h.addr.toNat % 2 ^ 32)) }

/-- The holds of injection kind 2 that have ended (R466): the segments of a collective that has not started are acknowledged
now, as at their headers; the others go into theirs. -/
def State.holdsEnd (s : State) : State :=
  let due := fun (x : RedSeg) => x.held != 0 && decide (x.held ≤ s.now + 1)
  let early := fun (x : RedSeg) => !(s.colls.any (fun c => c.slot == x.slot && c.cseq == x.cseq))
  let free := s.redRx.filter due
  let redRx := s.redRx.map (fun x => if due x then { x with held := 0, acked := x.acked || early x } else x)
  let late := free.filter (fun x => early x && !x.acked)
  let s := { s with redRx := redRx }
  let s := late.reverse.foldl (fun s x => s.ackSeg x.hdr x.cseq x.seg) s
  free.reverse.foldl (fun s x => s.pumpOf x.slot x.cseq) s

/-- CONTRIB_HOLD_END (R466): the delay of held segments is over and they arrive. -/
def execContribHoldEnd (s : State) : Res := s.whenServing s.holdsEnd

/-! ### Retraction (R340) -/

/-- Discard epoch e at this module, and end its collectives (R340). -/
def State.retractHere (s : State) (e : Nat) : State :=
  let s := { s with retracted := (e :: s.retracted.filter (· != e)).take 64 }
  let s := s.dropSegs (fun x => x.epoch == e)
  s.colls.foldl (fun s c =>
    if c.epoch = e then
      (if c.elems = 0 then s.leaveColl c stCancelled
       else s.leaveColl { c with veto := c.veto ||| vetoMissing } stMissing)
    else s) s

/-- Send the RETRACTs of epoch e: to every member and backup of each group on which a collective of it started (R340). -/
def State.retractAll (s : State) (e : Nat) (word : Nat) : State :=
  let s := (List.range 10).foldl (fun s v =>
    match s.group v with
    | none => s
    | some g =>
      if g.epochs.contains e then
        ((memberAddrs g.members).filter (· != s.ownAddr)).foldl (fun s m =>
          let body := leBytes e 6 ++ leBytes word 1 ++ leBytes g.gid 1 ++ List.replicate 8 0
          let s := (s.sendReq m (v + 2) tRetract 0 body .none).2
          (s.count R.RED_CNT F.RED_CNT_RETRACT_TX 1).errRecord
            { cls := clsCorrected, code := 0x0505, unit := 0xD8, info0 := m, info1 := e + word * 2 ^ 48 }) s
      else s) s
  s.retractHere e

/-- A RETRACT arrives (R340). One of a committed epoch is ignored and recorded; every one is answered. -/
def State.retractRx (s : State) (h : Hdr) (b : List Byte) : State :=
  let e := leField b 0 6
  let word := leField b 6 1
  let s := if s.epochState e = .committed then
      s.errRecord { cls := clsDeferred, code := 0x0504, unit := 0xD8, info0 := h.src.toNat, info1 := e }
    else
      let s := (s.holdVeto e word).retractHere e
      (s.errRecord { cls := clsCorrected, code := 0x0503, unit := 0xD8, info0 := h.src.toNat, info1 := e + word * 2 ^ 48 }).count
        R.RED_CNT F.RED_CNT_RETRACT_RX 1
  s.respond h tRetractAck false 0 []

/-! ### The software veto -/

/-- A write of RED_VETO_SET (R336): BITS other than 0x20 are reserved (R9), a settled epoch is ignored. -/
def State.vetoSet (s : State) (v : Word) : State :=
  let e := F.RED_VETO_SET_EPOCH.get v
  if F.RED_VETO_SET_BITS.get v ≠ vetoSoftware ∨ e ≤ s.settled then s else s.vetoEvent e vetoSoftware

/-- RED_VETO_SET_WRITE (R336). -/
def execRedVetoSetWrite (v : BitVec 64) (s : State) : Res := s.whenMain (s.vetoSet v)

end Sys2Proof.Machine
end

