-- ==== Sys2Proof/Machine/Held.lean ====
section
/-!
DEFINITION. Waits on the beat position and their release (R47 to R50).
-/

namespace Sys2Proof.Machine

open Sys2Proof

/-- WAITB_RELEASE (R47): the position has reached the target of queue q's WAITB, which completes with DONE. -/
def execWaitbRelease (q : Fin 240) (s : State) : Res :=
  .next (
    match (s.qint q.val).wait with
    | some (.beat t rd) =>
      if s.easelUp q.val && s.qState q.val == qWait && beatAdvances s.beatState && decide (t ≤ s.position) then
        s.finishWaitRd q.val rd stDone
      else s
    | _ => s)

/-- Release every WAITB with LATE: how many, and the state after. -/
def State.releaseWaits (s : State) : Nat × State :=
  s.queues.foldl (fun (p : Nat × State) e =>
    match e.2.wait with
    | some (.beat _ rd) => (p.1 + 1, p.2.finishWaitRd e.1 rd stLate)
    | _ => p) (0, s)

/-- Release every pending AT_BEAT apply: its boundary counts as reached. -/
def State.releaseApplies (s : State) : Nat × State :=
  ((s.applies.filter (fun p => p.2.atBeat && p.2.target != 0)).length,
   { s with applies := s.applies.map (fun p => if p.2.atBeat then (p.1, ({ p.2 with target := 0 } : ApplyReq)) else p) })

/-- The waiting PRIME has a deadline that the position has not reached. -/
def State.gateTimed (s : State) (d g : Nat) (w : GateWait) : Bool :=
  match s.findCmd w.queue w.seq with
  | some c => !(s.follows d g) && c.at 40 8 != 0 && decide (s.position < c.at 40 8) && !w.released
  | none => false

/-- Release the deadlines of the batch gates. -/
def State.releaseGates (s : State) : Nat × State :=
  (List.range 16).foldl (fun (p : Nat × State) k =>
    let x := p.2.gate (k / 4) (k % 4)
    let n := (x.waits.filter (p.2.gateTimed (k / 4) (k % 4))).length
    if n = 0 then p
    else
      let ws := x.waits.map (fun w => if p.2.gateTimed (k / 4) (k % 4) w then ({ w with released := true } : GateWait) else w)
      (p.1 + n, (p.2.setGate (k / 4) (k % 4) { x with waits := ws }).tryClose (k / 4) (k % 4))) (0, s)

/-- Release the deadline beats of the collectives in flight. -/
def State.releaseColls (s : State) : Nat × State :=
  let hit := fun (c : Coll) => c.deadline != 0 && !c.released && decide (s.position < c.deadline)
  let cs := s.colls.filter hit
  let t : State := { s with colls := s.colls.map (fun c => if hit c then ({ c with released := true } : Coll) else c) }
  (cs.length, cs.foldl (fun s c => s.substitutePoint c.queue c.seq (fun _ => true)) t)

/-- A write of BEAT_CTL.RELEASE_HELD (R50). -/
def State.releaseHeld (s : State) : State :=
  if beatAdvances s.beatState then s
  else
    let (a, s) := s.releaseWaits
    let (b, s) := s.releaseApplies
    let (c, s) := s.releaseGates
    let (d, s) := s.releaseColls
    s.count R.BEAT_EVCNT F.BEAT_EVCNT_LATE (a + b + c + d)

/-- RELEASE_HELD (R50). -/
def execReleaseHeld (s : State) : Res := s.whenMain s.releaseHeld

end Sys2Proof.Machine
end

