-- ==== Sys2Proof/Machine/QueueCtl.lean ====
section
/-!
DEFINITION. Control of queues (R194 to R198, R216, R222): doorbells, QCTL commands, taking a ring entry, consuming completion
slots, and leaving a wait.
-/

namespace Sys2Proof.Machine

open Sys2Proof

/-- The register block of a queue. -/
def queueBlock (q : Nat) : Block := if q < 192 then .cpd (Fin.ofNat 4 (q / 48)) else .cpq

/-- A queue's registers serve (R32). -/
def State.qBlockUp (s : State) (q : Nat) : Bool := s.blockUp (queueBlock q)

/-! ### Lock requests to other modules (R206, R238, R240) -/

/-- The body of a LOCK_OP: kind, easel unit, queue, incarnation, QINCARN (the spec gives it no layout; log 15). -/
def lockBody (kind : Nat) (o : LockOwner) : List Byte :=
  [BitVec.ofNat 8 kind, BitVec.ofNat 8 o.unit, BitVec.ofNat 8 o.queue] ++ leBytes o.incarn 8 ++ leBytes o.qincarn 4

/-- Kinds of LOCK_OP, as `LockReqKind` lists them. -/
def lockKind : LockReqKind → Nat
  | .acquire => 0
  | .acquireTry => 1
  | .release => 2
  | .leave => 3

/-- Send a lock request of queue q to another module: VC1, ADDR the store and index. -/
def State.sendLock (s : State) (q m store ix kind : Nat) (o : ReqOwner) : Nat × State :=
  s.sendReq m 1 tLockOp (store * 8192 + ix) (lockBody kind (s.ownerOf q)) o

/-- The requests of a queue's instruction are answered to nobody. -/
def State.abandonReqs (s : State) (hit : ReqOwner → Bool) : State :=
  { s with fabric := { s.fabric with requests := s.fabric.requests.map (fun r =>
      if hit r.owner then { r with owner := .none } else r) } }

/-- A queue's waiting instruction is given up: it has consumed nothing and holds nothing (R197, R233, R238). A remote lock's
waiter leaves the store's list. -/
def State.abandonWait (s : State) (q : Nat) : State :=
  match (s.qint q).wait with
  | some .sem => (s.leaveSems q).updQ q (fun i => { i with wait := none })
  | some (.lock _ _) =>
    let rs := s.fabric.requests.filter (fun r => decide (r.owner = .lock q))
    let s := (s.leaveLocks q).abandonReqs (fun o => decide (o = .lock q))
    let s := rs.foldl (fun s r =>
      (s.sendLock q r.dst (r.addr / 8192) (r.addr % 8192) 3 .none).2) s
    s.updQ q (fun i => { i with wait := none })
  | some (.load _ _ _) => (s.abandonReqs (fun o => decide (o = .load q))).updQ q (fun i => { i with wait := none })
  | some (.unlock _) => s
  | _ => s.updQ q (fun i => { i with wait := none })

/-! ### Doorbells -/

/-- A write of QTAIL (R196, R222). -/
def State.doorbell (s : State) (q tail : Nat) : State :=
  let st := s.qState q
  if st = qOff then s
  else
    let n := tail % 2 ^ 32
    if (n + 2 ^ 32 - s.fld (R.QHEAD q) F.QHEAD_HEAD) % 2 ^ 32 ≤ 2 ^ s.fld (R.QCFG q) F.QCFG_RING_LOG then
      let s := s.setFld (R.QTAIL q) F.QTAIL_TAIL n
      if st = qIdle ∧ s.pendingEntries q ≠ 0 then s.setQState q qRun 0 else s
    else s.count (R.QERR q) F.QERR_DB_BAD 1

/-- QTAIL_DOORBELL (R196): a write to QTAIL. -/
def execQtailDoorbell (q : Fin 240) (v : BitVec 64) (s : State) : Res :=
  .next (if s.qBlockUp q.val then s.doorbell q.val v.toNat else s)

/-! ### QCTL (R197) -/

/-- A DISABLE or queue reset is waiting: every QCTL command has no effect. -/
def State.qClosing (s : State) (q : Nat) : Bool := (s.qint q).disabling || (s.qint q).resetting

/-- ENABLE. -/
def State.qEnable (s : State) (q : Nat) : State :=
  let n := s.fld (R.QCFG q) F.QCFG_RING_LOG
  if s.qState q = qOff ∧ s.qClosing q = false ∧ 1 ≤ n ∧ n ≤ 16 ∧ s.crecLog q ≤ 16 then
    let s := [R.QHEAD q, R.QTAIL q, R.CHEAD q, R.CTAIL q, R.QSEQ q, R.QEPOCH q].foldl (fun s a => s.setReg a 0) s
    let s := (List.range 31).foldl (fun s i => s.setReg (R.QSREG q (i + 1)) 0) s
    let s := s.setFld (R.QPRED q) F.QPRED_P 1
    (s.setFld (R.QSTAT q) F.QSTAT_FAULT 0).setQState q qIdle 0
  else s

/-- DISABLE. -/
def State.qDisable (s : State) (q : Nat) : State :=
  let st := s.qState q
  if s.qClosing q = false ∧ (st = qIdle ∨ st = qStopped ∨ st = qFaulted) then
    ((s.updQ q (fun i => { i with disabling := true })).setQState q qStopped 0).settleOff q
  else s

/-- STOP: a wait is given up, and the instruction issues again on RESUME. An UNLOCK that has been sent is not given up: its
outcome still arrives (R238 releases once). -/
def State.qStop (s : State) (q : Nat) : State :=
  let st := s.qState q
  if s.qClosing q = false ∧ (st = qIdle ∨ st = qRun ∨ st = qWait) then (s.abandonWait q).setQState q qStopped 0 else s

/-- RESUME. -/
def State.qResume (s : State) (q : Nat) : State :=
  if s.qClosing q = false ∧ s.qState q = qStopped then
    let s := s.setFld (R.QSTAT q) F.QSTAT_FAULT 0
    match (s.qint q).wait with
    | some (.unlock _) => s.setQState q qWait onLock
    | _ => s.setQState q (if s.pendingEntries q = 0 then qIdle else qRun) 0
  else s

/-- SKIP: the faulted list's record carries the fault status. -/
def State.qSkip (s : State) (q : Nat) : State :=
  if s.qClosing q = false ∧ s.qState q = qFaulted then s.endList q (s.fld (R.QSTAT q) F.QSTAT_FAULT) else s

/-- A write of QCTL: one command bit, or no effect (R197). -/
def State.qctl (s : State) (q v : Nat) : State :=
  let b := v % 32
  if b = 1 then s.qEnable q else if b = 2 then s.qDisable q else if b = 4 then s.qStop q
  else if b = 8 then s.qResume q else if b = 16 then s.qSkip q else s

/-- QUEUE_ENABLE. -/
def execQueueEnable (q : Fin 240) (s : State) : Res := .next (if s.qBlockUp q.val then s.qEnable q.val else s)

/-- QUEUE_DISABLE. -/
def execQueueDisable (q : Fin 240) (s : State) : Res := .next (if s.qBlockUp q.val then s.qDisable q.val else s)

/-- QUEUE_STOP. -/
def execQueueStop (q : Fin 240) (s : State) : Res := .next (if s.qBlockUp q.val then s.qStop q.val else s)

/-- QUEUE_RESUME. -/
def execQueueResume (q : Fin 240) (s : State) : Res := .next (if s.qBlockUp q.val then s.qResume q.val else s)

/-- QUEUE_SKIP. -/
def execQueueSkip (q : Fin 240) (s : State) : Res := .next (if s.qBlockUp q.val then s.qSkip q.val else s)

/-! ### Ring entries (R194, R195) -/

/-- The easel of a queue issues now: in service, not DETACHING (R386), no quiesce of a join (R384). -/
def State.issuing (s : State) (q : Nat) : Bool := s.easelUp q && s.mode != mDetaching && !s.pend.quiesced

/-- The list of a ring entry begins. -/
def State.enterList (s : State) (q head slot : Nat) (b : List Byte) : State :=
  (s.updQ q (fun i => { i with inList := true, entry := head, tag := leField b 8 2, wantRec := bitOf (leField b 10 1) 0,
                               maxw := leField b 12 4, slot := slot, issued := 0, wait := none })).setPc q (leField b 0 8)

/-- The entry at HEAD is taken: its list begins, or it faults the queue, or waits for a completion slot. -/
def State.takeEntry (s : State) (q : Nat) : State :=
  let head := s.fld (R.QHEAD q) F.QHEAD_HEAD
  let a := ((s.reg (R.QBASE q)).toNat + 16 * (head % 2 ^ s.fld (R.QCFG q) F.QCFG_RING_LOG)) % 2 ^ 64
  match s.fetch q a 16 16 with
  | (.error st, s) => (s.setPc q a).queueFault q st 0
  | (.ok b, s) =>
    let rec_ := bitOf (leField b 10 1) 0
    if leField b 11 1 ≠ 0 ∨ leField b 10 1 / 2 ≠ 0 ∨ (rec_ = true ∧ s.crecLog q = 0) then
      ((s.updQ q (fun i => { i with tag := leField b 8 2 })).setPc q a).queueFault q stDescriptor 0
    else if rec_ then
      if s.slotFree q = false then s.waitOn q onSlot .reissue
      else if s.slotMapped q (s.fld (R.CTAIL q) F.CTAIL_CTAIL) = false then
        ((s.updQ q (fun i => { i with tag := leField b 8 2 })).setPc q a).queueFault q stAddress 0
      else
        let (i, s) := s.reserveSlot q
        s.enterList q head i b
    else s.enterList q head 0 b

/-- RING_ENTRY_TAKE (R194): the easel of a running queue that is in no list takes its next pending entry. -/
def execRingEntryTake (q : Fin 240) (s : State) : Res :=
  .next (
    let q := q.val
    if s.issuing q && s.qState q == qRun && !(s.qint q).inList && s.pendingEntries q != 0 then s.takeEntry q else s)

/-! ### Completion slots -/

/-- A write of CHEAD: a value beyond CTAIL is ignored; an instruction that waits for a slot issues again (R216). -/
def State.cheadWrite (s : State) (q v : Nat) : State :=
  let n := v % 2 ^ 32
  let used := s.slotsUsed q
  let step := (n + 2 ^ 32 - s.fld (R.CHEAD q) F.CHEAD_CHEAD) % 2 ^ 32
  if used < step then s
  else
    let s := s.setFld (R.CHEAD q) F.CHEAD_CHEAD n
    if s.qState q = qWait ∧ s.fld (R.QSTAT q) F.QSTAT_WAIT_ON = onSlot ∧ s.slotFree q = true then s.reissue q else s

/-- CHEAD_WRITE (R216). -/
def execCheadWrite (q : Fin 240) (v : BitVec 64) (s : State) : Res :=
  .next (if s.qBlockUp q.val then s.cheadWrite q.val v.toNat else s)

end Sys2Proof.Machine
end

