-- ==== Sys2Proof/Machine/HostBase.lean ====
section
/-!
DEFINITION. What the module sends to its host (R373, R392, R393): host egress and its replay buffer, queue pairs and the
module's RDMA WRITEs; and requests for identity signatures (R420).
-/

namespace Sys2Proof.Machine

open Sys2Proof

/-- The back leaves lockstep and enters BROKEN (R375). -/
def State.leaveLockstep (s : State) : State := s.pairChange (fun s => s.setPairState psBroken)

/-- Bytes of the frames in the replay buffer. -/
def State.replayBytes (s : State) : Nat := (s.replayBuf.map (fun p => p.2.bytes.length)).sum

/-- A host egress frame: transmitted, or, at a mirror back, kept in the replay buffer of 16 MiB; an overflow ends lockstep
(R368, R373). A module that has left lockstep stays silent (R375, R382). -/
def State.hostOut (s : State) (o : Out) : State :=
  let n := s.egSent + 1
  let s := { s with egSent := n }
  if s.silentBack then
    if 2 ^ 24 < s.replayBytes + o.bytes.length then s.leaveLockstep else { s with replayBuf := s.replayBuf ++ [(n, o)] }
  else if s.fld R.HOSTP_STAT F.HOSTP_STAT_SILENT = 1 then s
  else s.emit o

/-! ### Queue pairs -/

def State.qp (s : State) (n : Nat) : Qp := sparseGet s.qps n Qp.reset

def State.setQp (s : State) (n : Nat) (x : Qp) : State := { s with qps := sparseSet s.qps n x Qp.reset }

def Qp.at (x : Qp) (lo n : Nat) : Nat := leField x.ctx lo n

/-- The path MTU of a context. -/
def Qp.pmtu (x : Qp) : Nat := 512 * 2 ^ (x.at 46 1)

/-- Line rate in the units of Qp.rate. -/
def lineRate : Nat := 20 * 2 ^ 40

/-- Packets of a message of n bytes. -/
def Qp.packets (x : Qp) (n : Nat) : Nat := max 1 ((n + x.pmtu - 1) / x.pmtu)

/-- A RoCEv2 packet of the module: opcodes of this model: 1 RDMA WRITE, 2 READ response, 3 acknowledgement, 4 NAK with its
syndrome (1 sequence error, 2 remote access error, 3 invalid request, 4 RNR), 5 CNP. -/
def roceOut (qpn op psn x : Nat) (bytes : List Byte) : Out := { kind := .roce, nums := [qpn, op, psn, x], bytes := bytes }

/-- Send one RDMA WRITE on a queue pair (R392). False: it is not in RTS. -/
def State.rdmaSend (s : State) (n va rkey : Nat) (bytes : List Byte) : State × Bool :=
  let x := s.qp n
  if x.state ≠ 1 then (s, false)
  else
    let k := x.packets bytes.length
    let t : RoceTx := { psn := x.sqPsn, count := k, va := va, rkey := rkey, bytes := bytes }
    let s := s.setQp n { x with sqPsn := (x.sqPsn + k) % 2 ^ 24, unacked := x.unacked ++ [t],
                                sentAt := if x.unacked.isEmpty then s.now else x.sentAt }
    (s.hostOut { kind := .roce, nums := [n, 1, t.psn, rkey, va], bytes := bytes }, true)

/-! ### Identity signatures (R420) -/

/-- NEXT and LIMIT of the identity index. -/
def State.idxNext (s : State) : Nat := s.fld R.SEC_IDX F.SEC_IDX_NEXT

/-- Ask for a signature: refused, and counted, where 64 requests wait or the indices are spent. -/
def State.askSign (s : State) (r : SignReq) : State × Bool :=
  if 64 ≤ s.signReqs.length ∨ 2 ^ 40 ≤ s.idxNext then (s.count R.SEC_SIGCNT F.SEC_SIGCNT_REFUSED 1, false)
  else ({ s with signReqs := s.signReqs ++ [r] }, true)

/-- The requester of waiting signatures has gone (R420). -/
def State.orphanSigns (s : State) (o : SignOwner) : State :=
  { s with signReqs := s.signReqs.map (fun r => if r.owner = o then { r with owner := .gone } else r) }

/-- Put SIG_INDEX into the bytes to be signed. -/
def SignReq.withIndex (r : SignReq) (i : Nat) : List Byte :=
  if r.at_ = 0 then r.body else r.body.take (r.at_ - 1) ++ leBytes i 8 ++ r.body.drop (r.at_ + 7)

/-- The first n bytes of a list, zeros where it is short: fixed-length records hold free values of unknown length. -/
def fixLen (n : Nat) (l : List Byte) : List Byte := (l ++ List.replicate n 0).take n

/-- The identity public key (R409): the model's own free value of the serial (log 5). -/
def State.identityPub (s : State) : List Byte := fixLen 64 (Config.identityKey (s.reg R.ID_SERIAL))

/-- Take the next index and sign (R420): a new limit is stored first where NEXT has reached it. -/
def State.signNext (s : State) (body : Nat → List Byte) : State × Nat × List Byte × List Byte :=
  let i := s.idxNext
  let s := if i = s.fld R.SEC_IDX_LIMIT F.SEC_IDX_LIMIT_LIMIT then
      s.setFld R.SEC_IDX_LIMIT F.SEC_IDX_LIMIT_LIMIT (i + 4096) else s
  let s := s.setFld R.SEC_IDX F.SEC_IDX_NEXT (i + 1)
  let b := body i
  (s, i, b, fixLen 9893 (Config.xmssSign s.identityPub i b))

end Sys2Proof.Machine
end

