-- ==== Sys2Proof/Machine/Attest.lean ====
section
/-!
DEFINITION. Measurements, attestation reports, endorsements and image verification (R409 to R413, R421 to R423).
-/

namespace Sys2Proof.Machine

open Sys2Proof

/-! ### Measurements (R421) -/

/-- The 32 bytes of M_i. -/
def State.meas (s : State) (i : Nat) : List Byte :=
  (List.range 4).flatMap (fun w => leBytes (s.reg (R.SEC_MEAS i w)).toNat 8)

/-- Store M_i. -/
def State.setMeas (s : State) (i : Nat) (b : List Byte) : State :=
  (List.range 4).foldl (fun s w => s.setReg (R.SEC_MEAS i w) (BitVec.ofNat 64 (leField b (8 * w) 8))) s

/-- Extend M_i by a digest. -/
def State.extend (s : State) (i : Nat) (d : List Byte) : State := s.setMeas i (shake256 (s.meas i ++ d) 32)

/-- Extend M2 by the new module state and units. -/
def State.measureState (s : State) : State :=
  s.extend 2 (shake256 (leBytes (s.reg R.ID_STATE).toNat 8 ++ leBytes (s.reg R.ID_UNITS).toNat 8) 32)

/-- The OTP counter (R414). -/
def State.svnOtp (s : State) : Nat := s.fld R.SEC_STAT F.SEC_STAT_SVN_OTP

/-- Extend M0 at boot: boot ROM version, OTP counter, stepping. -/
def State.measureBoot (s : State) : State :=
  s.extend 0 (shake256 (leBytes Config.bootRom.toNat 8 ++ leBytes s.svnOtp 1 ++
    leBytes (s.fld R.ID_PART F.ID_PART_STEPPING) 1) 32)

/-! ### Vendor signatures (R409) -/

/-- The vendor key digest of the OTP. -/
def State.otpDigest (s : State) : List Byte :=
  (List.range 4).flatMap (fun w => leBytes (s.reg (R.SEC_OTP_DIGEST w)).toNat 8)

/-- A vendor public key is accepted. -/
def State.vendorOk (s : State) (pub : List Byte) : Bool := shake256 pub 32 == s.otpDigest

/-- Bytes lo to lo + n − 1 of a record. -/
def slice (b : List Byte) (lo n : Nat) : List Byte := (b.drop lo).take n

/-- The identity endorsement of this module (R410): 3,964 bytes. Its table gives the signature 3,820 bytes, a vendor-key
signature has 2,820: they lie first, zeros follow (log 27). -/
def State.endorsement (s : State) : List Byte :=
  leBytes s.serial 8 ++ leBytes (F.ID_PART_VARIANT.put (s.reg R.ID_PART) 0).toNat 8 ++ s.identityPub ++
    fixLen 64 (Config.endorseKey (s.reg R.ID_SERIAL)) ++ fixLen 3820 (fixLen 2820 (Config.endorseSig (s.reg R.ID_SERIAL)))

/-- An endorsement verifies under R409. -/
def State.endorseOk (s : State) (b : List Byte) : Bool :=
  b.length == 3964 && s.vendorOk (slice b 80 64) && Config.xmssVerify (slice b 80 64) (b.take 144) (slice b 144 2820)

/-! ### Reports (R422, R423) -/

/-- The injection kinds in force, as a mask. -/
def State.pertMask (s : State) : Nat := (List.range 7).foldl (fun m k => m + b2n (s.pert k) * 2 ^ k) 0

/-- The report body with a nonce; SIG_INDEX, at byte 160, zero until the index is taken. -/
def State.reportBody (s : State) (nonce : List Byte) : List Byte :=
  leBytes 1 1 ++ leBytes s.mode 1 ++ leBytes (s.fld R.ID_STRAPS F.ID_STRAPS_LID) 1 ++
    leBytes (s.fld R.SEC_DEBUG F.SEC_DEBUG_SCOPE + 4 * s.fld R.SEC_DEBUG F.SEC_DEBUG_EVER) 1 ++ leBytes s.svnOtp 1 ++
    leBytes (if s.mode = mRecovery then 0 else s.fld R.SEC_STAT F.SEC_STAT_SVN_IMAGE) 1 ++ leBytes 0 2 ++ leBytes s.serial 8 ++
    leBytes (s.reg R.ID_INCARN).toNat 8 ++ leBytes (s.reg R.ID_FW).toNat 8 ++ leBytes (s.reg R.BEAT_HOST_TAG).toNat 8 ++
    leBytes (s.fld R.LIFETIME F.LIFETIME_MINUTES) 4 ++ leBytes s.pertMask 4 ++ s.stamp ++ fixLen 32 nonce ++ s.identityPub ++
    leBytes 0 8 ++ leBytes 0 24 ++ (List.range 8).flatMap s.meas

/-- The request for a report's signature. -/
def State.reportReq (s : State) (o : SignOwner) (nonce : List Byte) : SignReq :=
  { owner := o, body := s.reportBody nonce, at_ := 161 }

/-- The check of the partner's report (R423): 0, or the JOIN_FAIL code. -/
def State.partnerReport (s : State) (peerSerial : Nat) (nonce endorse body sig : List Byte) : Nat :=
  if s.endorseOk endorse = false ∨ leField endorse 0 8 ≠ peerSerial ∨ leField body 8 8 ≠ peerSerial ∨ body.length ≠ 448 ∨
      slice body 96 64 ≠ slice endorse 16 64 ∨ Config.xmssVerify (slice endorse 16 64) body sig = false ∨
      slice body 64 32 ≠ nonce ∨
      ((leField body 3 1) % 4 ≠ 0 ∧ s.fld R.SEC_CFG F.SEC_CFG_PAIR_DEBUG_OK = 0) then 2
  else if slice body 224 32 ≠ s.meas 1 then 3
  else 0

/-! ### Images (R412) -/

/-- Whole length of the largest image. -/
def imageMax : Nat := 62914560

/-- The bytes of an image source from an offset. -/
def imgBytes (get : Nat → Byte) (lo n : Nat) : List Byte := (List.range n).map (fun i => get (lo + i))

/-- A number of the header. -/
def imgField (get : Nat → Byte) (lo n : Nat) : Nat := ofLe (imgBytes get lo n)

/-- BODY_LENGTH of a header. -/
def imgBody (get : Nat → Byte) : Nat := imgField get 16 8

/-- The checks of R412 over an image source: 0, or the reason. `bad`: a read of it was uncorrectable. -/
def State.verifyImage (s : State) (get : Nat → Byte) (bad : Bool) : Nat :=
  let body := imgBody get
  let zero := fun lo hi => (imgBytes get lo (hi - lo)).all (· == 0)
  let pub := imgBytes get 56 64
  if imgField get 0 4 ≠ 0x5A414C42 ∨ imgField get 4 1 ≠ 1 ∨ 64 < imgField get 5 1 ∨ zero 6 8 = false ∨ zero 14 16 = false ∨
      zero 120 1024 = false ∨ zero 3844 4096 = false ∨ body % 4096 ≠ 0 ∨ body < 4096 ∨ 62910464 < body then 1
  else if s.vendorOk pub = false then 2
  else if Config.xmssVerify pub (imgBytes get 0 1024) (imgBytes get 1024 2820) = false then 3
  else if imgField get 5 1 < s.svnOtp then 4
  else if shake256 (imgBytes get 4096 body) 32 ≠ imgBytes get 24 32 then 5
  else if bad then 6 else 0

/-- The image of the flash. -/
def State.flashByte (s : State) (o : Nat) : Byte := sparseGet s.flash o 0

end Sys2Proof.Machine
end

