-- ==== Sys2Proof/Machine/Power.lean ====
section
/-!
DEFINITION. Clock points and the protective loops (R446 to R453): lid profiles, the current limiter, the cap and thermal
loops, the point in force, policy override, and the staged apply that may change what they evaluate (R245).
-/

namespace Sys2Proof.Machine

open Sys2Proof

/-! ### Lid profiles (R446) -/

/-- Power cap of the lid in W. -/
def State.lidCap (s : State) : Nat :=
  let l := s.fld R.ID_STRAPS F.ID_STRAPS_LID
  if l = 2 then 2400 else if l = 3 then 3000 else 1100

/-- Clock ceiling of the lid, as a point. -/
def State.lidCeil (s : State) : Nat :=
  let l := s.fld R.ID_STRAPS F.ID_STRAPS_LID
  if l = 2 then 3 else if l = 3 then 4 else 1

/-- The cap in force: CAP_W lowers it and never raises it. -/
def State.cap (s : State) : Nat :=
  let c := s.fld R.PWR_CFG F.PWR_CFG_CAP_W
  if c = 0 ∨ s.lidCap < c then s.lidCap else c

/-- The limiter threshold in hundredths of a W (R449). -/
def State.threshold (s : State) : Nat :=
  if s.fld R.PWR_STAT F.PWR_STAT_CAP_HOLD = 1 then 100 * s.cap else s.cap * s.fld R.PWR_LIM F.PWR_LIM_FAST_PCT

/-- Change the power unit's internal state. -/
def State.updPower (s : State) (f : PowerInt → PowerInt) : State := { s with power := f s.power }

/-- A die's loops. -/
def State.loop (s : State) (d : Nat) : DieLoop := s.power.dies.getD d DieLoop.fresh

def State.setLoop (s : State) (d : Nat) (l : DieLoop) : State := s.updPower (fun p => { p with dies := p.dies.set d l })

/-! ### The current limiter (R449) -/

/-- LIMITER_SAMPLE (R449): a sample of module input power in W. -/
def execLimiterSample (w : BitVec 16) (s : State) : Res :=
  s.whenMain (
    let n := w.toNat
    let s := s.setFld R.PWR_METER F.PWR_METER_NOW_W n
    let f := s.fld R.PWR_STAT F.PWR_STAT_F
    let low := decide (100 * (100 * n) < 95 * s.threshold)
    let s := if s.threshold < 100 * n then s.setFld R.PWR_STAT F.PWR_STAT_F (min 16 (f + 1)) else s
    s.updPower (fun p => { p with usLow := p.usLow && low, usCount := p.usCount + 1, msSum := p.msSum + n, msCount := p.msCount + 1 }))

/-- LIMITER_RELEASE (R449): a µs of ten samples has ended; F falls where all lay below 0.95 of the threshold. -/
def execLimiterRelease (s : State) : Res :=
  s.whenMain (
    if s.power.usCount < 10 then s
    else
      let f := s.fld R.PWR_STAT F.PWR_STAT_F
      let s := if f = 0 then s else s.count R.PWR_CNT F.PWR_CNT_LIMIT 1
      let s := if s.power.usLow then s.setFld R.PWR_STAT F.PWR_STAT_F (f - 1) else s
      s.updPower (fun p => { p with usLow := true, usCount := 0 }))

/-! ### Protective points (R450 to R452) -/

/-- P_prot: the lowest point that the loops hold, at most the lid ceiling. -/
def State.pProt (s : State) (d : Nat) : Nat := min s.lidCeil (min (s.loop d).pTherm (s.loop d).pCap)

/-- P_sw (R452). -/
def State.pSw (s : State) (d : Nat) : Nat :=
  if s.fld R.PWR_CFG F.PWR_CFG_DET_EN = 1 then min (s.fld R.PWR_CFG F.PWR_CFG_DET_POINT) s.lidCeil
  else
    let ceil := s.fld (R.DPWR_CLK d) F.DPWR_CLK_CEIL
    max (min ceil s.lidCeil) (min (s.fld (R.DPWR_CLK d) F.DPWR_CLK_FLOOR) ceil)

/-- The service level has raised the clock (R447): FULL, DEGRADED or DETACHING. -/
def State.clockRaised (s : State) : Bool := s.mode == mFull || s.mode == mDegraded || s.mode == mDetaching

/-- The point that R452 asks for. -/
def State.pWant (s : State) (d : Nat) : Nat := if s.clockRaised then min (s.pProt d) (s.pSw d) else 0

/-- The effective floor (R453). -/
def State.effFloor (s : State) (d : Nat) : Nat :=
  if s.fld R.PWR_CFG F.PWR_CFG_DET_EN = 1 then s.fld R.PWR_CFG F.PWR_CFG_DET_POINT
  else min (s.fld (R.DPWR_CLK d) F.DPWR_CLK_FLOOR) (s.fld (R.DPWR_CLK d) F.DPWR_CLK_CEIL)

/-- Die d is in service. -/
def State.dieIn (s : State) (d : Nat) : Bool := s.bit R.ID_UNITS F.ID_UNITS_DIE_IN_SERVICE d

/-- A POLICY_OVERRIDE record of a die, also to the partner in mirror mode (R453, R461). -/
def State.overrideRecord (s : State) (d : Nat) : State :=
  let l := s.loop d
  let us := (s.now + 1 - l.overStart) / usTicks
  let r : ErrRec := { cls := clsCorrected, code := 0x0703, unit := 0xE0, sub := d, info0 := s.point d + 256 * s.effFloor d, info1 := us }
  let b := s.errBytes r
  let s := s.errRecord r
  let s := if s.mirror then s.sendPend 0x35 [0] b else s
  s.setLoop d { s.loop d with overRec := s.now }

/-- Policy override begins or ends (R453). -/
def State.overrideEval (s : State) (d : Nat) : State :=
  let l := s.loop d
  let isIn := s.clockRaised && s.dieIn d && decide (s.point d < s.effFloor d)
  if isIn && l.overStart == 0 then
    ((s.setLoop d { l with overStart := s.now + 1, overRec := s.now }).setFld (R.DPWR_STAT d) F.DPWR_STAT_OVERRIDE 1).count R.PWR_CNT
      F.PWR_CNT_OVERRIDE 1
  else if !isIn && l.overStart != 0 then
    let s := s.overrideRecord d
    (s.setLoop d { s.loop d with overStart := 0 }).setFld (R.DPWR_STAT d) F.DPWR_STAT_OVERRIDE 0
  else s

/-- Why a die runs at its point: service level, thermal loop, cap loop, software. -/
def State.pointReason (s : State) (d new : Nat) : Nat :=
  if s.clockRaised = false then 3
  else if s.pSw d ≤ new then 0
  else if min s.lidCeil (s.loop d).pTherm = new then 1
  else if (s.loop d).pCap = new then 2 else 0

/-- A moment still to come of work counted in ac, when an ac of `o` ticks becomes one of `n` (R14, R448). -/
def acMove (now o n t : Nat) : Nat := if now < t then now + (t - now) * n / o else t

/-- The counts in ac of a clock continue through a change of its point: die d, or 4 for the hub (R14, R448). -/
def State.acRescale (s : State) (d o n : Nat) : State :=
  let f := acMove s.now o n
  let dieOf := fun (q k : Nat) => match s.findCmd q k with | some c => c.die | none => 5
  { s with
    cmds := s.cmds.map (fun (c : Cmd) => if c.die = d ∧ c.phase = .finished then ({ c with due := f c.due } : Cmd) else c),
    probs := s.probs.map (fun (p : Nat × ProbInt) => if p.1 / 256 = d then
      (p.1, ({ p.2 with nextRead := f p.2.nextRead, marker := f p.2.marker } : ProbInt)) else p),
    rings := s.rings.map (fun (g : RingInt) => if dieOf g.queue g.seq = d then
      ({ g with waiting := g.waiting.map (fun w => (w.1, f w.2)) } : RingInt) else g),
    slivers := s.slivers.map (fun (r : SliverRun) => if r.die = d then ({ r with until_ := f r.until_ } : SliverRun) else r),
    brushRuns := s.brushRuns.map (fun (p : Nat × BrushRun) => if p.1 / 32 = d then
      (p.1, ({ p.2 with busy := f p.2.busy } : BrushRun)) else p),
    lentSince := s.lentSince.map (fun (p : Nat × Nat) => if p.1 / 32 = d then
      (p.1, s.now + 1 - (s.now + 1 - p.2) * n / o) else p) }

/-- A die takes a new point: its counts in ac continue, and the tracker rescales where the hub clock changes with it (R14,
R43, R447, R448). -/
def State.setPoint (s : State) (d new : Nat) : State :=
  let o := s.hubPoint
  let p := s.point d
  let s := (s.setFld (R.DPWR_STAT d) F.DPWR_STAT_POINT new).setFld (R.DPWR_STAT d) F.DPWR_STAT_REASON (s.pointReason d new)
  let s := s.acRescale d (acTicks p) (acTicks new)
  if s.hubPoint = o then s else (s.acRescale 4 (acTicks o) (acTicks s.hubPoint)).rescale (acTicks o) (acTicks s.hubPoint)

/-- Evaluate R452 for a die: a protective step down is taken at once; any other change waits until 10 ms after the last. -/
def State.clockEval (s : State) (d : Nat) : State :=
  let p := s.point d
  let l := s.loop d
  let may := l.lastChange == 0 || decide (l.lastChange - 1 + 10 * msTicks ≤ s.now) || !s.clockRaised
  let new := if may then s.pWant d else min p (s.pProt d)
  let s := if new = p then s else (s.setPoint d new).setLoop d { l with lastChange := s.now + 1 }
  s.overrideEval d

/-- CLOCK_POINT_CHANGE (R448, R452). -/
def execClockPointChange (d : Fin 4) (s : State) : Res := s.whenMain (s.clockEval d.val)

/-- An apply takes effect, and the points that a changed PWR or DPWR asks for are evaluated in that cycle (R245, R452). -/
def State.applyTake (s : State) (slot : Nat) (r : ApplyReq) : State :=
  (List.range 4).foldl (fun s d => if bitOf r.names 3 || bitOf r.names (21 + 9 * d) then s.clockEval d else s) (s.applyEffect slot r)

/-- STAGED_APPLY_EFFECT (R245): the pending apply of a slot takes effect, once due and its preconditions hold. Slot 0 is
LOCK_APPLY's and BEAT_CTL's, slot d + 1 is DLOCK_APPLY's of die d. -/
def execStagedApplyEffect (slot : Fin 5) (s : State) : Res :=
  s.whenMain (
    match s.applySlot slot.val with
    | none => s
    | some r => if s.applyDue slot.val r && s.applyReady r then s.applyTake slot.val r else s)

/-- OVERRIDE_RECORD (R453): a second of override has passed since the last record. -/
def execOverrideRecord (d : Fin 4) (s : State) : Res :=
  s.whenMain (
    let l := s.loop d.val
    if l.overStart ≠ 0 ∧ l.overRec + 1000 * msTicks ≤ s.now then s.overrideRecord d.val else s)

/-- Lower a die's protective point for a loop by one point. -/
def State.stepDown (s : State) (d : Nat) (cap : Bool) : State :=
  let l := s.loop d
  let p := min s.lidCeil (if cap then l.pCap else l.pTherm)
  if p = 0 then s
  else (s.setLoop d (if cap then { l with pCap := p - 1 } else { l with pTherm := p - 1 })).count R.PWR_CNT F.PWR_CNT_STEPS 1

/-- Raise it by one point. -/
def State.stepUp (s : State) (d : Nat) (cap : Bool) : State :=
  let l := s.loop d
  s.setLoop d (if cap then { l with pCap := min 4 (l.pCap + 1) } else { l with pTherm := min 4 (l.pTherm + 1) })

/-- Sum of the last ten ms averages: ten times the 10 ms average (R451, R454). -/
def State.tenMs (s : State) : Nat := (s.power.avgMs.take 10).sum

/-- The cap loop's step above the cap (R451). -/
def State.capDown (s : State) : State :=
  let ds := (List.range 4).filter (fun d => s.dieIn d && s.point d != 0)
  if ds.isEmpty then
    (if s.fld R.PWR_STAT F.PWR_STAT_CAP_HOLD = 1 then s
     else (s.setFld R.PWR_STAT F.PWR_STAT_CAP_HOLD 1).updPower (fun p => { p with capSteps := 0 :: p.capSteps, capMs := 0 }))
  else
    let s := ds.foldl (fun s d => s.stepDown d true) s
    let s := s.updPower (fun p => { p with capSteps := (ds.map (2 ^ ·)).sum :: p.capSteps, capMs := 0 })
    ds.foldl (fun s d => s.clockEval d) s

/-- The cap loop's release of its last step. -/
def State.capUp (s : State) : State :=
  match s.power.capSteps with
  | [] => s
  | m :: r =>
    let s := s.updPower (fun p => { p with capSteps := r, capMs := 0 })
    if m = 0 then s.setFld R.PWR_STAT F.PWR_STAT_CAP_HOLD 0
    else (List.range 4).foldl (fun s d => if bitOf m d then (s.stepUp d true).clockEval d else s) s

/-- CAP_LOOP (R451): a ms has passed. -/
def execCapLoop (s : State) : Res :=
  s.whenMain (
    let p := s.power
    let avg := if p.msCount = 0 then 0 else p.msSum / p.msCount
    let s := s.updPower (fun p => { p with avgMs := (avg :: p.avgMs).take 10, msSum := 0, msCount := 0 })
    let s := s.setFld R.PWR_METER F.PWR_METER_AVG_W (s.tenMs / 10)
    if 10 * s.cap < s.tenMs then s.capDown
    else if s.tenMs < 9 * s.cap then
      (if p.capMs + 1 < 50 then s.updPower (fun p => { p with capMs := p.capMs + 1 }) else s.capUp)
    else s.updPower (fun p => { p with capMs := 0 }))

/-- A die's sensor reading steps its protective point (R450). -/
def State.thermalDie (s : State) (d t : Nat) : State :=
  let l := s.loop d
  let s := (s.setLoop d { l with temp := t }).setFld (R.DPWR_STAT d) F.DPWR_STAT_TEMP t
  let step := s.fld R.PWR_THERM F.PWR_THERM_T_STEP
  let hyst := s.fld R.PWR_THERM F.PWR_THERM_HYST
  let l := s.loop d
  if step < t then
    let s := s.setLoop d { l with hotMs := l.hotMs + 1, coolMs := 0 }
    if l.hotMs % 10 = 0 then (s.stepDown d false).clockEval d else s
  else if t + hyst < step then
    let s := s.setLoop d { l with hotMs := 0, coolMs := l.coolMs + 1 }
    if (l.coolMs + 1) % 50 = 0 then (s.stepUp d false).clockEval d else s
  else s.setLoop d { l with hotMs := 0, coolMs := 0 }

/-- A stack's sensor reading sets or lifts its throttle (R450). -/
def State.thermalStack (s : State) (st t : Nat) : State :=
  s.updPower (fun p =>
    let thr := if 95 < t then p.stackThrottle.set st true
      else if t < 90 then p.stackThrottle.set st false else p.stackThrottle
    { p with stackTemp := p.stackTemp.set st t, stackThrottle := thr })

/-- TRIP_CLEAR (R450): a write of 1 to PWR_STAT.TRIP. -/
def execTripClear (s : State) : Res := s.alive (s.setFld R.PWR_STAT F.PWR_STAT_TRIP 0)

end Sys2Proof.Machine
end

