-- ==== Sys2Proof/Machine/Training.lean ====
section
/-!
DEFINITION. Training-step support (R344 to R361): settlement of epochs, the loss watch, evaluation slots, snapshot export.
-/

namespace Sys2Proof.Machine

open Sys2Proof

/-! ### Waits on epochs -/

/-- The status that a WAITE on a settled epoch writes (R207). -/
def State.epochStatus (s : State) (e : Nat) : Nat :=
  match s.epochState e with
  | .committed => stDone
  | .cancelled => stCancelled
  | _ => if e = 0 then stDone else stMissing

/-- Queues that wait on an epoch, or are held by a run-ahead rule, are examined again (R353, step 4). -/
def State.wakeEpochs (s : State) : State :=
  (List.range 240).foldl (fun s q =>
    match (s.qint q).wait with
    | some (.epoch e rd) => if e ≤ s.settled then s.finishWaitRd q rd (s.epochStatus e) else s
    | some .reissue =>
      let on := s.fld (R.QSTAT q) F.QSTAT_WAIT_ON
      if on = onAhead ∨ on = onEpoch then s.reissue q else s
    | _ => s) s

/-! ### The end of a snapshot (R360) -/

/-- The running snapshot ends with a status, or (none) without one (R363): its waits go, event kind 0x03 tells the host. -/
def State.endSnap (s : State) (status : Option Nat) : State :=
  match s.snap with
  | none => s
  | some n =>
    let s := { s with snap := none }.orphanSigns .snapshot
    let s := s.setFld R.TRN_STAT F.TRN_STAT_SNAP_BUSY 0
    match status with
    | none => s
    | some st =>
      let s := s.setFld R.TRN_SNAP_STAT F.TRN_SNAP_STAT_STATUS st
      s.hostEvent 3 (leBytes (s.reg R.TRN_SNAP_STAT).toNat 8 ++ leBytes n.epoch 8)

/-- A snapshot whose epoch has settled without committing ends: CANCELLED, or ERROR_MISSING where no outcome is held (R358;
log 25). -/
def State.snapSettled (s : State) : State :=
  match s.snap with
  | none => s
  | some n =>
    match s.epochState n.epoch with
    | .cancelled => s.endSnap (some stCancelled)
    | .unknown => s.endSnap (some stMissing)
    | _ => s

/-! ### Settlement (R351 to R356) -/

/-- The settlement step of epoch e = E_s + 1 (R353), with the group veto word. -/
def State.settle (s : State) (e word : Nat) (commit : Bool) : State :=
  let own := s.vetoWord e
  -- 1
  let s := (s.setFld R.TRN_SETTLED F.TRN_SETTLED_EPOCH e).setFld R.TRN_SETTLED F.TRN_SETTLED_LAST_VETO word
  let s := s.setReg R.TRN_HIST (BitVec.ofNat 64 (2 * (s.reg R.TRN_HIST).toNat + b2n commit))
  let s := s.setFld R.TRN_SETTLED F.TRN_SETTLED_HIST_VALID (min 64 (s.fld R.TRN_SETTLED F.TRN_SETTLED_HIST_VALID + 1))
  let s := s.freeVeto e
  let s := { s with captured := s.captured.filter (· != e), closes := s.closes.filter (fun c => decide (e < c.1)) }
  let s := if s.pendingVeto = 0 then s else { s.holdVeto (e + 8) s.pendingVeto with pendingVeto := 0 }
  -- 2: gated commands of e start, or end, at their engines' next start (R220)
  -- 3
  let s := if commit then s.count R.TRN_CNT F.TRN_CNT_COMMITTED 1
    else
      let s := s.retractAll e own
      (s.errRecord { cls := clsCorrected, code := 0x0506, unit := 0xD8, info0 := e, info1 := word }).count R.TRN_CNT
        F.TRN_CNT_CANCELLED 1
  -- 4
  s.snapSettled.wakeEpochs

/-- A CLOSE that has completed with a status on the commit group is held until its epoch can settle (R351, R352). -/
def State.holdClose (s : State) (c : Cmd) : State :=
  let g := s.fld R.TRN_CFG F.TRN_CFG_COMMIT_GROUP
  if c.code = 0x22 ∧ cfClose c = true ∧ g ≠ 0 ∧ c.at 8 1 = g ∧ (s.slotOf g).isSome = true ∧ s.settled < c.epoch then
    let formed := (c.res1 != 0 && c.status != stCancelled) || c.status % 0x40 == stDone || c.status % 0x40 == stDoneCounts
    if s.closes.any (fun x => x.1 == c.epoch) then s
    else { s with closes := s.closes ++ [(c.epoch, c.status, c.res1 % 256, formed)] }
  else s

/-- SETTLEMENT (R351 to R353, R355): the held result of E_s + 1 decides. Where the CLOSE formed no group veto word, LAST_VETO
takes a free value (log 26). -/
def execSettlement (s : State) : Res :=
  s.whenServing (
    let e := s.settled + 1
    match s.closes.find? (fun c => c.1 == e) with
    | none => s
    | some (_, status, word, formed) =>
      let (f, s) := if formed then (BitVec.ofNat 64 word, s) else s.draw
      let w := f.toNat % 256
      let out := s.fld R.TRN_STAT F.TRN_STAT_OUT_OF_STEP == 1
      let ok := (status % 0x40 == stDone || status % 0x40 == stDoneCounts) && w == 0 && !out
      let s := if status = stLink then
          (s.setFld R.TRN_STAT F.TRN_STAT_OUT_OF_STEP 1).errRecord { cls := clsFatal, code := 0x0507, unit := 0xD8, info0 := e }
        else s
      s.settle e w ok)

/-- A write of TRN_SETTLE_LOCAL (R354). -/
def State.settleLocal (s : State) (v : Word) : State :=
  let e := F.TRN_SETTLE_LOCAL_EPOCH.get v
  if s.fld R.TRN_CFG F.TRN_CFG_COMMIT_GROUP = 0 ∧ e = s.settled + 1 then
    let w := s.vetoWord e
    s.settle e w (w == 0)
  else s

/-- TRN_SETTLE_LOCAL (R354). -/
def execTrnSettleLocal (v : BitVec 64) (s : State) : Res := s.whenMain (s.settleLocal v)

/-- A write of TRN_SETTLED (R356): accepted only with no word held and no gated command waiting at an engine. -/
def State.settledWrite (s : State) (v : Word) : State :=
  if s.fld R.TRN_STAT F.TRN_STAT_PENDING = 0 ∧
      s.cmds.any (fun c => c.gated && !(isCollective c.code) && c.phase == .accepted) = false then
    let s := s.setReg R.TRN_SETTLED (BitVec.ofNat 64 (F.TRN_SETTLED_EPOCH.get v))
    ({ s with captured := [], closes := [] }).snapSettled.wakeEpochs
  else s

/-- TRN_SETTLED_WRITE (R356). -/
def execTrnSettledWrite (v : BitVec 64) (s : State) : Res := s.whenMain (s.settledWrite v)

/-- OUT_OF_STEP_CLEAR (R355): a write of 1 to TRN_STAT.OUT_OF_STEP. -/
def execOutOfStepClear (s : State) : Res := s.whenMain (s.setFld R.TRN_STAT F.TRN_STAT_OUT_OF_STEP 0)

/-! ### The loss watch (R349, R350) -/

/-- One binary32 operation rounded to nearest, saturating. -/
def lwSub (x y : Nat) : Nat := (fAdd fFp32 Cvt.nearest x (fNeg fFp32 y)).code
def lwAdd (x y : Nat) : Nat := (fAdd fFp32 Cvt.nearest x y).code
def lwMul (x y : Nat) : Nat := (fMul fFp32 Cvt.nearest x y).code

/-- m × 2^e as binary32. -/
def lwConst (m : Nat) (e : Int) : Nat := (toFmt fFp32 0 Cvt.nearest (.fin ⟨false, m, e⟩)).code

/-- |x|. -/
def lwAbs (x : Nat) : Nat := x % 2 ^ 31

/-- The epoch of a submission (R349). -/
def State.lossEpoch (s : State) (lo : Nat) : Option Nat :=
  ((List.range 8).map (fun i => s.settled + 1 + i)).find? (fun e => e % 2 ^ 32 == lo)

/-- A loss is processed (R350). -/
def State.lossWatch (s : State) (x e : Nat) : State :=
  let s := s.setFld R.TRN_LW_STAT F.TRN_LW_STAT_LAST_EPOCH e
  let seen := s.fld R.TRN_LW_STAT F.TRN_LW_STAT_SEEN
  let mean := s.fld R.TRN_LW_STATE F.TRN_LW_STATE_MEAN
  let dev := s.fld R.TRN_LW_STATE F.TRN_LW_STATE_DEV
  let k := lwConst (s.fld R.TRN_LW_CFG F.TRN_LW_CFG_K) (-4)
  let a := lwConst 1 (-(s.fld R.TRN_LW_CFG F.TRN_LW_CFG_SHIFT : Int))
  let judged := decide (s.fld R.TRN_LW_CFG F.TRN_LW_CFG_WARMUP ≤ seen)
  let thr := fMax fFp32 (lwMul k dev) (s.fld R.TRN_LW_CFG F.TRN_LW_CFG_FLOOR)
  let spike := (numOrder (numOf fFp32 thr) (numOf fFp32 (lwSub x mean))).1 && !((numOf fFp32 thr).isNan)
  if nonfinite fFp32 x || (judged && spike) then
    (s.vetoEvent e vetoSpike).count R.TRN_CNT F.TRN_CNT_SPIKES 1
  else
    let d := lwSub x mean
    let (mean, dev) := if seen = 0 then (x, 0)
      else (lwAdd mean (lwMul d a), lwAdd dev (lwMul (lwSub (lwAbs d) dev) a))
    ((s.setFld R.TRN_LW_STATE F.TRN_LW_STATE_MEAN mean).setFld R.TRN_LW_STATE F.TRN_LW_STATE_DEV dev).setFld R.TRN_LW_STAT
      F.TRN_LW_STAT_SEEN (min (seen + 1) 255)

/-- A write of TRN_LOSS (R349). -/
def State.lossWrite (s : State) (v : Word) : State :=
  let drop := s.count R.TRN_CNT F.TRN_CNT_LOSS_DROPPED 1
  match s.lossEpoch (F.TRN_LOSS_EPOCH_LO.get v) with
  | none => drop
  | some e =>
    if e ≤ s.fld R.TRN_LW_STAT F.TRN_LW_STAT_LAST_EPOCH ∨ s.fld R.TRN_CFG F.TRN_CFG_LW_EN = 0 then drop
    else s.lossWatch (F.TRN_LOSS_LOSS.get v) e

/-- LOSS_WATCH (R349, R350). -/
def execLossWatch (v : BitVec 64) (s : State) : Res := s.whenMain (s.lossWrite v)

/-- A write of TRN_LW_STATE: only while the watch is off; SEEN becomes 255. -/
def State.lwStateWrite (s : State) (v : Word) : State :=
  if s.fld R.TRN_CFG F.TRN_CFG_LW_EN = 0 then
    (s.setReg R.TRN_LW_STATE v).setFld R.TRN_LW_STAT F.TRN_LW_STAT_SEEN 255
  else s

/-- LW_STATE_WRITE. -/
def execLwStateWrite (v : BitVec 64) (s : State) : Res := s.whenMain (s.lwStateWrite v)

/-! ### Evaluation slots (R357) -/

/-- The position lies in an evaluation slot. -/
def State.inSlot (s : State) : Bool :=
  let p := s.fld R.TRN_EVAL_CFG F.TRN_EVAL_CFG_PERIOD
  let b := s.position / 2 ^ 16
  let o := s.fld R.TRN_EVAL_CFG F.TRN_EVAL_CFG_OFFSET
  p != 0 && decide (o ≤ b % p) && decide (b % p < o + s.fld R.TRN_EVAL_CFG F.TRN_EVAL_CFG_COUNT)

/-- EVAL_SLOT_START (R357): the position has entered a slot. -/
def execEvalSlotStart (s : State) : Res :=
  s.whenMain (if s.inSlot then s.setFld R.TRN_EVAL_STAT F.TRN_EVAL_STAT_IN_SLOT 1 else s)

/-- EVAL_SLOT_END (R357): the position has left it. -/
def execEvalSlotEnd (s : State) : Res :=
  s.whenMain (if s.inSlot then s else s.setFld R.TRN_EVAL_STAT F.TRN_EVAL_STAT_IN_SLOT 0)

/-! ### Snapshot export (R358 to R360) -/

/-- The snapshot's reader. -/
def snapWho : Who := { unit := 0xDB, queue := 0xFF }

/-- The regions of a snapshot's table. -/
def snapRegions (t : List Byte) (n : Nat) : List (Nat × Nat) :=
  (List.range n).map (fun i => (leField t (16 * i) 8, leField t (16 * i + 8) 8))

/-- A snapshot descriptor's header is valid (R7). -/
def snapHeadOk (b : List Byte) : Bool :=
  leField b 6 2 == 0 && decide (1 ≤ leField b 8 2) && decide (leField b 8 2 ≤ 64) && leField b 10 6 == 0 &&
    decide (leField b 24 4 ≤ 4095) && leField b 32 8 == 0 && leField b 40 8 == 0 && leField b 48 8 == 0 && leField b 56 8 == 0

/-- Read and check a snapshot's descriptor (R7, R279, R358): a status, or the snapshot. -/
def State.readSnap (s : State) : Except Nat Snap × State :=
  let a := (s.reg R.TRN_SNAP_ADDR).toNat
  if a % 64 = 0 ∧ s.isOwn a = true ∧ s.mappedRange (gaLocal a) 64 = true then
    let (h, s, e) := s.readMem snapWho (gaLocal a) 64
    if e then (.error stData, s)
    else if snapHeadOk h = false then (.error stDescriptor, s)
    else
      let n := leField h 8 2
      if s.mappedRange (gaLocal a + 64) (16 * n) = false then (.error stAddress, s)
      else
        let (t, s, e) := s.readMem snapWho (gaLocal a + 64) (16 * n)
        let rs := snapRegions t n
        if e then (.error stData, s)
        else if leField h 0 6 < s.settled ∨
            rs.any (fun r => r.2 == 0 || r.2 % 64 != 0 || r.1 % 64 != 0) = true then (.error stDescriptor, s)
        else if rs.any (fun r => !(s.isOwn r.1) || !(s.mappedRange (gaLocal r.1) r.2)) then (.error stAddress, s)
        else
          (.ok { epoch := leField h 0 6, regions := rs.map (fun r => (gaLocal r.1, r.2)), done := 0, read := [], table := t,
                 va := leField h 16 8, qp := leField h 24 4, rkey := leField h 28 4, bad := false, stamp := s.stamp,
                 signing := 0, manifest := [], sig := [] }, s)
  else (.error stAddress, s)

/-- Start a snapshot (R358). -/
def State.snapStart (s : State) : State :=
  if s.fld R.TRN_STAT F.TRN_STAT_SNAP_BUSY = 1 then s
  else
    let s := (s.setReg R.TRN_SNAP_STAT 0).setFld R.TRN_STAT F.TRN_STAT_SNAP_BUSY 1
    match s.readSnap with
    | (.ok n, s) => ({ s with snap := some n }).snapSettled
    | (.error st, s) =>
      let s := (s.setFld R.TRN_STAT F.TRN_STAT_SNAP_BUSY 0).setFld R.TRN_SNAP_STAT F.TRN_SNAP_STAT_STATUS st
      s.hostEvent 3 (leBytes (s.reg R.TRN_SNAP_STAT).toNat 8 ++ List.replicate 8 0)

/-- SNAPSHOT_START (R358). -/
def execSnapshotStart (s : State) : Res := s.whenServing s.snapStart

/-- Total bytes of a snapshot. -/
def Snap.total (n : Snap) : Nat := (n.regions.map Prod.snd).sum

/-- The manifest (R360), SIG_INDEX zero. -/
def State.snapManifest (s : State) (n : Snap) : List Byte :=
  [1] ++ List.replicate 39 0 ++ leBytes (s.reg R.ID_SERIAL).toNat 8 ++ leBytes n.epoch 8 ++ n.stamp ++
    leBytes (s.reg R.BEAT_HOST_TAG).toNat 8 ++ leBytes n.total 8 ++ leBytes 0 8 ++ shake256 (n.table ++ n.read) 32

/-- Send bytes as RDMA WRITEs of the snapshot; a transport that fails ends it with ERROR_LINK (R360). -/
def State.snapSend (s : State) (n : Snap) (off : Nat) (bytes : List Byte) : State × Bool :=
  s.rdmaSend n.qp (n.va + off) n.rkey bytes

/-- The next region is read and sent (R359, R360); after the last, the manifest's signature is asked for. -/
def State.snapRegion (s : State) (n : Snap) : State :=
  match n.regions[n.done]? with
  | none => s
  | some r =>
    let blocked := s.cmds.any (fun c => c.gated && c.epoch == n.epoch && (s.writeBounds c).any (fun x => rangesMeet r x))
    if blocked ∨ s.epochState n.epoch ≠ .committed then s
    else
      let (b, s, e) := s.readMem snapWho r.1 r.2
      let off := n.read.length
      let n := { n with done := n.done + 1, read := n.read ++ b, bad := n.bad || e, stamp := s.stamp }
      let (s, ok) := s.snapSend n off b
      let s := (s.setFld R.TRN_SNAP_STAT F.TRN_SNAP_STAT_REGION (n.done - 1)).setFld R.TRN_SNAP_STAT F.TRN_SNAP_STAT_BYTES
        n.read.length
      let s := { s with snap := some n }
      if !ok then s.endSnap (some stLink)
      else if n.done = n.regions.length ∧ n.bad = false then
        let (s, asked) := s.askSign { owner := .snapshot, body := s.snapManifest n, at_ := 89 }
        { s with snap := some { n with signing := if asked then 1 else 2 } }
      else s

/-- SNAPSHOT_REGION (R359). -/
def execSnapshotRegion (s : State) : Res :=
  s.whenServing (match s.snap with
    | none => s
    | some n => s.snapRegion n)

/-- The end of a snapshot whose regions have all been read (R360): ERROR_DATA after an uncorrectable read or a refused
signature; otherwise the manifest and its signature are sent. -/
def State.snapEnd (s : State) (n : Snap) : State :=
  if n.done < n.regions.length then s
  else if n.bad ∨ n.signing = 2 then s.endSnap (some stData)
  else if n.signing = 3 then
    let (s, ok) := s.snapSend n n.total (n.manifest ++ n.sig)
    s.endSnap (some (if ok then stDone else stLink))
  else s

/-- SNAPSHOT_END (R360). -/
def execSnapshotEnd (s : State) : Res :=
  s.whenServing (match s.snap with
    | none => s
    | some n => s.snapEnd n)

/-- SNAPSHOT_ABORT (R360). -/
def execSnapshotAbort (s : State) : Res := s.whenServing (s.endSnap (some stCancelled))

end Sys2Proof.Machine
end

