-- ==== Sys2Proof/Machine/Pendant.lean ====
section
/-!
DEFINITION. The pair (R364 to R388): joins and their checks, the join transfer, takeover, loss, detach, shadow copies, and the
commands of the pendant transfer engine. What needs the host port's or the fabric's own handlers stands in Pair.lean.
-/

namespace Sys2Proof.Machine

open Sys2Proof

def cpInvalid : Nat := 0
def cpFilling : Nat := 1
def cpValid : Nat := 2
def cpMerging : Nat := 3
def roleShadow : Nat := 3

/-! ### Bulk data -/

def blkRecord : Nat := 0
def blkData : Nat := 1
def blkZero : Nat := 2
def blkInfo : Nat := 3
def blkReport : Nat := 4
def blkFail : Nat := 5
def blkDelta : Nat := 6
def blkResync : Nat := 7
def blkResyncEnd : Nat := 8
def blkBlocks : Nat := 9

/-- Send BULK data of a kind. -/
def State.sendBulk (s : State) (kind : Nat) (nums : List Nat) (bytes : List Byte) : State :=
  s.sendPend 0x35 (kind :: nums) bytes

/-- Granules (by number) of a list of cells, in address order without repeats. -/
def granulesOf : List Host.Cell → List Nat
  | [] => []
  | (k, _) :: r =>
    match granulesOf r with
    | [] => [k / 4096]
    | g :: t => if k / 4096 = g then g :: t else k / 4096 :: g :: t

/-- The cells of one memory that the other does not hold alike. -/
def cellDiff (a b : List Host.Cell) : List Host.Cell := a.filter (fun c => memByte b c.1 != c.2)

/-- Granules in which two memories differ. -/
def granuleDiff (a b : List Host.Cell) : List Nat := dedupNat (granulesOf (cellDiff a b) ++ granulesOf (cellDiff b a))

/-- Send a granule as stored, to the address `to_` (its own canonical address where the partner keeps the same layout). -/
def State.sendGranule (s : State) (g to_ : Nat) : State :=
  s.sendBulk blkData [to_] ((List.range 4096).map (fun i => memByte s.mem (4096 * g + i)))

/-- Ticks that n bytes take over the pendant links (R365): 100 GB/s a port. -/
def State.pendTicks (s : State) (n : Nat) : Nat := n * 126 / (if s.pendUp 0 && s.pendUp 1 then 200 else 100)

/-! ### The end of the pair -/

/-- The queues that stood still issue again. -/
def State.resumeQueues (s : State) : State :=
  (List.range 240).foldl (fun s q =>
    match (s.qint q).wait with
    | some .reissue => if s.qState q = qWait then s.reissue q else s
    | _ => s) s

/-- Once the pair is no more, its waiting comparisons end (R387) and sampled steps go unchecked (log 23). -/
def State.pairTidy (s : State) : State :=
  if s.pairState = psPaired then s
  else
    let s := s.pend.compares.foldl (fun s w =>
      match s.findCmd w.queue w.seq with
      | some c => s.fail c stLink
      | none => s) s
    let s := (s.updPend (fun p => { p with compares := [], digests := [] })).dropChecks
    if s.pend.quiesced && s.pairState != psSyncing then (s.updPend (fun p => { p with quiesced := false })).resumeQueues else s

/-- The module serves alone (R375, R379). -/
def State.soloNow (s : State) : State := (s.pairChange (fun s => s.setPairState psSolo)).pairTidy

/-- A back or a module of a failed lockstep enters BROKEN. -/
def State.brokenNow (s : State) : State := (s.pairChange (fun s => s.setPairState psBroken)).pairTidy

/-! ### Host address advertisements (R380) -/

/-- One unsolicited Neighbor Advertisement per IPv6 address and one gratuitous ARP reply. -/
def State.advertise (s : State) : State :=
  let hi := (s.reg R.HOSTP_IP6_HI).toNat
  let lo := (s.reg R.HOSTP_IP6_LO).toNat
  let mac := s.fld R.HOSTP_MAC F.HOSTP_MAC_MAC
  let s := if hi + lo = 0 then s else s.emit { kind := .advert, nums := [6, hi, lo, mac], bytes := [] }
  if s.fld R.HOSTP_CFG F.HOSTP_CFG_IPV4_EN = 1 then
    s.emit { kind := .advert, nums := [4, s.fld R.HOSTP_IP4 F.HOSTP_IP4_ADDR, mac], bytes := [] }
  else s

/-! ### Takeover (R380) -/

/-- FOLLOW is cleared on every gate, and the closes that waited for a manifest go by their own TARGET and DEADLINE. -/
def State.unfollow (s : State) : State :=
  (List.range 4).foldl (fun s d => (List.range 4).foldl (fun s g =>
    let s := s.setFld (R.CANV_GATE_CFG d) (F.CANV_GATE_CFG_FOLLOW g) 0
    s.gateOwn d g) s) s

/-- The remote requests that were held for the face's replies are sent (R370, R380). -/
def State.reissueHeld (s : State) : State :=
  let held := s.fabric.requests.filter (fun r => decide (r.type < 0x20) && r.owner != ReqOwner.probe)
  let s := { s with fabric := { s.fabric with requests := s.fabric.requests.map (fun r => { r with sentAt := s.now }) } }
  held.foldl (fun s r =>
    s.sendRaw { hdr := { dst := BitVec.ofNat 16 r.dst, src := BitVec.ofNat 16 s.ownAddr, vc := vcOf r.vc, hops := 0, err := false,
                         retry := false, seq := BitVec.ofNat 16 r.seq, addr := BitVec.ofNat 48 r.addr },
                type := r.type, body := r.body }) s

/-- A back takes the face role (R380). -/
def State.takeover (s : State) : State :=
  let s := s.pairChange (fun s => (s.setPairState psSolo).setFld R.PEND_STAT F.PEND_STAT_ROLE roleFace)
  let s := s.setFld R.HOSTP_STAT F.HOSTP_STAT_SILENT 0
  let s := s.unfollow
  let frames := s.replayBuf
  let s := frames.foldl (fun s f => s.emit f.2) { s with replayBuf := [] }
  let s := s.reissueHeld.advertise
  ((s.updPend (fun p => { p with adverts := 2, advertAt := s.now + 100 * usTicks })).count R.PEND_CNT F.PEND_CNT_TAKEOVER 1).pairTidy

/-- NEIGHBOR_ADVERT_REPEAT (R380). -/
def execNeighborAdvertRepeat (s : State) : Res :=
  s.whenMain (
    if s.pend.adverts = 0 ∨ s.now < s.pend.advertAt then s
    else (s.updPend (fun p => { p with adverts := p.adverts - 1, advertAt := p.advertAt + 100 * usTicks })).advertise)

/-! ### Loss of the partner (R366, R379) -/

/-- The partner is lost: the pair's outcome and its record. `why`: bits of the record. -/
def State.partnerLost (s : State) (why : Nat) : State :=
  let serial := (s.reg R.PEND_PEER_SERIAL).toNat
  let s := (s.count R.PEND_CNT F.PEND_CNT_LOST 1).errRecord
    { cls := clsDeferred, code := 0x0604, unit := 0xDC, info0 := serial, info1 := why }
  let s := s.updPend (fun p => { p with probeAt := 0, probeAns := none })
  if s.mirror then (if s.role = roleBack then s.takeover else s.soloNow)
  else
    let copy := s.fld R.PEND_COPY F.PEND_COPY_EPOCH
    (s.updPend (fun p => { p with staged := p.staged.filter (fun x => decide (x.epoch ≤ copy)) })).soloNow

/-- The pair is split. -/
def State.partnerSplit (s : State) : State :=
  let serial := (s.reg R.PEND_PEER_SERIAL).toNat
  let s := (s.count R.PEND_CNT F.PEND_CNT_SPLIT 1).errRecord
    { cls := clsCorrected, code := 0x0603, unit := 0xDC, info0 := serial, info1 := s.pairState }
  let s := s.updPend (fun p => { p with probeAt := 0, probeAns := none })
  if s.mirror && s.role == roleBack then s.brokenNow else s.soloNow

/-- Address of the partner over the fabric. -/
def State.partnerAddr (s : State) : Nat := (s.pend.partner.map Partner.addr).getD 0

/-- Silence begins a probe (R379): 20 µs since the last HEARTBEAT on any port. -/
def State.probeStart (s : State) : State :=
  if s.pairState = psPaired ∧ s.pend.probeAt = 0 ∧ s.pend.lastHb + 20 * usTicks ≤ s.now then
    let s := s.updPend (fun p => { p with probeAt := s.now + 1, probeAns := none })
    (s.sendReq s.partnerAddr 1 tRegRd R.ID_INCARN [] .probe).2
  else s

/-- PARTNER_SILENCE (R379). -/
def execPartnerSilence (s : State) : Res := s.whenMain s.probeStart

/-! ### The join (R367, R368, R384, R423) -/

/-- A join ends in failure: the previous state, the code, the record (R367). -/
def State.joinFailed (s : State) (code : Nat) : State :=
  let s := s.setFld R.PEND_STAT F.PEND_STAT_JOIN_FAIL code
  let s := s.errRecord { cls := clsDeferred, code := 0x0601, unit := 0xDC, info0 := code, info1 := (s.reg R.PEND_PEER_SERIAL).toNat }
  let s := s.updPend (fun p => { p with partner := none, attested := false, syncing := false, synced := [], blocksDone := false })
  let s := s.orphanSigns .join
  (s.pairChange (fun s => s.setPairState s.pend.prev)).pairTidy

/-- A running join is abandoned (R429): the previous state, without a failed check. -/
def State.joinAbandon (s : State) : State :=
  if s.pairState = psJoining ∨ s.pairState = psSyncing then
    let s := s.updPend (fun p => { p with partner := none, attested := false, syncing := false, synced := [], blocksDone := false })
    ((s.orphanSigns .join).pairChange (fun s => s.setPairState s.pend.prev)).pairTidy
  else s

/-- A check of the join fails here: the partner is told. -/
def State.joinRefuse (s : State) (code : Nat) : State := (s.sendBulk blkFail [code] []).joinFailed code

/-- The checks of R367 on what the partner said: 0, or the code. -/
def State.joinCheck (s : State) (p : Partner) : Nat :=
  if p.mode ≠ s.fld R.PEND_CFG F.PEND_CFG_MODE ∨ p.mode = 0 then 1
  else if p.fw ≠ (s.reg R.ID_FW).toNat then 3
  else if s.mirror = true ∧ (p.source ≠ s.fld R.BEAT_CFG F.BEAT_CFG_SOURCE ∨
      (p.source = 2 ∧ p.master ≠ (s.reg R.BEAT_MASTER_SERIAL).toNat)) then 4
  else if s.mirror = true ∧ rtValid (s.reg (R.RYF_ROUTE p.addr)) = false then 5
  else 0

/-- What this module says of itself, with a fresh nonce. -/
def State.sendInfo (s : State) : State :=
  let (a, s) := s.draw
  let (b, s) := s.draw
  let (c, s) := s.draw
  let (d, s) := s.draw
  let nonce := [a, b, c, d].flatMap (fun w => leBytes w.toNat 8)
  let s := s.updPend (fun p => { p with nonce := nonce })
  s.sendBulk blkInfo [s.fld R.PEND_CFG F.PEND_CFG_MODE, b2n (s.pend.prev == psSolo), (s.reg R.ID_FW).toNat, s.serial,
    (s.reg R.ID_INCARN).toNat, (s.reg R.ID_STRAPS).toNat % 2 ^ 14, s.fld R.BEAT_CFG F.BEAT_CFG_SOURCE, (s.reg R.BEAT_MASTER_SERIAL).toNat,
    s.ownAddr, (s.reg R.PEND_WIN).toNat, (s.reg R.PEND_RESV).toNat, (s.reg R.PEND_DAREA).toNat] nonce

/-- With the partner's words at hand, check them and ask for this module's own report (R423). -/
def State.joinGoOn (s : State) : State :=
  match s.pend.partner with
  | none => s
  | some p =>
    if s.pairState ≠ psJoining then s
    else
      let s := s.setReg R.PEND_PEER_SERIAL (BitVec.ofNat 64 p.serial)
      let code := s.joinCheck p
      if code ≠ 0 then s.joinRefuse code
      else
        let (s, ok) := s.askSign (s.reportReq .join p.nonce)
        if ok then s else s.joinRefuse 2

/-- A pendant port shows a partner (R364): up, with the same nonzero pair ID. -/
def State.partnerSeen (s : State) : Bool :=
  s.pairId != 0 && (List.range 2).any (fun p => s.pendUp p && (s.link (16 + p)).peerPair == s.pairId)

/-- A write of PEND_CTL.JOIN (R367). -/
def State.joinWrite (s : State) : State :=
  let st := s.pairState
  if st ≠ psUnpaired ∧ st ≠ psSolo ∧ st ≠ psBroken then s
  else
    let s := s.updPend (fun p => { p with prev := st })
    let s := s.setFld R.PEND_STAT F.PEND_STAT_JOIN_FAIL 0
    if s.partnerSeen = false then s.joinFailed 6
    else
      let s := s.updPend (fun p => { p with attested := false, blocksDone := false, quiesced := false })
      ((s.pairChange (fun s => s.setPairState psJoining)).sendInfo).joinGoOn

/-- JOIN (R367). -/
def execPairJoin (s : State) : Res := s.whenServing s.joinWrite

/-- This module is the face after the join (R368). -/
def State.joinFace (s : State) (p : Partner) : Bool :=
  let mine := s.pend.prev == psSolo
  if mine != p.solo then mine
  else
    let st := s.reg R.ID_STRAPS
    if F.ID_STRAPS_STRAP_VALID.get st = 1 then
      decide (F.ID_STRAPS_SLOT.get st < F.ID_STRAPS_SLOT.get (BitVec.ofNat 64 p.straps))
    else decide (s.serial < p.serial)

/-- The whole memory goes to the partner (R384, step 1). -/
def State.joinBulk (s : State) : State :=
  let s := s.sendBulk blkZero [0, 2 ^ 40] []
  let s := (List.range 4).foldl (fun s d => s.sendBulk blkZero [sramBase d, sramSize] []) s
  let s := (granulesOf s.mem).foldl (fun s g => s.sendGranule g (4096 * g)) s
  let s := s.updPend (fun p => { p with synced := s.mem })
  s.setReg R.PEND_SYNC (BitVec.ofNat 64 (2 ^ 40 + 4 * sramSize))

/-- The pair is made (R384, step 4): the gates' FOLLOW and counts, ingress and egress numbers. -/
def State.pairNow (s : State) : State :=
  let follow := s.mirror && s.role == roleBack
  let s := if s.mirror then
      (List.range 4).foldl (fun s d => (List.range 4).foldl (fun s g =>
        let s := s.setFld (R.CANV_GATE_CFG d) (F.CANV_GATE_CFG_FOLLOW g) (b2n follow)
        s.setGate d g { s.gate d g with closes := 0, masks := [] }) s) s
    else s
  let s := s.setReg R.PEND_ING 0
  let s := s.setFld R.HOSTP_STAT F.HOSTP_STAT_SILENT (b2n follow)
  let s := s.updPend (fun p => { p with lastHb := s.now, heldIn := [], ingSent := 0, ingDone := 0, compares := [], digests := [], syncing := false,
                                        synced := [], quiesced := false, probeAt := 0, probeAns := none, adverts := 0 })
  ({ s with egSent := 0, replayBuf := [], fabric := { s.fabric with issued := [] } } : State).pairChange (fun s => s.setPairState psPaired)

/-- Both reports have passed (R423): roles are taken, and in mirror mode the join transfer begins. -/
def State.joinPassed (s : State) : State :=
  match s.pend.partner with
  | none => s
  | some p =>
    if s.mirror then
      let face := s.joinFace p
      let s := s.pairChange (fun s => (s.setPairState psSyncing).setFld R.PEND_STAT F.PEND_STAT_ROLE
        (if face then roleFace else roleBack))
      let s := s.updPend (fun p => { p with syncing := true })
      if face then s.joinBulk else s
    else (s.setFld R.PEND_STAT F.PEND_STAT_ROLE roleShadow).pairNow

/-- This module's report is signed: it goes to the partner. -/
def State.joinSigned (s : State) (body sig : List Byte) : State :=
  if s.pairState = psJoining then s.sendBulk blkReport [] (s.endorsement ++ body ++ sig) else s

/-- The join may pass: the partner is attested and no signature of ours is awaited. -/
def State.joinTry (s : State) : State :=
  if s.pairState = psJoining ∧ s.pend.attested = true ∧ s.signReqs.any (fun r => r.owner == SignOwner.join) = false then s.joinPassed
  else s

/-- The registers that the quiesce sends: those of the blocks of R384 that are not at their Cold values. -/
def joinBlock : Option Block → Bool
  | some (.cpd _) => true
  | some .cpq => true
  | some (.pal _) => true
  | some (.rand _) => true
  | some .lock => true
  | some (.dlock _) => true
  | some .red => true
  | some .trn => true
  | some .beat => true
  | some (.canv _) => true
  | _ => false

/-- A bank's words of those blocks. -/
def joinWords (m : Sparse Word) : List (BitVec 64 × BitVec 64) :=
  (m.filter (fun p => joinBlock ((blockOf p.1).map Prod.fst))).map (fun p => (BitVec.ofNat 64 p.1, p.2))

/-- Bytes as numbers, and back. -/
def natsOf (b : List Byte) : List Nat := b.map (·.toNat)
def bytesOfNats (l : List Nat) : List Byte := l.map (BitVec.ofNat 8)

/-- What no register shows of those blocks (see PendBulk.blocks). -/
def State.joinItems (s : State) : List (Nat × List Nat) :=
  s.queues.map (fun p => (0, [p.1, b2n p.2.inList, p.2.entry, p.2.tag, b2n p.2.wantRec, p.2.maxw, p.2.slot, p.2.issued,
    b2n p.2.wait.isSome])) ++
  s.cmds.map (fun c => (1, [c.queue, c.seq, c.epoch, c.pc, c.slot, c.unit] ++ natsOf c.desc)) ++
  s.groups.flatMap (fun p => match p.2 with
    | some g => [(2, [p.1, g.cseq, g.epochs.length] ++ g.epochs ++ natsOf g.bytes)]
    | none => []) ++
  s.gates.flatMap (fun p => p.2.posts.map (fun x => (3, [p.1, x.1, x.2]))) ++
  [(4, s.retracted), (5, s.captured), (7, [s.pendingVeto])] ++
  s.closes.map (fun c => (6, [c.1, c.2.1, c.2.2.1, b2n c.2.2.2]))

/-- Every canvas is idle with no open tile, and no dispatched command has started (R384, step 3). -/
def State.joinIdle (s : State) : Bool :=
  s.cmds.all (fun c => c.phase == .accepted) && s.rings.isEmpty && s.slivers.isEmpty && s.colls.isEmpty &&
    s.probs.all (fun p => p.2.tiles.isEmpty) && s.nmaUpdates.isEmpty &&
    s.queues.all (fun p => match p.2.wait with
      | some (.load ..) => false
      | some (.unlock ..) => false
      | some (.lock _ n) => n == 0
      | _ => p.2.remoteSts.isEmpty)

/-- Marked granules, and the limit of the last pass (R384, step 2). -/
def State.marked (s : State) : List Nat := granuleDiff s.mem s.pend.synced

/-- A waiting queue stands at its instruction, to issue it again at the resume. -/
def State.quiesceQueue (s : State) (q : Nat) : State :=
  match (s.qint q).wait with
  | some _ => ((s.leaveSems q).leaveLocks q).updQ q (fun i => { i with wait := some .reissue })
  | none => s

/-- The face at a beat boundary of SYNCING (R384, steps 2 and 3). -/
def State.joinQuiesce (s : State) : State :=
  if s.pairState ≠ psSyncing ∨ s.role ≠ roleFace ∨ s.pend.blocksDone = true then s
  else
    let gs := s.marked
    if s.pend.quiesced = false ∧ s.fld R.PEND_CFG F.PEND_CFG_QUIESCE_MIB * 256 ≤ gs.length then
      let s := gs.foldl (fun s g => s.sendGranule g (4096 * g)) s
      let s := s.setReg R.PEND_SYNC (F.PEND_SYNC_BYTES.put (s.reg R.PEND_SYNC) (4096 * gs.length))
      let s := s.setFld R.PEND_SYNC F.PEND_SYNC_PASS (min 255 (s.fld R.PEND_SYNC F.PEND_SYNC_PASS + 1))
      s.updPend (fun p => { p with synced := s.mem })
    else
      let s := s.updPend (fun p => { p with quiesced := true })
      if s.joinIdle = false then s
      else
        let s := gs.foldl (fun s g => s.sendGranule g (4096 * g)) s
        let s := (List.range 240).foldl (fun s q => s.quiesceQueue q) s
        let items := s.joinItems
        let nums := (joinWords s.regs).length :: (joinWords s.staged).length :: items.length ::
          ((joinWords s.regs ++ joinWords s.staged).flatMap (fun p => [p.1.toNat, p.2.toNat]) ++
            items.flatMap (fun i => i.1 :: i.2.length :: i.2))
        (s.sendBulk blkBlocks nums []).updPend (fun p => { p with blocksDone := true, synced := s.mem })

/-- JOIN_QUIESCE (R384). -/
def execJoinQuiesce (s : State) : Res := s.whenServing s.joinQuiesce

/-- Replace the words of the joined blocks in a bank. -/
def joinBank (m : Sparse Word) (ws : List (BitVec 64 × BitVec 64)) : Sparse Word :=
  ws.foldl (fun m p => sparseSet m p.1.toNat p.2 (coldOf p.1.toNat)) (m.filter (fun p => !(joinBlock ((blockOf p.1).map Prod.fst))))

/-- A dispatched command of the face, as it stood before its start. -/
def cmdOfItem (l : List Nat) : Cmd where
  queue := l.getD 0 0
  seq := l.getD 1 0
  desc := bytesOfNats (l.drop 6)
  epoch := l.getD 2 0
  pc := l.getD 3 0
  slot := l.getD 4 0
  unit := l.getD 5 0
  phase := .accepted
  status := 0
  res0 := 0
  res1 := 0
  due := 0
  capt := []
  orphan := false
  palDie := 0
  tally := []
  rx := []
  open_ := 0
  rerr := 0

/-- One item of the face's block state. -/
def State.joinItem (s : State) (i : Nat × List Nat) : State :=
  let l := i.2
  match i.1 with
  | 0 =>
    let x : QueueInt :=
      { QueueInt.empty with inList := l.getD 1 0 == 1, entry := l.getD 2 0, tag := l.getD 3 0, wantRec := l.getD 4 0 == 1,
                            maxw := l.getD 5 0, slot := l.getD 6 0, issued := l.getD 7 0,
                            wait := if l.getD 8 0 = 1 then some .reissue else none }
    s.setQint (l.getD 0 0) x
  | 1 => { s with cmds := s.cmds ++ [cmdOfItem l] }
  | 2 =>
    let v := l.getD 0 0
    let n := l.getD 2 0
    let b := bytesOfNats (l.drop (3 + n))
    let ms := membersOf b (leField b 2 2)
    let rank := (ms.findIdx? (fun m => m.module == s.ownAddr || m.backup == s.ownAddr)).getD 0
    let g : Group :=
      { gid := leField b 0 1, bytes := b, members := ms, rank := rank, backup := ms.any (fun m => m.backup == s.ownAddr),
        cseq := l.getD 1 0, epochs := (l.drop 3).take n }
    s.bindGroup v stDone (some g)
  | 3 =>
    let k := l.getD 0 0
    let x := s.gate (k / 4) (k % 4)
    s.setGate (k / 4) (k % 4) { x with posts := x.posts ++ [(l.getD 1 0, l.getD 2 0)] }
  | 4 => { s with retracted := l }
  | 5 => { s with captured := l }
  | 6 => { s with closes := s.closes ++ [(l.getD 0 0, l.getD 1 0, l.getD 2 0, l.getD 3 0 == 1)] }
  | 7 => { s with pendingVeto := l.getD 0 0 }
  | _ => s

/-- The back takes the face's block state (R384, step 3). -/
def State.joinBlocks (s : State) (regs staged : List (BitVec 64 × BitVec 64)) (items : List (Nat × List Nat)) : State :=
  if s.pairState ≠ psSyncing ∨ s.role = roleFace then s
  else
    let s := { s with regs := joinBank s.regs regs, staged := joinBank s.staged staged, queues := [], cmds := [], groups := [], closes := [],
                      semWaiters := [], lockWaiters := [], gates := [], colls := [], redRx := [], redTx := [], banks := [], accs := [],
                      probs := [], rings := [], slivers := [], brushRuns := [], lent := [], nmaUpdates := [] }
    (items.foldl State.joinItem s).updPend (fun p => { p with blocksDone := true })

/-! ### Shadow copies (R376 to R378, R385, R386) -/

/-- PEND_WIN as a local range. -/
def State.pendWin (s : State) : Nat × Nat := s.gibRange R.PEND_WIN F.PEND_WIN_WSIZE F.PEND_WIN_WBASE

/-- The area that keeps the partner's window. -/
def State.pendResv (s : State) : Nat × Nat := s.gibRange R.PEND_RESV F.PEND_RESV_RSIZE F.PEND_RESV_RBASE

/-- The partner's window and the size of its DAREA. -/
def Partner.winBase (p : Partner) : Nat := F.PEND_WIN_WBASE.get p.win * 2 ^ 30
def Partner.winSize (p : Partner) : Nat := F.PEND_WIN_WSIZE.get p.win * 2 ^ 30
def Partner.areaSize (p : Partner) : Nat := F.PEND_DAREA_DSIZE.get p.darea * 2 ^ 30

/-- Write bytes of the partner's window into the copy (R376): partner address a at RBASE + (a − WBASE). -/
def State.copyWrite (s : State) (a : Nat) (b : List Byte) : State :=
  match s.pend.partner with
  | none => s
  | some p =>
    let r := s.pendResv
    let o := a - p.winBase
    if p.winBase ≤ a ∧ o + b.length ≤ r.2 ∧ s.mappedRange (r.1 + o) b.length = true then (s.writeMem (r.1 + o) b).1 else s

/-- The confirmed merge ends (R377, step 3): the staged entries up to its epoch are copied in staging order and freed. -/
def State.mergeEnd (s : State) : State :=
  if s.pend.merging = 0 then s
  else
    let k := s.pend.merging - 1
    let s := (s.pend.staged.filter (fun x => decide (x.epoch ≤ k))).foldl (fun s x => s.copyWrite x.addr x.bytes) s
    let s := s.updPend (fun p => { p with staged := p.staged.filter (fun x => decide (k < x.epoch)), merging := 0 })
    if s.fld R.PEND_COPY F.PEND_COPY_STATE = cpMerging then s.setFld R.PEND_COPY F.PEND_COPY_STATE cpValid else s

/-- SHADOW_MERGE_COMPLETE (R377). -/
def execShadowMergeComplete (s : State) : Res := s.whenMain s.mergeEnd

/-- A CONFIRM(K) arrives at the holder (R377, step 3; R385). A copy that is VALID, or FILLING by a RESYNC that has ended at an
epoch at most K, enters MERGING at K; another copy keeps its state (log 28). -/
def State.confirmRx (s : State) (k : Nat) : State :=
  if s.shadow = false ∨ s.pairState ≠ psPaired then s
  else
    let s := s.mergeEnd
    let st := s.fld R.PEND_COPY F.PEND_COPY_STATE
    let go := st = cpValid ∨ (st = cpFilling ∧ s.pend.filled ≠ 0 ∧ s.pend.filled - 1 ≤ k)
    let s := if go then (s.setFld R.PEND_COPY F.PEND_COPY_STATE cpMerging).setFld R.PEND_COPY F.PEND_COPY_EPOCH k else s
    (s.updPend (fun p => { p with merging := k + 1, filled := if go then 0 else p.filled })).sendPend 0x36 [1, k] []

/-- CONFIRM (R377). -/
def execPendConfirm (k : BitVec 48) (s : State) : Res := s.whenMain (s.confirmRx k.toNat)

/-- A CONFIRM_ACK arrives: the checkpoint write is accepted, and the partner has freed the entries it merges. -/
def State.confirmAck (s : State) (k : Nat) : State :=
  match s.pend.confirm with
  | some (v, _) =>
    if v = k then
      (s.updPend (fun p => { p with confirm := none, taken := p.taken.filter (fun t => decide (k < t.1)) })).setReg R.TRN_CKPT
        (BitVec.ofNat 64 v)
    else s
  | none => s

/-- CONFIRM_ACK (R377). -/
def execConfirmAck (k : BitVec 48) (s : State) : Res := s.whenMain (s.confirmAck k.toNat)

/-- CONFIRM_TIMEOUT (R377): no answer within 100 µs. -/
def execConfirmTimeout (s : State) : Res :=
  s.whenMain (match s.pend.confirm with
    | some (_, t) =>
      if t + 100 * usTicks ≤ s.now then
        (s.updPend (fun p => { p with confirm := none })).count R.PEND_CNT F.PEND_CNT_CONFIRM_FAIL 1
      else s
    | none => s)

/-- A write of TRN_CKPT.LAST (R361, R377). -/
def State.ckptWrite (s : State) (v : Word) : State :=
  let k := F.TRN_CKPT_LAST.get v
  let old := s.fld R.TRN_CKPT F.TRN_CKPT_LAST
  if s.settled < k ∨ k < old ∨ (k ≠ old ∧ s.epochState k ≠ .committed) then s
  else if s.shadow = true ∧ s.pairState = psPaired then
    let busy := s.cmds.any (fun c => (c.code == 0x41 || c.code == 0x42) && decide (c.at 24 6 ≤ k) && c.phase != .finished)
    if busy ∨ s.pend.confirm.isSome = true then s.count R.PEND_CNT F.PEND_CNT_CONFIRM_FAIL 1
    else (s.updPend (fun p => { p with confirm := some (k, s.now) })).sendPend 0x36 [0, k] []
  else s.setReg R.TRN_CKPT (BitVec.ofNat 64 k)

/-- CKPT_CONFIRM (R361, R377). -/
def execCkptConfirm (v : BitVec 64) (s : State) : Res := s.whenMain (s.ckptWrite v)

/-- A write of PEND_CTL.RESTORE at the holder (R378): the copy is sent, or the request is refused. -/
def State.restoreWrite (s : State) : State :=
  let refuse := s.setFld R.PEND_STAT F.PEND_STAT_JOIN_FAIL 7
  let st := s.fld R.PEND_COPY F.PEND_COPY_STATE
  match s.pend.partner with
  | none => refuse
  | some p =>
    if s.shadow = false ∨ s.pairState ≠ psPaired ∨ (st ≠ cpValid ∧ st ≠ cpMerging) ∨
        s.fld R.PEND_RESTORE_EPOCH F.PEND_RESTORE_EPOCH_EPOCH ≠ s.fld R.PEND_COPY F.PEND_COPY_EPOCH then refuse
    else
      let s := s.mergeEnd
      let r := s.pendResv
      let n := min r.2 p.winSize
      let s := s.sendBulk blkZero [p.winBase, n] []
      let cells := s.mem.filter (fun c => decide (r.1 ≤ c.1) && decide (c.1 < r.1 + n))
      (granulesOf cells).foldl (fun s g => s.sendGranule g (p.winBase + (4096 * g - r.1))) s

/-- RESTORE (R378). -/
def execPairRestore (s : State) : Res := s.whenMain s.restoreWrite

/-- A write of PEND_CTL.FORGET (R386). -/
def State.forgetWrite (s : State) : State :=
  (s.updPend (fun p => { p with staged := [], merging := 0, filled := 0 })).setFld R.PEND_COPY F.PEND_COPY_STATE cpInvalid

/-- FORGET (R386). -/
def execPairForget (s : State) : Res := s.whenMain s.forgetWrite

/-! ### Module state changes and detach (R386, R428) -/

/-- Enter a module state: host event kind 0x05, ALERT_STATUS.STATE, and M2 at EARLY, FULL and DEGRADED (R428). -/
def State.enterMode (s : State) (m : Nat) : State :=
  if s.mode = m then s
  else
    let old := (s.reg R.ID_STATE).toNat
    let s : State := { s.setFld R.ID_STATE F.ID_STATE_STATE m with warmRun := s.warmRun && m == mBoot }
    let s := if m = mEarly ∨ m = mFull ∨ m = mDegraded then s.measureState else s
    (s.hostEvent 5 (leBytes old 8 ++ leBytes (s.reg R.ID_STATE).toNat 8)).alert 4

/-- The 32 bytes of a HEARTBEAT (R365). -/
def State.heartbeatBytes (s : State) : List Byte :=
  leBytes s.role 1 ++ leBytes s.pairState 1 ++ leBytes 0 6 ++ leBytes (s.reg R.ID_INCARN).toNat 8 ++ leBytes s.ingHigh 8 ++
    leBytes s.egSent 8

/-- A HEARTBEAT on every up pendant port. -/
def State.sendHeartbeat (s : State) : State :=
  (List.range 2).foldl (fun s p =>
    if s.pendUp p then s.emit { kind := .pendant, nums := [p, 0x30], bytes := s.heartbeatBytes } else s) s

/-- HEARTBEAT_TIMER (R366). -/
def execHeartbeatTimer (s : State) : Res := s.whenMain s.sendHeartbeat

/-- Close the switched domains of a mask (R443): no new dispatch or access reaches them, held sectors are written back. -/
def State.closeDomains (s : State) (m : Nat) : State :=
  let on := s.fld R.PWR_DOM_STAT F.PWR_DOM_STAT_ON
  let c := (s.fld R.PWR_DOM_CLOSING F.PWR_DOM_CLOSING_DOM) ||| (m &&& on)
  let s := s.setFld R.PWR_DOM_CLOSING F.PWR_DOM_CLOSING_DOM c
  let s := s.setFld R.PWR_DOM_STAT F.PWR_DOM_STAT_CLOSING (popCount c 56)
  s.writeBackHeld (fun u => isHbm u && bitOf m (36 + hbmStack u))

/-- Groups of domains of a detach, in order (R445). -/
def detachGroups : List Nat :=
  [((List.range 36).filter (fun k => k % 9 ≠ 8)).foldl (fun m k => m + 2 ^ k) 0,
   (2 ^ 16 - 1) * 2 ^ 36, 2 ^ 8 + 2 ^ 17 + 2 ^ 26 + 2 ^ 35, 2 ^ 53 + 2 ^ 54, 2 ^ 55, 2 ^ 52]

/-- The next group of the detach begins to close, once the previous ones are off. -/
def State.detachStage (s : State) : State :=
  if s.mode = mDetaching ∧ s.pend.detached = true then
    let on := s.fld R.PWR_DOM_STAT F.PWR_DOM_STAT_ON
    match detachGroups.find? (fun m => m &&& on != 0) with
    | some m => s.closeDomains m
    | none => s
  else s

/-- The in-flight commands of a detaching module have completed (R386, steps 2 to 5). -/
def State.detachStep (s : State) : State :=
  if s.mode = mDetaching ∧ s.pend.detached = false ∧ s.cmds.isEmpty = true then
    let face := s.mirror && s.pend.prev == psPaired && s.role == roleFace
    let s := if face then (s.sendPend 0x37 [] []).count R.PEND_CNT F.PEND_CNT_HANDOVER 1 else s
    ((s.sendHeartbeat).updPend (fun p => { p with detached := true })).detachStage
  else s

/-- A write of PEND_CTL.DETACH (R386, R428). -/
def State.detachWrite (s : State) : State :=
  if s.mode ≠ mFull ∧ s.mode ≠ mDegraded then s
  else
    let s := s.updPend (fun p => { p with prev := s.pairState, detached := false })
    let s := s.pairChange (fun s => s.setPairState psDetaching)
    (s.enterMode mDetaching).pairTidy.detachStep

/-- DETACH (R386). -/
def execPairDetach (s : State) : Res := s.whenMain s.detachWrite

/-- DETACH_COMPLETE (R445): every switched domain is off; the module is in AON again. -/
def execDetachComplete (s : State) : Res :=
  s.whenMain (if s.mode = mDetaching ∧ s.pend.detached = true ∧ s.fld R.PWR_DOM_STAT F.PWR_DOM_STAT_ON = 0 then s.enterMode mAon else s)

/-! ### Commands of the pendant transfer engine (R374, R377, R385, R387) -/

/-- Reserved fields of a pendant descriptor, and COMPARE's and EPOCH's use. -/
def pendHeadOk (c : Cmd) : Bool :=
  c.at 32 8 == 0 && c.at 40 8 == 0 && c.at 48 8 == 0 && c.at 56 8 == 0 && c.at 30 2 == 0 && c.at 9 7 == 0 &&
    decide (c.at 8 1 < (if c.code = 0x40 then 2 else 1)) && (c.code != 0x40 || c.at 24 6 == 0)

/-- Compare two digests (R374). True: alike. The module that finds a difference leaves lockstep, or, as face, serves alone
(R375). -/
def State.compareDone (s : State) (c : Cmd) (own other : List Byte) : State :=
  let s := s.count R.PEND_CMP F.PEND_CMP_COMPARED 1
  if own = other then s.finish c stDone own.length 0 s.now
  else
    let s := (s.count R.PEND_CMP F.PEND_CMP_MISMATCH 1).errRecord
      { cls := clsDeferred, code := 0x0602, unit := 0xDC, info0 := c.seq, info1 := c.queue }
    let s := s.finish c stMismatch own.length 0 s.now
    if s.role = roleBack then s.brokenNow else s.soloNow

/-- A REPLICATE with COMPARE sends its digest and waits for the partner's (R374). -/
def State.compareBody (s : State) (c : Cmd) (bytes : List Byte) : State :=
  let dg := shake256 bytes 16
  let s := s.sendPend 0x34 [0, c.queue, c.seq] dg
  match s.pend.digests.find? (fun d => d.1 == c.queue && d.2.1 == c.seq) with
  | some d => (s.updPend (fun p => { p with digests := p.digests.filter (· != d) })).compareDone c dg d.2.2
  | none => s.updPend (fun p => { p with compares := p.compares ++ [⟨c.queue, c.seq, dg, s.now⟩] })

/-- Send the source's bytes as the command's kind asks. -/
def State.pendSend (s : State) (c : Cmd) (a : Nat) (bytes : List Byte) : State :=
  let e := c.at 24 6
  let due := s.now + s.pendTicks bytes.length
  if c.code = 0x40 then
    if bitOf (c.at 8 1) 0 then s.compareBody c bytes
    else (s.sendBulk blkData [a] bytes).finish c stDone bytes.length 0 due
  else if c.code = 0x41 then
    ((s.sendBulk blkDelta [e, a] bytes).updPend (fun p => { p with taken := p.taken ++ [(e, bytes.length + 64)] })).finish c stDone
      bytes.length 0 due
  else ((s.sendBulk blkResync [e, a] bytes).sendBulk blkResyncEnd [e] []).finish c stDone bytes.length 0 due

/-- The work of REPLICATE, DELTA and RESYNC. -/
def State.pendBody (s : State) (c : Cmd) : State :=
  let shadowCmd := c.code != 0x40
  if pendHeadOk c = false ∨ s.pairState ≠ psPaired ∨ (shadowCmd = true ∧ s.shadow = false) ∨
      (shadowCmd = false ∧ s.mirror = false) ∨ (shadowCmd = true ∧ s.epochState (c.at 24 6) ≠ .committed) then s.fail c stDescriptor
  else
    match s.readTd c (c.at 16 8) with
    | (.error e, s) => s.fail c e
    | (.ok t, s) =>
      if t.ok = false then s.fail c stDescriptor
      else if t.count = 0 then s.fail c stDone
      else if s.isOwn t.base = false ∨ s.boundOk t = false then s.fail c stAddress
      else
        let x := t.extent
        let w := s.pendWin
        let used := (s.pend.taken.map Prod.snd).sum
        let area := (s.pend.partner.map Partner.areaSize).getD 0
        if shadowCmd = true ∧ (x.1 < w.1 ∨ w.1 + w.2 < x.1 + x.2) then s.fail c stDescriptor
        else if c.code = 0x41 ∧ area < used + x.2 + 64 then s.fail c stAddress
        else if s.pendPort.isNone then s.fail c stLink
        else
          let (b, s, e) := s.readMem c.who x.1 x.2
          if e then s.fail c stData else s.pendSend c x.1 b

/-- DELTA (R377). -/
def execPendDelta (q : Fin 240) (n : Nat) (s : State) : Res := s.whenServing (s.starting q.val n 0x41 State.pendBody)
/-- RESYNC (R385). -/
def execResyncTransfer (q : Fin 240) (n : Nat) (s : State) : Res := s.whenServing (s.starting q.val n 0x42 State.pendBody)

/-- A partner's digest arrives (R374, R334). -/
def State.digestRx (s : State) (k : DigestKey) (dg : List Byte) : State :=
  if s.pairState ≠ psPaired ∨ s.mirror = false then s
  else match k with
    | .step coll key => s.stepDigestRx coll key dg
    | .replicate q n =>
      match s.pend.compares.find? (fun w => w.queue == q.val && w.seq == n) with
      | some w =>
        let s := s.updPend (fun p => { p with compares := p.compares.filter (· != w) })
        match s.findCmd q.val n with
        | some c => s.compareDone c w.own dg
        | none => s
      | none => s.updPend (fun p => { p with digests := p.digests ++ [(q.val, n, dg)] })

/-- DIGEST_TIMEOUT (R374): a partner digest has not come within 1 ms. -/
def execDigestTimeout (q : Fin 240) (n : Nat) (s : State) : Res :=
  s.whenMain (match s.pend.compares.find? (fun w => w.queue == q.val && w.seq == n) with
    | some w =>
      if s.now < w.since + msTicks then s
      else
        let s := (s.updPend (fun p => { p with compares := p.compares.filter (· != w) })).count R.PEND_CMP F.PEND_CMP_MISSING 1
        match s.findCmd q.val n with
        | some c => s.fail c stMissing
        | none => s
    | none => s)

/-- A manifest of the face arrives for a following gate (R131, R371). -/
def State.manifestRx (s : State) (d g n : Nat) (b : List Byte) : State :=
  if s.silentBack && s.follows d g then
    let x := s.gate d g
    (s.setGate d g { x with masks := x.masks ++ [(n, leField b 0 32)] }).tryClose d g
  else s

/-- MANIFEST (R371): die, gate, close count and the manifest. -/
def execPendManifest (d : Fin 4) (g : Fin 4) (n : BitVec 64) (body : List (BitVec 8)) (s : State) : Res :=
  s.whenServing (s.manifestRx d.val g.val n.toNat body)

/-! ### Arriving bulk data (R365) -/

/-- Bytes for local addresses arrive: join transfer, REPLICATE, RESTORE. -/
def State.dataRx (s : State) (a : Nat) (b : List Byte) : State :=
  if s.pairState = psSyncing ∧ s.role = roleBack then s.poke ((keysOf a b.length).zip b)
  else if s.pairState = psPaired ∧ s.mappedRange a b.length = true then (s.writeMem a b).1
  else s

/-- A run of zero bytes arrives. -/
def State.zeroRx (s : State) (a n : Nat) : State :=
  if (s.pairState = psSyncing ∧ s.role = roleBack) ∨ s.pairState = psPaired then
    { s with mem := s.mem.filter (fun c => !(decide (a ≤ c.1) && decide (c.1 < a + n))) }
  else s

/-- The partner's words of the join arrive. -/
def State.infoRx (s : State) (p : Partner) (incarn : Nat) : State :=
  let s := s.updPend (fun x => { x with partner := some p })
  let s := s.setReg R.PEND_PEER_INCARN (BitVec.ofNat 64 incarn)
  s.joinGoOn

/-- The partner's report arrives. -/
def State.reportRx (s : State) (endorse body sig : List Byte) : State :=
  match s.pend.partner with
  | none => s
  | some p =>
    if s.pairState ≠ psJoining then s
    else
      let code := s.partnerReport p.serial s.pend.nonce endorse body sig
      if code ≠ 0 then s.joinRefuse code
      else (s.updPend (fun x => { x with attested := true })).joinTry

/-- Pendant BULK data (R384, R385, R387, R423, R461). A forwarded error record goes into this module's ring without event or
alert. -/
def State.bulkRx (s : State) : PendBulk → State
  | .joinInfo mode solo fw serial incarn straps source master addr win resv darea nonce =>
    s.infoRx { mode := mode.val, solo := solo, fw := fw.toNat, serial := serial.toNat, straps := straps.toNat,
               source := source.val, master := master.toNat, addr := addr.toNat, win := win, resv := resv, darea := darea,
               nonce := nonce } incarn.toNat
  | .joinReport endorse report sig => s.reportRx endorse report sig
  | .joinFail code => if s.pairState = psJoining ∨ s.pairState = psSyncing then s.joinFailed code.val else s
  | .data a b => s.dataRx a.toNat b
  | .zero a n => s.zeroRx a.toNat n.toNat
  | .delta e a b =>
    if s.shadow && s.pairState == psPaired then
      s.updPend (fun p => { p with staged := p.staged ++ [⟨e.toNat, a.toNat, b⟩] })
    else s
  | .resync e a b =>
    if s.shadow && s.pairState == psPaired then
      let s := (s.setFld R.PEND_COPY F.PEND_COPY_STATE cpFilling).setFld R.PEND_COPY F.PEND_COPY_EPOCH e.toNat
      (s.updPend (fun p => { p with filled := 0 })).copyWrite a.toNat b
    else s
  | .resyncEnd e =>
    if s.shadow && s.pairState == psPaired then s.updPend (fun p => { p with filled := e.toNat + 1 }) else s
  | .blocks regs staged items => s.joinBlocks regs staged items
  | .record b =>
    if b.length = 64 then s.ringWrite (leField b 0 1 % 4)
      ((b.take 1).map (· ||| 0x08) ++ slice b 1 7 ++ leBytes (s.reg R.ERR_WSEQ).toNat 8 ++ b.drop 16) else s

end Sys2Proof.Machine
end

