-- ==== Sys2Proof/Machine/Reset.lean ====
section
/-!
DEFINITION. Resets and bring-up (R428 to R440, R413, R427, R434, R473): the warm values of every register, warm, die, engine
and queue resets with their nesting, the module states from AON to FULL.
-/

namespace Sys2Proof.Machine

open Sys2Proof

/-! ### Register values at a reset -/

/-- A register is the owner word of a lock (R241). -/
def isLockOwn (a : Nat) : Bool :=
  match blockOf a with
  | some (.lock, off) => decide (0x1000 ≤ off) && decide (off < 0x8000) && off % 16 == 0
  | some (.dlock _, off) => decide (0x1000 ≤ off) && decide (off < 0x8000) && off % 16 == 0
  | _ => false

/-- Registers that no warm reset touches beside the fields marked so: fuses, straps, the device's numbers (R12, R33). -/
def warmFixed (a : Nat) : Bool := a == R.ID_PART || a == R.ID_SERIAL || a == R.ID_STRAPS

/-- A register's value after a warm reset: its kept bits, Cold elsewhere; a held lock takes the reset mark (R12, R241). -/
def warmValue (a : Nat) (v : Word) : Word :=
  if warmFixed a then v
  else
    match rowOf a with
    | none => v
    | some r =>
      if isLockOwn a then (if F.LOCK_OWN_UNIT.get v = 0 then v else F.LOCK_OWN_UNIT.put v 0xFF)
      else (v &&& r.keep) ||| (r.cold &&& ~~~ r.keep)

/-- Keep a finite map of registers canonical after changing each listed value. -/
def mapRegs (f : Nat → Word → Word) (m : Sparse Word) : Sparse Word :=
  (m.map (fun p => (p.1, f p.1 p.2))).filter (fun p => p.2 != coldOf p.1)

/-- A register lies in a block of the list. -/
def inBlocks (bs : List Block) (a : Nat) : Bool :=
  match blockOf a with
  | some (b, _) => bs.contains b
  | none => false

/-- Blocks take their Cold values in both banks, but for what a reset keeps. -/
def State.coldBlocks (s : State) (bs : List Block) : State :=
  { s with regs := mapRegs (fun a v => if inBlocks bs a then warmValue a v else v) s.regs,
           staged := s.staged.filter (fun p => !(inBlocks bs p.1)) }

/-- Blocks lose everything: power was off. -/
def State.loseBlocks (s : State) (bs : List Block) : State :=
  { s with regs := s.regs.filter (fun p => !(inBlocks bs p.1)), staged := s.staged.filter (fun p => !(inBlocks bs p.1)) }

/-- QINCARN of a queue advances (R223). -/
def State.bumpQueue (s : State) (q : Nat) : State := s.countWrap (R.QINCARN q) F.QINCARN_INCARN 1

/-- Die d as an index. -/
def dieFin (d : Nat) : Fin 4 := Fin.ofNat 4 d

/-- The blocks that a die reset returns to Cold (R436: DLOCK and DPWR are kept). -/
def dieBlocks (d : Nat) : List Block :=
  let f := dieFin d
  [.canv f, .pal f, .slv f, .mov f, .cpd f, .ddbg f, .rand f]

/-! ### Boot (R413, R421, R427) -/

/-- An unlock ends (R425): every injection stops and PERT is Cold again (R465). -/
def State.debugEnd (s : State) : State :=
  let s := s.setFld R.SEC_DEBUG F.SEC_DEBUG_SCOPE 0
  let s : State := { s with debugExpiry := 0, creditHolds := s.creditHolds.map (fun h => (h.1, h.2.1, h.2.2.1, 0)),
                            redRx := s.redRx.map (fun (x : RedSeg) => ({ x with held := 0 } : RedSeg)) }
  s.loseBlocks [.pert]

/-- The boot ROM starts: M0 to M7 are zero and M0 is extended; the image has not started. -/
def State.bootRom (s : State) : State :=
  let s := (List.range 8).foldl (fun s i => s.setMeas i (List.replicate 32 0)) s
  { s.measureBoot with imageUp := false }

/-- An update that a reset or a power loss meets: verifying, it ends CANCELLED; programming, it leaves no image (R415, R427). -/
def State.updateCut (s : State) : State :=
  if s.fld R.SEC_UPD_STAT F.SEC_UPD_STAT_STATE = 2 then { s with flash := [], update := none } else { s with update := none }

/-- The incarnation advances; at the stored limit a new limit is written first (R434). -/
def State.bumpIncarn (s : State) : State :=
  let n := (s.reg R.ID_INCARN).toNat + 1
  let s := if s.incLimit ≤ n then { s with incLimit := s.incLimit + 256 } else s
  s.setReg R.ID_INCARN (BitVec.ofNat 64 n)

/-! ### Warm reset (R435) -/

/-- Everything that no register shows, after a warm reset. -/
def State.warmInternals (s : State) : State :=
  let s := s.writeBackHeld (fun _ => true)
  let temps := s.power
  { s with
    staged := [], mem := s.mem.filter (fun c => isHbm c.1), altered := s.altered.filter (fun c => isHbm c.1), ceSeen := [],
    held := [], tracker := Tracker.idle, queues := [], cmds := [], semWaiters := [], lockWaiters := [], arbs := [],
    applies := [], ceIndex := 0, ceCount := 0, lfsr := [0, 0, 0, 0, 0, 0, 0],
    power := { PowerInt.fresh with dies := temps.dies.map (fun l => { DieLoop.fresh with temp := l.temp }),
                                   stackTemp := temps.stackTemp, stackThrottle := temps.stackThrottle },
    events := [], eventSeq := 1, eventLost := 0, members := [], links := [], fabric := FabricInt.fresh, creditHolds := [],
    heldSignals := [], lent := [], resetHolds := [], captured := [], pendingVeto := 0, engResets := [], snap := none,
    banks := [], accs := [], gates := [], probs := [], replayIds := [], rings := [], slivers := [], brushRuns := [],
    latches := [], lentSince := [], nmaUpdates := [], groups := [], colls := [], redRx := [], redTx := [], retracted := [],
    stepDigests := [], closes := [], qps := [], sessions := [], bells := [], egSent := 0, replayBuf := [],
    signReqs := s.signReqs.map (fun r => { r with owner := .gone }), debugExpiry := 0, imageUp := false, warmRun := false, recov := Recov.none_,
    pend := PendInt.fresh }

/-- Every switched domain is reset: the Warm values, with what they name apart from Cold (R12, R435 step 3). -/
def State.warmRegs (s : State) : State :=
  let s := { s with regs := mapRegs warmValue s.regs }
  let s := (s.setFld R.ID_UNITS F.ID_UNITS_DIE_IN_SERVICE 0).setFld R.ID_UNITS F.ID_UNITS_STACK_IN_SERVICE 0
  ((s.setReg R.PWR_DOM_STAT 0).setReg R.PWR_DOM_CLOSING 0).loseBlocks [.pert]

/-- The whole of a warm reset but the state it ends in. `cause` is RST_STAT.LAST_CAUSE (1 RST_CTL, 2 main supply, 3 recovery). -/
def State.warmReset (s : State) (cause : Nat) : State :=
  let s := s.updateCut.warmInternals.warmRegs
  let s := if cause = 2 then s.loseBlocks [.err] else s
  let s := if cause = 1 then s.count R.RST_CNT F.RST_CNT_WARM 1 else s
  let s := (List.range 240).foldl State.bumpQueue s.bumpIncarn
  s.setFld R.RST_STAT F.RST_STAT_LAST_CAUSE cause

/-- A warm reset that boots (R428). -/
def State.warmBoot (s : State) (cause : Nat) : State := { (s.warmReset cause).bootRom.enterMode mBoot with warmRun := true }

/-- Main supply loss and thermal trips: AON, as at a warm reset (R428, R450). -/
def State.mainLost (s : State) : State := (s.warmReset 2).enterMode mAon

/-- BOOT to DETACHING. -/
def State.running (s : State) : Bool := s.powered && decide (mBoot ≤ s.mode)

/-- The request register shows a request and its result (R433, R439). -/
def State.rstResult (s : State) (kind result : Nat) : State :=
  (s.setFld R.RST_STAT F.RST_STAT_KIND kind).setFld R.RST_STAT F.RST_STAT_RESULT result

/-- RST_CTL with KIND warm: accepted from BOOT to DETACHING, absorbed by a warm reset that still runs (R439). -/
def State.rstWarm (s : State) : State := if s.warmRun then s.rstResult 1 3 else if s.running then s.warmBoot 1 else s.rstResult 1 4

/-- WARM_RESET (R435). -/
def execWarmReset (s : State) : Res := s.alive s.rstWarm

/-! ### Queue, engine and die resets (R436 to R440) -/

/-- Die, engine and queue resets are accepted in EARLY, FULL and DEGRADED (R433). -/
def State.rstAccepts (s : State) : Bool := s.powered && (s.mode == mEarly || s.mode == mFull || s.mode == mDegraded)

/-- A queue reset (R438). A command of engine `e` is ended with the engine's own reset. -/
def State.resetQueue (s : State) (q : Nat) (e : Option Nat) : State :=
  let s := s.abandonWait q
  let s := s.abandonReqs (fun o =>
    match o with
    | .store x _ => x == q
    | .bcast x _ => x == q
    | .unlock x => x == q
    | _ => false)
  let gone := fun (c : Cmd) => c.queue == q && (c.phase == .accepted || decide (some c.engine = e))
  let s := { s with cmds := (s.cmds.filter (fun c => !(gone c))).map (fun (c : Cmd) => if c.queue = q then ({ c with orphan := true } : Cmd) else c) }
  let mine := fun (a : Nat) =>
    decide (a ∈ [R.QCFG q, R.QBASE q, R.QTAIL q, R.QHEAD q, R.QSTAT q, R.QPC q, R.CBASE q, R.CHEAD q, R.CTAIL q, R.QEPOCH q,
                 R.QSEQ q, R.QERR q]) || (decide (R.QPRED q ≤ a) && decide (a < R.QPRED q + 0x100))
  let s := { s with regs := s.regs.filter (fun p => !(mine p.1)), queues := sparseDel s.queues q }
  let s := s.bumpQueue q
  if (s.qCmds q).isEmpty then s else (s.updQ q (fun i => { i with resetting := true })).setQState q qStopped 0

/-- Every queue with a command on these engines takes a queue reset (R437). -/
def State.resetUsers (s : State) (e : Nat) : State :=
  (dedupNat ((s.cmds.filter (fun c => c.engine == e)).map Cmd.queue)).foldl (fun s q => s.resetQueue q (some e)) s

/-- QUEUE part of a reset request: the queue's die is in service. -/
def State.queueIn (s : State) (q : Nat) : Bool := decide (192 ≤ q) || s.dieIn (q / 48)

/-- RST_CTL with KIND queue (R433, R438 to R440). -/
def State.rstQueue (s : State) (q : Nat) : State :=
  if s.warmRun then s.rstResult 4 3
  else if s.rstAccepts = false ∨ s.queueIn q = false then s.rstResult 4 4
  else if (s.qint q).resetting = true ∨ (q < 192 ∧ s.bit R.RST_STAT F.RST_STAT_DIE_RESET (q / 48) = true) then s.rstResult 4 3
  else
    let s := (s.count R.RST_CNT F.RST_CNT_QUEUE 1).resetQueue q none
    s.faultHandover.rstResult 4 (if (s.qint q).resetting then 1 else 2)

/-- QUEUE_RESET (R438). -/
def execQueueReset (q : Fin 240) (s : State) : Res := s.alive (s.rstQueue q.val)

/-- Collectives whose home die is d (R330, R436). -/
def State.homedOn (s : State) (d : Nat) : List Coll := s.colls.filter (fun c => c.home == d)

/-- With FORCE those collectives end at once with ERROR_MISSING and MISSING in their veto words; no RETRACT is sent. -/
def State.forceColls (s : State) (d : Nat) : State :=
  (s.homedOn d).foldl (fun s c =>
    let s := if c.epoch = 0 then s else s.holdVeto c.epoch (c.veto ||| vetoMissing)
    s.leaveColl { c with veto := c.veto ||| vetoMissing } stMissing) s

/-- Programs and lending of a die's brushes stop (R169). -/
def State.clearBrushes (s : State) (d : Nat) : State :=
  let here := fun (k : Nat) => k / 32 == d
  { s with slivers := s.slivers.filter (fun r => r.die != d), brushRuns := s.brushRuns.filter (fun p => !(here p.1)),
           latches := s.latches.filter (fun p => !(here p.1)), lent := s.lent.filter (fun k => !(here k)),
           lentSince := s.lentSince.filter (fun p => !(here p.1)) }

/-- The work of a die reset, once nothing holds it (R436, R247). -/
def State.startDieReset (s : State) (d : Nat) : State :=
  let s := { s with resetHolds := s.resetHolds.filter (· != d) }
  let s := s.clearDieCanvases d
  let hosts := dedupNat ((s.cmds.filter (fun c => c.engine == 68 + d && decide (192 ≤ c.queue))).map Cmd.queue)
  let s := hosts.foldl (fun s q => s.resetQueue q (some (68 + d))) s
  let s := (List.range 48).foldl (fun s k => ((s.abandonWait (48 * d + k)).abandonReqs (fun o =>
    match o with
    | .store x _ => x == 48 * d + k
    | .bcast x _ => x == 48 * d + k
    | .unlock x => x == 48 * d + k
    | _ => false))) s
  let s := s.clearBrushes d
  let s := { s with cmds := s.cmds.filter (fun c => c.queue / 48 != d || decide (192 ≤ c.queue)),
                    queues := s.queues.filter (fun p => p.1 / 48 != d || decide (192 ≤ p.1)),
                    arbs := s.arbs.filter (fun (p : Nat × Arbiter) => p.1 / 65536 / 8 != d + 1 || (p.1 / 65536) % 8 == 0),
                    applies := (s.applies.filter (fun (p : Nat × ApplyReq) => p.1 != d + 1)).map (fun (p : Nat × ApplyReq) =>
                      (p.1, ({ p.2 with dieMask := putBits p.2.dieMask (9 * d) 9 0 } : ApplyReq))) }
  let s := s.coldBlocks (dieBlocks d)
  let s := (List.range 48).foldl (fun s k => s.bumpQueue (48 * d + k)) s
  (s.setBit R.RST_STAT F.RST_STAT_DIE_RESET d true)

/-- RST_CTL with KIND die (R433, R436, R439, R440). -/
def State.rstDie (s : State) (d : Nat) (force : Bool) : State :=
  if s.warmRun then s.rstResult 2 3
  else if s.rstAccepts = false ∨ s.dieIn d = false then s.rstResult 2 4
  else if s.bit R.RST_STAT F.RST_STAT_DIE_RESET d = true ∨ (s.resetHolds.contains d = true ∧ force = false) then s.rstResult 2 3
  else
    let again := s.resetHolds.contains d
    let s := if again then s else (s.count R.RST_CNT F.RST_CNT_DIE 1).faultHandover
    let s := s.rstResult 2 1
    let s := if force then s.forceColls d else s
    if (s.homedOn d).isEmpty then s.startDieReset d else { s with resetHolds := d :: s.resetHolds.filter (· != d) }

/-- DIE_RESET (R436). -/
def execDieReset (d : Fin 4) (force : Bool) (s : State) : Res := s.alive (s.rstDie d.val force)

/-- An engine reset's effect on its engine (R437). -/
def State.startEngineReset (s : State) (kind d cv : Nat) : State :=
  if kind = 0 then
    let p := s.physCanvas d cv
    let cs := (List.range 16).filter (fun c => s.physCanvas d c == p)
    cs.foldl (fun s c =>
      let e := 16 * d + c
      let mine := s.cmds.filter (fun x => x.engine == e)
      let s := { s with rings := s.rings.filter (fun g => !(mine.any (fun x => x.is g.queue g.seq))),
                        engResets := s.engResets ++ [e] }
      (s.clearCanvas d c).resetUsers e) s
  else if kind = 1 then
    let s := { s with resetHolds := s.resetHolds.filter (· != 4 + d), engResets := s.engResets ++ [64 + d] }
    (((s.resetUsers (64 + d)).clearBrushes d).coldBlocks [.slv (dieFin d)])
  else if kind = 2 then
    (({ s with engResets := s.engResets ++ [68 + d] }.resetUsers (68 + d)).coldBlocks [.mov (dieFin d)])
  else if kind = 3 then
    let s := s.lent.foldl (fun s k => s.lendEnd (k / 32) (k % 32)) s
    let s : State := { s with engResets := s.engResets ++ [72], groups := [], colls := [], redRx := [], redTx := [], retracted := [],
                              stepDigests := [], captured := [], pendingVeto := 0 }
    ((s.resetUsers 72).coldBlocks [.red]).countVetoes
  else ({ s with engResets := s.engResets ++ [73] } : State).resetUsers 73

/-- The engine number that an engine reset is known by: its canvas, brushes, move, collective or pendant engine. -/
def rstEngine (kind d cv : Nat) : Nat :=
  if kind = 0 then 16 * d + cv else if kind = 1 then 64 + d else if kind = 2 then 68 + d else if kind = 3 then 72 else 73

/-- RST_CTL with KIND engine (R433, R437, R439, R440). -/
def State.rstEngineReq (s : State) (kind d cv : Nat) (force : Bool) : State :=
  let e := rstEngine kind d cv
  if 5 ≤ kind then s
  else if s.warmRun then s.rstResult 3 3
  else if s.rstAccepts = false ∨ (kind < 3 ∧ s.dieIn d = false) ∨ (kind = 4 ∧ s.pairState = psPaired) then s.rstResult 3 4
  else if s.engResets.contains e = true ∨ (kind < 3 ∧ s.bit R.RST_STAT F.RST_STAT_DIE_RESET d = true) ∨
      (kind = 1 ∧ s.resetHolds.contains (4 + d) = true ∧ force = false) then s.rstResult 3 3
  else
    let again := kind == 1 && s.resetHolds.contains (4 + d)
    let s := if again then s else (s.count R.RST_CNT F.RST_CNT_ENGINE 1).faultHandover
    let s := s.rstResult 3 1
    let s := if kind = 1 ∧ force = true then s.forceColls d else s
    if kind = 1 ∧ (s.homedOn d).isEmpty = false then { s with resetHolds := (4 + d) :: s.resetHolds.filter (· != 4 + d) }
    else s.startEngineReset kind d cv

/-- ENGINE_RESET (R437). -/
def execEngineReset (kind : Fin 5) (d : Fin 4) (cv : Fin 16) (force : Bool) (s : State) : Res :=
  s.alive (s.rstEngineReq kind.val d.val cv.val force)

/-- Resets held for collectives begin once none of those has its home die there (R436). -/
def State.releaseHolds (s : State) : State :=
  s.resetHolds.foldl (fun s h =>
    if (s.homedOn (h % 4)).isEmpty then (if h < 4 then s.startDieReset h else s.startEngineReset 1 (h - 4) 0) else s) s

/-- A write of RST_CTL (R433); a reserved kind, engine or queue number has no effect (R9). -/
def State.rstWrite (s : State) (v : Word) : State :=
  let kind := F.RST_CTL_KIND.get v
  let force := F.RST_CTL_FORCE.get v == 1
  let d := F.RST_CTL_DIE.get v
  if kind = 1 then s.rstWarm
  else if kind = 2 then s.rstDie d force
  else if kind = 3 then s.rstEngineReq (F.RST_CTL_ENGINE.get v) d (F.RST_CTL_CANVAS.get v) force
  else if kind = 4 then (if F.RST_CTL_QUEUE.get v < 240 then s.rstQueue (F.RST_CTL_QUEUE.get v) else s)
  else s

/-- The last request of a kind reads done. -/
def State.rstDone (s : State) (kind : Nat) : State :=
  if s.fld R.RST_STAT F.RST_STAT_KIND = kind ∧ s.fld R.RST_STAT F.RST_STAT_RESULT = 1 then
    s.setFld R.RST_STAT F.RST_STAT_RESULT 2 else s

/-- A queue's last started command has ended: a DISABLE or a queue reset completes (R197, R438). -/
def State.settleQueue (s : State) (q : Nat) : State :=
  let was := (s.qint q).resetting
  let s := s.settleOff q
  if was && !(s.qint q).resetting && !(s.queues.any (fun p => p.2.resetting)) then s.rstDone 4 else s

/-- DIE_RESET_COMPLETE (R436): the die is back; signals and instructions that waited for its store go on (R236). -/
def execDieResetComplete (d : Fin 4) (s : State) : Res :=
  s.whenMain (
    if s.bit R.RST_STAT F.RST_STAT_DIE_RESET d.val then
      let s := (s.setBit R.RST_STAT F.RST_STAT_DIE_RESET d.val false).rstDone 2
      let sig := s.heldSignals.filter (fun p => p.1 == d.val)
      let s := { s with heldSignals := s.heldSignals.filter (fun p => p.1 != d.val) }
      let s := sig.foldl (fun s p => s.semAdd p.1 p.2 1) s
      s.lockOpsGo.resumeQueues
    else s)

/-- ENGINE_RESET_COMPLETE (R437). -/
def execEngineResetComplete (e : Fin 74) (s : State) : Res :=
  s.whenMain (
    if s.engResets.contains e.val then
      let s := { s with engResets := s.engResets.filter (· != e.val) }
      if s.engResets.isEmpty then s.rstDone 3 else s
    else s)

/-! ### Module states (R428, R429) -/

/-- AUX_POWER_GOOD (R473): a cold reset; the straps and the lid are sampled (R33, R446); flash, fuses and the OTP are kept. -/
def execAuxPowerGood (valid : Bool) (node : BitVec 10) (slot : BitVec 3) (lid : BitVec 3) (sbMode : Bool) (s : State) : Res :=
  .next (
    if s.powered then s
    else
      let t : State := { State.reset with
        pending := s.pending, out := s.out, draws := s.draws, flash := s.flash, strapValid := valid, strapNode := node.toNat,
        strapSlot := slot.toNat, lidPins := lid.toNat, sbStrap := b2n sbMode, lifeLimit := s.lifeLimit + 16,
        incLimit := s.incLimit, mainGood := false }
      let fixed := s.regs.filter (fun p => warmFixed p.1 || inBlocks [.hostp] p.1 && p.1 == R.HOSTP_MAC ||
        (decide (R.SEC_OTP_DIGEST 0 ≤ p.1) && decide (p.1 ≤ R.SEC_OTP_DIGEST 3)))
      let t := fixed.foldl (fun t p => t.setReg p.1 p.2) t
      let t := t.setReg R.ID_STRAPS (BitVec.ofNat 64
        (node.toNat + slot.toNat * 2 ^ 10 + b2n valid * 2 ^ 13 + lid.toNat * 2 ^ 14))
      let t := t.setFld R.ID_PART F.ID_PART_VARIANT (if lid = 3 then 0x43 else if lid = 2 then 0x49 else 0x41)
      let t := t.setReg R.ID_INCARN (BitVec.ofNat 64 s.incLimit)
      let t := t.setReg R.LIFETIME (BitVec.ofNat 64 (s.lifeLimit + s.lifeLimit * 2 ^ 32))
      let lim := s.fld R.SEC_IDX_LIMIT F.SEC_IDX_LIMIT_LIMIT
      let t := (t.setFld R.SEC_IDX_LIMIT F.SEC_IDX_LIMIT_LIMIT lim).setFld R.SEC_IDX F.SEC_IDX_NEXT lim
      let t := t.setFld R.SEC_STAT F.SEC_STAT_SVN_OTP s.svnOtp
      let t := t.setReg R.HOSTP_SB (BitVec.ofNat 64
        ((0x58 + (if valid then slot.toNat else 0)) * 2 ^ 32 + b2n sbMode))
      t.alert 4)

/-- AUX_POWER_LOST (R473): OFF. An image that was being programmed is lost (R415). -/
def execAuxPowerLost (s : State) : Res := .next (if s.powered then { s.updateCut with powered := false, mainGood := false } else s)

/-- Every sensor is below T_STEP (R428, R450). -/
def State.cool (s : State) : Bool :=
  let t := s.fld R.PWR_THERM F.PWR_THERM_T_STEP
  s.power.dies.all (fun l => decide (l.temp < t)) && s.power.stackTemp.all (fun x => decide (x < t))

/-- MAIN_POWER_GOOD (R428): AON is left for BOOT. The rest of the hub starts at its Warm values; the incarnation limit of a
cold reset is written before BOOT ends (R434). -/
def execMainPowerGood (s : State) : Res :=
  s.alive (
    if s.mode = mAon ∧ s.fld R.RST_CFG F.RST_CFG_HOLD_AON = 0 ∧ s.fld R.PWR_STAT F.PWR_STAT_TRIP = 0 ∧ s.cool = true then
      let s := { s with mainGood := true }.warmInternals.warmRegs
      let s := if s.incLimit ≤ (s.reg R.ID_INCARN).toNat then { s with incLimit := s.incLimit + 256 } else s
      s.bootRom.enterMode mBoot
    else if s.mode = mAon then { s with mainGood := true } else s)

/-- MAIN_POWER_LOSS (R428, R472). -/
def execMainPowerLoss (s : State) : Res :=
  s.alive (if s.running then { s.mainLost with mainGood := false } else { s with mainGood := false })

/-- REFCLK_LOSS (R478): counted as main input out of range. -/
def execRefclkLoss (s : State) : Res :=
  s.alive (if s.running then { s.mainLost with mainGood := false } else s)

/-- Domains go on together, as bring-up raises them. -/
def State.raiseDomains (s : State) (m : Nat) : State :=
  s.setFld R.PWR_DOM_STAT F.PWR_DOM_STAT_ON (s.fld R.PWR_DOM_STAT F.PWR_DOM_STAT_ON ||| m)

/-- The host port trains (R389, R390, R416). -/
def State.hostTrain (s : State) : State :=
  ((s.setFld R.HOSTP_STAT F.HOSTP_STAT_LINK 1).setFld R.HOSTP_STAT F.HOSTP_STAT_RATE 0).setFld R.HOSTP_STAT F.HOSTP_STAT_LANES 0

/-- IMAGE_CHECKS_COMPLETE (R413): the boot ROM has read and verified the image. -/
def execImageChecksComplete (flashErr : Bool) (s : State) : Res :=
  s.alive (
    if s.mode = mBoot ∧ s.imageUp = false then
      let why := s.verifyImage s.flashByte flashErr
      let s := s.setFld R.SEC_STAT F.SEC_STAT_BOOT_RESULT why
      if why = 0 then
        let s := s.extend 1 (shake256 (imgBytes s.flashByte 0 1024) 32)
        let s := s.setReg R.ID_FW (BitVec.ofNat 64 (imgField s.flashByte 8 6))
        let s := s.setFld R.SEC_STAT F.SEC_STAT_SVN_IMAGE (imgField s.flashByte 5 1)
        { s with imageUp := true }
      else
        let s := s.setFld R.SEC_STAT F.SEC_STAT_SVN_IMAGE 0
        ((s.enterMode mRecovery).raiseDomains (2 ^ 52 + 2 ^ 55)).hostTrain
    else s)

/-- EARLY_ENTRY (R430): with D0's result. -/
def execEarlyEntry (d0 : Bool) (s : State) : Res :=
  s.alive (
    if s.mode = mBoot ∧ s.imageUp = true then
      let s := s.setFld R.ID_UNITS F.ID_UNITS_DIE_IN_SERVICE (b2n d0)
      let s := s.raiseDomains (15 * 2 ^ 52 + (if d0 then 2 ^ 9 - 1 else 0))
      s.hostTrain.enterMode mEarly
    else s)

/-- The host port runs at the rate of HOSTP_CFG from FULL or DEGRADED on: the link retrains once (R390). -/
def State.finishBringup (s : State) (dies stks : Nat) (pcFail : List (BitVec 64)) : State :=
  let dies := if s.dieIn 0 then dies else dies / 2 * 2
  let s := (s.setFld R.ID_UNITS F.ID_UNITS_DIE_IN_SERVICE dies).setFld R.ID_UNITS F.ID_UNITS_STACK_IN_SERVICE stks
  let rate := if s.fld R.ID_STRAPS F.ID_STRAPS_LID = 2 ∨ s.fld R.ID_STRAPS F.ID_STRAPS_LID = 3 then 2 else 1
  let s := (List.range 16).foldl (fun s st =>
    let ok := bitOf stks st
    let s := (s.setFld (R.NMA_STAT st) F.NMA_STAT_IN_SERVICE (b2n ok)).setFld (R.NMA_STAT st) F.NMA_STAT_PIN_RATE (if ok then rate else 0)
    s.setReg (R.NMA_PC_FAIL st) (if ok then 0 else pcFail.getD st 0)) s
  let doms := (List.range 4).foldl (fun m d =>
    m + (if bitOf dies d then (2 ^ 9 - 1) * 2 ^ (9 * d) else if bitsOf stks (4 * d) 4 ≠ 0 then 2 ^ (9 * d + 8) else 0)) 0
  let s := s.raiseDomains (doms + stks * 2 ^ 36)
  let s := s.enterMode (if dies = 15 ∧ stks = 2 ^ 16 - 1 then mFull else mDegraded)
  ((List.range 4).foldl State.clockEval s).hostTrain

/-- BRINGUP_COMPLETE (R429): with the dies and stacks that passed and the pseudo-channels that failed. -/
def execBringupComplete (dies : BitVec 4) (stks : BitVec 16) (pcFail : List (BitVec 64)) (s : State) : Res :=
  s.alive (
    if s.mode = mEarly ∧ (s.fld R.RYF_STAT F.RYF_STAT_ELECTED = 1 ∨ (List.range 16).all (fun p => !(s.portUp p)) = true) ∧
        s.pairState ≠ psJoining ∧ s.pairState ≠ psSyncing then s.finishBringup dies.toNat stks.toNat pcFail
    else s)

/-- BRINGUP_TIMEOUT (R429): what is unfinished counts as failed, a running join is abandoned. -/
def execBringupTimeout (dies : BitVec 4) (stks : BitVec 16) (pcFail : List (BitVec 64)) (s : State) : Res :=
  s.alive (if s.mode = mEarly then s.joinAbandon.finishBringup dies.toNat stks.toNat pcFail else s)

end Sys2Proof.Machine
end

