-- ==== Sys2Proof/Machine/Security.lean ====
section
/-!
DEFINITION. The root of trust's commands (R409 to R427): sideband security commands, SEC_CTL, updates, the recovery doors,
the end of a debug unlock.
-/

namespace Sys2Proof.Machine

open Sys2Proof

/-- A sideband response: command byte, completion code (R406). -/
def State.sbReply (s : State) (cmd code : Nat) (b : List Byte) : State :=
  s.emit { kind := .sideband, nums := [cmd, code], bytes := b }

/-- A sideband command of PLDM or of the Tvedano type: only an endpoint with an ID answers one (R404). -/
def State.sideband (s t : State) : Res :=
  if s.powered && s.fld R.HOSTP_SB F.HOSTP_SB_EID != 0 then .next t else .next s

def ccOk : Nat := 0
def ccAccess : Nat := 1
def ccInvalid : Nat := 2
def ccState : Nat := 3

/-! ### Reports, endorsement, measurements -/

/-- GET_REPORT (R422). -/
def execGetReport (nonce : List (BitVec 8)) (s : State) : Res :=
  s.sideband (
    if nonce.length ≠ 32 then s.sbReply 0x10 ccInvalid []
    else if s.mode = mBoot then s.sbReply 0x10 ccState []
    else
      let (s, ok) := s.askSign (s.reportReq .report nonce)
      if ok then s else s.sbReply 0x10 ccState [])

/-- GET_ENDORSEMENT (R410). -/
def execGetEndorsement (s : State) : Res := s.sideband (s.sbReply 0x11 ccOk s.endorsement)

/-- EXTEND (R421). -/
def execSbExtend (i : BitVec 8) (dg : List (BitVec 8)) (s : State) : Res :=
  s.sideband (
    if 4 ≤ i.toNat ∧ i.toNat ≤ 7 ∧ dg.length = 32 then
      let s := s.extend i.toNat dg
      s.sbReply 0x15 ccOk (s.meas i.toNat)
    else s.sbReply 0x15 ccInvalid [])

/-- GET_MEAS (R421). -/
def execGetMeas (s : State) : Res := s.sideband (s.sbReply 0x17 ccOk ((List.range 8).flatMap s.meas))

/-- Fuses are blown until the OTP counter equals the SVN of the running image (R414). -/
def State.svnCommit (s : State) : State :=
  let v := s.fld R.SEC_STAT F.SEC_STAT_SVN_IMAGE
  if s.imageUp ∧ s.svnOtp < v then s.setFld R.SEC_STAT F.SEC_STAT_SVN_OTP v else s

/-- SVN_COMMIT of the sideband (R414). -/
def execSbSvnCommit (s : State) : Res :=
  s.sideband (
    let s := s.svnCommit
    s.sbReply 0x16 ccOk (leBytes s.svnOtp 1))

/-- SEC_CTL.SVN_COMMIT (R414). -/
def execSvnCommit (s : State) : Res := s.whenMain s.svnCommit

/-! ### Debug unlock (R424, R425) -/

/-- DEBUG_CHALLENGE (R424): the challenge is a free value (log 6). -/
def execDebugChallenge (s : State) : Res :=
  s.sideband (
    let c := (List.range 4).flatMap (fun i => leBytes (Config.freeValue (s.draws + i)).toNat 8)
    let s := { s with draws := s.draws + 4, challenge := some c }
    s.sbReply 0x12 ccOk c)

/-- A token passes every check of R424. -/
def State.tokenOk (s : State) (t : List Byte) : Bool :=
  let scope := leField t 1 1
  t.length == 2948 && leField t 0 1 == 1 && scope != 0 && decide (scope < 4) && leField t 2 6 == 0 &&
    s.vendorOk (slice t 56 64) && Config.xmssVerify (slice t 56 64) (t.take 128) (slice t 128 2820) &&
    leField t 8 8 == s.serial && leField t 16 8 == (s.reg R.ID_INCARN).toNat && s.challenge == some (slice t 24 32) &&
    (leField t 120 8 == 0 || decide (s.uptime < leField t 120 8))

/-- DEBUG_UNLOCK (R424): any attempt voids the challenge. Where two unlocks stand, the earlier EXPIRY ends both (R425). -/
def execDebugUnlock (t : List (BitVec 8)) (s : State) : Res :=
  s.sideband (
    let ok := s.tokenOk t
    let s := { s with challenge := none }
    if ok then
      let scope := leField t 1 1
      let e := leField t 120 8
      let s := s.extend 3 (shake256 (t.take 128) 32)
      let s := (s.setFld R.SEC_DEBUG F.SEC_DEBUG_SCOPE (s.fld R.SEC_DEBUG F.SEC_DEBUG_SCOPE ||| scope)).setFld R.SEC_DEBUG
        F.SEC_DEBUG_EVER (s.fld R.SEC_DEBUG F.SEC_DEBUG_EVER ||| scope)
      let s := { s with debugExpiry := if s.debugExpiry = 0 then e else if e = 0 then s.debugExpiry else min e s.debugExpiry }
      let s := s.errRecord { cls := clsCorrected, code := 0x0701, unit := 0xDA, info0 := scope, info1 := e }
      s.sbReply 0x13 ccOk []
    else s.sbReply 0x13 ccInvalid [])

/-- DEBUG_LOCK (R425). -/
def execDebugLock (s : State) : Res := s.sideband (s.debugEnd.sbReply 0x14 ccOk [])

/-- SEC_CTL.DEBUG_LOCK (R425). -/
def execSecCtlDebugLock (s : State) : Res := s.whenMain s.debugEnd

/-- DEBUG_EXPIRY (R425): UPTIME reaches EXPIRY. -/
def execDebugExpiry (s : State) : Res :=
  s.alive (if s.debugExpiry ≠ 0 ∧ s.debugExpiry ≤ s.uptime then s.debugEnd else s)

/-! ### Update (R415) -/

/-- The security engine as a reader. -/
def secWho : Who := { unit := 0xDA, queue := 0xFF }

/-- End of an update: STATUS and REASON, STATE done. -/
def State.updDone (s : State) (status reason : Nat) : State :=
  let s := { s with update := none }
  ((s.setFld R.SEC_UPD_STAT F.SEC_UPD_STAT_STATUS status).setFld R.SEC_UPD_STAT F.SEC_UPD_STAT_REASON reason).setFld R.SEC_UPD_STAT
    F.SEC_UPD_STAT_STATE 3

/-- UPD_START. -/
def State.updStart (s : State) : State :=
  let st := s.fld R.SEC_UPD_STAT F.SEC_UPD_STAT_STATE
  if st = 1 ∨ st = 2 then s
  else
    let g := (s.reg R.SEC_UPD_ADDR).toNat
    let a := gaLocal g
    let s := s.setReg R.SEC_UPD_STAT 0
    if g % 4096 ≠ 0 ∨ s.isOwn g = false ∨ s.mappedRange a 4096 = false then s.updDone stAddress 0
    else
      let body := imgBody (fun i => s.byteAt ((memKey (a + i)).getD 0))
      let n := 4096 + (if body ≤ 62910464 then body else 0)
      if s.mappedRange a n = false then s.updDone stAddress 0
      else { s with update := some (a, n) }.setFld R.SEC_UPD_STAT F.SEC_UPD_STAT_STATE 1

/-- UPD_START (R415). -/
def execUpdStart (s : State) : Res := s.whenMain s.updStart

/-- UPD_ABORT (R415): before programming has begun. -/
def State.updAbort (s : State) : State :=
  if s.fld R.SEC_UPD_STAT F.SEC_UPD_STAT_STATE = 1 then s.updDone stCancelled 0 else s

/-- UPD_ABORT (R415). -/
def execUpdAbort (s : State) : Res := s.whenMain s.updAbort

/-- UPDATE_VERIFY_COMPLETE (R415 step 3). -/
def execUpdateVerifyComplete (s : State) : Res :=
  s.whenMain (
    match s.update with
    | none => s
    | some (a, n) =>
      if s.fld R.SEC_UPD_STAT F.SEC_UPD_STAT_STATE ≠ 1 then s
      else
        let (b, s, bad) := s.readMem secWho a n
        let why := s.verifyImage (fun i => b.getD i 0) bad
        if why = 0 then s.setFld R.SEC_UPD_STAT F.SEC_UPD_STAT_STATE 2 else s.updDone stDescriptor why)

/-- The flash with an image; where the read-back differs, some byte holds a free value. -/
def State.program (s : State) (get : Nat → Byte) (n : Nat) (ok : Bool) : State :=
  let f := (List.range n).foldl (fun (m : Sparse Byte) i => sparseSet m i (get i) 0) []
  if ok then { s with flash := f }
  else
    let (x, s) := s.draw
    let (y, s) := s.draw
    { s with flash := sparseSet f (x.toNat % n) (BitVec.ofNat 8 y.toNat) 0 }

/-- UPDATE_COMPLETE (R415 steps 4 and 5): whether the read-back check passed. -/
def execUpdateComplete (ok : Bool) (s : State) : Res :=
  s.whenMain (
    match s.update with
    | none => s
    | some (a, n) =>
      if s.fld R.SEC_UPD_STAT F.SEC_UPD_STAT_STATE ≠ 2 then s
      else
        let m := s
        let s := s.program (fun i => m.byteAt ((memKey (a + i)).getD 0)) n ok
        (s.setFld R.SEC_UPD_STAT F.SEC_UPD_STAT_BYTES n).updDone (if ok then stDone else stData) 0)

/-- A write of SEC_CTL over the sideband (R414, R415, R425). Several bits act together. -/
def State.secCtl (s : State) (v : Word) : State :=
  let s := if F.SEC_CTL_SVN_COMMIT.get v = 1 then s.svnCommit else s
  let s := if F.SEC_CTL_DEBUG_LOCK.get v = 1 then s.debugEnd else s
  let s := if F.SEC_CTL_UPD_START.get v = 1 then s.updStart else s
  if F.SEC_CTL_UPD_ABORT.get v = 1 then s.updAbort else s

/-! ### Recovery (R416 to R419) -/

/-- The module is in RECOVERY, and no door has won yet. -/
def State.recovering (s : State) : Bool := s.powered && s.mode == mRecovery

def State.updRecov (s : State) (f : Recov → Recov) : State := { s with recov := f s.recov }

/-- A recovery message to a host source address. -/
def State.recovSend (s : State) (src : Nat) (b : List Byte) : State := s.emit { kind := .host, nums := [49732, src], bytes := b }

/-- A host asks what is recovering (R416). -/
def State.recovQuery (s : State) (src : Nat) : State :=
  if s.recovering then
    s.recovSend src ([0x02] ++ leBytes s.serial 8 ++ leBytes (s.fld R.SEC_STAT F.SEC_STAT_BOOT_RESULT) 1 ++ leBytes s.svnOtp 1)
  else s

/-- RECOV_QUERY (R416). -/
def execRecovQuery (src : BitVec 64) (s : State) : Res := s.alive (s.recovQuery src.toNat)

/-- Store image bytes of a door; data at or beyond the largest image is ignored (R417). -/
def putImage (m : Sparse Byte) (off : Nat) (b : List Byte) : Sparse Byte :=
  b.zipIdx.foldl (fun (m : Sparse Byte) p => if off + p.2 < imageMax then sparseSet m (off + p.2) p.1 0 else m) m

/-- Host recovery data (R417). -/
def State.recovData (s : State) (src off : Nat) (b : List Byte) : State :=
  if s.recovering = false ∨ s.recov.winner ≠ 0 ∨ b.length = 0 ∨ 8192 < b.length ∨ imageMax ≤ off then s
  else
    match s.recov.owner with
    | some o =>
      if o = src then
        (s.updRecov (fun r => { r with ownerAt := s.now, host := putImage r.host off b })).recovSend src ([0x04] ++ leBytes off 4)
      else s
    | none =>
      (s.updRecov (fun r => { r with owner := some src, ownerAt := s.now, host := putImage r.host off b })).recovSend src
        ([0x04] ++ leBytes off 4)

/-- RECOV_DATA (R417). -/
def execRecovData (src : BitVec 64) (off : BitVec 32) (b : List (BitVec 8)) (s : State) : Res :=
  s.alive (s.recovData src.toNat off.toNat b)

/-- RECOV_STATUS to a source. -/
def State.recovStatus (s : State) (src status reason : Nat) : State := s.recovSend src ([0x06] ++ leBytes status 1 ++ leBytes reason 1)

/-- The checks of R412 on an image of `n` bytes that a door delivered. -/
def State.doorCheck (s : State) (m : Sparse Byte) (n : Nat) : Nat :=
  let get := fun i => if i < n then sparseGet m i 0 else 0
  if n < 4096 ∨ n < 4096 + imgBody get then 1 else s.verifyImage get false

/-- RECOV_COMMIT (R416, R417): the answer to an image that passes waits for its programming. -/
def State.recovCommit (s : State) (src n : Nat) : State :=
  if s.recovering = false ∨ s.recov.winner ≠ 0 ∨ s.recov.owner ≠ some src then s
  else
    let why := s.doorCheck s.recov.host n
    if why = 0 then s.updRecov (fun r => { r with winner := 1, length := n })
    else (s.updRecov (fun r => { r with owner := none, host := [] })).recovStatus src stDescriptor why

/-- RECOV_COMMIT (R417). -/
def execRecovCommit (src : BitVec 64) (n : BitVec 32) (s : State) : Res := s.alive (s.recovCommit src.toNat n.toNat)

/-- RECOV_SESSION_TIMEOUT (R417). -/
def execRecovSessionTimeout (s : State) : Res :=
  s.alive (
    if s.recovering ∧ s.recov.winner = 0 ∧ s.recov.owner.isSome = true ∧ s.recov.ownerAt + 10000 * msTicks ≤ s.now then
      s.updRecov (fun r => { r with owner := none, host := [] })
    else s)

/-- RECOVERY_PROGRAMMED (R416): the winning image is in flash; boot restarts as at a warm reset. -/
def execRecoveryProgrammed (ok : Bool) (s : State) : Res :=
  s.alive (
    if s.recovering = false ∨ s.recov.winner = 0 then s
    else
      let r := s.recov
      let m := if r.winner = 1 then r.host else r.pend
      let s := s.program (fun i => sparseGet m i 0) r.length ok
      let s := if r.winner = 1 then (match r.owner with | some o => s.recovStatus o (if ok then stDone else stData) 0 | none => s) else s
      if ok then (s.setFld R.SEC_STAT F.SEC_STAT_RECOV_SRC r.winner).warmBoot 3 else { s with recov := Recov.none_ })

/-- RECOV_REQ_TIMER (R419): a request on every up pendant port. -/
def execRecovReqTimer (s : State) : Res :=
  s.alive (
    if s.recovering = false ∨ s.recov.winner ≠ 0 then s
    else
      (List.range 2).foldl (fun s p =>
        if s.pendUp p then
          s.emit { kind := .pendant, nums := [p, 0x38],
                   bytes := leBytes s.serial 8 ++ leBytes (s.fld R.SEC_STAT F.SEC_STAT_BOOT_RESULT) 1 ++ leBytes s.svnOtp 1 ++ leBytes 0 2 ++
                     leBytes s.recov.pendNext 4 }
        else s) s)

/-- PEND_RECOV_REQ (R418, R419): a recovering partner asks on port p for the image from an offset on. -/
def execPendRecovReq (p : Fin 2) (off : BitVec 32) (s : State) : Res :=
  s.whenServing (
    if s.fld R.SEC_CFG F.SEC_CFG_SERVE_PEER = 0 ∨ s.pendUp p.val = false then s
    else
      let total := 4096 + imgBody s.flashByte
      let n := total - off.toNat
      let s := (List.range ((n + 247) / 248)).foldl (fun s i =>
        let o := off.toNat + 248 * i
        let b := imgBytes s.flashByte o (min 248 (total - o))
        s.emit { kind := .pendant, nums := [p.val, 0x39], bytes := leBytes o 4 ++ leBytes b.length 2 ++ leBytes 0 2 ++ b }) s
      s.emit { kind := .pendant, nums := [p.val, 0x3A], bytes := leBytes total 4 ++ leBytes 0 4 })

/-- The pendant door listens to port p: the first that answers, or another once that one is down. -/
def State.recovPort (s : State) (p : Nat) : Bool :=
  s.recovering && s.recov.winner == 0 &&
    (s.recov.pendPort == 0 || s.recov.pendPort == p + 1 || !(s.pendUp (s.recov.pendPort - 1)))

/-- PEND_RECOV_DATA (R419). -/
def execPendRecovData (p : Fin 2) (off : BitVec 32) (b : List (BitVec 8)) (s : State) : Res :=
  s.alive (
    if s.recovPort p.val ∧ off.toNat = s.recov.pendNext then
      s.updRecov (fun r => { r with pendPort := p.val + 1, pendNext := r.pendNext + b.length, pend := putImage r.pend off.toNat b })
    else s)

/-- RECOV_END (R419): the image is verified; one that fails is asked for again from the start. -/
def execRecovEnd (p : Fin 2) (total : BitVec 32) (s : State) : Res :=
  s.alive (
    if s.recovPort p.val = false ∨ s.recov.pendNext ≠ total.toNat then s
    else
      let why := s.doorCheck s.recov.pend total.toNat
      if why = 0 then
        let open_ := s.recov.owner
        let s := s.updRecov (fun r => { r with winner := 2, length := total.toNat, owner := none })
        match open_ with
        | some o => s.recovStatus o stBusy 0
        | none => s
      else s.updRecov (fun r => { r with pend := [], pendNext := 0, pendPort := 0 }))

end Sys2Proof.Machine
end

