-- ==== Sys2Proof/Machine/HostPort.lean ====
section
/-!
DEFINITION. The host port and the sideband (R389 to R408): the Ethernet link, RoCEv2, queue pairs, fenced doorbells, host
events, ALERT_N, key slots, MCTP and PLDM.
-/

namespace Sys2Proof.Machine

open Sys2Proof

/-- The host port as a reader and writer of memory. -/
def hostWho : Who := { unit := 0xDB, queue := 0xFF }

/-! ### The link (R389, R390) -/

/-- The port takes and sends frames: its domain on, its link up, a service level that has one. -/
def State.hostUp (s : State) : Bool := s.mainUp && s.domUp 52 && s.fld R.HOSTP_STAT F.HOSTP_STAT_LINK == 2

/-- HOST_LINK_UP (R389, R390): training has ended; 400 Gbit/s until FULL or DEGRADED, then HOSTP_CFG.RATE. -/
def execHostLinkUp (s : State) : Res :=
  s.whenMain (
    if s.domUp 52 ∧ s.fld R.HOSTP_STAT F.HOSTP_STAT_LINK = 1 then
      let rate := if s.mode = mFull ∨ s.mode = mDegraded ∨ s.mode = mDetaching then s.fld R.HOSTP_CFG F.HOSTP_CFG_RATE else 0
      let s := (s.setFld R.HOSTP_STAT F.HOSTP_STAT_LINK 2).setFld R.HOSTP_STAT F.HOSTP_STAT_RATE rate
      s.setFld R.HOSTP_STAT F.HOSTP_STAT_LANES (if rate = 0 then 2 else if rate = 1 then 4 else 8)
    else s)

/-- HOST_LINK_DOWN: the link is lost and trains again; a mirrored face hands over (R382). -/
def execHostLinkDown (s : State) : Res :=
  s.whenMain (if s.fld R.HOSTP_STAT F.HOSTP_STAT_LINK = 2 then s.hostTrain.faultHandover else s)

/-! ### TCT responses (R397 to R399) -/

/-- The customization string "Tvedano TCT". -/
def tctCustom : List Byte := [0x54, 0x76, 0x65, 0x64, 0x61, 0x6E, 0x6F, 0x20, 0x54, 0x43, 0x54]

/-- A TCT header (R397). -/
def tctHeader (type flags key session len seq incarn : Nat) : List Byte :=
  [1, BitVec.ofNat 8 type, BitVec.ofNat 8 flags, BitVec.ofNat 8 key] ++ leBytes session 2 ++ leBytes len 2 ++ leBytes seq 8 ++ leBytes incarn 8

/-- The tag of a message (R398). -/
def State.tctTag (s : State) (key : Nat) (m : List Byte) : List Byte := kmac256 (sparseGet s.keys key []) m 16 tctCustom

/-- Key slot k is loaded; it is privileged. -/
def State.keyLoaded (s : State) (k : Nat) : Bool := s.bit R.HOSTP_KEYSTAT F.HOSTP_KEYSTAT_LOADED k
def State.keyPriv (s : State) (k : Nat) : Bool := s.bit R.HOSTP_KEYSTAT F.HOSTP_KEYSTAT_PRIV k

def State.session (s : State) (i : Nat) : TctSession := sparseGet s.sessions i TctSession.fresh
def State.setSession (s : State) (i : Nat) (x : TctSession) : State := { s with sessions := sparseSet s.sessions i x TctSession.fresh }

/-- Send a response's message. Where the slot holds no key by now, no tag can be formed and nothing is sent (log 86). -/
def State.tctSend (s : State) (session key seq type : Nat) (payload : List Byte) : State :=
  if s.keyLoaded key = false then s else
  let m := tctHeader type 1 key session payload.length seq (s.reg R.ID_INCARN).toNat ++ payload
  s.hostOut { kind := .tct, nums := [session, seq, key, type, leField payload 0 1], bytes := m ++ s.tctTag key m }

/-- Answer a request: a status byte, then data; the session keeps it for a resent request (R399). -/
def State.tctRespond (s : State) (session key seq type status : Nat) (data : List Byte) : State :=
  let payload := BitVec.ofNat 8 status :: data
  let x := s.session session
  (s.setSession session { x with seen := x.seen.map (fun r => if r.1 = seq then (seq, some payload) else r) }).tctSend session key seq type payload

def tctRegRd : Nat := 0x01
def tctRegWr : Nat := 0x02
def tctMemRd : Nat := 0x03
def tctMemWr : Nat := 0x04
def tctDoorbell : Nat := 0x05
def tctEventAck : Nat := 0x11

/-! ### Queue pairs (R392, R393) -/

/-- PSN a lies at or before PSN b (R401). -/
def psnLe (a b : Nat) : Bool := decide ((b + 2 ^ 24 - a % 2 ^ 24) % 2 ^ 24 < 2 ^ 23)

/-- Doorbells held on a queue pair that is reset or in ERROR are discarded (R401). -/
def State.dropBells (s : State) (n : Nat) : State :=
  let mine := s.bells.filter (fun b => b.qpn == n)
  mine.foldl (fun s b => s.tctRespond b.session b.key b.seq tctDoorbell stLink []) { s with bells := s.bells.filter (fun b => b.qpn != n) }

/-- RESET: the queue pair's state is discarded and its work ends (R393). -/
def State.qpReset (s : State) (n : Nat) : State := (s.setQp n Qp.reset).dropBells n

/-- A context's reserved fields and encodings (R393). -/
def qpCtxOk (b : List Byte) : Bool :=
  let f := leField b
  f 0 8 == 0 && f 11 1 == 0 && f 15 1 == 0 && f 19 1 == 0 && f 42 2 == 0 && (f 44 1) / 8 % 2 == 0 && decide (f 44 1 < 128) &&
    decide (f 45 1 ≤ 20) && decide (1 ≤ f 46 1) && decide (f 46 1 ≤ 3) && decide (f 47 1 ≤ 12) && f 48 8 % 4096 == 0

/-- LOAD (R393): the status of the operation is left in STATUS. -/
def State.qpLoad (s : State) (n : Nat) : State :=
  let s := if (s.qp n).state = 0 then s else s.qpReset n
  let a := s.fld R.HOSTP_QPC F.HOSTP_QPC_BASE + 64 * n
  let fin := fun (s : State) (st : Nat) => s.setFld R.HOSTP_QPCTL F.HOSTP_QPCTL_STATUS st
  if s.fld R.HOSTP_QPC F.HOSTP_QPC_COUNT ≤ n then fin s stDescriptor
  else if s.mappedRange a 64 = false then fin s stAddress
  else
    let (b, s, bad) := s.readMem hostWho a 64
    if bad then fin s stData
    else if qpCtxOk b = false then fin s stDescriptor
    else
      fin (s.setQp n { Qp.reset with state := 1, ctx := b, rqPsn := leField b 12 3, sqPsn := leField b 16 3, rate := lineRate }) stDone

/-- A write of HOSTP_QPCTL: OP LOAD, RESET, others no effect. -/
def State.qpctlWrite (s : State) (v : Word) : State :=
  let n := F.HOSTP_QPCTL_QPN.get v
  let op := F.HOSTP_QPCTL_OP.get v
  let s := (s.setFld R.HOSTP_QPCTL F.HOSTP_QPCTL_OP op).setFld R.HOSTP_QPCTL F.HOSTP_QPCTL_QPN n
  if op = 1 then s.qpLoad n
  else if op = 2 then (s.qpReset n).setFld R.HOSTP_QPCTL F.HOSTP_QPCTL_STATUS stDone
  else s

/-- QP_LOAD (R393). -/
def execQpLoad (qp : Fin 4096) (s : State) : Res :=
  s.whenMain (if s.blockUp .hostp then s.qpctlWrite (BitVec.ofNat 64 (qp.val + 2 ^ 16)) else s)

/-- QP_RESET (R393). -/
def execQpReset (qp : Fin 4096) (s : State) : Res :=
  s.whenMain (if s.blockUp .hostp then s.qpctlWrite (BitVec.ofNat 64 (qp.val + 2 ^ 17)) else s)

/-! ### Fenced doorbells (R401) -/

/-- A QTAIL register's queue. -/
def qtailQueue (a : Nat) : Option Nat := (List.range 240).find? (fun q => R.QTAIL q == a)

/-- The doorbell acts: the QTAIL register is written and the response follows. -/
def State.ring (s : State) (session key seq addr value : Nat) : State :=
  match qtailQueue addr with
  | some q =>
    if s.qBlockUp q then (s.doorbell q value).tctRespond session key seq tctDoorbell stDone []
    else s.tctRespond session key seq tctDoorbell stAddress []
  | none => s.tctRespond session key seq tctDoorbell stAddress []

/-- The queue pair has acknowledged every PSN up to this one. -/
def State.fencePassed (s : State) (qpn psn : Nat) : Bool :=
  let x := s.qp qpn
  x.state == 1 && psnLe psn (x.rqPsn + 2 ^ 24 - 1)

/-- Held doorbells whose fence has passed act, in order of arrival. -/
def State.releaseBells (s : State) : State :=
  s.bells.foldl (fun s b =>
    if s.fencePassed b.qpn b.psn then
      ({ s with bells := s.bells.filter (fun x => x != b) } : State).ring b.session b.key b.seq b.addr b.value
    else s) s

/-- DOORBELL_RELEASE (R401). -/
def execDoorbellRelease (s : State) : Res := s.whenMain s.releaseBells

/-- A DOORBELL message is executed. -/
def State.bellRx (s : State) (session key seq : Nat) (p : List Byte) : State :=
  let addr := leField p 0 8
  let qpn := leField p 12 4
  let psn := leField p 16 4
  match qtailQueue addr with
  | none => s.tctRespond session key seq tctDoorbell stAddress []
  | some q =>
    if s.qBlockUp q = false then s.tctRespond session key seq tctDoorbell stAddress []
    else if qpn = 0xFFFFFFFF then s.ring session key seq addr (leField p 8 4)
    else if 4096 ≤ qpn ∨ 2 ^ 24 ≤ psn then s.tctRespond session key seq tctDoorbell stDescriptor []
    else if (s.qp qpn).state = 2 then s.tctRespond session key seq tctDoorbell stLink []
    else if s.fencePassed qpn psn then s.ring session key seq addr (leField p 8 4)
    else
      { s with bells := s.bells ++ [{ session := session, seq := seq, key := key, addr := addr, value := leField p 8 4, qpn := qpn, psn := psn }] }

/-! ### The RoCEv2 responder (R392 to R396) -/

def nakSeq : Nat := 1
def nakAccess : Nat := 2
def nakInvalid : Nat := 3
def nakRnr : Nat := 4
def nakOper : Nat := 5

/-- A CE-marked packet: a CNP, at most one per queue pair per 50 µs. -/
def State.cePacket (s : State) (n : Nat) (ce : Bool) : State :=
  let x := s.qp n
  if ce && (x.cnpAt == 0 || decide (x.cnpAt + 50 * usTicks ≤ s.now + 1)) then
    (s.setQp n { x with cnpAt := s.now + 1 }).hostOut (roceOut n 5 0 0 [])
  else s

/-- A NAK; sequence errors and access errors are counted. -/
def State.nak (s : State) (n psn why : Nat) : State :=
  let s := if why = nakSeq then s.count R.HOSTP_ROCE_CNT F.HOSTP_ROCE_CNT_SEQ_NAK 1
    else if why = nakAccess then s.count R.HOSTP_ROCE_CNT F.HOSTP_ROCE_CNT_NAK_ACCESS 1 else s
  s.hostOut (roceOut n 4 psn why [])

/-- The k PSNs of a request have been executed: the next is expected, the acknowledgement goes out, doorbells may go on. -/
def State.ackTo (s : State) (n k : Nat) (o : Out) : State :=
  let x := s.qp n
  ((s.setQp n { x with rqPsn := (x.rqPsn + k) % 2 ^ 24 }).hostOut o).releaseBells

/-- Acknowledgement of the PSN before p. -/
def ackOut (n p : Nat) : Out := roceOut n 3 ((p + 2 ^ 24 - 1) % 2 ^ 24) 0 []

/-- A request on a queue pair in RTS, in PSN order: executed by `f`; out of order it draws a NAK; one of earlier PSNs is
acknowledged again (R392, R396). -/
def State.inOrder (s : State) (n psn : Nat) (ce : Bool) (f : State → State) : State :=
  if 4096 ≤ n then s
  else
    let x := s.qp n
    if x.state ≠ 1 then s
    else
      let s := s.cePacket n ce
      if psn = x.rqPsn then f s
      else if psnLe psn x.rqPsn then s.hostOut (ackOut n x.rqPsn)
      else s.nak n x.rqPsn nakSeq

/-- The region that an R_Key names allows an access to [va, va + len) (R394): 1 remote write, 2 remote read. The request's
bytes must also be memory that serves. -/
def State.regionOk (s : State) (rkey va len access : Nat) : State × Bool :=
  let i := rkey % 256
  let a := s.fld R.HOSTP_MR F.HOSTP_MR_BASE + 32 * i
  if s.fld R.HOSTP_MR F.HOSTP_MR_COUNT ≤ i ∨ s.mappedRange a 32 = false then (s, false)
  else
    let (b, s, bad) := s.readMem hostWho a 32
    let base := leField b 0 8
    let acc := leField b 20 1
    (s, !bad && leField b 16 4 == rkey && bitOf acc 0 && bitOf acc access && decide (acc < 8) && leField b 21 11 == 0 &&
      decide (base < 2 ^ 48) && decide (base ≤ va) && decide (va + len ≤ base + leField b 8 8) && s.mappedRange va len)

/-- RDMA WRITE. -/
def State.rdmaWriteRx (s : State) (n psn rkey va : Nat) (data : List Byte) (ce : Bool) : State :=
  s.inOrder n psn ce (fun s =>
    if 2 ^ 31 < data.length then s.nak n psn nakInvalid
    else
      let (s, ok) := s.regionOk rkey va data.length 1
      let (barred, s) := if ok then s.guardWrite va data.length else (true, s)
      if barred then s.nak n psn nakAccess
      else
        let k := (s.qp n).packets data.length
        let s := (s.writeMem va data).1
        s.ackTo n k (ackOut n (psn + k)))

/-- RDMA READ: its responses take the PSNs. -/
def State.rdmaReadRx (s : State) (n psn rkey va len : Nat) (ce : Bool) : State :=
  s.inOrder n psn ce (fun s =>
    if 2 ^ 31 < len then s.nak n psn nakInvalid
    else
      let (s, ok) := s.regionOk rkey va len 2
      if ok then
        let (b, s, bad) := s.readMem hostWho va len
        if bad then s.nak n psn nakOper
        else s.ackTo n ((s.qp n).packets len) (roceOut n 2 psn 0 b)
      else s.nak n psn nakAccess)

/-- SEND (R395): data, then the length, then the count of SENDs, into the next slot of the ring. -/
def State.sendRx (s : State) (n psn : Nat) (data : List Byte) (ce : Bool) : State :=
  s.inOrder n psn ce (fun s =>
    let x := s.qp n
    let base := x.at 48 8
    let head := x.at 56 8
    if base = 0 ∨ 4088 < data.length then s.nak n psn nakInvalid
    else if s.isOwn base = false ∨ s.isOwn head = false ∨ s.mappedRange (gaLocal head) 4 = false then s.nak n psn nakAccess
    else
      let (h, s, bad) := s.readMem hostWho (gaLocal head) 4
      let slots := 2 ^ (x.at 47 1)
      let a := gaLocal base + 4096 * (x.sends % slots)
      if bad then s.nak n psn nakOper
      else if slots ≤ (x.sends + 2 ^ 32 - ofLe h) % 2 ^ 32 then s.nak n psn nakRnr
      else if s.mappedRange a 4096 = false ∨ (s.guardWrite a 4096).1 = true then (s.guardWrite a 4096).2.nak n psn nakAccess
      else
        let s := (s.writeMem a data).1
        let s := (s.writeMem (a + 4088) (leBytes data.length 4)).1
        let s := (s.writeMem (a + 4092) (leBytes (x.sends + 1) 4)).1
        let s := s.setQp n { s.qp n with sends := (x.sends + 1) % 2 ^ 32 }
        let k := x.packets data.length
        s.ackTo n k (ackOut n (psn + k)))

/-! ### The requester (R392, R393) -/

/-- Go back to the first unacknowledged PSN: every message not acknowledged is sent again; past the retries the queue pair
enters ERROR. -/
def State.goBack (s : State) (n : Nat) : State :=
  let x := s.qp n
  if x.unacked.isEmpty then s
  else if x.at 44 1 % 8 ≤ x.tries then (s.setQp n { x with state := 2, unacked := [] }).dropBells n
  else
    let s := s.setQp n { x with tries := x.tries + 1, sentAt := s.now }
    x.unacked.foldl (fun s m =>
      (s.count R.HOSTP_ROCE_CNT F.HOSTP_ROCE_CNT_RETRANSMIT m.count).hostOut
        { kind := .roce, nums := [n, 1, m.psn, m.rkey, m.va], bytes := m.bytes }) s

/-- An acknowledgement of every PSN up to this one; a NAK acknowledges those before it and asks for the rest again. -/
def State.roceAck (s : State) (n psn : Nat) (nak : Bool) : State :=
  let x := s.qp n
  if 4096 ≤ n ∨ x.state ≠ 1 then s
  else
    let last := fun (m : RoceTx) => (m.psn + m.count - 1) % 2 ^ 24
    let upTo := if nak then (psn + 2 ^ 24 - 1) % 2 ^ 24 else psn
    let rest := x.unacked.filter (fun m => !(psnLe (last m) upTo))
    let s := if rest.length < x.unacked.length then s.setQp n { x with unacked := rest, tries := 0, sentAt := s.now } else s
    if nak then s.goBack n else s

/-- ROCE_RETRANSMIT_TIMEOUT (R392, R393): 4.096 µs × 2^TIMEOUT without an acknowledgement. -/
def execRoceRetransmitTimeout (qp : Fin 4096) (s : State) : Res :=
  s.whenMain (
    let x := s.qp qp.val
    if x.state = 1 ∧ x.unacked.isEmpty = false ∧ x.sentAt * 1000 + 4096 * usTicks * 2 ^ (x.at 45 1 % 32) ≤ s.now * 1000 then s.goBack qp.val else s)

/-- A CNP halves the send rate, at most once per 50 µs (R392). -/
def State.cnpRx (s : State) (n : Nat) : State :=
  let x := s.qp n
  let s := s.count R.HOSTP_ROCE_CNT F.HOSTP_ROCE_CNT_CNP_RX 1
  if 4096 ≤ n ∨ x.state ≠ 1 then s
  else if x.cutAt = 0 ∨ x.cutAt + 50 * usTicks ≤ s.now + 1 then
    s.setQp n { x with rate := x.rate / 2, cutAt := s.now + 1, stepAt := s.now + 1 }
  else s.setQp n { x with stepAt := s.now + 1 }

/-- ROCE_RATE_RECOVER (R392): 100 µs without a CNP. -/
def execRoceRateRecover (qp : Fin 4096) (s : State) : Res :=
  s.whenMain (
    let x := s.qp qp.val
    if x.state = 1 ∧ x.rate < lineRate ∧ x.stepAt + 100 * usTicks ≤ s.now + 1 then
      s.setQp qp.val { x with rate := min lineRate (x.rate + lineRate / 20), stepAt := s.now + 1 }
    else s)

/-! ### Neighbours (R391) -/

/-- The link-local address formed from the MAC by modified EUI-64, its first byte lowest. -/
def State.linkLocal (s : State) : Nat :=
  let m := fun i => bitsOf (s.fld R.HOSTP_MAC F.HOSTP_MAC_MAC) (40 - 8 * i) 8
  ofLe (([0xFE, 0x80, 0, 0, 0, 0, 0, 0] ++ [m 0 ^^^ 2, m 1, m 2, 0xFF, 0xFE, m 3, m 4, m 5]).map (BitVec.ofNat 8))

/-- The global address, its first byte lowest; 0: none. -/
def State.ip6 (s : State) : Nat := (s.reg R.HOSTP_IP6_HI).toNat + (s.reg R.HOSTP_IP6_LO).toNat * 2 ^ 64

/-- A Neighbor Solicitation, ARP request or echo request for one of the module's addresses is answered. -/
def State.neighborRx (s : State) (t : Nat) : State :=
  if t = s.linkLocal ∨ (t = s.ip6 ∧ t ≠ 0) then
    s.hostOut { kind := .advert, nums := [6, t % 2 ^ 64, t / 2 ^ 64, s.fld R.HOSTP_MAC F.HOSTP_MAC_MAC], bytes := [] }
  else s

def State.arpRx (s : State) (t : Nat) : State :=
  if t = s.fld R.HOSTP_IP4 F.HOSTP_IP4_ADDR then
    s.hostOut { kind := .advert, nums := [4, t, s.fld R.HOSTP_MAC F.HOSTP_MAC_MAC], bytes := [] }
  else s

/-! ### Host events (R402) -/

/-- Once room frees, a LOST event reports the count. -/
def State.lostEvent (s : State) : State :=
  if s.eventLost ≠ 0 ∧ s.events.length < 256 ∧ bitOf (s.fld R.HOSTP_EVT F.HOSTP_EVT_ENABLE) 5 = true then
    let n := s.eventLost
    ({ s with eventLost := 0 } : State).hostEvent 6 (leBytes n 8)
  else s

/-- An event is acknowledged. -/
def State.eventAck (s : State) (n : Nat) : State :=
  ({ s with events := s.events.filter (fun e => e.seq != n) } : State).lostEvent

/-- EVENT_RESEND (R402): every 100 µs unacknowledged events are sent again with RETRY set. -/
def execEventResend (s : State) : Res :=
  s.whenMain (
    if s.mirrorBack then s
    else s.events.foldl (fun s e =>
      (s.count R.HOSTP_EVT_CNT F.HOSTP_EVT_CNT_RESENT 1).emit
        { kind := .event, nums := [e.seq, 1, s.fld R.HOSTP_EVT F.HOSTP_EVT_SESSION], bytes := e.payload }) s)

/-! ### ALERT_N (R403) -/

/-- A write of HOSTP_ALERT: MASK is replaced, ones clear STATUS bits. -/
def State.alertWrite (s : State) (v : Word) : State :=
  let st := s.fld R.HOSTP_ALERT F.HOSTP_ALERT_STATUS
  (s.setFld R.HOSTP_ALERT F.HOSTP_ALERT_MASK (F.HOSTP_ALERT_MASK.get v)).setFld R.HOSTP_ALERT F.HOSTP_ALERT_STATUS
    (st - (st &&& F.HOSTP_ALERT_STATUS.get v))

/-- HOSTP_ALERT_WRITE (R403). -/
def execHostpAlertWrite (v : BitVec 64) (s : State) : Res := s.alive (s.alertWrite v)

/-! ### The sideband (R404 to R407) -/

/-- KEY_LOAD and KEY_CLEAR clear the sessions of their slot (R399, R407); a held doorbell is no session state and stays (log
86). -/
def State.dropSessions (s : State) (k : Nat) : State := { s with sessions := s.sessions.filter (fun p => p.2.key != k) }

/-- KEY_LOAD (R406, R407). -/
def execKeyLoad (slot flags : BitVec 8) (key : List (BitVec 8)) (s : State) : Res :=
  s.sideband (
    let k := slot.toNat
    if 8 ≤ k ∨ 2 ≤ flags.toNat ∨ key.length ≠ 32 then s.sbReply 0x04 ccInvalid []
    else
      let s : State := { s with keys := sparsePut s.keys k key }
      let s := (s.setBit R.HOSTP_KEYSTAT F.HOSTP_KEYSTAT_LOADED k true).setBit R.HOSTP_KEYSTAT F.HOSTP_KEYSTAT_PRIV k (flags.toNat == 1)
      (s.dropSessions k).sbReply 0x04 ccOk [])

/-- KEY_CLEAR (R406, R407). -/
def execKeyClear (slot : BitVec 8) (s : State) : Res :=
  s.sideband (
    let k := slot.toNat
    if 8 ≤ k then s.sbReply 0x05 ccInvalid []
    else
      let s : State := { s with keys := sparseDel s.keys k }
      let s := (s.setBit R.HOSTP_KEYSTAT F.HOSTP_KEYSTAT_LOADED k false).setBit R.HOSTP_KEYSTAT F.HOSTP_KEYSTAT_PRIV k false
      (s.dropSessions k).sbReply 0x05 ccOk [])

/-- GET_INFO (R406). -/
def execGetInfo (s : State) : Res :=
  s.sideband (s.sbReply 0x01 ccOk ([R.ID_SERIAL, R.ID_INCARN, R.ID_STATE, R.ID_ADDR, R.ID_STRAPS, R.HOSTP_MAC].flatMap
    (fun a => leBytes (s.reg a).toNat 8)))

/-- A sideband answer of MCTP control or PLDM: message type, command, completion code (log 32). -/
def State.mctpReply (s : State) (type cmd code : Nat) (b : List Byte) : State :=
  s.emit { kind := .sideband, nums := [256 * (type + 1) + cmd, code], bytes := b }

/-- MCTP_CONTROL (R404, R405): the control messages that an endpoint answers before it has an ID (log 32). -/
def execMctpControl (cmd : BitVec 8) (data : List (BitVec 8)) (s : State) : Res :=
  s.alive (
    let eid := s.fld R.HOSTP_SB F.HOSTP_SB_EID
    let c := cmd.toNat
    if c = 1 then
      let op := leField data 0 1 % 4
      let e := leField data 1 1
      if data.length ≠ 2 ∨ 2 ≤ op then s.mctpReply 0 1 2 []
      else if e = 0 ∨ e = 0xFF then s.mctpReply 0 1 2 []
      else (s.setFld R.HOSTP_SB F.HOSTP_SB_EID e).mctpReply 0 1 0 [0, BitVec.ofNat 8 e, 0]
    else if c = 2 then s.mctpReply 0 2 0 [BitVec.ofNat 8 eid, 0, 0]
    else if c = 4 then s.mctpReply 0 4 0 [1, 0xF1, 0xF3, 0xF1, 0]
    else if c = 5 then s.mctpReply 0 5 0 [3, 0, 1, 0x7F]
    else s.mctpReply 0 c 5 [])

/-- PLDM_TYPE0 (R405): base discovery (log 32). -/
def execPldmType0 (cmd : BitVec 8) (data : List (BitVec 8)) (s : State) : Res :=
  s.sideband (
    let c := cmd.toNat
    if c = 1 then
      let t := leField data 0 1
      if t = 0 ∨ t = 0xFF then s.mctpReply 1 1 2 [] else { s with pldmTid := t }.mctpReply 1 1 0 []
    else if c = 2 then s.mctpReply 1 2 0 [BitVec.ofNat 8 s.pldmTid]
    else if c = 3 then s.mctpReply 1 3 0 [0xF0, 0xF0, 0xF1, 0]
    else if c = 4 then s.mctpReply 1 4 0 [5, 0, 0, 0, 0, 0, 0, 0]
    else if c = 5 then
      (if leField data 0 1 = 0 then s.mctpReply 1 5 0 [0x3E, 0, 0, 0]
       else if leField data 0 1 = 2 then s.mctpReply 1 5 0 [0, 0, 2, 0, 2, 0, 0, 0]
       else s.mctpReply 1 5 0x83 [])
    else s.mctpReply 1 c 5 [])

/-- PLDM_TYPE2 (R405): a reading of a numeric sensor (0 to 8) or of the state sensors 9, the lid, and 10, the module state
(log 32). -/
def execPldmType2 (cmd : BitVec 8) (sensor : BitVec 16) (s : State) : Res :=
  s.sideband (
    let n := sensor.toNat
    if cmd = 0x11 ∧ n < 9 then s.mctpReply 2 0x11 0 (leBytes (sparseGet s.sensors n 0) 4)
    else if cmd = 0x21 ∧ n = 9 then s.mctpReply 2 0x21 0 [BitVec.ofNat 8 (s.fld R.ID_STRAPS F.ID_STRAPS_LID)]
    else if cmd = 0x21 ∧ n = 10 then s.mctpReply 2 0x21 0 [BitVec.ofNat 8 s.mode]
    else if cmd = 0x11 ∨ cmd = 0x21 then s.mctpReply 2 cmd.toNat 0x80 []
    else s.mctpReply 2 cmd.toNat 5 [])

/-- SENSOR_REFRESH (R405): every 10 ms; voltage in mV and power of the 54 V supply, module power, hub temperature as sensed;
the others as the thermal loops last read them. -/
def execSensorRefresh (mv win wmod : BitVec 32) (hub : BitVec 8) (s : State) : Res :=
  s.alive (
    let put := fun (m : Sparse Nat) (k v : Nat) => sparseSet m k v 0
    let m := put (put (put s.sensors 0 mv.toNat) 1 win.toNat) 2 wmod.toNat
    let m := (List.range 4).foldl (fun m d => put m (3 + d) (s.power.dies.getD d DieLoop.fresh).temp) m
    let m := put (put m 7 hub.toNat) 8 (s.power.stackTemp.foldl max 0)
    { s with sensors := m })

end Sys2Proof.Machine
end

