-- ==== Sys2Proof/Machine/Perturb.lean ====
section
/-!
DEFINITION. The error unit's own commands and the perturbation registers (R458, R459, R465 to R469).
-/

namespace Sys2Proof.Machine

open Sys2Proof

/-- CE_INTERVAL (R458): a 1 ms interval of UPTIME ends. -/
def execCeInterval (s : State) : Res :=
  s.whenMain (
    let j := s.uptime / 100000
    if s.ceIndex = j then s else { s with ceIndex := j, ceCount := 0 })

/-- ERR_CTL.CLEAR_FATAL (R459). -/
def State.clearFatal (s : State) : State := s.setFld R.ERR_STAT F.ERR_STAT_FATAL_VALID 0

/-- CLEAR_FATAL (R459). -/
def execClearFatal (s : State) : Res := s.whenMain s.clearFatal

/-- The PERT block acts and answers (R465). -/
def State.pertOpen (s : State) : Bool := bitOf (s.fld R.SEC_DEBUG F.SEC_DEBUG_SCOPE) 1

/-- A write of PERT_CTL: the LFSR of each kind whose bit rises is loaded (R466). -/
def State.pertCtl (s : State) (v : Nat) : State :=
  if s.pertOpen = false then s
  else
    let old := s.fld R.PERT_CTL F.PERT_CTL_ENABLE
    let new := v % 128
    let seed := s.reg R.PERT_SEED
    let l := (List.range 7).foldl (fun (l : List Word) k =>
      if bitOf new k && !(bitOf old k) then
        let x := seed ^^^ BitVec.ofNat 64 k
        l.set k (if x = 0 then 1 else x)
      else l) s.lfsr
    { s with lfsr := l }.setFld R.PERT_CTL F.PERT_CTL_ENABLE new

/-- PERT_CTL_WRITE (R466). -/
def execPertCtlWrite (v : BitVec 64) (s : State) : Res := s.whenMain (s.pertCtl v.toNat)

/-- The pattern that an alteration adds to its sector or word (R468). -/
def eccPattern (u : Nat) (mask : Nat) (x : Nat) : BitVec 512 :=
  if isHbm u then BitVec.ofNat 512 ((List.range 64).foldl (fun n i => n + (if bitOf mask i then x * 2 ^ (8 * i) else 0)) 0)
  else BitVec.ofNat 512 mask

/-- The mask and byte name an alteration; every other value is reserved. -/
def eccOk (u mask x : Nat) : Bool :=
  mask != 0 && x != 0 && decide (popCount mask 64 ≤ (if isHbm u then 4 else 2))

/-- Alter a sector or word: the pattern is applied to what is stored, held copies written back first. -/
def State.eccAlter (s : State) (u : Nat) (p : BitVec 512) : State :=
  let s := s.writeBackHeld (· == u)
  ({ s with altered := sparseSet s.altered u (s.pattern u ^^^ p) 0 }.count R.PERT_CNT F.PERT_CNT_ECC 1)

/-- A write of PERT_ECC_CTL (R468): XOR is stored; ARM alters once and reads 0. -/
def State.eccArm (s : State) (v : Word) : State :=
  if s.pertOpen = false then s
  else
    let x := F.PERT_ECC_CTL_XOR.get v
    let s := s.setFld R.PERT_ECC_CTL F.PERT_ECC_CTL_XOR x
    if F.PERT_ECC_CTL_ARM.get v = 0 ∨ s.pert 6 = false then s
    else
      let a := s.fld R.PERT_ECC_ADDR F.PERT_ECC_ADDR_ADDR
      let mask := (s.reg R.PERT_ECC_MASK).toNat
      match memKey a with
      | none => s.count R.PERT_CNT F.PERT_CNT_REJECTED 1
      | some k =>
        if s.keyUp k = false then s.count R.PERT_CNT F.PERT_CNT_REJECTED 1
        else
          let u := codeUnit k
          if eccOk u mask x then s.eccAlter u (eccPattern u mask x) else s

/-- PERT_ECC_ARM (R468). -/
def execPertEccArm (v : BitVec 64) (s : State) : Res := s.whenMain (s.eccArm v)

/-- Return credits for a VC of a port in a link frame (R298). -/
def State.sendCredit (s : State) (p vc n : Nat) : State :=
  let l := s.link p
  s.emit { kind := .linkFrame, nums := [p, l.txSeq, (l.rxNext + 4095) % 4096, vc, n], bytes := [] }

/-- Credits that the receiver returns: held by injection kind 1, or sent at once (R466). -/
def State.returnCredit (s : State) (p vc n : Nat) : State :=
  let hold := s.fld R.PERT_CREDIT F.PERT_CREDIT_HOLD_US
  if s.pert 1 && bitOf (s.fld R.PERT_CREDIT F.PERT_CREDIT_PORT_MASK) p && bitOf (s.fld R.PERT_CREDIT F.PERT_CREDIT_VC_MASK) vc &&
      hold != 0 then
    { s with creditHolds := s.creditHolds ++ [(p, vc, n, s.now + hold * usTicks)] }
  else s.sendCredit p vc n

/-- CREDIT_HOLD_END (R466): held credits whose time has come are sent. -/
def execCreditHoldEnd (s : State) : Res :=
  s.whenMain (
    let due := s.creditHolds.filter (fun h => decide (h.2.2.2 ≤ s.now))
    let s := { s with creditHolds := s.creditHolds.filter (fun h => !(decide (h.2.2.2 ≤ s.now))) }
    due.foldl (fun s h => s.sendCredit h.1 h.2.1 h.2.2.1) s)

end Sys2Proof.Machine
end

