-- ==== Sys2Proof/Machine/Link.lean ====
section
/-!
DEFINITION. The links of the fabric and pendant ports (R295 to R306), election, membership, address assignment and routes
(R307 to R314): the meanings of their events. P0 and P1 are ports 16 and 17; their links run under R297 and R298 (R365).
-/

namespace Sys2Proof.Machine

open Sys2Proof

/-! ### Packets of VC0 -/

def tHello : Nat := 0x01
def tEchoReq : Nat := 0x02
def tEchoResp : Nat := 0x03
def tAdmitChal : Nat := 0x04
def tAdmitResp : Nat := 0x05
def tElect : Nat := 0x06
def tMember : Nat := 0x07
def tRoute : Nat := 0x08

/-- Send a packet of VC0 to the neighbour of a port: DST and SRC are zero (R304). -/
def State.sendVc0 (s : State) (p type : Nat) (body : List Byte) : State :=
  s.egress p { hdr := { dst := 0, src := 0, vc := 0, hops := 0, err := false, retry := false, seq := 0, addr := 0 }, type := type, body := body }

/-- Send a packet of VC0 on every fabric port that has trained, but one. -/
def State.floodVc0 (s : State) (but : Nat) (type : Nat) (body : List Byte) : State :=
  (List.range 16).foldl (fun s p => if p ≠ but ∧ s.portLinked p = true then s.sendVc0 p type body else s) s

/-- The KEY_DIGEST of the module (R304). -/
def State.keyDigest (s : State) : List Byte := shake256 s.identityPub 32

/-- MAXVER of a port. -/
def State.maxVer (s : State) (p : Nat) : Nat := s.fld (R.RYF_PORT_CFG p) F.RYF_PORT_CFG_MAXVER

/-- The HELLO of a port (R304). -/
def State.helloBytes (s : State) (p : Nat) : List Byte :=
  let ver := if p < 16 then s.fld (R.RYF_PORT_STAT p) F.RYF_PORT_STAT_VERSION else 3
  let maxv := if p < 16 then s.maxVer p else 3
  leBytes (s.reg R.ID_SERIAL).toNat 8 ++ s.keyDigest ++ leBytes ((s.reg R.ID_STRAPS).toNat % 2 ^ 14) 2 ++ leBytes s.pairId 2 ++
    leBytes s.ownAddr 2 ++ [BitVec.ofNat 8 (ver + 16 * maxv), BitVec.ofNat 8 (p % 16)] ++ leBytes (s.reg R.ID_INCARN).toNat 8 ++
    [BitVec.ofNat 8 (s.fld R.RYF_CFG F.RYF_CFG_COORD_ELIG +
        2 * (if p < 16 then s.fld (R.RYF_PORT_CFG p) F.RYF_PORT_CFG_ADMIT_REQ else 0) + 4 * s.fld R.RYF_STAT F.RYF_STAT_COORD)] ++
    List.replicate 7 0

/-! ### Election and membership (R307 to R310) -/

/-- An eligible serial is learnt: a lower one than any known is flooded (R307). -/
def State.electLearn (s : State) (x : Nat) : State :=
  if s.fabric.lowest = 0 ∨ x + 1 < s.fabric.lowest then
    let t : State := { s with fabric := { s.fabric with lowest := x + 1, lowestSince := s.now } }
    t.floodVc0 16 tElect (leBytes x 8)
  else s

/-- The module's own serial enters the election. -/
def State.electSelf (s : State) : State :=
  if s.fld R.RYF_CFG F.RYF_CFG_COORD_ELIG = 1 then s.electLearn s.serial else s

/-- Whether a member's address can be reached from here now: a valid entry whose PRIMARY is up. -/
def State.reaches (s : State) (a : Nat) : Bool :=
  let e := s.reg (R.RYF_ROUTE a)
  rtValid e && s.portUp (rtPrimary e)

/-- The serial that a port's peer showed in HELLO. -/
def State.peerSerial (s : State) (p : Nat) : Nat := (s.reg (R.RYF_PORT_PEER_SERIAL p)).toNat

/-- Fabric ports whose peer is admitted: those that are up. -/
def State.upPorts (s : State) : List Nat := (List.range 16).filter (fun p => s.portUp p)

/-- Insert a number into a rising list without repeats. -/
def insertNat (x : Nat) : List Nat → List Nat
  | [] => [x]
  | y :: r => if x < y then x :: y :: r else if x = y then y :: r else y :: insertNat x r

/-- Insert a member in address order. -/
def insertMember (m : Member) : List Member → List Member
  | [] => [m]
  | y :: r => if m.addr < y.addr then m :: y :: r else if m.addr = y.addr then m :: r else y :: insertMember m r

/-- The serials of the neighbours, rising. -/
def State.neighbours (s : State) : List Nat :=
  (s.upPorts.map s.peerSerial).foldl (fun l x => if x = s.serial then l else insertNat x l) []

/-- The lowest up port to a neighbour. -/
def State.portTo (s : State) (serial : Nat) : Option Nat := s.upPorts.find? (fun p => s.peerSerial p == serial)

/-- The address that straps give: node × 8 + slot + 1 (R308); none without straps. -/
def strapAddr (straps : Nat) : Option Nat :=
  if bitOf straps 13 then some (straps % 1024 * 8 + bitsOf straps 10 3 + 1) else none

/-- The next free address counting down (R308). -/
def nextFree (used : List Nat) (lo : Nat) : Option Nat :=
  ((List.range (0x3FFF + 1 - lo)).map (fun i => 0x3FFF - i)).find? (fun a => !(used.contains a))

/-- Exclude a module and record the conflict (R308, R309). -/
def State.excludeModule (s : State) (kept serial : Nat) : State :=
  if s.fabric.excluded.contains serial then s
  else
    let t : State := { s with fabric := { s.fabric with
      excluded := s.fabric.excluded ++ [serial], assigned := s.fabric.assigned.filter (fun x => x.1 != serial) } }
    t.errRecord { cls := clsDeferred, code := 0x0404, unit := 0xDD, info0 := kept, info1 := serial }

/-- Give one module its address (R308, R309): the one it has, the one it shows, the one of its straps, or the next free one. -/
def State.assign (s : State) (serial straps shown : Nat) : State :=
  let f := s.fabric
  let give := fun (s : State) (a : Nat) => { s with fabric := { s.fabric with assigned := (s.fabric.assigned.filter (fun x => x.1 != serial)) ++ [(serial, a)] } }
  if f.excluded.contains serial || f.assigned.any (fun x => x.1 == serial) then s
  else
    let holder := fun (a : Nat) => (f.assigned.find? (fun x => x.2 == a)).map Prod.fst
    if shown ≠ 0 ∧ holder shown = none then give s shown
    else
      let byStraps := s.fld R.RYF_CFG F.RYF_CFG_ADDR_MODE == 1
      match if byStraps then strapAddr straps else none with
      | some a =>
        match holder a with
        | none => give s a
        | some h => if h < serial then s.excludeModule h serial else give (s.excludeModule serial h) a
      | none =>
        match nextFree (f.assigned.map Prod.snd) (if byStraps then 0x2001 else 1) with
        | some a => give s a
        | none => s.excludeModule 0 serial

/-- The address assigned to a serial. -/
def State.assignedTo (s : State) (serial : Nat) : Option Nat := (s.fabric.assigned.find? (fun x => x.1 == serial)).map Prod.snd

/-- The module's own entry of the table takes effect (R308): its address and where it came from, or its exclusion (R309). -/
def State.takeAddress (s : State) (a : Option Nat) (excluded : Bool) : State :=
  match a with
  | some a =>
    let src := if strapAddr ((s.reg R.ID_STRAPS).toNat) = some a then 1 else 2
    ((s.setFld R.ID_ADDR F.ID_ADDR_MODULE_ADDR a).setFld R.ID_ADDR F.ID_ADDR_SOURCE src).setFld R.RYF_STAT F.RYF_STAT_EXCLUDED 0
  | none =>
    if excluded then
      ((s.setFld R.ID_ADDR F.ID_ADDR_MODULE_ADDR 0).setFld R.ID_ADDR F.ID_ADDR_SOURCE 0).setFld R.RYF_STAT F.RYF_STAT_EXCLUDED 1
    else s

/-- The membership copy becomes a new table (R310): flows of modules that left or came back start again, and the lock stores
re-examine their records (R239). -/
def State.setMembers (s : State) (ms : List Member) (epoch : Nat) : State :=
  let gone := (s.members.filter (fun m => !(ms.any (fun x => x.addr == m.addr && x.serial == m.serial && x.incarn == m.incarn)))).map Member.addr
  let keep := fun (k : Nat) => !(gone.contains (k / 16 % 65536))
  let t : State := { s with
    members := ms,
    lockWaiters := s.lockWaiters.filter (fun w => !(gone.contains w.owner.module)),
    fabric := { s.fabric with
      txFlow := s.fabric.txFlow.filter (fun x => keep x.1), rxFlow := s.fabric.rxFlow.filter (fun x => keep x.1),
      early := s.fabric.early.filter (fun x => !(gone.contains x.2.hdr.src.toNat)),
      executed := s.fabric.executed.filter (fun x => !(gone.contains x.src)) } }
  let t := (t.setFld R.RYF_MEMBERS F.RYF_MEMBERS_EPOCH epoch).setFld R.RYF_MEMBERS F.RYF_MEMBERS_COUNT ms.length
  if gone.isEmpty then t else (List.range 5).foldl (fun s st => s.lockReexamine st) t

/-- The MEMBER packet of the coordinator: its serial, the deputy's, the epoch, the members, the excluded serials (log 29). -/
def State.memberBytes (s : State) : List Byte :=
  leBytes (s.reg R.RYF_COORD).toNat 8 ++ leBytes (s.reg R.RYF_DEPUTY).toNat 8 ++ leBytes (s.fld R.RYF_MEMBERS F.RYF_MEMBERS_EPOCH) 6 ++
    leBytes s.members.length 2 ++
    s.members.flatMap (fun m => leBytes m.addr 2 ++ leBytes m.serial 8 ++ leBytes m.incarn 8 ++ leBytes m.pairId 2 ++ leBytes m.version 1) ++
    s.fabric.excluded.flatMap (fun x => leBytes x 8)

/-- The coordinator sends MEMBER on every port (R307). -/
def State.sendMember (s : State) : State := s.floodVc0 16 tMember s.memberBytes

/-- Bits of a route entry (R311). -/
def rtMake (v3 : Bool) (primary minMask hops : Nat) : Word :=
  BitVec.ofNat 64 (2 ^ 63 + b2n v3 * 2 ^ 61 + primary * 2 ^ 52 + minMask * 2 ^ 32 + hops * 2 ^ 24)

/-- The coordinator's own entry for a neighbour (R311): the lowest up port to it, one of version 3 if there is one. -/
def State.routeTo (s : State) (serial : Nat) : Word :=
  let ps := s.upPorts.filter (fun p => s.peerSerial p == serial)
  let v3 := ps.filter (fun p => s.portV3 p)
  match v3 ++ ps with
  | [] => 0
  | p :: _ => rtMake (!v3.isEmpty) p (ps.foldl (fun m q => m + 2 ^ q) 0) 1

/-- The coordinator computes the routes of its neighbours, and sends each the entries of the tree as far as it knows it: the
coordinator one link away, its other neighbours two (R311; log 30). -/
def State.coordRoutes (s : State) : State :=
  let ns := s.neighbours.filterMap (fun n => (s.assignedTo n).map (fun a => (n, a)))
  let s := ns.foldl (fun s x => s.setReg (R.RYF_ROUTE x.2) (s.routeTo x.1)) s
  ns.foldl (fun s x =>
    match s.portTo x.1 with
    | none => s
    | some p =>
      let there := s.fld (R.RYF_PORT_PEER p) F.RYF_PORT_PEER_PORT
      let v3 := s.portV3 p
      let es := (s.ownAddr, rtMake v3 there (2 ^ there) 1) ::
        ((ns.filter (fun y => y.1 != x.1)).map (fun y => (y.2, rtMake (v3 && rtV3 (s.reg (R.RYF_ROUTE y.2))) there (2 ^ there) 2)))
      s.sendVc0 p tRoute (leBytes (s.fld R.RYF_MEMBERS F.RYF_MEMBERS_EPOCH) 6 ++ es.flatMap (fun e => leBytes e.1 2 ++ leBytes e.2.toNat 8))) s

/-- The coordinator works its table out anew (R308, R310): itself, its neighbours in order of serial, and the members of its
copy that it still reaches. A change advances the epoch. -/
def State.memberRefresh (s : State) : State :=
  if s.fld R.RYF_STAT F.RYF_STAT_COORD = 0 then s
  else
    let straps := (s.reg R.ID_STRAPS).toNat % 2 ^ 14
    let s := s.assign s.serial straps s.ownAddr
    let ns := s.neighbours
    let s := ns.foldl (fun s n =>
      match s.portTo n with
      | some p => s.assign n (s.fld (R.RYF_PORT_PEER p) F.RYF_PORT_PEER_STRAPS) (s.fld (R.RYF_PORT_PEER p) F.RYF_PORT_PEER_ADDR)
      | none => s) s
    let s := s.takeAddress (s.assignedTo s.serial) (s.fabric.excluded.contains s.serial)
    let topVer := fun (ps : List Nat) => ps.foldl (fun v p => max v (s.fld (R.RYF_PORT_STAT p) F.RYF_PORT_STAT_VERSION)) 0
    let own : List Member := match s.assignedTo s.serial with
      | some a => [{ addr := a, serial := s.serial, incarn := (s.reg R.ID_INCARN).toNat, pairId := s.pairId, version := topVer s.upPorts }]
      | none => []
    let near : List Member := ns.filterMap (fun n =>
      match s.assignedTo n, s.portTo n with
      | some a, some p =>
        some { addr := a, serial := n, incarn := (s.link p).peerIncarn, pairId := (s.link p).peerPair,
               version := topVer (s.upPorts.filter (fun q => s.peerSerial q == n)) }
      | _, _ => none)
    let far := s.members.filter (fun m => !(s.fabric.excluded.contains m.serial) && m.serial != s.serial && !(ns.contains m.serial) && s.reaches m.addr)
    let ms := (own ++ near ++ far).foldl (fun l m => insertMember m l) []
    let elig := (ns.filter (fun n => match s.portTo n with | some p => (s.link p).peerElig && (s.assignedTo n).isSome | none => false))
    let s := s.setReg R.RYF_DEPUTY (BitVec.ofNat 64 (elig.headD 0))
    if ms = s.members then s
    else (s.setMembers ms (s.fld R.RYF_MEMBERS F.RYF_MEMBERS_EPOCH + 1)).coordRoutes

/-- This module becomes coordinator (R307): its table starts from the membership copy (R308). -/
def State.becomeCoord (s : State) : State :=
  let s := ((s.setFld R.RYF_STAT F.RYF_STAT_COORD 1).setFld R.RYF_STAT F.RYF_STAT_ELECTED 1).setFld R.RYF_STAT F.RYF_STAT_DEPUTY 0
  let s := s.setReg R.RYF_COORD (BitVec.ofNat 64 s.serial)
  let t : State := { s with fabric := { s.fabric with
    assigned := s.members.map (fun m => (m.serial, m.addr)), excluded := [], memberAt := s.now,
    lowest := s.serial + 1 } }
  t.memberRefresh.sendMember

/-- COORD_SETTLE (R307): the flooded value is the module's own serial and has not changed for SETTLE_MS. -/
def execCoordSettle (s : State) : Res :=
  s.whenMain (
    if s.fld R.RYF_CFG F.RYF_CFG_COORD_ELIG = 1 ∧ s.fld R.RYF_STAT F.RYF_STAT_COORD = 0 ∧ s.fabric.lowest = s.serial + 1 ∧
       s.fabric.lowestSince + s.fld R.RYF_CFG F.RYF_CFG_SETTLE_MS * msTicks ≤ s.now then s.becomeCoord
    else s)

/-- MEMBER_TIMER (R307): every 50 µs the coordinator sends MEMBER on every port. -/
def execMemberTimer (s : State) : Res :=
  s.whenMain (if s.fld R.RYF_STAT F.RYF_STAT_COORD = 1 then s.sendMember else s)

/-- DEPUTY_TAKEOVER (R307): no MEMBER for 150 µs, or the coordinator has left the membership. -/
def execDeputyTakeover (s : State) : Res :=
  s.whenMain (
    if s.fld R.RYF_STAT F.RYF_STAT_DEPUTY = 1 ∧
       (s.fabric.memberAt + 150 * usTicks ≤ s.now ∨
        s.members.any (fun m => m.serial == (s.reg R.RYF_COORD).toNat) = false) then s.becomeCoord
    else s)

/-- ELECT (R307). -/
def execElectRx (p : Fin 16) (serial : BitVec 64) (s : State) : Res :=
  s.whenMain (if s.portLinked p.val then s.electSelf.electLearn serial.toNat else s)

/-- A MEMBER arrives (R307, R309, R310). The coordinator with the lower serial prevails; a higher one is heard only where the
known one has been silent for 150 µs (log 31). -/
def State.memberRx (s : State) (p seq coord deputy epoch : Nat) (ms : List Member) (excl : List Nat) : State :=
  let mine := (s.reg R.RYF_COORD).toNat
  let known := s.fld R.RYF_STAT F.RYF_STAT_ELECTED = 1
  let silent := s.fld R.RYF_STAT F.RYF_STAT_COORD = 0 ∧ s.fabric.memberAt + 150 * usTicks ≤ s.now
  if coord = s.serial ∨ (known ∧ mine < coord ∧ ¬ silent) ∨
     (known ∧ mine = coord ∧ epoch < s.fld R.RYF_MEMBERS F.RYF_MEMBERS_EPOCH) then s
  else
    let s := (s.setFld R.RYF_STAT F.RYF_STAT_COORD 0).setFld R.RYF_STAT F.RYF_STAT_ELECTED 1
    let s := s.setFld R.RYF_STAT F.RYF_STAT_DEPUTY (b2n (deputy == s.serial))
    let s := (s.setReg R.RYF_COORD (BitVec.ofNat 64 coord)).setReg R.RYF_DEPUTY (BitVec.ofNat 64 deputy)
    let fresh := s.fabric.memberSeen ≠ coord * 65536 + seq + 1
    let s : State := { s with fabric := { s.fabric with memberAt := s.now, lowest := coord + 1, memberSeen := coord * 65536 + seq + 1 } }
    let s := s.setMembers ms epoch
    let s := s.takeAddress ((ms.find? (fun m => m.serial == s.serial)).map Member.addr) (excl.contains s.serial)
    if fresh then
      (List.range 16).foldl (fun s q => if q ≠ p ∧ s.portLinked q = true then
        s.egress q { hdr := { dst := 0, src := 0, vc := 0, hops := 0, err := false, retry := false, seq := BitVec.ofNat 16 seq, addr := 0 },
                     type := tMember, body := leBytes coord 8 ++ leBytes deputy 8 ++ leBytes epoch 6 ++ leBytes ms.length 2 ++
                       ms.flatMap (fun m => leBytes m.addr 2 ++ leBytes m.serial 8 ++ leBytes m.incarn 8 ++ leBytes m.pairId 2 ++ leBytes m.version 1) ++
                       excl.flatMap (fun x => leBytes x 8) } else s) s
    else s

/-- MEMBER (R310). -/
def execMemberRx (p : Fin 16) (seq : BitVec 16) (coord deputy : BitVec 64) (epoch : BitVec 48) (ms : List Member)
    (excl : List (BitVec 64)) (s : State) : Res :=
  s.whenMain (if s.portLinked p.val then s.memberRx p.val seq.toNat coord.toNat deputy.toNat epoch.toNat ms (excl.map BitVec.toNat) else s)

/-! ### Routes (R311 to R314) -/

/-- The local addresses of the route entries. -/
def isRoute (a : Nat) : Bool := decide (R.RYF_ROUTE 0 ≤ a ∧ a < R.RYF_ROUTE 0x4000)

/-- Entries that are written. -/
def State.routes (s : State) : List Nat := (s.regs.map Prod.fst).filter isRoute

/-- A port is down for the routes: entries whose PRIMARY it is switch to ALT where that is valid, and it leaves every
MIN_MASK (R313). The number switched. -/
def State.reroute (s : State) (p : Nat) : State × Nat :=
  s.routes.foldl (fun (x : State × Nat) a =>
    let e := x.1.reg a
    let sw := rtValid e && rtPrimary e == p && rtAltValid e
    let n := putBits (putBits e.toNat (32 + p) 1 0) 62 1 (if sw then 0 else b2n (rtAltValid e))
    let n := if sw then putBits n 52 4 (rtAlt e) else n
    (x.1.setReg a (BitVec.ofNat 64 n), x.2 + b2n sw)) (s, 0)

/-- A port goes down (R304, R313): its entries switch, its unacknowledged packets take their new routes, the coordinator is
told, and the membership follows where this module is coordinator. -/
def State.portDown (s : State) (p : Nat) : State :=
  if p < 16 then
    if s.portLinked p = false ∧ s.fld (R.RYF_PORT_STAT p) F.RYF_PORT_STAT_STATE ≠ 1 then s
    else
      let peer := s.peerSerial p
      let l := s.link p
      let st := if s.fld (R.RYF_PORT_CFG p) F.RYF_PORT_CFG_ENABLE = 0 then 6 else 0
      let s := (s.setReg (R.RYF_PORT_STAT p) (BitVec.ofNat 64 st)).count (R.RYF_PORT_LINKCNT p) F.RYF_PORT_LINKCNT_DOWNS 1
      let s := (s.setLink p LinkPort.down).orphanSigns (.admission p)
      let (s, n) := s.reroute p
      let s := (s.count R.RYF_CNT F.RYF_CNT_REROUTE 1).errRecord
        { cls := clsCorrected, code := 0x0402, unit := 0xDD, sub := p, info0 := peer, info1 := n }
      let s := (l.unacked.filter (fun u => decide (0x11 ≤ u.2.type))).foldl (fun s u => s.sendRaw u.2) s.releaseWaiting
      let s := if s.fld R.RYF_STAT F.RYF_STAT_COORD = 1 then s
        else s.emit { kind := .portReport, nums := [(s.reg R.RYF_COORD).toNat, s.ownAddr, p, peer], bytes := [] }
      s.memberRefresh
  else (s.setBit R.PEND_STAT F.PEND_STAT_LINKS (p - 16) false).setLink p LinkPort.down

/-- PORT_DOWN (R304, R313): no HELLO for 60 µs, or the PHY has lost lock. -/
def execPortDown (p : Fin 18) (lostLock : Bool) (s : State) : Res :=
  s.whenMain (if lostLock || decide ((s.link p.val).lastRx + 60 * usTicks ≤ s.now) then s.portDown p.val else s)

/-- The table is applied in one cycle (R314): entries not named are not valid, the module's own reads zero; ports that are
down are treated under R313 at once. -/
def State.applyTable (s : State) (es : List (Nat × Word)) : State :=
  let s := s.routes.foldl (fun s a => s.setReg a 0) s
  let s := es.foldl (fun s e => if 1 ≤ e.1 ∧ e.1 < 0x4000 ∧ e.1 ≠ s.ownAddr then s.setReg (R.RYF_ROUTE e.1) e.2 else s) s
  let s := (List.range 16).foldl (fun s p => if s.portLinked p then s else (s.reroute p).1) s
  s.releaseWaiting.memberRefresh

/-- A ROUTE fragment arrives (R314): fragment i of `total` of a table epoch, entries from address `first`. -/
def State.routeRx (s : State) (epoch i total first : Nat) (es : List Word) : State :=
  let f := s.fabric
  let fresh := f.routeEpoch < epoch + 1
  if (!fresh && !(f.routeEpoch == epoch + 1 && f.routeNext != 0)) || decide (total ≤ i) then s
  else
    let frags := (if fresh then [] else f.routeFrags.filter (fun x => x.1 != i)) ++ [(i, first, es)]
    if (List.range total).all (fun k => frags.any (fun x => x.1 == k)) then
      let t : State := { s with fabric := { f with routeEpoch := epoch + 1, routeNext := 0, routeFrags := [] } }
      t.applyTable (frags.flatMap (fun x => (List.range x.2.2.length).map (fun k => (x.2.1 + k, x.2.2.getD k 0))))
    else { s with fabric := { f with routeEpoch := epoch + 1, routeNext := total, routeFrags := frags } }

/-- ROUTE (R314). -/
def execRouteRx (p : Fin 16) (epoch : BitVec 48) (i total : BitVec 16) (first : BitVec 16) (es : List (BitVec 64)) (s : State) : Res :=
  s.whenMain (if s.portLinked p.val then s.routeRx epoch.toNat i.toNat total.toNat first.toNat es else s)

/-- VC15_ESCAPE (R312): bulk packets that found no credit for 2 µs move to VC15. -/
def execVc15Escape (s : State) : Res :=
  s.whenMain (
    let late := fun (w : Nat × RawPkt) => decide (12 ≤ w.2.hdr.vc.val) && decide (w.2.hdr.vc.val ≤ 14) && decide (w.1 + 2 * usTicks ≤ s.now)
    ({ s with fabric := { s.fabric with bulkWait := s.fabric.bulkWait.map (fun w =>
        if late w && (s.routePort w.2.hdr.dst.toNat w.2.hdr.vc.val w.2.body.length).isNone then
          (w.1, { w.2 with hdr := { w.2.hdr with vc := 15 } })
        else w) } } : State).releaseWaiting)

/-- The packet types and the channels that carry them (R300). -/
def vcOk (type vc : Nat) : Bool :=
  if 1 ≤ type ∧ type ≤ 8 then vc == 0
  else if type = 0x10 ∨ (0x11 ≤ type ∧ type ≤ 0x14) then vc == 1
  else if 0x18 ≤ type ∧ type ≤ 0x1B then vc == 1 || decide (12 ≤ vc)
  else if 0x20 ≤ type ∧ type ≤ 0x2F then decide (2 ≤ vc) && decide (vc ≤ 11)
  else false

/-- PACKET_FORWARD (R299, R300, R311): a packet for another module is forwarded on its route, or discarded. -/
def execPacketForward (h : Hdr) (type : BitVec 6) (body : List (BitVec 8)) (s : State) : Res :=
  s.whenMain (
    if vcOk type.toNat h.vc.val = false then s.count R.RYF_CNT F.RYF_CNT_BADVC 1
    else if h.dst.toNat = s.ownAddr ∨ h.dst.toNat = 0 ∨ 0x3FFF < h.dst.toNat then s
    else if h.hops.val = 63 then s.count R.RYF_CNT F.RYF_CNT_HOPS 1
    else s.sendRaw { hdr := { h with hops := h.hops + 1 }, type := type.toNat, body := body })

/-! ### The link layer (R296 to R298) -/

/-- The power domain of a port is on (R441): 53 and 54 for the fabric ports, 55 for the pendant ports. -/
def State.portPowered (s : State) (p : Nat) : Bool := s.domUp (if 16 ≤ p then 55 else portDomain p)

/-- A port completes training (R296): version 3 where both ends reach it. It starts with the credits that the other end's
receiver grants, by VC, and sends HELLO. -/
def State.linkUp (s : State) (p : Nat) (v3 : Bool) (credits : List Nat) : State :=
  let cr := (List.range 16).foldl (fun m v => sparseSet m v (credits.getD v 0) 0) ([] : Sparse Nat)
  let l : LinkPort := { LinkPort.down with credits := cr, lastRx := s.now }
  if p < 16 then
    if s.portLinked p || s.fld (R.RYF_PORT_CFG p) F.RYF_PORT_CFG_ENABLE == 0 || !(s.portPowered p) then s
    else
      let ver := if v3 && s.maxVer p == 3 then 3 else 2
      let s := s.setReg (R.RYF_PORT_STAT p) (BitVec.ofNat 64 (2 + ver * 16 + 4 * 256))
      ((s.setLink p l).sendVc0 p tHello (s.helloBytes p)).electSelf
  else if s.pendUp (p - 16) || !(s.portPowered p) then s
  else (s.setBit R.PEND_STAT F.PEND_STAT_LINKS (p - 16) true).setLink p { l with lanes := 4 }

/-- LINK_UP (R296). -/
def execLinkUp (p : Fin 18) (v3 : Bool) (credits : List (BitVec 16)) (s : State) : Res :=
  s.whenMain (s.linkUp p.val v3 (credits.map BitVec.toNat))

/-- The width on n surviving lanes (R297). -/
def laneWidth (n : Nat) : Nat := if 4 ≤ n then 4 else if 2 ≤ n then 2 else n

/-- LANE_FAULT (R297, R365): the lanes that survive; P0 and P1 are links 16 and 17 of the record. -/
def execLaneFault (p : Fin 18) (good : BitVec 4) (s : State) : Res :=
  s.whenMain (
    let w := laneWidth (popCount good.toNat 4)
    if p.val < 16 then
      let old := s.fld (R.RYF_PORT_STAT p.val) F.RYF_PORT_STAT_WIDTH
      if s.portLinked p.val = false then s
      else if w = 0 then s.portDown p.val
      else if w < old then
        (s.setFld (R.RYF_PORT_STAT p.val) F.RYF_PORT_STAT_WIDTH w).errRecord
          { cls := clsCorrected, code := 0x0401, unit := 0xDD, sub := p.val, info0 := old, info1 := w }
      else s
    else if s.pendUp (p.val - 16) = false then s
    else if w = 0 then s.portDown p.val
    else
      let l := s.link p.val
      if w < l.lanes then
        (s.setLink p.val { l with lanes := w }).errRecord
          { cls := clsCorrected, code := 0x0401, unit := 0xDD, sub := p.val, info0 := l.lanes, info1 := w }
      else s)

/-- The frames that LACK covers leave the retry buffer. -/
def ackedBy (lack : Nat) (l : List (Nat × RawPkt)) : List (Nat × RawPkt) :=
  match l.findIdx? (fun x => x.1 == lack) with
  | some i => l.drop (i + 1)
  | none => l

/-- LINK_FRAME_RX (R298): a frame's wrapper is checked and its acknowledgement and credits are taken; an accepted packet, of
`len` payload bytes on `vc`, returns its credit and is delivered by the row of its type. -/
def execLinkFrameRx (p : Fin 18) (lseq lack : BitVec 12) (cvc cn : Fin 16) (crcOk legal : Bool) (corrected uncorrected : BitVec 16)
    (vc : Fin 16) (len : Fin 257) (s : State) : Res :=
  s.whenMain (
    let up := if p.val < 16 then s.portLinked p.val else s.pendUp (p.val - 16)
    if up = false then s
    else
      let cnt := fun (s : State) (a : Nat → Nat) (f : Field) (n : Nat) => if p.val < 16 then s.count (a p.val) f n else s
      let s := cnt (cnt s R.RYF_PORT_FEC F.RYF_PORT_FEC_CORRECTED corrected.toNat) R.RYF_PORT_FEC F.RYF_PORT_FEC_UNCORRECTED uncorrected.toNat
      if uncorrected ≠ 0 then s
      else if crcOk = false then cnt s R.RYF_PORT_LINKCNT F.RYF_PORT_LINKCNT_CRC 1
      else if legal = false then cnt s R.RYF_PORT_LINKCNT F.RYF_PORT_LINKCNT_DISCARD 1
      else
        let l := s.link p.val
        let c := sparseGet l.credits cvc.val 0
        let l := { l with unacked := ackedBy lack.toNat l.unacked, credits := sparseSet l.credits cvc.val (c + cn.val) 0 }
        let hit := l.rxNext = lseq.toNat
        let s := s.setLink p.val (if hit then { l with rxNext := (l.rxNext + 1) % 4096 } else l)
        let s := if hit then s.returnCredit p.val vc.val (creditUnits len.val) else s
        s.releaseWaiting)

/-- LINK_RETRY (R298): the retry buffer is sent again from its first frame. -/
def execLinkRetry (p : Fin 18) (s : State) : Res :=
  s.whenMain (
    let l := s.link p.val
    match l.unacked with
    | [] => s
    | _ =>
      let s := if p.val < 16 then s.count (R.RYF_PORT_LINKCNT p.val) F.RYF_PORT_LINKCNT_RETRY 1 else s
      l.unacked.foldl (fun s u => s.emit (u.2.out p.val u.1)) s)

/-! ### HELLO, echo, admission (R304 to R306) -/

/-- HELLO_TIMER (R304): every 20 µs a trained port sends HELLO. -/
def execHelloTimer (s : State) : Res :=
  s.whenMain ((List.range 16).foldl (fun s p => if s.portLinked p then s.sendVc0 p tHello (s.helloBytes p) else s) s.electSelf)

/-- A port carries every VC from here on: the election value goes out on it and the coordinator counts its peer. -/
def State.portReady (s : State) (p : Nat) : State :=
  let s := s.setFld (R.RYF_PORT_STAT p) F.RYF_PORT_STAT_STATE 4
  let s := if s.fabric.lowest = 0 then s else s.sendVc0 p tElect (leBytes (s.fabric.lowest - 1) 8)
  s.memberRefresh.releaseWaiting

/-- Four free words: a nonce. -/
def State.drawNonce (s : State) : List Byte × State :=
  let (a, s) := s.draw
  let (b, s) := s.draw
  let (c, s) := s.draw
  let (d, s) := s.draw
  ([a, b, c, d].flatMap (fun w => leBytes w.toNat 8), s)

/-- What a HELLO says of the peer goes into the port's registers. -/
def State.helloPeer (s : State) (p : Nat) (b : HelloBody) : State :=
  let s := s.setReg (R.RYF_PORT_PEER p) (BitVec.ofNat 64 (b.moduleAddr.toNat + b.port.val * 2 ^ 16 + b.straps.toNat * 2 ^ 20))
  let s := s.setReg (R.RYF_PORT_PEER_SERIAL p) b.serial
  (List.range 4).foldl (fun s i => s.setReg (R.RYF_PORT_PEER_KEY p i) (BitVec.ofNat 64 (bitsOf b.keyDigest.toNat (64 * i) 64))) s

/-- A HELLO arrives on a fabric port (R304, R305, R306). A new incarnation of the same module counts as its leaving and
rejoining. -/
def State.helloRx (s : State) (p : Nat) (b : HelloBody) : State :=
  let st := s.fld (R.RYF_PORT_STAT p) F.RYF_PORT_STAT_STATE
  let l := s.link p
  let again := st = 4 ∧ s.peerSerial p = b.serial.toNat ∧ l.peerIncarn ≠ b.incarnation.toNat
  let s := s.helloPeer p b
  let l := { l with lastRx := s.now, peerIncarn := b.incarnation.toNat, peerAdmitReq := b.admitReq, peerElig := b.coordElig,
                    peerPair := b.pairId.toNat, peerMaxVer := b.maxVersion.val }
  let s := s.setLink p l
  let s := if b.coordElig then s.electSelf.electLearn b.serial.toNat else s
  if st = 2 ∨ again then
    let s := s.setLink p { s.link p with echoes := 0, admitted := false, frags := [] }
    let s := (List.range 16).foldl (fun s _ => s.sendVc0 p tEchoReq []) s
    if b.admitReq || s.fld (R.RYF_PORT_CFG p) F.RYF_PORT_CFG_ADMIT_REQ == 1 then
      let (n, s) := s.drawNonce
      ((s.setFld (R.RYF_PORT_STAT p) F.RYF_PORT_STAT_STATE 3).setLink p { s.link p with nonce := n, chalAt := s.now + 1 }).sendVc0 p tAdmitChal n
    else s.portReady p
  else s.memberRefresh

/-- HELLO (R304). On a pendant port only what the pairing reads is kept. -/
def execHelloRx (p : Fin 18) (b : HelloBody) (s : State) : Res :=
  s.whenMain (
    if p.val < 16 then (if s.portLinked p.val then s.helloRx p.val b else s)
    else if s.pendUp (p.val - 16) then
      s.setLink p.val { s.link p.val with lastRx := s.now, peerPair := b.pairId.toNat, peerIncarn := b.incarnation.toNat }
    else s)

/-- ECHO_REQ (R305): answered with the turnaround that the port measured, in TU. -/
def execEchoReq (p : Fin 16) (turn : BitVec 32) (s : State) : Res :=
  s.whenMain (if s.portLinked p.val then s.sendVc0 p.val tEchoResp (leBytes turn.toNat 4) else s)

/-- ECHO_RESP (R305): the round trip that the port measured and the turnaround reported; the sixteenth gives L. -/
def execEchoResp (p : Fin 16) (rtt turn : BitVec 32) (s : State) : Res :=
  s.whenMain (
    let l := s.link p.val
    if s.portLinked p.val = false ∨ 16 ≤ l.echoes then s
    else
      let better := l.echoes = 0 ∨ rtt.toNat < l.rttMin
      let l := { l with echoes := l.echoes + 1, rttMin := if better then rtt.toNat else l.rttMin,
                        turnMin := if better then turn.toNat else l.turnMin }
      let s := s.setLink p.val l
      if l.echoes = 16 then
        s.setFld (R.RYF_PORT_LAT p.val) F.RYF_PORT_LAT_L (roundDivEven ((l.rttMin : Int) - l.turnMin) 2).toNat
      else s)

/-- ADMIT_CHAL (R306): the security engine is asked for the answer: a signature over the nonce, the challenger's serial and
this module's. -/
def execAdmitChal (p : Fin 16) (nonce : List (BitVec 8)) (s : State) : Res :=
  s.whenMain (
    if s.portLinked p.val then
      (s.askSign { owner := .admission p.val, body := fixLen 32 nonce ++ leBytes (s.peerSerial p.val) 8 ++ leBytes s.serial 8, at_ := 0 }).1
    else s)

/-- The port is refused (R306): it stays on VC0. -/
def State.admitRefuse (s : State) (p why : Nat) : State :=
  let s := s.setLink p { s.link p with chalAt := 0, frags := [] }
  (s.setFld (R.RYF_PORT_STAT p) F.RYF_PORT_STAT_STATE 5).errRecord
    { cls := clsDeferred, code := 0x0403, unit := 0xDD, sub := p, info0 := s.peerSerial p, info1 := why }

/-- ADMIT_RESP (R306): one of the 39 fragments of the answer; the last is followed by the check. -/
def execAdmitResp (p : Fin 16) (i : Fin 39) (b : List (BitVec 8)) (s : State) : Res :=
  s.whenMain (
    let l := s.link p.val
    if s.fld (R.RYF_PORT_STAT p.val) F.RYF_PORT_STAT_STATE ≠ 3 ∨ l.chalAt = 0 then s
    else
      let fr := l.frags.filter (fun x => x.1 != i.val) ++ [(i.val, b)]
      if (List.range 39).all (fun k => fr.any (fun x => x.1 == k)) then
        let all := (List.range 39).flatMap (fun k => ((fr.find? (fun x => x.1 == k)).map Prod.snd).getD [])
        let key := all.take 64
        let msg := l.nonce ++ leBytes s.serial 8 ++ leBytes (s.peerSerial p.val) 8
        let dig := (List.range 4).flatMap (fun k => leBytes (s.reg (R.RYF_PORT_PEER_KEY p.val k)).toNat 8)
        let badKey := shake256 key 32 != dig
        let badSig := !(Config.xmssVerify key msg (all.drop 64))
        if badKey || badSig then s.admitRefuse p.val (b2n badKey + 2 * b2n badSig)
        else (s.setLink p.val { l with admitted := true, chalAt := 0, frags := [] }).portReady p.val
      else s.setLink p.val { l with frags := fr })

/-- ADMIT_TIMEOUT (R306): no answer within 5 ms. -/
def execAdmitTimeout (p : Fin 16) (s : State) : Res :=
  s.whenMain (
    let l := s.link p.val
    if s.fld (R.RYF_PORT_STAT p.val) F.RYF_PORT_STAT_STATE = 3 ∧ l.chalAt ≠ 0 ∧ l.chalAt + 5 * msTicks ≤ s.now + 1 then s.admitRefuse p.val 4
    else s)

/-! ### The member query (R310) -/

/-- A write of RYF_MQ_ADDR refreshes the three results. -/
def State.mqWrite (s : State) (v : Nat) : State :=
  let a := v % 65536
  let m := (s.members.find? (fun m => m.addr == a)).getD ⟨a, 0, 0, 0, 0⟩
  (((s.setFld R.RYF_MQ_ADDR F.RYF_MQ_ADDR_ADDR a).setReg R.RYF_MQ_SERIAL (BitVec.ofNat 64 m.serial)).setReg R.RYF_MQ_INFO
    (BitVec.ofNat 64 (m.pairId % 65536 + m.version % 16 * 65536))).setReg R.RYF_MQ_INCARN (BitVec.ofNat 64 m.incarn)

/-- RYF_MQ_ADDR_WRITE (R310). -/
def execRyfMqAddrWrite (v : BitVec 64) (s : State) : Res := s.whenMain (s.mqWrite v.toNat)

end Sys2Proof.Machine
end

