-- ==== Sys2Proof/Machine/PowerDom.lean ====
section
/-!
DEFINITION. Power domains (R441 to R445), the thermal samples and trips (R450), and a stack that leaves service (R265).
-/

namespace Sys2Proof.Machine

open Sys2Proof

/-- Power-on time of a domain in ticks (the table of domains). -/
def domainTime (k : Nat) : Nat :=
  if k < 36 then (if k % 9 < 4 then 20 * usTicks else if k % 9 < 8 then 300 * usTicks else 500 * usTicks)
  else if k < 52 then 50 * msTicks
  else if k = 52 then 2 * msTicks
  else msTicks

/-- At most one stack and one element of each die switch on at a time (R444): the class that a domain shares. -/
def domainClass (k : Nat) : Option Nat := if k < 36 then some (k / 9) else if k < 52 then some 4 else none

/-- Waiting requests begin in domain-number order, as far as R444 lets them. -/
def State.startDomains (s : State) : State :=
  s.power.wantOn.foldl (fun s k =>
    let busy := match domainClass k with
      | some c => s.power.turningOn.any (fun t => domainClass t.1 == some c)
      | none => false
    if busy then s
    else s.updPower (fun p => { p with wantOn := p.wantOn.filter (· != k), turningOn := p.turningOn ++ [(k, s.now + domainTime k)] })) s

/-- A domain is asked to switch on. -/
def State.wantDomain (s : State) (k : Nat) : State :=
  if s.domOn k || s.power.turningOn.any (fun t => t.1 == k) then s
  else (s.updPower (fun p => { p with wantOn := insertNat k p.wantOn })).startDomains

/-- A stack that die d hosts is on. -/
def State.hostsOn (s : State) (d : Nat) : Bool := (List.range 4).any (fun i => s.domOn (36 + 4 * d + i))

/-- R442: a request for domain k is refused. -/
def State.domRefused (s : State) (k : Nat) (on : Bool) : Bool :=
  s.mode == mBoot || s.mode == mEarly || s.mode == mRecovery ||
  (if on then
    (decide (k < 36) && decide (k % 9 < 8) && !(s.domOn (9 * (k / 9) + 8))) ||
      (decide (36 ≤ k) && decide (k < 52) && !(s.domOn (9 * ((k - 36) / 4) + 8)))
   else
    (decide (k < 36) && k % 9 == 8 && ((List.range 8).any (fun i => s.domOn (9 * (k / 9) + i)) || s.hostsOn (k / 9))) ||
      (k == 52 && s.mode != mDetaching) || (k == 55 && s.pairState == psPaired))

/-- A write of PWR_DOM_REQ (R442, R443): each bit that changes is a request. -/
def State.domReqWrite (s : State) (v : Nat) : State :=
  (List.range 56).foldl (fun s k =>
    let on := bitOf v k
    if on = s.bit R.PWR_DOM_REQ F.PWR_DOM_REQ_REQ k then s
    else if s.domRefused k on then s.count R.PWR_CNT F.PWR_CNT_REFUSED 1
    else
      let s := s.setBit R.PWR_DOM_REQ F.PWR_DOM_REQ_REQ k on
      if on then (if s.mainUp then s.wantDomain k else s)
      else
        let s := s.updPower (fun p => { p with wantOn := p.wantOn.filter (· != k), turningOn := p.turningOn.filter (fun t => t.1 != k) })
        (s.closeDomains (2 ^ k)).startDomains) s

/-- PWR_DOM_REQ_WRITE (R442). -/
def execPwrDomReqWrite (v : BitVec 64) (s : State) : Res := s.alive (s.domReqWrite v.toNat)

/-- The units of a closing domain have run what they had accepted (R443). -/
def State.domainDone (s : State) (k : Nat) : Bool :=
  let mine := s.cmds.all (fun c => !((s.engineDoms c).contains k) || c.phase == .finished && decide (c.due ≤ s.now))
  if k < 36 then mine && (k % 9 != 8 || s.gates.all (fun g => g.1 / 4 != k / 9 || g.2.waits.isEmpty))
  else if k < 52 then s.nmaUpdates.all (fun u => hbmStack u.addr != k - 36)
  else true

/-- Canvas quad: its canvases lose entries and banks, and are packed ONE in LOG8. -/
def State.loseQuad (s : State) (d q : Nat) : State :=
  (List.range 16).foldl (fun s c =>
    if s.fld (R.CANV_MAP d) (F.CANV_MAP_PHYS c) / 4 = q then
      ((s.clearCanvas d c).setFld (R.CANV_MODE d) (F.CANV_MODE_PACKING c) 0).setFld (R.CANV_MODE d) (F.CANV_MODE_WIDTH c) 0
    else s) s

/-- SRAM quarter: its bytes, and the latches and SLV fields of its eight brushes. -/
def State.loseQuarter (s : State) (d q : Nat) : State :=
  let gone := fun (a : Nat) => !(isHbm a) && sramDie a == d && ((sramOff a / 4096) % 2048) / 512 == q
  let brushes := (List.range 8).map (fun i => 8 * q + i)
  let t : State := { s with
    mem := s.mem.filter (fun c => !(gone c.1)), altered := s.altered.filter (fun c => !(gone c.1)),
    latches := s.latches.filter (fun p => !(p.1 / 32 == d && (p.1 % 32) / 8 == q)),
    brushRuns := s.brushRuns.filter (fun p => !(p.1 / 32 == d && (p.1 % 32) / 8 == q)),
    lent := s.lent.filter (fun b => !(b / 32 == d && (b % 32) / 8 == q)),
    lentSince := s.lentSince.filter (fun p => !(p.1 / 32 == d && (p.1 % 32) / 8 == q)) }
  brushes.foldl (fun s b =>
    ((((s.coldReg (R.SLV_BEV d b)).coldReg (R.SLV_BSTALL d b)).coldReg (R.SLV_BBUSY d b)).coldReg (R.SLV_BSKIP d b)).setBit
      (R.SLV_LEND d) F.SLV_LEND_LEND_MASK b false) t

/-- Die control: the die's blocks, easels, gates, arbiters and stores. QINCARN goes on, so that no owner of before is taken
for a queue of after (R223, R239). -/
def State.loseControl (s : State) (d : Nat) : State :=
  let inc := (List.range 48).map (fun k => s.reg (R.QINCARN (48 * d + k)))
  let s := (List.range 48).foldl (fun s k => (s.abandonWait (48 * d + k)).abandonReqs (fun o =>
    match o with
    | .store x _ => x == 48 * d + k
    | .bcast x _ => x == 48 * d + k
    | .unlock x => x == 48 * d + k
    | _ => false)) s
  let s := (s.clearDieCanvases d).clearBrushes d
  let s : State := { s with
    cmds := s.cmds.filter (fun c => c.queue / 48 != d || decide (192 ≤ c.queue)),
    queues := s.queues.filter (fun p => p.1 / 48 != d || decide (192 ≤ p.1)),
    semWaiters := s.semWaiters.filter (fun w => w.store != d), lockWaiters := s.lockWaiters.filter (fun w => w.store != d),
    arbs := s.arbs.filter (fun (p : Nat × Arbiter) => p.1 / 65536 / 8 != d + 1),
    applies := (s.applies.filter (fun (p : Nat × ApplyReq) => p.1 != d + 1)).map (fun (p : Nat × ApplyReq) =>
      (p.1, ({ p.2 with dieMask := putBits p.2.dieMask (9 * d) 9 0 } : ApplyReq))) }
  let s := s.setPoint d 0
  let s := s.loseBlocks (.dlock (dieFin d) :: .dpwr (dieFin d) :: dieBlocks d)
  (List.range 48).foldl (fun s k => (s.setReg (R.QINCARN (48 * d + k)) (inc.getD k 0)).bumpQueue (48 * d + k)) s

/-- What a domain that switches off loses (R443, and the states after power-on of the table). -/
def State.loseDomain (s : State) (k : Nat) : State :=
  if k < 36 then
    (if k % 9 < 4 then s.loseQuad (k / 9) (k % 9) else if k % 9 < 8 then s.loseQuarter (k / 9) (k % 9 - 4) else s.loseControl (k / 9))
  else if k < 52 then
    let st := k - 36
    let gone := fun (a : Nat) => isHbm a && hbmStack a == st
    ({ s with mem := s.mem.filter (fun c => !(gone c.1)), altered := s.altered.filter (fun c => !(gone c.1)),
              ceSeen := s.ceSeen.filter (fun a => !(gone a)), held := sparseDel s.held st } : State).coldBlocks [.nma (Fin.ofNat 16 st)]
  else if k = 52 then
    ({ s with qps := [], sessions := [], bells := [], events := [], eventSeq := 1, eventLost := 0 } : State).coldBlocks [.hostp]
  else if k = 55 then (s.portDown 16).portDown 17
  else (List.range 8).foldl (fun s i => s.portDown (8 * (k - 53) + i)) s

/-- DOMAIN_OFF (R443): a closing domain whose units have finished switches off; a request to switch it on made meanwhile
takes effect; a detach goes on (R445). -/
def execDomainOff (k : Fin 56) (s : State) : Res :=
  s.alive (
    if s.bit R.PWR_DOM_CLOSING F.PWR_DOM_CLOSING_DOM k.val = true ∧ s.domainDone k.val = true then
      let s := s.loseDomain k.val
      let s := (s.setBit R.PWR_DOM_STAT F.PWR_DOM_STAT_ON k.val false).setBit R.PWR_DOM_CLOSING F.PWR_DOM_CLOSING_DOM k.val false
      let s := s.setFld R.PWR_DOM_STAT F.PWR_DOM_STAT_CLOSING (popCount (s.fld R.PWR_DOM_CLOSING F.PWR_DOM_CLOSING_DOM) 56)
      if s.mode = mDetaching then s.detachStage
      else if s.bit R.PWR_DOM_REQ F.PWR_DOM_REQ_REQ k.val then s.wantDomain k.val else s
    else s)

/-- DOMAIN_ON_READY (R444): the power-on time has passed. A stack in service is trained again, the host port trains. -/
def execDomainOnReady (k : Fin 56) (s : State) : Res :=
  s.whenMain (
    if s.power.turningOn.any (fun t => t.1 == k.val && decide (t.2 ≤ s.now)) then
      let s := (s.updPower (fun p => { p with turningOn := p.turningOn.filter (fun t => t.1 != k.val) })).setBit
        R.PWR_DOM_STAT F.PWR_DOM_STAT_ON k.val true
      let s :=
        if 36 ≤ k.val ∧ k.val < 52 ∧ s.bit R.ID_UNITS F.ID_UNITS_STACK_IN_SERVICE (k.val - 36) = true then
          let rate := if s.fld R.ID_STRAPS F.ID_STRAPS_LID = 2 ∨ s.fld R.ID_STRAPS F.ID_STRAPS_LID = 3 then 2 else 1
          (s.setFld (R.NMA_STAT (k.val - 36)) F.NMA_STAT_IN_SERVICE 1).setFld (R.NMA_STAT (k.val - 36)) F.NMA_STAT_PIN_RATE rate
        else if k.val = 52 then s.hostTrain
        else s
      s.startDomains
    else s)

/-! ### Temperatures (R450) -/

/-- A reading above T_TRIP: the record, TRIP, and the module as after the loss of main input. -/
def State.thermalTrip (s : State) (sub t : Nat) : State :=
  let s := s.errRecord
    { cls := clsFatal, code := 0x0702, unit := 0xE0, sub := sub, info0 := t, info1 := s.fld R.PWR_THERM F.PWR_THERM_T_TRIP }
  (s.setFld R.PWR_STAT F.PWR_STAT_TRIP 1).mainLost.setFld R.PWR_STAT F.PWR_STAT_TRIP 1

/-- THERMAL_SAMPLE (R450): the hottest junction of each die and each stack, in °C; a reading that is not given is unchanged. -/
def execThermalSample (dies stks : List (BitVec 8)) (s : State) : Res :=
  s.whenMain (
    let dz := (dies.map BitVec.toNat).take 4
    let sz := (stks.map BitVec.toNat).take 16
    let trip := s.fld R.PWR_THERM F.PWR_THERM_T_TRIP
    let s := (List.range sz.length).foldl (fun s i => s.thermalStack i (sz.getD i 0)) s
    let s := (List.range dz.length).foldl (fun s d => s.thermalDie d (dz.getD d 0)) s
    match (List.range dz.length).find? (fun d => decide (trip < dz.getD d 0)) with
    | some d => s.thermalTrip d (dz.getD d 0)
    | none =>
      match (List.range sz.length).find? (fun i => decide (trip < sz.getD i 0)) with
      | some i => s.thermalTrip (0x10 + i) (sz.getD i 0)
      | none => s)

/-! ### A stack leaves service (R265) -/

/-- PSEUDO_CHANNEL_FAIL (R265). -/
def execPseudoChannelFail (st : Fin 16) (pc : Fin 64) (s : State) : Res :=
  s.whenMain (
    let k := st.val
    if s.bit R.ID_UNITS F.ID_UNITS_STACK_IN_SERVICE k = false then s
    else
      let s := ((s.setBit (R.NMA_PC_FAIL k) F.NMA_PC_FAIL_FAILED pc.val true).setFld (R.NMA_STAT k) F.NMA_STAT_IN_SERVICE 0).setBit
        R.ID_UNITS F.ID_UNITS_STACK_IN_SERVICE k false
      let s := s.errRecord { cls := clsFatal, code := 0x0303, unit := 0xF0 + k, info0 := (s.reg (R.NMA_PC_FAIL k)).toNat }
      let s := (s.nmaUpdates.filter (fun u => hbmStack u.addr == k)).foldl (fun s u => s.updateFails u stData) s
      let s : State := { s with held := sparseDel s.held k, nmaUpdates := s.nmaUpdates.filter (fun u => hbmStack u.addr != k) }
      let s := if s.mode = mFull then s.enterMode mDegraded else s
      s.faultHandover)

end Sys2Proof.Machine
end

