-- ==== Sys2Proof/Machine/RegWrite.lean ====
section
/-!
DEFINITION. Register accesses (R6 to R13, R30 to R32, R243 to R246): what a write of each register does, what a read returns,
reserved encodings, and the rows that are writes of one register.
-/

namespace Sys2Proof.Machine

open Sys2Proof

/-! ### Reserved encodings (R9) -/

/-- A field of a write keeps its previous value where the written one is reserved. -/
def guardField (f : Field) (ok : Nat → Bool) (old new : Word) : Word := if ok (f.get new) then new else f.put new (f.get old)

def inRange (lo hi n : Nat) : Bool := decide (lo ≤ n) && decide (n ≤ hi)

/-- Apply several guards to one write. -/
def guards (l : List (Field × (Nat → Bool))) (old new : Word) : Word := l.foldl (fun v p => guardField p.1 p.2 old v) new

/-- BEAT registers. -/
def legalBeat (off : Nat) (old v : Word) : Word :=
  if off = 0x000 then guards [(F.BEAT_CFG_TOL, inRange 1 64), (F.BEAT_CFG_TAKEOVER, inRange 1 63), (F.BEAT_CFG_SOURCE, inRange 0 3)] old v
  else if off = 0x038 then guardField F.BEAT_GEN_PERIOD_PERIOD_RC (inRange 200 1000000) old v
  else v

/-- PWR and DPWR registers. -/
def legalPwr (off : Nat) (old v : Word) : Word :=
  if off = 0x008 then guardField F.PWR_CFG_DET_POINT (inRange 0 4) old v
  else if off = 0x020 then guardField F.PWR_LIM_FAST_PCT (inRange 100 150) old v
  else if off = 0x028 then
    let v := guards [(F.PWR_THERM_T_TRIP, inRange 90 125), (F.PWR_THERM_HYST, inRange 2 20)] old v
    guardField F.PWR_THERM_T_STEP (inRange 70 (F.PWR_THERM_T_TRIP.get v - 5)) old v
  else v

def legalHostp (off : Nat) (old v : Word) : Word :=
  if off = 0x000 then guards [(F.HOSTP_CFG_VID, fun n => n != 0xFFF), (F.HOSTP_CFG_RATE, inRange 0 2)] old v
  else if off = 0x010 then guardField F.HOSTP_MAC_MAC (fun n => !(bitOf n 40)) old v
  else if off = 0x030 then guardField F.HOSTP_QPC_COUNT (inRange 0 4096) old v
  else if off = 0x040 then guardField F.HOSTP_MR_COUNT (inRange 0 256) old v
  else v

def legalRyf (page off : Nat) (old v : Word) : Word :=
  if page = 0 ∧ off = 0 then guards [(F.RYF_CFG_E2E_US, inRange 10 250), (F.RYF_CFG_SETTLE_MS, inRange 1 15)] old v
  else if page = 1 ∧ off % 0x100 = 0 then guardField F.RYF_PORT_CFG_MAXVER (inRange 2 3) old v
  else v

def legalPend (off : Nat) (old v : Word) : Word :=
  if off = 0x000 then
    guards [(F.PEND_CFG_QUIESCE_MIB, inRange 16 4096), (F.PEND_CFG_PROBE_US, inRange 50 500), (F.PEND_CFG_MODE, inRange 0 2)] old v
  else if off = 0x038 then guardField F.PEND_WIN_WSIZE (inRange 0 512) old v
  else v

def legalTrn (off : Nat) (old v : Word) : Word :=
  if off = 0x038 then guardField F.TRN_LW_CFG_SHIFT (inRange 1 15) old v
  else if 0x060 ≤ off ∧ off < 0x080 then
    (if F.TRN_EVAL_WIN_ENABLE.get v = 1 then guardField F.TRN_EVAL_WIN_SIZE (inRange 1 4095) old v else v)
  else v

def legalPert (off : Nat) (old v : Word) : Word :=
  if off = 0x010 then guardField F.PERT_BEAT_JITTER_NS (inRange 0 1000000) old v
  else if off = 0x028 then
    let pl := if F.PERT_GRANT_PLACE.get v = 0 then 0 else F.PERT_GRANT_DIE.get v + 1
    guardField F.PERT_GRANT_R (fun r => arbExists pl r) old v
  else if off = 0x038 then guardField F.PERT_FREEZE_F (inRange 0 16) old v
  else v

/-- LOCK and DLOCK registers. -/
def legalLock (off : Nat) (old v : Word) : Word :=
  if off = 0x000 then guardField F.ARB_WINDOW_LEN (inRange 256 65536) old v
  else if off = 0x008 then
    guards [(F.ARB_HOLD_PEND, (· != 0)), (F.ARB_HOLD_MC, (· != 0)), (F.ARB_HOLD_SEC, (· != 0)), (F.ARB_HOLD_BEAT, (· != 0))] old v
  else v

/-- A window that runs past row 57,343 is a reserved encoding (R168). -/
def legalSlv (off : Nat) (old v : Word) : Word :=
  if off = 0x010 ∧ 57344 < F.SLV_LEND_ROW_BASE.get v + F.SLV_LEND_ROW_COUNT.get v then
    F.SLV_LEND_ROW_COUNT.put (F.SLV_LEND_ROW_BASE.put v (F.SLV_LEND_ROW_BASE.get old)) (F.SLV_LEND_ROW_COUNT.get old)
  else v

/-- Queue registers: QCFG. -/
def legalCp (off : Nat) (old v : Word) : Word :=
  if 0x1000 ≤ off ∧ off % 0x80 = 0 then guards [(F.QCFG_CREC_LOG, inRange 0 16), (F.QCFG_RING_LOG, inRange 1 16)] old v else v

/-- A write's value with every reserved encoding replaced by the field's previous value (R9). -/
def legalize (b : Block) (off : Nat) (old v : Word) : Word :=
  match b with
  | .beat => legalBeat off old v
  | .pwr => legalPwr off old v
  | .dpwr _ => guards [(F.DPWR_CLK_CEIL, inRange 0 4), (F.DPWR_CLK_FLOOR, inRange 0 4)] old v
  | .hostp => legalHostp off old v
  | .ryf p => legalRyf p.val off old v
  | .pend => legalPend off old v
  | .trn => legalTrn off old v
  | .pert => legalPert off old v
  | .lock => legalLock off old v
  | .dlock _ => legalLock off old v
  | .slv _ => legalSlv off old v
  | .cpd _ => legalCp off old v
  | .cpq => legalCp off old v
  | .ddbg _ => guardField F.DDBG_SEL_KIND (inRange 0 2) old v
  | .hubId => v | .sec => v | .red => v | .err => v | .canv _ => v | .pal _ => v | .mov _ => v | .rand _ => v | .nma _ => v

/-! ### Plain writes -/

/-- The slot of the pending apply that names a block (R246). -/
def State.namedBy (s : State) (b : Block) : Option Nat :=
  match applyBlocks.find? (fun p => decide (p.2 = b)) with
  | some (i, _) => (s.applies.find? (fun p => bitOf p.2.names i)).map Prod.fst
  | none => none

/-- The effect of each access code of a register on one write (R6, R9, R13, R243, R246): RW bits take the value, W1C and W1S
bits act on ones, ST bits land in the staged bank, or are dropped while a pending apply names the block. -/
def State.plainWrite (s : State) (b : Block) (off a : Nat) (v : Word) : State :=
  match rowOf a with
  | none => s
  | some r =>
    let old := s.reg a
    let lv := legalize b off ((old &&& ~~~ r.st) ||| (s.stagedReg a &&& r.st)) v
    let act := (((old &&& ~~~ r.rw) ||| (lv &&& r.rw)) &&& ~~~ (v &&& r.w1c)) ||| (v &&& r.w1s)
    let s := s.setReg a act
    if r.st = 0 then s
    else
      match s.namedBy b with
      | some slot => s.count (R.APPLY_CNT slot) F.APPLY_CNT_DROPPED 1
      | none => s.setStaged a ((s.stagedReg a &&& ~~~ r.st) ||| (lv &&& r.st))

/-! ### Writes that act -/

/-- BEAT_CTL (R44, R50, R244): one action per write (R488). -/
def State.beatCtl (s : State) (v : Word) : State :=
  let n := bitsOf v.toNat 0 4
  if n = 1 then s.applyRequest 0 false 4 0 true
  else if n = 2 then s.applyRequest 0 true 4 0 true
  else if n = 4 then s.resync
  else if n = 8 then s.releaseHeld
  else s

/-- LOCK_APPLY and DLOCK_APPLY of place pl (R244, R246). -/
def State.applyWrite (s : State) (pl : Nat) (v : Word) : State :=
  let (mode, hub, die) :=
    if pl = 0 then (F.LOCK_APPLY_MODE.get v, F.LOCK_APPLY_HUB_MASK.get v, F.LOCK_APPLY_DIE_MASK.get v)
    else (F.DLOCK_APPLY_MODE.get v, 0, F.DLOCK_APPLY_MASK.get v * 2 ^ (9 * (pl - 1)))
  if mode = 1 then s.applyRequest pl false hub die false
  else if mode = 2 then s.applyRequest pl true hub die false
  else if mode = 3 then s.applyCancel pl false
  else s

/-- LOCK and DLOCK blocks. -/
def State.lockBlockWrite (s : State) (b : Block) (pl off a : Nat) (v : Word) : State :=
  let st := if pl = 0 then 4 else pl - 1
  if off = 0x020 then s.arbCutClear pl v.toNat
  else if off = 0x028 then s.applyWrite pl v
  else if 0x1000 ≤ off ∧ off < 0x1000 + 0x10 * lockMax st ∧ off % 16 = 0 then s.lockOwnWrite pl ((off - 0x1000) / 16) v
  else if 0x8000 ≤ off then
    (if (rowOf a).isSome then s.semWrite pl ((off - 0x8000) / 8) v else s)
  else s.plainWrite b off a v

/-- Queue registers of the CP blocks (R196, R197, R216, R222). `q0` is the block's first queue. -/
def State.cpWrite (s : State) (b : Block) (q0 off a : Nat) (v : Word) : State :=
  if 0x1000 ≤ off ∧ off < 0x1000 + 0x80 * 48 then
    let q := q0 + (off - 0x1000) / 0x80
    let o := off % 0x80
    if o = 0x10 then s.doorbell q v.toNat
    else if o = 0x20 then s.qctl q v.toNat
    else if o = 0x40 then s.cheadWrite q v.toNat
    else if o = 0x00 ∨ o = 0x08 ∨ o = 0x38 then (if s.qState q = qOff then s.plainWrite b off a v else s)
    else s
  else if 0x4000 ≤ off ∧ off < 0x4000 + 0x100 * 48 then
    let q := q0 + (off - 0x4000) / 0x100
    let st := s.qState q
    if st = qOff ∨ st = qStopped ∨ st = qFaulted then
      s.plainWrite b off a (if off % 0x100 = 0 then v ||| 1 else v)
    else s
  else s

/-- CANV. -/
def State.canvWrite (s : State) (b : Block) (d off a : Nat) (v : Word) : State :=
  if off = 0x008 then s.retireWrite d (F.CANV_RETIRED_RETIRED.get v)
  else if off = 0x020 then s.gatePost d (F.CANV_GATE_POST_GATE.get v) (F.CANV_GATE_POST_SLOT.get v) (F.CANV_GATE_POST_TAG.get v)
  else if off = 0x030 then
    (List.range 4).foldl (fun (t : State) g => if s.follows d g && !(t.follows d g) then t.gateOwn d g else t) (s.plainWrite b off a v)
  else s.plainWrite b off a v

/-- RAND. -/
def State.randWrite (s : State) (b : Block) (d off a : Nat) (v : Word) : State :=
  if 0x100 ≤ off ∧ off < 0x100 + 0x20 * 64 then
    let n := (off - 0x100) / 0x20
    let o := off % 0x20
    if o = 0 then s.keyWrite d n false v
    else if o = 8 then s.keyWrite d n true v
    else if o = 0x10 then s.streamWrite d n v
    else s.bindWrite d n v
  else s.plainWrite b off a v

/-- RYF: the member query, and a port's ENABLE (R304). -/
def State.ryfWrite (s : State) (b : Block) (page off a : Nat) (v : Word) : State :=
  if page = 0 ∧ off = 0x028 then s.mqWrite v.toNat
  else if page = 1 ∧ off % 0x100 = 0 ∧ off < 0x1000 then
    let p := off / 0x100
    let s := s.plainWrite b off a v
    let st := s.fld (R.RYF_PORT_STAT p) F.RYF_PORT_STAT_STATE
    if s.fld (R.RYF_PORT_CFG p) F.RYF_PORT_CFG_ENABLE = 0 then
      (if s.portLinked p = true ∨ st = 1 then s.portDown p else s.setFld (R.RYF_PORT_STAT p) F.RYF_PORT_STAT_STATE 6)
    else if st = 6 then s.setFld (R.RYF_PORT_STAT p) F.RYF_PORT_STAT_STATE 0
    else s
  else s.plainWrite b off a v

/-- RED (R323, R348). RED_CHKBUF and RED_SUBBUF are ignored while a collective is in flight. -/
def State.redWrite (s : State) (b : Block) (off a : Nat) (v : Word) : State :=
  if off = 0x008 ∨ off = 0x010 then (if s.colls.isEmpty then s.plainWrite b off a v else s)
  else if off = 0x038 then s.vetoSet v
  else if 0x108 ≤ off ∧ off < 0x1A8 ∧ off % 16 = 8 then
    (if F.RED_GCTL_VALID.get v = 1 then s.register ((off - 0x108) / 16) else s.unregister ((off - 0x108) / 16))
  else s.plainWrite b off a v

/-- TRN. -/
def State.trnWrite (s : State) (b : Block) (off a : Nat) (v : Word) : State :=
  if off = 0x010 then s.settledWrite v
  else if off = 0x030 then s.lossWrite v
  else if off = 0x040 then s.lwStateWrite v
  else if off = 0x050 then s.settleLocal v
  else if off = 0x090 then
    let s := if F.TRN_SNAP_CTL_START.get v = 1 then s.snapStart else s
    if F.TRN_SNAP_CTL_ABORT.get v = 1 then s.endSnap (some stCancelled) else s
  else if off = 0x0A0 then s.ckptWrite v
  else s.plainWrite b off a v

/-- PEND: configuration changes only in UNPAIRED; PEND_CTL's bits act in the order JOIN, DETACH, RESTORE, FORGET. -/
def State.pendWrite (s : State) (b : Block) (off a : Nat) (v : Word) : State :=
  if off = 0x008 then
    let s := if F.PEND_CTL_JOIN.get v = 1 then s.joinWrite else s
    let s := if F.PEND_CTL_DETACH.get v = 1 then s.detachWrite else s
    let s := if F.PEND_CTL_RESTORE.get v = 1 then s.restoreWrite else s
    if F.PEND_CTL_FORGET.get v = 1 then s.forgetWrite else s
  else if off = 0x000 ∨ off = 0x038 ∨ off = 0x040 ∨ off = 0x048 then
    (if s.pairState = psUnpaired then s.plainWrite b off a v else s)
  else s.plainWrite b off a v

/-- PERT (R465, R466, R468). -/
def State.pertWrite (s : State) (b : Block) (off a : Nat) (v : Word) : State :=
  if s.pertOpen = false then s
  else if off = 0x000 then s.pertCtl v.toNat
  else if off = 0x050 then s.eccArm v
  else s.plainWrite b off a v

/-- What a write of a register does, the access being allowed. -/
def State.regStore (s : State) (b : Block) (off a : Nat) (v : Word) : State :=
  match b with
  | .hubId => if off = 0x100 then s.rstWrite v else s.plainWrite b off a v
  | .sec => if off = 0x010 then s.secCtl v else s.plainWrite b off a v
  | .beat => if off = 0x008 then s.beatCtl v else s.plainWrite b off a v
  | .pwr => if off = 0x010 then s.domReqWrite v.toNat else s.plainWrite b off a v
  | .hostp => if off = 0x038 then s.qpctlWrite v else if off = 0x050 then s.alertWrite v else s.plainWrite b off a v
  | .ryf p => s.ryfWrite b p.val off a v
  | .pend => s.pendWrite b off a v
  | .red => s.redWrite b off a v
  | .err =>
    if off = 0x008 then (if v.toNat ≤ (s.reg R.ERR_WSEQ).toNat then s.plainWrite b off a v else s)
    else if off = 0x018 then (if F.ERR_CTL_CLEAR_FATAL.get v = 1 then s.clearFatal else s)
    else s.plainWrite b off a v
  | .pert => s.pertWrite b off a v
  | .lock => s.lockBlockWrite b 0 off a v
  | .cpq => s.cpWrite b 192 off a v
  | .trn => s.trnWrite b off a v
  | .canv d => s.canvWrite b d.val off a v
  | .pal _ => s.plainWrite b off a v
  | .slv _ => s.plainWrite b off a v
  | .mov _ => s.plainWrite b off a v
  | .cpd d => s.cpWrite b (48 * d.val) off a v
  | .dpwr _ => s.plainWrite b off a v
  | .dlock d => s.lockBlockWrite b (d.val + 1) off a v
  | .ddbg _ => if s.ddbgOpen then s.plainWrite b off a v else s
  | .rand d => s.randWrite b d.val off a v
  | .nma st => if off = 0x008 then s.nmaCfgWrite st.val v else s.plainWrite b off a v

/-! ### Reads -/

/-- Bits of a die or hub computed as they are read. -/
def bitsFor (n : Nat) (f : Nat → Bool) : Nat := (List.range n).foldl (fun m i => m + b2n (f i) * 2 ^ i) 0

/-- APPLY_STAT of place pl. -/
def State.applyStat (s : State) (pl : Nat) : Nat :=
  match s.applySlot pl with
  | none => 0
  | some r => 2 ^ 63 + (if r.atBeat then 2 else 1) * 2 ^ 61 +
      (if pl = 0 then r.hubMask + r.dieMask * 65536 else bitsOf r.dieMask (9 * (pl - 1)) 9)

/-- Commands not completed on an engine. -/
def State.onEngine (s : State) (e : Nat) : List Cmd := s.cmds.filter (fun c => c.engine == e)

/-- MOV_STAT: which channels move data is stated nowhere, so those bits are a free nonzero value while commands run. -/
def State.movStat (s : State) (d : Nat) : Nat × State :=
  let cs := s.onEngine (68 + d)
  if cs.any (fun c => c.phase == .started) then
    let (w, s) := s.draw
    (min cs.length 65535 + (w.toNat % 255 + 1) * 65536, s)
  else (min cs.length 65535, s)

/-- What a read of a register returns, and the state after it: computed views, latching reads, read-to-clear. -/
def State.regLoad (s : State) (b : Block) (off a : Nat) : Nat × State :=
  let plain : Nat × State :=
    match rowOf a with
    | none => (0, s)
    | some r => ((s.reg a &&& ~~~ r.wo).toNat, if r.rc = 0 then s else s.setReg a (s.reg a &&& ~~~ r.rc))
  match b with
  | .beat => if off = 0x018 then ((s.readBeatPos).1.toNat, (s.readBeatPos).2) else if off = 0x060 then (s.uptime, s) else plain
  | .cpd d =>
    if off = 0 then (bitsFor 48 (fun k => s.qState (48 * d.val + k) == qRun || s.qState (48 * d.val + k) == qWait), s)
    else if off = 8 then (bitsFor 48 (fun k => s.qState (48 * d.val + k) == qFaulted), s)
    else if 0x4000 ≤ off ∧ off < 0x7000 then
      let st := s.qState (48 * d.val + (off - 0x4000) / 0x100)
      if st = qOff ∨ st = qStopped ∨ st = qFaulted then plain else (0, s)
    else plain
  | .cpq =>
    if off = 0 then (bitsFor 48 (fun k => s.qState (192 + k) == qRun || s.qState (192 + k) == qWait), s)
    else if off = 8 then (bitsFor 48 (fun k => s.qState (192 + k) == qFaulted), s)
    else if 0x4000 ≤ off ∧ off < 0x7000 then
      let st := s.qState (192 + (off - 0x4000) / 0x100)
      if st = qOff ∨ st = qStopped ∨ st = qFaulted then plain else (0, s)
    else plain
  | .lock => if off = 0x030 then (s.applyStat 0, s) else plain
  | .dlock d => if off = 0x030 then (s.applyStat (d.val + 1), s) else plain
  | .canv d =>
    if off = 0 then (F.CANV_STAT_BUSY.put (s.reg a) (bitsFor 16 (fun c => !(s.onEngine (16 * d.val + c)).isEmpty))).toNat |> (·, s)
    else plain
  | .slv d =>
    if off = 8 then
      (bitsFor 32 (fun i => (s.brushRun (32 * d.val + i)).isSome || s.lent.contains (32 * d.val + i)) +
       2 ^ 32 * bitsFor 32 (fun i => s.brushUp d.val i), s)
    else plain
  | .mov d => if off = 0 then s.movStat d.val else plain
  | .ddbg d =>
    if s.ddbgOpen = false then (0, s)
    else if off = 0 then ((s.reg a).toNat % 2 ^ 63 + 2 ^ 63, s)
    else if off = 8 then s.ddbgRead d.val
    else if off = 0x18 then s.ddbgStn d.val
    else plain
  | .red => if off = 0x018 then ((F.RED_STAT_IN_FLIGHT.put (s.reg a) s.colls.length).toNat, s) else plain
  | .pend => if off = 0x010 then (s.pendStat, s) else plain
  | .pert => if s.pertOpen then plain else (0, s)
  | .hubId => plain | .sec => plain | .pwr => plain | .hostp => plain | .ryf _ => plain | .err => plain | .trn => plain
  | .pal _ => plain | .dpwr _ => plain | .rand _ => plain | .nma _ => plain

/-! ### Access (R8, R30 to R32, R403, R426) -/

/-- The register answers: its block serves, or it is one of the host-port registers that lie in the always-on domain. -/
def State.regUp (s : State) (b : Block) (a : Nat) : Bool :=
  s.blockUp b || (s.powered && (a == R.HOSTP_ALERT || a == R.HOSTP_KEYSTAT || a == R.HOSTP_SB))

/-- A read over a path: none is that path's access error. -/
def State.regRead (s : State) (a : Nat) : Option Nat × State :=
  if a % 8 ≠ 0 then (none, s)
  else match blockOf a with
    | none => (none, s)
    | some (b, off) => if s.regUp b a then (fun (p : Nat × State) => (some p.1, p.2)) (s.regLoad b off a) else (none, s)

/-- A path that may not write a register: SEC is written by the sideband alone (R426); key slots and the sideband's own
settings are not written by TCT (R400). -/
def pathBars (p : RegPath) (b : Block) (a : Nat) : Bool :=
  (b == .sec && p != .sideband) || (p == .host && (a == R.HOSTP_KEYSTAT || a == R.HOSTP_SB))

/-- A write over a path: whether the access was accepted. -/
def State.regWrite (s : State) (p : RegPath) (a : Nat) (v : Word) : Bool × State :=
  if a % 8 ≠ 0 then (false, s)
  else match blockOf a with
    | none => (false, s)
    | some (b, off) => if s.regUp b a && !(pathBars p b a) then (true, s.regStore b off a v) else (false, s)

/-! ### Rows -/

/-- A read row: the value returned goes out, or the access error of R32. -/
def State.accessRead (s : State) (a : Nat) : State :=
  match s.regRead a with
  | (some v, s) => s.emit { kind := .value, nums := [a, v], bytes := [] }
  | (none, s) => s.emit { kind := .accessError, nums := [a], bytes := [] }

/-- A write row: refused with the access error of R8 and R32, or done. -/
def State.accessWrite (s : State) (p : RegPath) (a : Nat) (v : Word) : State :=
  match s.regWrite p a v with
  | (true, s) => s
  | (false, s) => s.emit { kind := .accessError, nums := [a], bytes := [] }

/-- REGISTER_WRITE (R6, R8, R9, R32, R243): a write over a path. -/
def execRegisterWrite (p : RegPath) (addr value : BitVec 64) (s : State) : Res := s.alive (s.accessWrite p addr.toNat value)

/-- BEAT_POS_READ (R209). -/
def execBeatPosRead (s : State) : Res := s.alive (s.accessRead R.BEAT_POS)

/-- BEAT_APPLY (R244): BEAT_CTL.APPLY. -/
def execBeatApply (s : State) : Res := s.whenMain (s.beatCtl 1)

/-- BEAT_APPLY_AT_BEAT (R244). -/
def execBeatApplyAtBeat (s : State) : Res := s.whenMain (s.beatCtl 2)

/-- LOCK_APPLY_NOW (R244): LOCK_APPLY with MODE NOW. -/
def execLockApplyNow (hub : BitVec 16) (die : BitVec 36) (s : State) : Res :=
  s.whenMain (s.applyRequest 0 false hub.toNat die.toNat false)

/-- LOCK_APPLY_AT_BEAT (R244). -/
def execLockApplyAtBeat (hub : BitVec 16) (die : BitVec 36) (s : State) : Res :=
  s.whenMain (s.applyRequest 0 true hub.toNat die.toNat false)

/-- LOCK_APPLY_CANCEL (R246). -/
def execLockApplyCancel (s : State) : Res := s.whenMain (s.applyCancel 0 false)

/-- DLOCK_APPLY_NOW (R244) of die d. -/
def execDlockApplyNow (d : Fin 4) (mask : BitVec 9) (s : State) : Res :=
  s.whenMain (if s.blockUp (.dlock d) then s.applyRequest (d.val + 1) false 0 (mask.toNat * 2 ^ (9 * d.val)) false else s)

/-- DLOCK_APPLY_AT_BEAT (R244). -/
def execDlockApplyAtBeat (d : Fin 4) (mask : BitVec 9) (s : State) : Res :=
  s.whenMain (if s.blockUp (.dlock d) then s.applyRequest (d.val + 1) true 0 (mask.toNat * 2 ^ (9 * d.val)) false else s)

/-- DLOCK_APPLY_CANCEL (R246). -/
def execDlockApplyCancel (d : Fin 4) (s : State) : Res :=
  s.whenMain (if s.blockUp (.dlock d) then s.applyCancel (d.val + 1) false else s)

/-- The place of a LOCK (0) or DLOCK (d + 1) block serves. -/
def State.placeUp (s : State) (pl : Fin 5) : Bool :=
  if pl.val = 0 then s.blockUp .lock else s.blockUp (.dlock (Fin.ofNat 4 (pl.val - 1)))

/-- ARB_CUT_WRITE (R229): ones clear bits of WHO at a place: 0 the hub, d + 1 die d. -/
def execArbCutWrite (pl : Fin 5) (v : BitVec 64) (s : State) : Res :=
  s.whenMain (if s.placeUp pl then s.arbCutClear pl.val v.toNat else s)

/-- SEM_WRITE (R232): word w of a place's semaphores, which exist in it. -/
def execSemWrite (pl : Fin 5) (w : Fin 4096) (v : BitVec 64) (s : State) : Res :=
  s.whenMain (if s.placeUp pl && (pl.val == 0 || decide (w.val < 2048)) then s.semWrite pl.val w.val v else s)

/-- LOCK_OWN_WRITE (R242): a write to LOCK_OWN of lock i of a place. -/
def execLockOwnWrite (pl : Fin 5) (i : Fin 1024) (v : BitVec 64) (s : State) : Res :=
  s.whenMain (if s.placeUp pl && (pl.val == 0 || decide (i.val < 256)) then s.lockOwnWrite pl.val i.val v else s)

/-- LOCK_REEXAMINE (R239): store 4 is the hub's, d the store of die d. -/
def execLockReexamine (store : Fin 5) (s : State) : Res :=
  s.whenMain (if s.storePresent store.val && !(s.storeInReset store.val) then s.lockReexamine store.val else s)

end Sys2Proof.Machine
end

