-- ==== Sys2Proof/Machine/Easel.lean ====
section
/-!
DEFINITION. The instructions of the easels (R198 to R211, R218, R219, R489) and what completes those that wait.
-/

namespace Sys2Proof.Machine

open Sys2Proof

/-! ### Issue (R198 to R201, R204) -/

/-- Queue q issues its next word for the row of opcode `op`: the fetch, the encoding, MAXW and the predicate first; then
`body` with the word. A word of another opcode is another row's. -/
def State.issue (s : State) (q op : Nat) (body : Nat → State → State) : State :=
  if !(s.issuing q && s.qState q == qRun && (s.qint q).inList) then s
  else if (s.qint q).stFault.isSome then s.reportSt q
  else
    match s.fetch q (s.qpc q) 8 8 with
    | (.error st, t) => t.queueFault q st 0
    | (.ok b, t) =>
      let w := ofLe b
      if cwKnown (cwOp w) && cwOp w != op then s
      else if cwOk w = false then t.queueFault q stDescriptor w
      else if (t.qint q).maxw ≠ 0 ∧ (t.qint q).maxw < (t.qint q).issued + cwCost w then t.queueFault q stDescriptor w
      else if t.pred q (cwPs w) == cwPn w then t.finishInstr q (cwCost w) ((t.qpc q + 8 * cwCost w) % 2 ^ 64)
      else body w t

/-- The instruction completes, and the PC moves to the next word. -/
def State.next (s : State) (q : Nat) : State := s.finishWait q

/-- It completes with a value in sRD. -/
def State.nextRd (s : State) (q w v : Nat) : State := (s.setSreg q (cwRd w) v).next q

/-- Operand B: IMM sign-extended, or sRB. -/
def State.opB (s : State) (q w : Nat) : Nat := if cwI w then wrapInt (cwSimm w) 64 else s.sreg q (cwRb w)

/-- ADD to MUL (R202): 64-bit words. -/
def State.alu (s : State) (q op : Nat) (f : Nat → Nat → Nat) : Res :=
  .next (s.issue q op (fun w s => s.nextRd q w (f (s.sreg q (cwRa w)) (s.opB q w) % 2 ^ 64)))

/-- NOP. -/
def execQNop (q : Fin 240) (s : State) : Res := .next (s.issue q.val 0x00 (fun _ s => s.next q.val))

/-- END (R194): the list ends at this word, which counts among those issued. -/
def execQEnd (q : Fin 240) (s : State) : Res :=
  .next (s.issue q.val 0x01 (fun _ s => (s.updQ q.val (fun i => { i with issued := i.issued + 1 })).endList q.val stDone))

def execQAdd (q : Fin 240) (s : State) : Res := s.alu q.val 0x10 (fun a b => a + b)

def execQSub (q : Fin 240) (s : State) : Res := s.alu q.val 0x11 (fun a b => a + 2 ^ 64 - b)

def execQAnd (q : Fin 240) (s : State) : Res := s.alu q.val 0x12 (fun a b => a &&& b)

def execQOr (q : Fin 240) (s : State) : Res := s.alu q.val 0x13 (fun a b => a ||| b)

def execQXor (q : Fin 240) (s : State) : Res := s.alu q.val 0x14 (fun a b => a ^^^ b)

def execQShl (q : Fin 240) (s : State) : Res := s.alu q.val 0x15 (fun a b => a <<< (b % 64))

def execQShr (q : Fin 240) (s : State) : Res := s.alu q.val 0x16 (fun a b => a >>> (b % 64))

def execQSar (q : Fin 240) (s : State) : Res := s.alu q.val 0x17 (fun a b => wrapInt (signedOf a 64 / 2 ^ (b % 64)) 64)

def execQMul (q : Fin 240) (s : State) : Res := s.alu q.val 0x18 (fun a b => a * b)

/-- MOVI: IMM sign-extended. -/
def execQMovi (q : Fin 240) (s : State) : Res :=
  .next (s.issue q.val 0x19 (fun w s => s.nextRd q.val w (wrapInt (cwSimm w) 64)))

/-- MOVHI: the upper half. -/
def execQMovhi (q : Fin 240) (s : State) : Res :=
  .next (s.issue q.val 0x1A (fun w s => s.nextRd q.val w (s.sreg q.val (cwRd w) % 2 ^ 32 + cwImm w * 2 ^ 32)))

/-- SETP (R202). -/
def execQSetp (q : Fin 240) (s : State) : Res :=
  .next (s.issue q.val 0x1C (fun w s =>
    (s.setPred q.val (cwRd w) (setpCond (cwX w) (s.sreg q.val (cwRa w)) (s.opB q.val w))).next q.val))

/-- PLOG (R202). -/
def execQPlog (q : Fin 240) (s : State) : Res :=
  .next (s.issue q.val 0x1D (fun w s =>
    (s.setPred q.val (cwRd w) (plogOp (cwX w) (s.pred q.val (cwRa w)) (s.pred q.val (cwRb w)))).next q.val))

/-- BR (R204): measured from the branch word. -/
def execQBr (q : Fin 240) (s : State) : Res :=
  .next (s.issue q.val 0x28 (fun w s => s.finishInstr q.val 1 (wrapInt ((s.qpc q.val : Int) + 8 * cwSimm w) 64)))

/-- JR (R204). -/
def execQJr (q : Fin 240) (s : State) : Res :=
  .next (s.issue q.val 0x29 (fun w s => s.finishInstr q.val 1 (s.sreg q.val (cwRa w))))

/-! ### Run-ahead (R218, R219) -/

/-- The queue is running ahead. -/
def State.aheadNow (s : State) (q : Nat) : Bool :=
  let e := s.fld (R.QEPOCH q) F.QEPOCH_EPOCH
  e != 0 && decide (s.settled + 1 < e)

/-- The die of a queue's easel; 4: a hub easel. -/
def queueDie (q : Nat) : Nat := if q < 192 then q / 48 else 4

/-- A write whose target lies outside its die is held while the queue runs ahead (R219). -/
def State.unlessAhead (s : State) (q : Nat) (inside : Bool) (f : State → State) : State :=
  if s.aheadNow q && !inside then s.waitOn q onAhead .reissue else f s

/-! ### Loads and stores (R203, R489) -/

/-- Bytes of a size code. -/
def sizeBytes (x : Nat) : Nat := 2 ^ (x % 4)

/-- A loaded value under its size code: zero- or sign-extended. -/
def extendLoad (x v : Nat) : Nat :=
  if x < 4 then v % 2 ^ (8 * sizeBytes x) else wrapInt (signedOf v (8 * sizeBytes x)) 64

/-- A local address lies in the register window (R24). -/
def inRegWindow (a : Nat) : Bool := decide (regWindow ≤ a) && decide (a < regWindow + 0x10000000)

/-- The address of an LD or ST. -/
def State.lsAddr (s : State) (q w : Nat) : Nat := wrapInt ((s.sreg q (cwRa w) : Int) + cwSimm w) 64

/-- A load fails: ERROR_DATA also sets DATA for the queue's epoch (R203, R347). -/
def State.loadFault (s : State) (q st w : Nat) : State :=
  (if st = stData then s.vetoEvent (s.fld (R.QEPOCH q) F.QEPOCH_EPOCH) vetoData else s).queueFault q st w

/-- LD (R203, R315): registers by whole words, memory, another module over the fabric. -/
def State.ld (s : State) (q w : Nat) : State :=
  let g := s.lsAddr q w
  let n := sizeBytes (cwX w)
  let a := gaLocal g
  if g % n ≠ 0 then s.queueFault q stAddress w
  else if s.isOwn g then
    if inRegWindow a then
      if n ≠ 8 then s.queueFault q stAddress w
      else match s.regRead a with
        | (some v, s) => s.nextRd q w v
        | (none, s) => s.queueFault q stAddress w
    else if s.mappedRange a n then
      let (b, s, e) := s.readMem (easelWho q) a n
      if e then s.loadFault q stData w else s.nextRd q w (extendLoad (cwX w) (ofLe b))
    else s.queueFault q stAddress w
  else if s.isRemote g then
    if inRegWindow a ∧ n ≠ 8 then s.queueFault q stAddress w
    else
      let (k, s) := if inRegWindow a then s.sendReq (gaModule g) 1 tRegRd a [] (.load q)
        else s.sendReq (gaModule g) 1 tReadReq a (leBytes n 8) (.load q)
      s.waitOn q onFetch (.load (cwRd w) (cwX w) k)
  else s.queueFault q stAddress w

/-- LD. -/
def execQLd (q : Fin 240) (s : State) : Res := .next (s.issue q.val 0x20 (fun w s => s.ld q.val w))

/-- A remote ST has been sent: its outcome is awaited (R489). -/
def State.stSent (s : State) (q k : Nat) : State := s.updQ q (fun i => { i with remoteSts := i.remoteSts ++ [(k, s.qpc q)] })

/-- A register of the broadcast column (R316, R317). -/
def bcastReg (a : Nat) : Bool :=
  a == R.BEAT_CTL || a == R.APPLY 0 ||
    (match blockOf a, rowOf a with
     | some (.beat, _), some r => r.st != 0
     | some (.lock, _), some r => r.st != 0
     | _, _ => false)

/-- Send a broadcast packet on every version-3 port but one (log 33). -/
def State.bcastOut (s : State) (r : RawPkt) (but : Option Nat) : State :=
  (List.range 16).foldl (fun s p => if s.portV3 p && but != some p then s.egress p r else s) s

/-- The members that a broadcast reaches: those of version 3, but for the sender. -/
def State.bcastMembers (s : State) : List Nat :=
  ((s.members.filter (fun m => m.version == 3)).map Member.addr).filter (· != s.ownAddr)

/-- The broadcast of a register write: it takes effect here as a local write, and each member reached answers (R317). A mirror
back sends none of its own (R370). -/
def State.bcastSt (s : State) (q a v : Nat) : State :=
  let (k, s) := s.takeSeq 0xFFFF 1
  let s := (s.regWrite .easel a (BitVec.ofNat 64 v)).2
  let pc := s.qpc q
  let n := sparseGet s.fabric.issued q 0
  let s : State := { s with fabric := { s.fabric with issued := sparseSet s.fabric.issued q (n + 1) 0 } }
  let h : Hdr := { dst := 0xFFFF, src := BitVec.ofNat 16 s.ownAddr, vc := 1, hops := 0, err := false, retry := false,
                   seq := BitVec.ofNat 16 k, addr := BitVec.ofNat 48 a }
  let s := if s.silentBack then s else s.bcastOut { hdr := h, type := tRegWr, body := leBytes v 8 } none
  let rs : List Request := s.bcastMembers.map (fun m =>
    ({ dst := m, vc := 1, seq := k, type := tRegWr, addr := a, body := leBytes v 8, resent := false, owner := .bcast q pc,
       sentAt := s.now, joined := false, nth := n } : Request))
  let s : State := { s with fabric := { s.fabric with requests := s.fabric.requests ++ rs } }
  if rs.isEmpty then s else s.stSent q k

/-- A store to this module's memory: refused into an evaluation window or a pendant area (R357, R376); a merge with an
uncorrectable unit writes nothing (R262, R263). -/
def State.storeMem (s : State) (q w a n v : Nat) : State :=
  if s.evalRefuses [(a, n)] then s.countRefused.queueFault q stAddress w
  else if s.pendAreas.any (fun r => rangesMeet r (a, n)) then s.queueFault q stAddress w
  else
    match s.writeMem a (leBytes v n) with
    | (s, true) => s.queueFault q stData w
    | (s, false) => s.next q

/-- The target of a store lies in its die: SRAM, the lock and semaphore store, the bind table (R219). -/
def storeInside (d a : Nat) : Bool :=
  decide (d < 4) &&
    ((decide (sramBase d ≤ a) && decide (a < sramBase d + sramSize)) ||
     (decide (lockBase (d + 1) + 0x1000 ≤ a) && decide (a < lockBase (d + 1) + 0x10000)) ||
     (decide (dieBlk d 0x80100 ≤ a) && decide (a < dieBlk d 0x90000)))

/-- ST (R203, R315, R317, R489). -/
def State.st (s : State) (q w : Nat) : State :=
  let g := s.lsAddr q w
  let n := sizeBytes (cwX w)
  let a := gaLocal g
  let v := s.sreg q (cwRb w) % 2 ^ (8 * n)
  if g % n ≠ 0 then s.queueFault q stAddress w
  else if s.isOwn g then
    if inRegWindow a then
      match blockOf a with
      | some (b, _) =>
        if n ≠ 8 ∨ s.regUp b a = false ∨ pathBars .easel b a = true then s.queueFault q stAddress w
        else s.unlessAhead q (storeInside (queueDie q) a) (fun s => (s.regWrite .easel a (BitVec.ofNat 64 v)).2.next q)
      | none => s.queueFault q stAddress w
    else if s.mappedRange a n then s.unlessAhead q (storeInside (queueDie q) a) (fun s => s.storeMem q w a n v)
    else s.queueFault q stAddress w
  else if s.isRemote g then
    if inRegWindow a ∧ n ≠ 8 then s.queueFault q stAddress w
    else s.unlessAhead q false (fun s =>
      let (k, s) := s.sendReq (gaModule g) 1 (if inRegWindow a then tRegWr else tWrite) a (leBytes v n) (.store q (s.qpc q))
      (s.stSent q k).next q)
  else if gaModule g = 0xFFFF ∧ n = 8 ∧ bcastReg a = true ∧ s.mode ≠ mEarly then
    s.unlessAhead q false (fun s => (s.bcastSt q a v).next q)
  else s.queueFault q stAddress w

/-- ST. -/
def execQSt (q : Fin 240) (s : State) : Res := .next (s.issue q.val 0x21 (fun w s => s.st q.val w))

/-- The reply to the remote LD that a queue waits on: the value, or the fault of a refusal (R203, R316). -/
def State.loadDone (s : State) (q : Nat) (err : Option Nat) (body : List Byte) : State :=
  match (s.qint q).wait with
  | some (.load rd x _) =>
    match err with
    | none => s.finishWaitRd q rd (extendLoad x (ofLe (body.take 8)))
    | some st => s.loadFault q st (leField ((keysOf (gaLocal (s.qpc q)) 8).map s.byteAt) 0 8)
  | _ => s

/-- The outcome of a remote ST is known: DONE, or the status that its queue will report (R489). -/
def State.stOutcome (s : State) (q k pc : Nat) (bad : Option Nat) : State :=
  s.updQ q (fun i => { i with remoteSts := i.remoteSts.filter (fun p => !(p.1 == k && p.2 == pc)),
                              stFault := match i.stFault, bad with
                                | none, some st => some (st, pc)
                                | f, _ => f })

/-! ### Semaphores (R205, R232 to R236) -/

/-- The semaphore that an instruction names. -/
def State.semId (s : State) (q w : Nat) : Nat := (s.sreg q (cwRa w) + cwImm w) % 2 ^ 16

/-- Common checks of the semaphore instructions; `f` gets store and index. A store in die reset keeps the operation waiting. -/
def State.onSemaphore (s : State) (q w : Nat) (f : Nat → Nat → State → State) : State :=
  let id := s.semId q w
  let st := bitsOf id 13 3
  if semOk id = false then s.queueFault q stDescriptor w
  else if s.storePresent st = false then s.queueFault q stAddress w
  else s.unlessAhead q (st == queueDie q) (fun s =>
    if s.storeInReset st then s.waitOn q onSem .reissue else f st (bitsOf id 0 13) s)

/-- SEMWAIT: X bit 32 is NOCONS. -/
def State.semWait (s : State) (q w : Nat) : State :=
  let n := s.sreg q (cwRb w)
  if 2 ^ 32 ≤ n then s.queueFault q stDescriptor w
  else if n = 0 ∧ semOk (s.semId q w) = true ∧ s.storePresent (bitsOf (s.semId q w) 13 3) = true then
    s.unlessAhead q (bitsOf (s.semId q w) 13 3 == queueDie q) (fun s => s.next q)
  else s.onSemaphore q w (fun st ix s =>
    let s := s.waitOn q onSem .sem
    let x : SemWaiter := { store := st, index := ix, queue := q, n := n, nocons := cwX w == 1 }
    ({ s with semWaiters := s.semWaiters ++ [x] } : State).semGrant st ix)

/-- SEMWAIT. -/
def execQSemwait (q : Fin 240) (s : State) : Res := .next (s.issue q.val 0x30 (fun w s => s.semWait q.val w))

/-- SEMWAIT_GRANT (R233): a store looks at the waiters of a semaphore. -/
def execSemwaitGrant (store : Fin 5) (ix : Fin 8192) (s : State) : Res :=
  s.whenMain (if s.storePresent store.val && !(s.storeInReset store.val) && decide (store.val = 4 ∨ ix.val < 4096) then
    s.semGrant store.val ix.val else s)

/-- SEMSIG, SEMADD and UNLOCK wait until every earlier ST of the queue has taken effect (R235). -/
def State.afterStores (s : State) (q : Nat) (f : State → State) : State :=
  if (s.qint q).remoteSts.isEmpty then f s else s.waitOn q onFence .reissue

/-- Add to a semaphore and complete. -/
def State.semPost (s : State) (q w : Nat) (n : Int) : State :=
  s.onSemaphore q w (fun st ix s => s.afterStores q (fun s => (s.semAdd st ix n).next q))

/-- SEMSIG. -/
def execQSemsig (q : Fin 240) (s : State) : Res := .next (s.issue q.val 0x31 (fun w s => s.semPost q.val w 1))

/-- SEMADD: sRB signed. -/
def execQSemadd (q : Fin 240) (s : State) : Res :=
  .next (s.issue q.val 0x32 (fun w s => s.semPost q.val w (signedOf (s.sreg q.val (cwRb w)) 64)))

/-! ### Beat and epoch waits (R47, R207) -/

/-- WAITB: absolute, or relative to the position at issue. -/
def State.waitb (s : State) (q w : Nat) : State :=
  let v := s.sreg q (cwRa w)
  let p := s.position
  let t := if cwX w = 1 then (p + v) % 2 ^ 64 else v
  if t = p then s.nextRd q w stDone
  else if t < p then (s.countLate true).nextRd q w stLate
  else s.waitOn q onBeat (.beat t (cwRd w))

/-- WAITB. -/
def execQWaitb (q : Fin 240) (s : State) : Res := .next (s.issue q.val 0x33 (fun w s => s.waitb q.val w))

/-- WAITE. -/
def State.waite (s : State) (q w : Nat) : State :=
  let e := s.sreg q (cwRa w)
  if e = 0 then s.nextRd q w stDone
  else if e ≤ s.settled then s.nextRd q w (s.epochStatus e)
  else s.waitOn q onEpoch (.epoch e (cwRd w))

/-- WAITE. -/
def execQWaite (q : Fin 240) (s : State) : Res := .next (s.issue q.val 0x34 (fun w s => s.waite q.val w))

/-! ### Locks (R206, R237 to R242) -/

/-- The fields of a lock handle: module, store, index. -/
def lockModule (h : Nat) : Nat := bitsOf h 16 16
def lockStore (h : Nat) : Nat := bitsOf h 13 3
def lockIndex (h : Nat) : Nat := bitsOf h 0 13

/-- The handle is well formed: no reserved field, an index in range. -/
def lockOk (h : Nat) : Bool :=
  bitsOf h 32 32 == 0 && decide (lockModule h ≤ 0x3FFF) && decide (lockStore h ≤ 4) && decide (lockIndex h < lockMax (lockStore h))

/-- The lock lies in this module. -/
def State.lockHere (s : State) (h : Nat) : Bool := lockModule h == 0 || lockModule h == s.ownAddr

/-- Common checks of LOCK and UNLOCK. -/
def State.onLockHandle (s : State) (q w : Nat) (here : Nat → Nat → State → State) (there : Nat → Nat → Nat → State → State) : State :=
  let h := s.sreg q (cwRa w)
  let st := lockStore h
  if lockOk h = false then s.queueFault q stDescriptor w
  else if s.lockHere h then
    if s.storePresent st = false then s.queueFault q stAddress w
    else s.unlessAhead q (st == queueDie q) (fun s =>
      if s.storeInReset st then s.waitOn q onLock .reissue else here st (lockIndex h) s)
  else s.unlessAhead q false (there (lockModule h) st (lockIndex h))

/-- LOCK: X bit 32 is TRY. -/
def State.lock (s : State) (q w : Nat) : State :=
  let try_ := cwX w == 1
  s.onLockHandle q w
    (fun st ix s =>
      let o := s.ownerOf q
      let v := s.lockVerdict st ix o try_
      match v with
      | .holds => s.queueFault q stDescriptor w
      | .got k => (s.lockApply st ix { store := st, index := ix, owner := o, seq := 0, mute := false } v).nextRd q w k
      | .busy => (s.lockApply st ix { store := st, index := ix, owner := o, seq := 0, mute := false } v).nextRd q w stBusy
      | .joins => (s.lockApply st ix { store := st, index := ix, owner := o, seq := 0, mute := false } v).waitOn q onLock (.lock (cwRd w) 0))
    (fun m st ix s =>
      let (k, s) := s.sendLock q m st ix (if try_ then 1 else 0) (.lock q)
      s.waitOn q onLock (.lock (cwRd w) k))

/-- LOCK. -/
def execQLock (q : Fin 240) (s : State) : Res := .next (s.issue q.val 0x35 (fun w s => s.lock q.val w))

/-- UNLOCK. -/
def State.unlock (s : State) (q w : Nat) : State :=
  s.onLockHandle q w
    (fun st ix s => s.afterStores q (fun s =>
      match s.lockRelease st ix (s.ownerOf q) with
      | (true, s) => s.next q
      | (false, s) => s.queueFault q stDescriptor w))
    (fun m st ix s => s.afterStores q (fun s =>
      let (k, s) := s.sendLock q m st ix 2 (.unlock q)
      s.waitOn q onLock (.unlock k)))

/-- UNLOCK. -/
def execQUnlock (q : Fin 240) (s : State) : Res := .next (s.issue q.val 0x36 (fun w s => s.unlock q.val w))

/-! ### FENCE (R208) -/

/-- The scopes have completed: bit 0 the queue's dispatches, bit 1 its stores, signals and releases. -/
def State.fenceDone (s : State) (q scope : Nat) : Bool :=
  (!(bitOf scope 0) || (s.qCmds q).isEmpty) && (!(bitOf scope 1) || (s.qint q).remoteSts.isEmpty)

/-- FENCE. -/
def execQFence (q : Fin 240) (s : State) : Res :=
  .next (s.issue q.val 0x37 (fun w s =>
    if s.fenceDone q.val (cwX w) then s.next q.val else s.waitOn q.val onFence (.fence (cwX w))))

/-- FENCE_COMPLETE (R208, R235): what queue q's FENCE, or its SEMSIG, SEMADD or UNLOCK, waited for has happened. A refused ST is
reported there (R489). -/
def execFenceComplete (q : Fin 240) (s : State) : Res :=
  .next (
    let q := q.val
    if s.easelUp q && s.qState q == qWait then
      match (s.qint q).wait with
      | some (.fence scope) =>
        if s.fenceDone q scope then (if (s.qint q).stFault.isSome then s.reportSt q else s.next q) else s
      | some .reissue =>
        if s.fld (R.QSTAT q) F.QSTAT_WAIT_ON = onFence ∧ (s.qint q).remoteSts.isEmpty = true then s.reissue q else s
      | _ => s
    else s)

/-! ### RDTIME, EPOCH, RBIND (R209 to R211) -/

/-- What RDTIME reads. -/
def State.timeItem (s : State) (q x : Nat) : Nat :=
  match x with
  | 0 => s.position
  | 1 => s.uptime
  | 2 => s.fld R.LIFETIME F.LIFETIME_POWERON_ID
  | 3 => (s.reg R.ID_INCARN).toNat
  | 4 => s.fld (R.QEPOCH q) F.QEPOCH_EPOCH
  | 5 => s.settled
  | _ => s.fld (R.QINCARN q) F.QINCARN_INCARN

/-- RDTIME. -/
def execQRdtime (q : Fin 240) (s : State) : Res :=
  .next (s.issue q.val 0x38 (fun w s => s.nextRd q.val w (s.timeItem q.val (cwX w))))

/-- EPOCH (R211, R218). -/
def execQEpoch (q : Fin 240) (s : State) : Res :=
  .next (s.issue q.val 0x39 (fun w s =>
    let q := q.val
    let e := s.sreg q (cwRa w)
    if 2 ^ 48 ≤ e then s.queueFault q stDescriptor w
    else if s.settled + 1 + s.fld (R.QCFG q) F.QCFG_AHEAD < e then s.waitOn q onEpoch .reissue
    else (s.setFld (R.QEPOCH q) F.QEPOCH_EPOCH e).next q))

/-- RBIND (R210). -/
def State.rbind (s : State) (q w : Nat) : State :=
  let g := s.sreg q (cwRa w)
  let d := bitsOf (cwImm w) 8 2
  if g % 32 ≠ 0 ∨ s.isOwn g = false ∨ s.mappedRange (gaLocal g) 32 = false ∨ s.blockUp (.rand (Fin.ofNat 4 d)) = false then
    s.queueFault q stAddress w
  else s.unlessAhead q (d == queueDie q) (fun s =>
    let (b, s, e) := s.readMem (easelWho q) (gaLocal g) 32
    if e then s.queueFault q stData w
    else if 4 ≤ leField b 25 1 ∨ leField b 26 6 ≠ 0 then s.queueFault q stDescriptor w
    else
      let c := leField b 25 1
      let (s, hit) := s.bindEntry (easelUnit (easelOf q)) d (bitsOf (cwImm w) 0 6) (leField b 24 1) (bitOf c 0) (bitOf c 1)
        (BitVec.ofNat 64 (leField b 0 8)) (BitVec.ofNat 64 (leField b 8 8)) (BitVec.ofNat 64 (leField b 16 8))
      s.nextRd q w (doneStatus hit))

/-- RBIND. -/
def execQRbind (q : Fin 240) (s : State) : Res := .next (s.issue q.val 0x3A (fun w s => s.rbind q.val w))

end Sys2Proof.Machine
end

