-- ==== Sys2Proof/Machine/Command.lean ====
section
/-!
DEFINITION. DISPATCH and the completion of commands (R212 to R216, R219, R347, R382).
-/

namespace Sys2Proof.Machine

open Sys2Proof

/-! ### Headers (R212, R213) -/

/-- The command codes of an easel's kind. -/
def codesOf (kind : Nat) : List Nat :=
  match kind with
  | 0 => [0x01, 0x02, 0x03, 0x04]
  | 1 => [0x30]
  | 2 => [0x10, 0x11, 0x12, 0x13, 0x14, 0x15, 0x16, 0x17]
  | 3 => [0x20, 0x21, 0x22, 0x23]
  | 4 => [0x10, 0x11, 0x12, 0x13, 0x14, 0x15, 0x16, 0x17]
  | _ => [0x40, 0x41, 0x42]

/-- The status that ends a dispatch at its easel (R213, R22, R430, R441); none: it goes to its engine. -/
def State.headerEnds (s : State) (c : Cmd) : Option Nat :=
  let h := c.at 0 8
  let kind := easelKind (easelOf c.queue)
  if bitsOf h 8 8 ≠ 0 ∨ bitsOf h 21 9 ≠ 0 ∨ (kind ≠ 4 ∧ c.dieField ≠ 0) ∨ (codesOf kind).contains c.code = false ∨
      (c.sig = true ∧ semOk c.sem = false) ∨ (c.gated = true ∧ c.epoch = 0) then some stDescriptor
  else if kind = 4 ∧ s.dieUp c.dieField = false then some stAddress
  else if s.mode = mEarly ∧ (kind = 3 ∨ kind = 5) then some stAddress
  else if (s.engineDoms c).any (fun k => !(s.domUp k)) then some stAddress
  else none

/-- Captured descriptor words with their patches (R212). -/
def patched (b : List Byte) (w ra rb : Nat) : List Byte :=
  let put := fun (l : List Byte) (i v : Nat) => l.take (8 * i) ++ leBytes v 8 ++ l.drop (8 * i + 8)
  let b := if cwRa w = 0 then b else put b (bitsOf (cwImm w) 0 3) ra
  if cwRb w = 0 then b else put b (bitsOf (cwImm w) 3 3) rb

/-! ### Run-ahead (R219) -/

/-- The destination descriptor that decides whether a command may run ahead: its address; none: the command needs no such
check. For a RING STREAM the DRAIN descriptor at DRP is read first. -/
def State.aheadDst (s : State) (c : Cmd) : Option (Except Nat Nat × State) :=
  let k := c.code
  if k = 0x03 then some (.ok (c.at 16 8), s)
  else if 0x10 ≤ k ∧ k < 0x18 then some (.ok (c.at 32 8), s)
  else if k = 0x02 ∧ bitOf (c.at 10 1) 3 = true then
    match s.readDesc c (c.at 48 8) 64 64 with
    | (.ok b, s) => some (.ok (leField b 16 8), s)
    | (.error e, s) => some (.error e, s)
  else none

/-- Whether a command of a queue that runs ahead may go to its engine now, and the state with the copies it uses (R219). -/
def State.mayRunAhead (s : State) (c : Cmd) : Bool × State :=
  let k := c.code
  if isCollective k then (c.gated, s)
  else if 0x40 ≤ k then (false, s)
  else
    match s.aheadDst c with
    | none => (true, s)
    | some (.error _, s) => (false, s)
    | some (.ok a, s) =>
      match s.readTd c a with
      | (.error _, s) => (false, s)
      | (.ok t, s) =>
        let d := queueDie c.queue
        let inside := s.isOwn t.base && decide (sramBase d ≤ t.extent.1) && decide (t.extent.1 + t.extent.2 ≤ sramBase d + sramSize)
        (t.ok && decide (d < 4) && (decide (t.count = 0) || inside), s)

/-! ### Completion (R215) -/

/-- The completion actions of a command that has finished, with its final status. -/
def State.complete (s : State) (c : Cmd) : State :=
  let q := c.queue
  let st := if c.rerr ≠ 0 ∧ failing c.status = false then c.rerr else c.status
  let c := { c with status := st }
  let s := s.writeBackCmd q c.seq
  let s := s.markStale c.palDie c.tally
  let s := if c.orphan = true ∨ c.slot = 0 then s else
    let r : CompRec := { status := st, cmd := c.code, kind := 1, unit := c.unit, tag := c.tag, seq := c.seq, epoch := c.epoch,
                         pc := c.pc, res0 := c.res0, res1 := c.res1 }
    s.writeRec q (c.slot - 1) r
  let s : State := { s with cmds := s.cmds.filter (fun x => !(x.is q c.seq)) }
  let s := if c.sig = true ∧ c.orphan = false ∧ semOk c.sem = true then s.semSignal c.sem else s
  let s := if c.orphan then s
    else if failing st then s.count (R.QERR q) F.QERR_FAILED 1
    else if st = stCancelled then s.count (R.QERR q) F.QERR_CANCELLED 1
    else s
  let s := if st = stData then (s.vetoEvent c.epoch vetoData).faultHandover else s
  let s := s.holdClose c
  let qs := s.qState q
  let s : State := if c.halt && failing st && !c.orphan && !(s.qClosing q) then
      (if qs = qIdle ∨ qs = qRun ∨ qs = qWait then ((s.abandonWait q).setQState q qStopped 0).setFld (R.QSTAT q) F.QSTAT_FAULT st
       else if qs = qStopped then s.setFld (R.QSTAT q) F.QSTAT_FAULT st else s)
    else s
  ((s.settleQueue q).releaseHolds).detachStep

/-- COMMAND_COMPLETION (R215): command n of queue q has finished, its time has passed, and its remote traffic is answered. -/
def execCommandCompletion (q : Fin 240) (n : Nat) (s : State) : Res :=
  s.whenServing (
    match s.findCmd q.val n with
    | some c => if c.phase = .finished ∧ c.due ≤ s.now ∧ c.open_ = 0 then s.complete c else s
    | none => s)

/-! ### DISPATCH (R212 to R214) -/

/-- The command as the easel captures it. -/
def State.newCmd (s : State) (q : Nat) (desc : List Byte) : Cmd :=
  { queue := q, seq := s.fld (R.QSEQ q) F.QSEQ_SEQ + 1, desc := desc, epoch := s.fld (R.QEPOCH q) F.QEPOCH_EPOCH, pc := s.qpc q,
    slot := 0, unit := 0, phase := .accepted, status := 0, res0 := 0, res1 := 0, due := s.now, capt := [], orphan := false,
    palDie := 0, tally := [], rx := [], open_ := 0, rerr := 0 }

/-- The dispatch issues: a slot is reserved for REC, QSEQ advances, and the command goes to its engine or ends here. -/
def State.accept (s : State) (q w : Nat) (c : Cmd) (ends : Option Nat) : State :=
  if c.rec_ = true ∧ s.slotFree q = false then s.waitOn q onSlot .reissue
  else if c.rec_ = true ∧ s.slotMapped q (s.fld (R.CTAIL q) F.CTAIL_CTAIL) = false then s.queueFault q stAddress w
  else
    let (i, s) := if c.rec_ then s.reserveSlot q else (0, s)
    let c := { c with slot := if c.rec_ then i + 1 else 0 }
    let s := s.setReg (R.QSEQ q) (BitVec.ofNat 64 c.seq)
    let s := s.finishInstr q 9 ((s.qpc q + 72) % 2 ^ 64)
    match ends with
    | some st => s.complete { c with unit := easelUnit (easelOf q), phase := .finished, status := st }
    | none => { s with cmds := s.cmds ++ [{ c with unit := c.unitId }] }

/-- DISPATCH at queue q: its eight descriptor words are fetched with it; the checks of R213; run-ahead; the engine's room. -/
def State.dispatch (s : State) (q w : Nat) : State :=
  match s.fetch q ((s.qpc q + 8) % 2 ^ 64) 8 64 with
  | (.error st, s) => s.queueFault q st w
  | (.ok b, s) =>
    let c := s.newCmd q (patched b w (s.sreg q (cwRa w)) (s.sreg q (cwRb w)))
    if c.rec_ = true ∧ s.crecLog q = 0 then s.queueFault q stDescriptor w
    else
      match s.headerEnds c with
      | some st => s.accept q w c (some st)
      | none =>
        let t : State := { s with cmds := s.cmds ++ [c] }
        let (go, t) := if s.aheadNow q then t.mayRunAhead c else (true, t)
        let c := (t.findCmd q c.seq).getD c
        let s : State := { t with cmds := t.cmds.filter (fun x => !(x.is q c.seq)) }
        if go = false then s.waitOn q onAhead .reissue
        else if engineCap c.engine ≤ s.pendingOn q c.engine then s.waitOn q onBuffer .reissue
        else s.accept q w c none

/-- DISPATCH. -/
def execQDispatch (q : Fin 240) (s : State) : Res := .next (s.issue q.val 0x40 (fun w s => s.dispatch q.val w))

/-- ENGINE_BUFFER_FREE (R214): a place may have freed for the DISPATCH that queue q waits with: it issues again. -/
def execEngineBufferFree (q : Fin 240) (s : State) : Res :=
  .next (
    let q := q.val
    if s.easelUp q = true ∧ s.qState q = qWait ∧ s.fld (R.QSTAT q) F.QSTAT_WAIT_ON = onBuffer then
      (s.reissue q).issue q 0x40 (fun w s => s.dispatch q w)
    else s)

end Sys2Proof.Machine
end

