-- ==== Sys2Proof/Machine/CountReads.lean ====
section
/-!
DEFINITION. Reads of the read-to-clear counter registers (R13): the value goes out, the counts return to zero.
-/

namespace Sys2Proof.Machine

open Sys2Proof

/-- BEAT_EVCNT_READ (R13). -/
def execBeatEvcntRead (s : State) : Res := s.alive (s.accessRead R.BEAT_EVCNT)

/-- PAL_SKCNT_READ (R13). -/
def execPalSkcntRead (d : Fin 4) (s : State) : Res := s.alive (s.accessRead (R.PAL_SKCNT d.val))

/-- PAL_CNT_READ (R13). -/
def execPalCntRead (d : Fin 4) (p : Fin 16) (w : Fin 128) (s : State) : Res := s.alive (s.accessRead (R.PAL_CNT d.val p.val w.val))

/-- CANV_GATE_DUP_READ (R13). -/
def execCanvGateDupRead (d : Fin 4) (s : State) : Res := s.alive (s.accessRead (R.CANV_GATE_DUP d.val))

/-- CANV_HEALTH_READ (R13). -/
def execCanvHealthRead (d : Fin 4) (s : State) : Res := s.alive (s.accessRead (R.CANV_HEALTH d.val))

/-- CANV_FRZ_READ (R13). -/
def execCanvFrzRead (d : Fin 4) (c : Fin 16) (s : State) : Res := s.alive (s.accessRead (R.CANV_FRZ d.val c.val))

/-- CANV_DRCNT_READ (R13). -/
def execCanvDrcntRead (d : Fin 4) (c : Fin 16) (s : State) : Res := s.alive (s.accessRead (R.CANV_DRCNT d.val c.val))

/-- SLV_BEV_READ (R13). -/
def execSlvBevRead (d : Fin 4) (b : Fin 32) (s : State) : Res := s.alive (s.accessRead (R.SLV_BEV d.val b.val))

/-- SLV_BSTALL_READ (R13). -/
def execSlvBstallRead (d : Fin 4) (b : Fin 32) (s : State) : Res := s.alive (s.accessRead (R.SLV_BSTALL d.val b.val))

/-- QERR_READ (R13). -/
def execQerrRead (q : Fin 240) (s : State) : Res := s.alive (s.accessRead (R.QERR q.val))

/-- ARB_STAT_READ (R13). -/
def execArbStatRead (pl : Fin 5) (s : State) : Res := s.alive (s.accessRead (R.ARB_STAT pl.val))

/-- APPLY_CNT_READ (R13). -/
def execApplyCntRead (pl : Fin 5) (s : State) : Res := s.alive (s.accessRead (R.APPLY_CNT pl.val))

/-- SEM_CNT_READ (R13). -/
def execSemCntRead (pl : Fin 5) (s : State) : Res := s.alive (s.accessRead (R.SEM_CNT pl.val))

/-- LOCK_CNT_READ (R13). -/
def execLockCntRead (pl : Fin 5) (s : State) : Res := s.alive (s.accessRead (R.LOCK_CNT pl.val))

/-- NMA_CE_CNT_READ (R13). -/
def execNmaCeCntRead (st : Fin 16) (s : State) : Res := s.alive (s.accessRead (R.NMA_CE_CNT st.val))

/-- NMA_UE_CNT_READ (R13). -/
def execNmaUeCntRead (st : Fin 16) (s : State) : Res := s.alive (s.accessRead (R.NMA_UE_CNT st.val))

/-- NMA_EV_READ (R13). -/
def execNmaEvRead (st : Fin 16) (s : State) : Res := s.alive (s.accessRead (R.NMA_EV st.val))

/-- MOV_OOB_READ (R13). -/
def execMovOobRead (d : Fin 4) (s : State) : Res := s.alive (s.accessRead (R.MOV_OOB d.val))

/-- MOV_EV_READ (R13). -/
def execMovEvRead (d : Fin 4) (s : State) : Res := s.alive (s.accessRead (R.MOV_EV d.val))

/-- RYF_CNT_READ (R13). -/
def execRyfCntRead (s : State) : Res := s.alive (s.accessRead R.RYF_CNT)

/-- RYF_PORT_FEC_READ (R13). -/
def execRyfPortFecRead (p : Fin 16) (s : State) : Res := s.alive (s.accessRead (R.RYF_PORT_FEC p.val))

/-- RYF_PORT_LINKCNT_READ (R13). -/
def execRyfPortLinkcntRead (p : Fin 16) (s : State) : Res := s.alive (s.accessRead (R.RYF_PORT_LINKCNT p.val))

/-- RED_CNT_READ (R13). -/
def execRedCntRead (s : State) : Res := s.alive (s.accessRead R.RED_CNT)

/-- RED_NF_READ (R13). -/
def execRedNfRead (s : State) : Res := s.alive (s.accessRead R.RED_NF)

/-- RED_CHK_READ (R13). -/
def execRedChkRead (s : State) : Res := s.alive (s.accessRead R.RED_CHK)

/-- TRN_NF_READ (R13). -/
def execTrnNfRead (s : State) : Res := s.alive (s.accessRead R.TRN_NF)

/-- TRN_CNT_READ (R13). -/
def execTrnCntRead (s : State) : Res := s.alive (s.accessRead R.TRN_CNT)

/-- PEND_CMP_READ (R13). -/
def execPendCmpRead (s : State) : Res := s.alive (s.accessRead R.PEND_CMP)

/-- PEND_CNT_READ (R13). -/
def execPendCntRead (s : State) : Res := s.alive (s.accessRead R.PEND_CNT)

/-- HOSTP_TCT_CNT_READ (R13). -/
def execHostpTctCntRead (s : State) : Res := s.alive (s.accessRead R.HOSTP_TCT_CNT)

/-- HOSTP_ROCE_CNT_READ (R13). -/
def execHostpRoceCntRead (s : State) : Res := s.alive (s.accessRead R.HOSTP_ROCE_CNT)

/-- HOSTP_EVT_CNT_READ (R13). -/
def execHostpEvtCntRead (s : State) : Res := s.alive (s.accessRead R.HOSTP_EVT_CNT)

/-- HOSTP_RXDROP_READ (R13). -/
def execHostpRxdropRead (s : State) : Res := s.alive (s.accessRead R.HOSTP_RXDROP)

/-- SEC_SIGCNT_READ (R13). -/
def execSecSigcntRead (s : State) : Res := s.alive (s.accessRead R.SEC_SIGCNT)

/-- RST_CNT_READ (R13). -/
def execRstCntRead (s : State) : Res := s.alive (s.accessRead R.RST_CNT)

/-- PWR_CNT_READ (R13). -/
def execPwrCntRead (s : State) : Res := s.alive (s.accessRead R.PWR_CNT)

/-- ERR_CNT_READ (R13). -/
def execErrCntRead (s : State) : Res := s.alive (s.accessRead R.ERR_CNT)

/-- ERR_SRAM_READ (R13). -/
def execErrSramRead (s : State) : Res := s.alive (s.accessRead R.ERR_SRAM)

/-- PERT_CNT_READ (R13). -/
def execPertCntRead (s : State) : Res := s.alive (s.accessRead R.PERT_CNT)

end Sys2Proof.Machine
end

