-- ==== Sys2Proof/Machine/HostRx.lean ====
section
/-!
DEFINITION. What arrives at the host port (R391, R397 to R401, R416): the checks of a frame and of a TCT message, and what an
accepted one does.
-/

namespace Sys2Proof.Machine

open Sys2Proof

/-! ### TCT messages that have passed their checks (R399 to R402) -/

/-- A message's effect, its SEQ being new (R400). -/
def State.tctAct (s : State) (m : TctMsg) : State :=
  let i := m.session.val
  let k := m.key.val
  let q := m.seq.toNat
  let t := m.type.toNat
  let p := m.payload
  let a := leField p 0 8
  let ans := fun (s : State) (st : Nat) (b : List Byte) => s.tctRespond i k q t st b
  if (t = tctRegRd ∨ t = tctRegWr) ∧ s.keyPriv k = false then
    ans (s.count R.HOSTP_TCT_CNT F.HOSTP_TCT_CNT_REFUSED 1) stDescriptor []
  else if t = tctRegRd then
    match s.regRead a with
    | (some v, s) => ans s stDone (leBytes v 8)
    | (none, s) => ans s stAddress []
  else if t = tctRegWr then
    match s.regWrite .host a (BitVec.ofNat 64 (leField p 8 8)) with
    | (true, s) => ans s stDone []
    | (false, s) => ans s stAddress []
  else if t = tctMemRd then
    let n := leField p 8 4
    if n = 0 ∨ 8192 < n then ans s stDescriptor []
    else if s.mappedRange a n = false then ans s stAddress []
    else
      let (b, s, bad) := s.readMem hostWho a n
      if bad then ans s stData [] else ans s stDone b
  else if t = tctMemWr then
    let d := p.drop 8
    if s.mappedRange a d.length = false then ans s stAddress []
    else
      match s.guardWrite a d.length with
      | (true, s) => ans s stAddress []
      | (false, s) =>
        match s.writeMem a d with
        | (s, true) => ans s stData []
        | (s, false) => ans s stDone []
  else if t = tctDoorbell then s.bellRx i k q p
  else if t = tctEventAck then
    let x := s.session i
    (s.setSession i { x with seen := x.seen.map (fun r => if r.1 = q then (q, some []) else r) }).eventAck a
  else s

/-- The replay rule (R399): a new SEQ is executed; one of the window that was executed is answered again, once it has its
answer; every other is dropped and counted. -/
def State.tctExec (s : State) (m : TctMsg) : State :=
  let x := s.session m.session.val
  let q := m.seq.toNat
  if x.high < q then
    (s.setSession m.session.val
      { high := q, seen := (q, none) :: x.seen.filter (fun r => decide (q < r.1 + 64)), peer := m.src.toNat, key := m.key.val }).tctAct m
  else
    match x.seen.find? (fun r => r.1 == q) with
    | some (_, some []) => s
    | some (_, some p) => s.tctSend m.session.val m.key.val q m.type.toNat p
    | some (_, none) => s
    | none => s.count R.HOSTP_TCT_CNT F.HOSTP_TCT_CNT_REPLAY 1

/-- Payload lengths of the message types that a host sends (R400). -/
def tctLenOk (t n : Nat) : Bool :=
  if t = tctRegRd then n == 8
  else if t = tctRegWr then n == 16
  else if t = tctMemRd then n == 12
  else if t = tctMemWr then decide (9 ≤ n) && decide (n ≤ 8200)
  else if t = tctDoorbell then n == 20
  else if t = tctEventAck then n == 8
  else false

/-- Steps 1 to 3 of R398 on a datagram: the message, or the counting of why it is dropped. -/
def State.tctCheck (s : State) (src : BitVec 64) (d : List Byte) : Option TctMsg × State :=
  let f := leField d
  let len := f 6 2
  let key := f 3 1
  let msg := d.take (24 + len)
  let bad := s.count R.HOSTP_TCT_CNT F.HOSTP_TCT_CNT_TAG_BAD 1
  if d.length < 40 ∨ f 0 1 ≠ 1 ∨ 8 ≤ f 2 1 ∨ 8 ≤ key ∨ 64 ≤ f 4 2 ∨ 8256 < len ∨ d.length ≠ 40 + len ∨
     tctLenOk (f 1 1) len = false ∨ s.keyLoaded key = false then (none, bad)
  else if s.tctTag key msg ≠ d.drop (24 + len) then (none, bad)
  else if f 16 8 ≠ (s.reg R.ID_INCARN).toNat then
    let inc := (s.reg R.ID_INCARN).toNat
    (none, (s.count R.HOSTP_TCT_CNT F.HOSTP_TCT_CNT_STALE 1).emit
      { kind := .tct, nums := [f 4 2, f 8 8, key, 0x7F, 0], bytes := tctHeader 0x7F 1 key (f 4 2) 8 (f 8 8) inc ++ leBytes inc 8 })
  else
    (some { src := src, session := Fin.ofNat 64 (f 4 2), key := Fin.ofNat 8 key, seq := BitVec.ofNat 64 (f 8 8),
            type := BitVec.ofNat 8 (f 1 1), payload := msg.drop 24 }, s)

/-! ### Frames -/

/-- Frames of IPv4 need IPV4_EN (R391). -/
def State.ipv4On (s : State) : Bool := s.fld R.HOSTP_CFG F.HOSTP_CFG_IPV4_EN == 1

/-- A frame option that R391 does not support, as the port is configured. -/
def State.frameUnsupported (s : State) : FrameBody → Bool
  | .unsupported => true
  | .arp _ => !s.ipv4On
  | .echo v4 _ => v4 && !s.ipv4On
  | _ => false

/-- An accepted frame acts (R391 to R396). -/
def State.frameAct (s : State) : FrameBody → State
  | .rdmaWrite qp psn rkey va data ce => s.rdmaWriteRx qp.toNat psn.toNat rkey.toNat va.toNat data ce
  | .rdmaRead qp psn rkey va len ce => s.rdmaReadRx qp.toNat psn.toNat rkey.toNat va.toNat len.toNat ce
  | .send qp psn data ce => s.sendRx qp.toNat psn.toNat data ce
  | .ack qp psn nak => s.roceAck qp.toNat psn.toNat nak
  | .cnp qp => s.cnpRx qp.toNat
  | .neighbor t => s.neighborRx t.toNat
  | .arp t => s.arpRx t.toNat
  | .echo v4 b => s.hostOut { kind := .host, nums := [1, b2n v4], bytes := b }
  | .tct _ _ => s
  | .recovery _ _ => s
  | .unsupported => s

/-- A recovery message (R416, R417). -/
def State.recoveryRx (s : State) (src : BitVec 64) (b : List Byte) : State :=
  let t := leField b 0 1
  if t = 1 ∧ b.length = 1 then s.recovQuery src.toNat
  else if t = 3 ∧ 6 ≤ b.length then s.recovData src.toNat (leField b 1 4) (b.drop 5)
  else if t = 5 ∧ b.length = 5 then s.recovCommit src.toNat (leField b 1 4)
  else s

end Sys2Proof.Machine
end

