-- ==== Sys2Proof/Machine/Move.lean ====
section
/-!
DEFINITION. Move commands (R281 to R293): their checks in order, what each writes, their counts and records.
-/

namespace Sys2Proof.Machine

open Sys2Proof

/-! ### Descriptor fields (R281) -/

def Cmd.idim (c : Cmd) : Nat := c.at 15 1
def Cmd.isetOf (c : Cmd) : Nat := c.at 17 1
def Cmd.ichOf (c : Cmd) : Nat := c.at 18 1
def Cmd.osetOf (c : Cmd) : Nat := c.at 19 1
def Cmd.ochOf (c : Cmd) : Nat := c.at 20 1
def Cmd.skmOf (c : Cmd) : Nat := c.at 21 1
def Cmd.bindOf (c : Cmd) : Nat := c.at 22 1
def Cmd.patternOf (c : Cmd) : Nat := c.at 44 4

/-- Which tensor or descriptor a fault names: MOV_FAULT.WHICH. -/
def whSrc : Nat := 0
def whDst : Nat := 1
def whIdx : Nat := 2
def whMove : Nat := 3

/-- The command reads SRC; the command reads IDX. -/
def usesSrc (code : Nat) : Bool := code != 0x14
def usesIdx (code : Nat) : Bool := decide (0x15 ≤ code)

/-- Fields the command does not use are zero and the used ones hold no reserved encoding (R281, R68). -/
def moveFieldsOk (c : Cmd) : Bool :=
  let k := c.code
  let z := fun (lo n : Nat) => c.at lo n == 0
  z 8 6 && z 23 1 && z 42 2 &&
    (k == 0x17 || z 14 1) && (usesIdx k || z 15 1) && (k == 0x12 || k == 0x17 || z 16 1) &&
    (k == 0x12 || (z 17 6 && z 40 2 && z 48 8)) && (usesSrc k || z 24 8) && (k == 0x14 || k == 0x15 || z 44 4) &&
    (usesIdx k || z 56 8) &&
    decide (c.at 14 1 < 4) && decide (c.idim < 8) &&
    (if k = 0x17 then c.at 16 1 == 0 || c.at 16 1 == 4 else cvtOk (c.at 16 1)) &&
    decide (c.isetOf < 64) && decide (c.ichOf < 8) && decide (c.osetOf < 64) && decide (c.ochOf < 8) &&
    decide (c.skmOf < 4) && decide (c.bindOf < 64)

/-- The tensors of a command. -/
structure MoveSet where
  src : TD
  dst : TD
  idx : TD

/-- A list with one place replaced. -/
def setAt (l : List Nat) (i v : Nat) : List Nat := l.set i v

/-- The shape rules (R283, R285, R287, R92, R102). None: they hold. -/
def State.moveShape (s : State) (c : Cmd) (m : MoveSet) : Option Nat :=
  let k := c.code
  let a := m.src
  let b := m.dst
  let same := a.rank == b.rank && a.ext == b.ext
  let bad := fun (ok : Bool) (w : Nat) => if ok then none else some w
  if k = 0x10 then bad (a.fmt == b.fmt && same && a.plane == b.plane) whDst
  else if k = 0x11 then
    bad (a.fmt == b.fmt && a.rank == b.rank && decide (2 ≤ a.rank) && !a.plane && !b.plane &&
      a.ext.getD 0 0 == b.ext.getD 1 0 && a.ext.getD 1 0 == b.ext.getD 0 0 && a.ext.drop 2 == b.ext.drop 2) whDst
  else if k = 0x12 then
    let ic := a.ext.getD c.ichOf 0
    let oc := b.ext.getD c.ochOf 0
    if !(same && a.plane == b.plane) then some whDst
    else bad ((c.isetOf == noSet || decide (c.ichOf < a.rank)) && (c.osetOf == noSet || decide (c.ochOf < b.rank)) &&
      roleOk c.isetOf ic && roleOk c.osetOf oc &&
      !(c.skmOf != 0 && (c.osetOf == noSet || !(fmtIsLog b.fmt))) &&
      !(b.fmt == fAcc64 && !(c.isetOf == noSet && c.osetOf == noSet)) &&
      rolesApart c.isetOf ic c.osetOf oc &&
      !(c.at 16 1 % 4 == 1 && !(s.bindOk c.die c.bindOf c.unitId))) whMove
  else if k = 0x13 then bad (a.fmt == b.fmt && same && a.plane != b.plane) whDst
  else if k = 0x14 then none
  else
    let i := m.idx
    if !(i.rank == 1 && !i.plane && (i.fmt == fInt32 || i.fmt == fInt64)) then some whIdx
    else
      let n := i.ext.getD 0 0
      let ixd := if k = 0x15 then a else b
      let oth := if k = 0x15 then b else a
      if ixd.rank ≤ c.idim then some whMove
      else if ixd.plane then some (if k = 0x15 then whSrc else whDst)
      else if !(oth.fmt == ixd.fmt && oth.rank == ixd.rank && oth.ext == setAt ixd.ext c.idim n) then
        some (if k = 0x15 then whDst else whSrc)
      else bad (k != 0x17 || nmaPair (c.at 14 1) b.fmt) whMove

/-- The tensors a command names, with what each is. -/
def MoveSet.named (m : MoveSet) (code : Nat) : List (TD × Nat) :=
  (if usesSrc code then [(m.src, whSrc)] else []) ++ [(m.dst, whDst)] ++ (if usesIdx code then [(m.idx, whIdx)] else [])

/-- Order 4 of R282: nothing to write. -/
def moveNothing (c : Cmd) (m : MoveSet) : Bool :=
  if c.code = 0x16 ∨ c.code = 0x17 then m.idx.count == 0 || m.src.count == 0 else m.dst.count == 0

/-- Order 5 of R282: R275 and R279, and a SCATTER_ACC destination in this module's HBM (R287). -/
def State.movePlace (s : State) (c : Cmd) (t : TD) (w : Nat) : Bool :=
  t.count == 0 ||
    ((!t.plane || (s.isOwn t.base && t.inSram)) && s.boundOk t &&
      !(c.code == 0x17 && w == whDst && !(s.isOwn t.base && decide (gaLocal t.base < 0x20000000000))))

/-- Two tensors that hold elements overlap. -/
def State.meets (s : State) (a b : TD) : Bool := a.count != 0 && b.count != 0 && s.overlap a b

/-- Overlap of source and destination that R291 allows. -/
def moveOverlapOk (c : Cmd) (a b : TD) : Bool :=
  let alike := if a.plane then a.n == b.n else a.strs == b.strs
  if c.code = 0x10 then alike
  else if c.code = 0x12 then fmtBits a.fmt == fmtBits b.fmt && alike
  else if c.code = 0x11 then a.base == b.base && a.strs == b.strs && a.ext.getD 0 0 == a.ext.getD 1 0
  else false

/-- Order 6 of R282: R280 and R291. -/
def State.moveOverlap (s : State) (c : Cmd) (m : MoveSet) : Bool :=
  !m.dst.apart || (usesSrc c.code && s.meets m.src m.dst && !(moveOverlapOk c m.src m.dst)) ||
    (usesIdx c.code && s.meets m.idx m.dst)

/-! ### Ends -/

/-- MOV_FAULT records a command ended by a fault or error (R293). -/
def State.moveFault (s : State) (c : Cmd) (status which : Nat) : State :=
  s.setReg (R.MOV_FAULT c.die) (BitVec.ofNat 64
    (c.seq % 2 ^ 32 + which * 2 ^ 38 + c.queue * 2 ^ 40 + c.code * 2 ^ 48 + status * 2 ^ 56))

/-- A command ends with a fault. -/
def State.moveFail (s : State) (c : Cmd) (status which : Nat) : State := (s.moveFault c status which).fail c status

/-- Read the tensor descriptors a command names, in order. The first that fails: its status and which it is. -/
def State.moveTds (s : State) (c : Cmd) : Except (Nat × Nat) MoveSet × State :=
  let none_ : TD := TD.parse []
  let rd := fun (use : Bool) (lo w : Nat) (s : State) =>
    if use then
      match s.readTd c (c.at lo 8) with
      | (.ok t, s) => ((Except.ok t : Except (Nat × Nat) TD), s)
      | (.error e, s) => (Except.error (e, w), s)
    else (Except.ok none_, s)
  let (a, s) := rd (usesSrc c.code) 24 whSrc s
  match a with
  | .error e => (.error e, s)
  | .ok a =>
    let (b, s) := rd true 32 whDst s
    match b with
    | .error e => (.error e, s)
    | .ok b =>
      let (i, s) := rd (usesIdx c.code) 56 whIdx s
      match i with
      | .error e => (.error e, s)
      | .ok i => (.ok ⟨a, b, i⟩, s)

/-- The checks of R282 after the descriptors are read. None of them fails: `none`; DONE at once: status 0. -/
def State.moveCheck (s : State) (c : Cmd) (m : MoveSet) : Option (Nat × Nat) :=
  if !(moveFieldsOk c) then some (stDescriptor, whMove)
  else
    match (m.named c.code).find? (fun p => !p.1.ok) with
    | some p => some (stDescriptor, p.2)
    | none =>
      match s.moveShape c m with
      | some w => some (stDescriptor, w)
      | none =>
        match (m.named c.code).find? (fun p => !(s.offered p.1.fmt)) with
        | some p => some (stFormat, p.2)
        | none =>
          if moveNothing c m then some (stDone, 0)
          else
            match (m.named c.code).find? (fun p => !(s.movePlace c p.1 p.2)) with
            | some p => some (stAddress, p.2)
            | none => if s.moveOverlap c m then some (stOverlap, whDst) else none

/-! ### Elements -/

/-- Every multi-index of a tensor in logical order. -/
def TD.all (t : TD) : List (List Nat) := (List.range t.count).map (coords t.exts)

/-- Consecutive addresses as ranges. -/
def coalesce : List Nat → List (Nat × Nat)
  | [] => []
  | a :: r =>
    match coalesce r with
    | (b, n) :: t => if b = a + 1 then (a, n + 1) :: t else (a, 1) :: (b, n) :: t
    | [] => [(a, 1)]

/-- Bytes of n elements. -/
def elemBytes (t : TD) (n : Nat) : Nat := (n * (if t.plane then planeWidth t.fmt else fmtBits t.fmt) + 7) / 8

/-- What is read and written: bytes, and the least time that R292's byte limits take. -/
def State.moveBytes (s : State) (c : Cmd) (rd wr : Nat) : State :=
  (s.countWrap (R.MOV_RD_BYTES c.die) F.MOV_RD_BYTES_BYTES rd).countWrap (R.MOV_WR_BYTES c.die) F.MOV_WR_BYTES_BYTES wr

def State.moveDue (s : State) (c : Cmd) (rd wr els : Nat) : Nat :=
  s.now + s.acDur c.die (max 1 (max (max ((rd + 4095) / 4096) ((wr + 4095) / 4096))
    (if c.code = 0x12 then (els + 1023) / 1024 else 0)))

/-- The fill value of a format (R284). -/
def fillCode (f p : Nat) : Nat :=
  if f = fInt64 then wrapInt (signedOf p 32) 64
  else if f = fAcc64 then accCode (signedOf p 32) 0 0 false
  else p % 2 ^ fmtBits f

/-- Where a command that met an uncorrectable source stopped: how many of its n elements it had written, those read as stored
among them, is open (R261, R282); a free value. -/
def State.stopPoint (s : State) (n : Nat) : Nat × State :=
  let (v, s) := s.draw
  (v.toNat % (n + 1), s)

/-- Read the source elements: the state, and the number of elements that will be written where some source is bad. -/
def State.moveRead (s : State) (c : Cmd) (els : List (List Nat)) : State × Option Nat :=
  let keys := els.map s.ownKeys
  let (s, e) := if s.altered = [] ∧ s.held = [] then (s, false) else s.readKeys c.who (dedupNat (keys.flatMap id))
  if e then
    let (n, s) := s.stopPoint els.length
    (s, some n)
  else (s, none)

/-- Finish a command: each element's writes in order, cut where a bad source stopped it. -/
def State.moveEnd (s : State) (c : Cmd) (m : MoveSet) (els : List (List BitWrite)) (stop : Option Nat) (counted : Bool)
    (res1 rdBytes : Nat) (wh : Nat := whSrc) : State :=
  let n := stop.getD els.length
  let wr := elemBytes m.dst n
  let due := s.moveDue c rdBytes wr els.length
  let s := s.moveBytes c rdBytes wr
  match stop with
  | none =>
    let s := s.finishWrites c (els.flatMap id) (doneStatus counted) n res1 due
    match s.findCmd c.queue c.seq with
    | some x => if x.status = stData then s.moveFault c stData whDst else s
    | none => s
  | some _ => (s.moveFault c stData wh).finishWrites c ((els.take n).flatMap id) stData n res1 due

/-! ### The commands' work -/

/-- COPY, TRANSPOSE, CORNER_TURN (R283): dst[i] = src[f i]. -/
def State.moveCopyWork (s : State) (c : Cmd) (m : MoveSet) (f : List Nat → List Nat) : State :=
  let pairs := m.dst.all.map (fun i => (i, f i))
  let need := coalesce (dedupNat (pairs.flatMap (fun p => m.src.bytesOf p.2)))
  let (s, wait) := s.gather c (need ++ s.sharedBytes m.dst)
  if wait then s
  else
    let (s, stop) := s.moveRead c (pairs.map (fun p => m.src.bytesOf p.2))
    let codes := pairs.map (fun p => (p.1, m.src.codeAt (s.rdByte c) p.2))
    if c.code = 0x13 ∧ m.src.fmt = fAcc64 ∧ m.src.plane = false ∧ codes.any (fun p => !(accOk p.2)) = true then
      s.moveFail c stDescriptor whSrc
    else
      s.moveEnd c m (codes.map (fun p => m.dst.writes p.1 p.2)) stop false 0 (elemBytes m.src pairs.length)

/-- FILL (R284). -/
def State.moveFillWork (s : State) (c : Cmd) (m : MoveSet) : State :=
  let (s, wait) := s.gather c (s.sharedBytes m.dst)
  if wait then s
  else s.moveEnd c m (m.dst.all.map (fun i => m.dst.writes i (fillCode m.dst.fmt c.patternOf))) none false 0 0

/-- What a CONVERT has counted so far. -/
structure ConvRes where
  els : List (List BitWrite)
  ev : EvCount
  counted : Bool
  tally : Tally

/-- Convert one element (R285, R286). -/
def State.convertOne (s : State) (c : Cmd) (m : MoveSet) (a : ConvRes) (i : List Nat) (code r : Nat) : State × ConvRes :=
  let d := c.die
  let xi := s.scaleOf d c.isetOf (i.getD c.ichOf 0)
  let oc := i.getD c.ochOf 0
  let xo := s.scaleOf d c.osetOf oc
  let v := convertScaled m.src.fmt m.dst.fmt (signedOf (c.at 40 2) 16) (Cvt.ofByte (c.at 16 1) r) (xi - xo) code
  let (s, t) := s.countInto a.tally d c.osetOf oc m.dst.fmt v
  let hit := palCounted c.osetOf oc m.dst.fmt v
  (s, { els := m.dst.writes i v.code :: a.els, ev := a.ev.add v, counted := a.counted || v.ovf || v.unf || v.inv || hit, tally := t })

/-- The sketch of a CONVERT: the largest magnitude of each destination channel, source scales applied (R95, R96). -/
def State.convertSketch (s : State) (c : Cmd) (m : MoveSet) (codes : List (List Nat × Nat)) : State :=
  let maxes := codes.foldl (fun (t : Sparse Dy) p =>
    let ch := p.1.getD c.ochOf 0
    sparsePut t ch (magMax (sparseGet t ch ⟨false, 0, 0⟩)
      ((numOf m.src.fmt p.2).scale (s.scaleOf c.die c.isetOf (p.1.getD c.ichOf 0))))) []
  s.sketch c.die c.osetOf m.dst.fmt ((List.range (m.dst.ext.getD c.ochOf 0)).map (fun ch => sparseGet maxes ch ⟨false, 0, 0⟩))

/-- CONVERT (R285, R286). -/
def State.moveConvertWork (s : State) (c : Cmd) (m : MoveSet) : State :=
  let is_ := m.dst.all
  let (s, wait) := s.gather c (coalesce (dedupNat (is_.flatMap m.src.bytesOf)) ++ s.sharedBytes m.dst)
  if wait then s
  else
    let (s, stop) := s.moveRead c (is_.map m.src.bytesOf)
    let codes := is_.map (fun i => (i, m.src.codeAt (s.rdByte c) i))
    if m.src.fmt = fAcc64 ∧ codes.any (fun p => !(accOk p.2)) = true then s.moveFail c stDescriptor whSrc
    else
      let sk := c.skmOf == 1 || c.skmOf == 2 || (c.skmOf == 3 && s.anyStale c.die c.osetOf (m.dst.ext.getD c.ochOf 0))
      let s := if sk then s.convertSketch c m codes else s
      let reads := if sk && c.skmOf != 2 then 2 else 1
      let codes := if c.skmOf = 2 then [] else codes.take (stop.getD codes.length)
      let rs := if c.at 16 1 % 4 = 1 then s.bindAt c.die c.bindOf ((List.range codes.length).map (fun j => c.at 48 8 + j))
        else codes.map (fun _ => 0)
      let (s, a) := (codes.zip rs).foldl (fun (p : State × ConvRes) x => p.1.convertOne c m p.2 x.1.1 x.1.2 x.2)
        (s, ⟨[], EvCount.zero, false, []⟩)
      let ea := R.MOV_EV c.die
      let s := ((s.count ea F.MOV_EV_OVERFLOW a.ev.ovf).count ea F.MOV_EV_UNDERFLOW a.ev.unf).count ea F.MOV_EV_INVALID a.ev.inv
      let s := s.updCmd c.queue c.seq (fun x => { x with palDie := c.die, tally := a.tally })
      s.moveEnd c m a.els.reverse (stop.map (fun _ => codes.length)) a.counted
        (min (a.ev.ovf + a.ev.unf + a.ev.inv) (2 ^ 32 - 1)) (reads * elemBytes m.src is_.length)

/-- The signed index values. -/
def State.indexVals (s : State) (c : Cmd) (i : TD) : List Int :=
  (List.range (i.ext.getD 0 0)).map (fun k => signedOf (i.codeAt (s.rdByte c) [k]) (fmtBits i.fmt))

/-- An index is in bounds (R288). -/
def inBounds (v : Int) (n : Nat) : Bool := decide (0 ≤ v) && decide (v < n)

/-- Elements of one slice: every index of the other dimensions, with position k along IDIM. -/
def sliceOf (t : TD) (dim k : Nat) : List (List Nat) :=
  ({ t with ext := setAt t.ext dim 1 } : TD).all.map (fun i => setAt i dim k)

/-- The row cache of a GATHER: hits and misses over the slices read, least recently used replaced (R290). -/
def rowCache (off : Bool) (bytes : Nat) : List Int → List Int → Nat × Nat
  | _, [] => (0, 0)
  | cache, v :: r =>
    if !off && decide (bytes ≤ 4096) && cache.contains v then
      let (h, m) := rowCache off bytes (v :: cache.erase v) r
      (h + 1, m)
    else
      let (h, m) := rowCache off bytes ((v :: cache).take 64) r
      (h, m + 1)

/-- The source elements that an indexed command reads: destination index, source index (none: out of bounds). -/
def indexedPairs (c : Cmd) (m : MoveSet) (vals : List Int) : List (List Nat × Option (List Nat)) :=
  let gather := c.code == 0x15
  let oth := if gather then m.dst else m.src
  let n := (if gather then m.src else m.dst).ext.getD c.idim 0
  vals.zipIdx.flatMap (fun p =>
    (sliceOf oth c.idim p.2).map (fun i =>
      let j := setAt i c.idim p.1.toNat
      if gather then (i, if inBounds p.1 n then some j else none)
      else (if inBounds p.1 n then j else [], some i)))

/-- The ranges of other modules an indexed command reads: all of both where the indices themselves are remote. -/
def State.indexedNeed (s : State) (c : Cmd) (m : MoveSet) : List (Nat × Nat) :=
  if s.isRemote m.idx.base then m.idx.range :: (if m.src.count = 0 then [] else [m.src.range])
  else coalesce (dedupNat ((indexedPairs c m (s.indexVals c m.idx)).flatMap (fun p => (p.2.map m.src.bytesOf).getD [])))

/-- Send the near-memory updates of a SCATTER_ACC (R289, R268), or finish where there are none. -/
def State.sendUpdates (s : State) (c : Cmd) (m : MoveSet) (els : List (List Nat × Nat)) (stop : Option Nat) (oob wh : Nat) : State :=
  let els := match stop with | some n => els.take n | none => els
  let us : List NmaUpdate := els.map (fun p =>
    ({ addr := (memKey (gaLocal ((m.dst.bytesOf p.1).headD 0))).getD 0, op := c.at 14 1, fmt := m.dst.fmt, val := p.2,
       ovfInf := bitOf (c.at 16 1) 2, queue := c.queue, seq := c.seq } : NmaUpdate))
  let status := match stop with | some _ => stData | none => doneStatus (oob != 0)
  let s := if stop.isSome then s.moveFault c stData wh else s
  if us.isEmpty then s.finish c status 0 (oob * 2 ^ 32) s.now
  else
    ({ s with nmaUpdates := s.nmaUpdates ++ us } : State).updCmd c.queue c.seq (fun x =>
      { x with phase := .started, status := status, res0 := 0, res1 := oob * 2 ^ 32, open_ := x.open_ + us.length })

/-- GATHER, SCATTER, SCATTER_ACC (R287 to R290). -/
def State.moveIndexed (s : State) (c : Cmd) (m : MoveSet) : State :=
  let (s, wait) := s.gather c (s.indexedNeed c m ++ s.sharedBytes m.dst)
  if wait then s
  else
    let iks := dedupNat (s.ownKeys ((List.range (m.idx.ext.getD 0 0)).flatMap (fun k => m.idx.bytesOf [k])))
    let (s, ie) := if s.altered = [] ∧ s.held = [] then (s, false) else s.readKeys c.who iks
    let gather := c.code == 0x15
    let vals := s.indexVals c m.idx
    let n := (if gather then m.src else m.dst).ext.getD c.idim 0
    let oob := (vals.filter (fun v => !(inBounds v n))).length
    let pairs := indexedPairs c m vals
    let (s, stop) := s.moveRead c (pairs.map (fun p => (p.2.map m.src.bytesOf).getD []))
    let (stop, s) := if ie then (let (n, s) := s.stopPoint pairs.length; (some n, s)) else (stop, s)
    let wh := if ie then whIdx else whSrc
    let s := s.count (R.MOV_OOB c.die) (if gather then F.MOV_OOB_READ else F.MOV_OOB_WRITE) oob
    let code := fun (p : List Nat × Option (List Nat)) =>
      match p.2 with
      | some j => m.src.codeAt (s.rdByte c) j
      | none => fillCode m.dst.fmt c.patternOf
    let slice := elemBytes m.src (if vals.length = 0 then 0 else pairs.length / vals.length)
    let ok := vals.filter (fun v => inBounds v n)
    let (hits, misses) := if gather then rowCache (s.fld (R.MOV_CFG c.die) F.MOV_CFG_RCACHE_OFF == 1) slice [] ok else (0, 0)
    let s := (s.countWrap (R.MOV_RCACHE c.die) F.MOV_RCACHE_HITS hits).countWrap (R.MOV_RCACHE c.die) F.MOV_RCACHE_MISSES misses
    let rdBytes := elemBytes m.idx vals.length + (if gather then misses * slice else elemBytes m.src pairs.length)
    if c.code = 0x17 then
      let live := pairs.filter (fun p => p.1 != [])
      let s := s.moveBytes c rdBytes (elemBytes m.dst live.length)
      s.sendUpdates c m (live.map (fun p => (p.1, code p))) stop oob wh
    else
      let els := pairs.map (fun p => if p.1 = [] then [] else m.dst.writes p.1 (code p))
      let written := ((pairs.take (stop.getD pairs.length)).filter (fun p => p.1 != [])).length
      let s := s.moveEnd c m els stop (oob != 0) (oob * 2 ^ 32) rdBytes wh
      s.updCmd c.queue c.seq (fun x => { x with res0 := written })

/-- The work of a move command, whichever it is, once it starts or once its remote bytes have come. -/
def State.moveBody (s : State) (c : Cmd) : State :=
  match s.moveTds c with
  | (.error (st, w), s) => s.moveFail c st w
  | (.ok m, s) =>
    match s.moveCheck c m with
    | some (st, w) => if st = stDone then s.finish c stDone 0 0 s.now else s.moveFail c st w
    | none =>
      match c.code with
      | 0x10 => s.moveCopyWork c m id
      | 0x11 => s.moveCopyWork c m (fun i => i.getD 1 0 :: i.getD 0 0 :: i.drop 2)
      | 0x12 => s.moveConvertWork c m
      | 0x13 => s.moveCopyWork c m id
      | 0x14 => s.moveFillWork c m
      | _ => s.moveIndexed c m

/-! ### Meanings -/

/-- COPY (R283): command n of queue q starts. -/
def execMoveCopy (q : Fin 240) (n : Nat) (s : State) : Res := s.whenServing (s.starting q.val n 0x10 State.moveBody)
/-- TRANSPOSE (R283). -/
def execMoveTranspose (q : Fin 240) (n : Nat) (s : State) : Res := s.whenServing (s.starting q.val n 0x11 State.moveBody)
/-- CONVERT (R285). -/
def execMoveConvert (q : Fin 240) (n : Nat) (s : State) : Res := s.whenServing (s.starting q.val n 0x12 State.moveBody)
/-- CORNER_TURN (R283). -/
def execCornerTurn (q : Fin 240) (n : Nat) (s : State) : Res := s.whenServing (s.starting q.val n 0x13 State.moveBody)
/-- FILL (R284). -/
def execMoveFill (q : Fin 240) (n : Nat) (s : State) : Res := s.whenServing (s.starting q.val n 0x14 State.moveBody)
/-- GATHER (R289). -/
def execMoveGather (q : Fin 240) (n : Nat) (s : State) : Res := s.whenServing (s.starting q.val n 0x15 State.moveBody)
/-- SCATTER (R289). -/
def execMoveScatter (q : Fin 240) (n : Nat) (s : State) : Res := s.whenServing (s.starting q.val n 0x16 State.moveBody)
/-- SCATTER_ACC (R289). -/
def execScatterAcc (q : Fin 240) (n : Nat) (s : State) : Res := s.whenServing (s.starting q.val n 0x17 State.moveBody)

end Sys2Proof.Machine
end

