-- ==== Sys2Proof/Machine/Remote.lean ====
section
/-!
DEFINITION. Requests between modules (R302, R315 to R317): what an answered request does here, and what a request of another
module does and answers.
-/

namespace Sys2Proof.Machine

open Sys2Proof

/-! ### Answers to this module's requests -/

/-- The packet type that answers a request. -/
def answerType (t : Nat) : Nat :=
  if t = tWrite ∨ t = tRegWr then tWriteAck
  else if t = tReadReq ∨ t = tRegRd then tReadResp
  else if t = tLockOp then tLockResp
  else tRetractAck

/-- A command whose remote bytes have all come goes on; one of them that failed ends it. -/
def State.resumeCmd (s : State) (q n : Nat) : State :=
  match s.findCmd q n with
  | none => s
  | some c =>
    if isCollective c.code then s.pump q n
    else if c.open_ ≠ 0 ∨ c.phase ≠ .started then s
    else if c.rerr ≠ 0 then s.fail c c.rerr
    else if c.code = 0x01 then s.primeBody c
    else if c.code = 0x02 then s.streamBody c
    else if c.code = 0x03 then s.drainBody c
    else s.moveBody c

/-- A read or write of a command is answered: its bytes, or the status that the command ends with (R302, R261). -/
def State.cmdAnswer (s : State) (r : Request) (q n : Nat) (bad : Option Nat) (body : List Byte) : State :=
  match s.findCmd q n with
  | none => s
  | some c =>
    let isRead := r.type == tReadReq
    let s := match bad with
      | none => s
      | some st =>
        let s := if 0x10 ≤ c.code ∧ c.code < 0x20 then s.moveFault c st (if isRead then whSrc else whDst) else s
        s.updCmd q n (fun x => { x with rerr := if x.rerr = 0 then st else x.rerr })
    let bytes := fixLen (ofLe r.body) (if bad.isSome then [] else body)
    let s := s.updCmd q n (fun x =>
      { x with open_ := x.open_ - 1, rx := if isRead then x.rx ++ [(r.dst * 2 ^ 48 + r.addr, bytes)] else x.rx })
    if isRead then s.resumeCmd q n else s

/-- The ending of an UNLOCK in another module: DONE completes it, any other status faults its queue (R206, R240). A queue that
was stopped meanwhile stays stopped. -/
def State.unlockDone (s : State) (q st : Nat) : State :=
  match (s.qint q).wait with
  | some (.unlock _) =>
    if st = stDone then
      let stopped := s.qState q = qStopped
      let t := s.finishWait q
      if stopped then t.setQState q qStopped 0 else t
    else s.queueFault q st (leField ((keysOf (gaLocal (s.qpc q)) 8).map s.byteAt) 0 8)
  | _ => s

/-- The ending of a LOCK in another module (R206, R240). -/
def State.lockDone (s : State) (q : Nat) (refused : Bool) (st : Nat) : State :=
  match (s.qint q).wait with
  | some (.lock rd _) =>
    if (refused && st != stLink) || st == stDescriptor then
      s.queueFault q st (leField ((keysOf (gaLocal (s.qpc q)) 8).map s.byteAt) 0 8)
    else s.finishWaitRd q rd st
  | _ => s

/-- ERROR_LINK outcomes of lock requests are counted at the requester's hub store (log 37). -/
def State.lockLink (s : State) (bad : Option Nat) : State :=
  if bad = some stLink then s.count (R.LOCK_CNT 0) F.LOCK_CNT_LINK_ERR 1 else s

/-- A request of this module has its answer: `bad` is the status of a refusal, or ERROR_LINK. -/
def State.answered (s : State) (r : Request) (bad : Option Nat) (body : List Byte) : State :=
  let s := s.dropReq r
  match r.owner with
  | .load q => s.loadDone q bad body
  | .store q pc => s.stOutcome q r.seq pc bad
  | .bcast q pc =>
    let s : State := { s with fabric := { s.fabric with requests := s.fabric.requests.filter (fun x =>
        !(x.owner == r.owner && x.seq == r.seq)) } }
    s.stOutcome q r.seq pc bad
  | .lock q => (s.lockLink bad).lockDone q bad.isSome (bad.getD (leField body 0 1))
  | .unlock q => (s.lockLink bad).unlockDone q (bad.getD (leField body 0 1))
  | .none => s
  | .cmd q n => s.cmdAnswer r q n bad body
  | .probe => if bad.isSome then s else s.updPend (fun p => { p with probeAns := some (ofLe body) })

/-! ### Requests of other modules -/

/-- The fabric receiver as a reader and writer of memory. -/
def fabWho : Who := { unit := 0xDD, queue := 0xFF }

/-- READ_REQ (R315, R28, R261): the payload is the length. In EARLY every request is refused (R430). -/
def State.readReqRx (s : State) (h : Hdr) (body : List Byte) : State :=
  let a := h.addr.toNat
  let n := leField body 0 8
  let no := fun (s : State) (st : Nat) => s.respond h tReadResp true a [BitVec.ofNat 8 st]
  if s.mode = mEarly then no s stAddress
  else if n = 0 then s.respond h tReadResp false a []
  else if 256 < n then no s stDescriptor
  else if inRegWindow a = true ∨ s.mappedRange a n = false then no s stAddress
  else
    let (b, s, bad) := s.readMem fabWho a n
    if bad then no s stData else s.respond h tReadResp false a b

/-- WRITE (R315, R28, R262): the payload is the bytes (log 36). `mute`: the partner answers (R369). -/
def State.writeRx (s : State) (mute : Bool) (h : Hdr) (body : List Byte) : State :=
  let a := h.addr.toNat
  let n := body.length
  let ans := fun (s : State) (st : Nat) =>
    if mute then s
    else if st = stDone then s.respond h tWriteAck false a []
    else s.respond h tWriteAck true a [BitVec.ofNat 8 st]
  if s.mode = mEarly then ans s stAddress
  else if n = 0 then ans s stDone
  else if 256 < n ∨ inRegWindow a = true ∨ s.mappedRange a n = false then ans s stAddress
  else
    match s.guardWrite a n with
    | (true, s) => ans s stAddress
    | (false, s) =>
      match s.writeMem a body with
      | (s, true) => ans s stData
      | (s, false) => ans s stDone

/-- A register that other modules may read (R316). -/
def remoteReads (a : Nat) : Bool :=
  match blockOf a with
  | some (b, _) =>
    (match b with
     | .hubId => true | .beat => true | .lock => true | .dlock _ => true | .err => true | .ryf p => decide (p.val < 2)
     | .sec => false | .pwr => false | .hostp => false | .pend => false | .red => false | .pert => false | .cpq => false
     | .trn => false | .canv _ => false | .pal _ => false | .slv _ => false | .mov _ => false | .cpd _ => false
     | .dpwr _ => false | .ddbg _ => false | .rand _ => false | .nma _ => false)
  | none => false

/-- A register that another module may write (R316): BEAT_CTL, LOCK_APPLY, DLOCK_APPLY, and registers of ST fields in their
blocks. -/
def remoteWrites (a : Nat) : Bool :=
  bcastReg a ||
    (match blockOf a, rowOf a with
     | some (.dlock d, _), some r => a == R.APPLY (d.val + 1) || r.st != 0
     | _, _ => false)

/-- REG_RD (R316). -/
def State.regRdRx (s : State) (h : Hdr) : State :=
  let a := h.addr.toNat
  if s.mode = mEarly ∨ remoteReads a = false then s.respond h tReadResp true a [BitVec.ofNat 8 stAddress]
  else match s.regRead a with
    | (some v, s) => s.respond h tReadResp false a (leBytes v 8)
    | (none, s) => s.respond h tReadResp true a [BitVec.ofNat 8 stAddress]

/-- REG_WR to this module alone (R316): it acts as a write of an easel; it needs RYF_CFG.REMOTE_WR. -/
def State.regWrRx (s : State) (mute : Bool) (h : Hdr) (body : List Byte) : State :=
  let a := h.addr.toNat
  let ans := fun (s : State) (ok : Bool) =>
    if mute then s
    else if ok then s.respond h tWriteAck false a []
    else s.respond h tWriteAck true a [BitVec.ofNat 8 stAddress]
  if s.mode = mEarly ∨ s.fld R.RYF_CFG F.RYF_CFG_REMOTE_WR = 0 ∨ remoteWrites a = false then ans s false
  else
    match s.regWrite .easel a (BitVec.ofNat 64 (leField body 0 8)) with
    | (ok, s) => ans s ok

/-- A broadcast REG_WR takes effect here as a local write, and is answered to its sender (R317, log 33). -/
def State.bcastAct (s : State) (h : Hdr) (body : List Byte) : State :=
  let a := h.addr.toNat
  let no := fun (s : State) => s.respond h tWriteAck true (a + bcastMark) [BitVec.ofNat 8 stAddress]
  if s.mode = mEarly ∨ s.fld R.RYF_CFG F.RYF_CFG_REMOTE_WR = 0 ∨ bcastReg a = false then no s
  else
    match s.regWrite .easel a (BitVec.ofNat 64 (leField body 0 8)) with
    | (true, s) => s.respond h tWriteAck false (a + bcastMark) []
    | (false, s) => no s

/-- A request of another module acts (R302). -/
def State.requestAct (s : State) (mute : Bool) (h : Hdr) (type : Nat) (body : List Byte) : State :=
  if type = tWrite then s.writeRx mute h body
  else if type = tRegWr then s.regWrRx mute h body
  else if type = tLockOp then s.lockOpRx mute h body
  else if mute then s
  else if type = tReadReq then s.readReqRx h body
  else if type = tRegRd then s.regRdRx h
  else s

end Sys2Proof.Machine
end

