-- ==== Sys2Proof/Machine/Ingress.lean ====
section
/-!
DEFINITION. Ingress replication of a mirrored pair (R368 to R370, R384, R400): what an ingress item does, its way from the face
to the back, and the pendant rows that can end a pair.
-/

namespace Sys2Proof.Machine

open Sys2Proof

/-! ### Items -/

/-- The numbers of a header. -/
def hdrNums (h : Hdr) : List Nat :=
  [h.dst.toNat, h.src.toNat, h.vc.val, h.hops.val, b2n h.err, b2n h.retry, h.seq.toNat, h.addr.toNat]

/-- A frame as numbers and bytes. -/
def frameCode : FrameBody → List Nat × List Byte
  | .tct src d => ([0, src.toNat], d)
  | .rdmaWrite qp psn rkey va d ce => ([1, qp.toNat, psn.toNat, rkey.toNat, va.toNat, b2n ce], d)
  | .rdmaRead qp psn rkey va len ce => ([2, qp.toNat, psn.toNat, rkey.toNat, va.toNat, len.toNat, b2n ce], [])
  | .send qp psn d ce => ([3, qp.toNat, psn.toNat, b2n ce], d)
  | .ack qp psn nak => ([4, qp.toNat, psn.toNat, b2n nak], [])
  | .cnp qp => ([5, qp.toNat], [])
  | .recovery src b => ([6, src.toNat], b)
  | .neighbor t => ([7, t.toNat], [])
  | .arp t => ([8, t.toNat], [])
  | .echo v4 b => ([9, b2n v4], b)
  | .unsupported => ([10], [])

/-- An item as numbers and bytes: what an INGRESS packet carries. -/
def itemCode : IngressItem → List Nat × List Byte
  | .host f => (0 :: (frameCode f).1, (frameCode f).2)
  | .tct m => ([1, m.src.toNat, m.session.val, m.key.val, m.seq.toNat, m.type.toNat], m.payload)
  | .sbWrite a v => ([2, a.toNat, v.toNat], [])
  | .request h t b => (3 :: t.toNat :: hdrNums h, b)
  | .reply q n bad b => ([4, q.toNat, n.toNat, (bad.map BitVec.toNat).getD 0], b)

/-- The request that a replicated reply answers: of the same queue and number (R370). -/
def State.replyReq (s : State) (q n : Nat) : Option Request :=
  s.fabric.requests.find? (fun r => decide (r.owner.queue = some q) && r.nth == n)

/-- A sideband register write (R406): acted on, and answered by the module whose sideband it came over. -/
def State.sbWriteAct (s : State) (mute : Bool) (a v : Nat) : State :=
  match s.regWrite .sideband a (BitVec.ofNat 64 v) with
  | (ok, s) => if mute then s else s.sbReply 0x03 (if ok then ccOk else ccAccess) []

/-- An item acts as though it had arrived here (R369). `mute`: the partner answers its sender. -/
def State.actItem (s : State) (mute : Bool) : IngressItem → State
  | .host f => s.frameAct f
  | .tct m => s.tctExec m
  | .sbWrite a v => s.sbWriteAct mute a.toNat v.toNat
  | .request h t b => s.requestAct mute h t.toNat b
  | .reply q n bad b =>
    match s.replyReq q.toNat n.toNat with
    | some r => s.answered r (bad.map BitVec.toNat) b
    | none => s

/-! ### The face (R369) -/

/-- The module is the face of a running mirror pair. -/
def State.pairedFace (s : State) : Bool := s.mirror && s.pairState == psPaired && s.role == roleFace

/-- The face quiesces: it holds new ingress unacted (R384, step 3). -/
def State.holdsIngress (s : State) : Bool := s.mirror && s.pairState == psSyncing && s.role == roleFace && s.pend.quiesced

/-- The face numbers an item and sends it to the back; it acts on it when the back has acknowledged it. -/
def State.sendIngress (s : State) (x : IngressItem) : State :=
  let n := s.pend.ingSent + 1
  let s := (s.sendPend 0x31 (n :: (itemCode x).1) (itemCode x).2).setFld R.PEND_ING F.PEND_ING_SENT (n % 2 ^ 32)
  s.updPend (fun p => { p with ingSent := n, heldIn := p.heldIn ++ [(n, x)] })

/-- An ingress item arrives at this module. -/
def State.ingress (s : State) (x : IngressItem) : State :=
  if s.pairedFace then s.sendIngress x
  else if s.holdsIngress then s.updPend (fun p => { p with heldIn := p.heldIn ++ [(0, x)] })
  else s.actItem false x

/-- Held items act in order, up to a number. -/
def State.actHeld (s : State) (mute : Bool) (upTo : Nat) : State :=
  let go := s.pend.heldIn.filter (fun x => decide (x.1 ≤ upTo))
  let s := s.updPend (fun p => { p with heldIn := p.heldIn.filter (fun x => !(decide (x.1 ≤ upTo))) })
  go.foldl (fun s x => (s.updPend (fun p => { p with ingDone := max p.ingDone x.1 })).actItem mute x.2) s

/-- The back has acknowledged every item up to n. -/
def State.ingressAck (s : State) (n : Nat) : State :=
  if s.pairedFace then (s.setFld R.PEND_ING F.PEND_ING_ACKED (n % 2 ^ 32)).actHeld false n else s

/-- INGRESS_ACK (R369). -/
def execIngressAck (n : BitVec 64) (s : State) : Res := s.whenServing (s.ingressAck n.toNat)

/-! ### The back (R369, R370) -/

/-- An item can act: a reply waits for the back's own request (R370), unless that has been issued and given up. -/
def State.actable (s : State) : IngressItem → Bool
  | .reply q n _ _ => (s.replyReq q.toNat n.toNat).isSome || decide (n.toNat < sparseGet s.fabric.issued q.toNat 0)
  | _ => true

/-- The back acts on what it holds, in sequence order, as far as it can; `k` bounds how many. -/
def State.ingressPump (s : State) : Nat → State
  | 0 => s
  | k + 1 =>
    if s.silentBack then
      match s.pend.heldIn with
      | (n, x) :: r =>
        if n = s.pend.ingDone + 1 ∧ s.actable x = true then
          ((s.updPend (fun p => { p with heldIn := r, ingDone := n })).actItem true x).ingressPump k
        else s
      | [] => s
    else s

/-- The back goes on with what it holds. -/
def State.ingressGo (s : State) : State := s.ingressPump s.pend.heldIn.length

/-- Put an item in sequence order, once. -/
def insertItem (n : Nat) (x : IngressItem) : List (Nat × IngressItem) → List (Nat × IngressItem)
  | [] => [(n, x)]
  | (m, y) :: r => if n < m then (n, x) :: (m, y) :: r else if n = m then (m, y) :: r else (m, y) :: insertItem n x r

/-- An item arrives at the back: held, acknowledged with the highest number held without a gap, and acted on in order. -/
def State.ingressRx (s : State) (n : Nat) (x : IngressItem) : State :=
  if s.silentBack then
    let s := if n ≤ s.pend.ingDone then s else s.updPend (fun p => { p with heldIn := insertItem n x p.heldIn })
    (s.sendPend 0x32 [s.ingHigh] []).ingressGo
  else s

/-- INGRESS (R369). -/
def execPendIngress (n : BitVec 64) (x : IngressItem) (s : State) : Res := s.whenServing (s.ingressRx n.toNat x)

/-! ### The end of a pair -/

/-- After a row that may have ended the pair or the join: the face acts on what it held; a back that took over acts on what it
had acknowledged; a module that computes nothing for the host drops it (R369, R375, R380). `back`: it was the back. -/
def State.afterPair (s : State) (back : Bool) : State :=
  if s.pend.heldIn.isEmpty ∨ s.pairState = psPaired ∨ s.holdsIngress = true then s
  else if s.pairState = psBroken then s.updPend (fun p => { p with heldIn := [] })
  else
    let top := if back then s.ingHigh else s.pend.heldIn.foldl (fun n x => max n x.1) 0
    (s.actHeld back top).updPend (fun p => { p with heldIn := [] })

/-- A row that may end the pair. -/
def State.pairRow (s : State) (f : State → State) : State := (f s).afterPair (s.role == roleBack)

/-- JOIN_RESUME (R384): at the next beat boundary both modules are PAIRED and issue again; the face sends the ingress that it
held as the first items. -/
def execJoinResume (s : State) : Res :=
  s.whenServing (
    if s.pairState = psSyncing ∧ s.pend.blocksDone = true then
      let held := s.pend.heldIn
      held.foldl (fun s x => s.ingress x.2) s.pairNow.resumeQueues
    else s)

/-- REPLICATE (R374, R387). -/
def execPendReplicate (q : Fin 240) (n : Nat) (s : State) : Res :=
  s.whenServing (s.pairRow (fun s => s.starting q.val n 0x40 State.pendBody))

/-- BULK. -/
def execPendBulk (b : PendBulk) (s : State) : Res := s.whenMain (s.pairRow (fun s => s.bulkRx b))

/-- DIGEST (R374, R334): the partner's digest arrives and is compared. -/
def execPendDigest (k : DigestKey) (dg : List (BitVec 8)) (s : State) : Res := s.whenServing (s.pairRow (fun s => s.digestRx k dg))

/-- HANDOVER (R382, R386): the partner gives up the face role; the back acts as under R380. -/
def execHandoverRx (s : State) : Res := s.whenServing (if s.silentBack then s.pairRow State.takeover else s)

/-- A HEARTBEAT arrives (R366, R373, R375, R386). A new incarnation is the loss of the partner; a partner that is detaching or
has left lockstep leaves this module serving alone; a back forgets the frames that the face has transmitted. -/
def State.heartbeat (s : State) (st incarn egSent : Nat) : State :=
  if s.pairState ≠ psPaired then s.updPend (fun p => { p with lastHb := s.now })
  else if incarn ≠ (s.reg R.PEND_PEER_INCARN).toNat then s.partnerLost 4
  else
    let s := s.updPend (fun p => { p with lastHb := s.now, probeAt := 0, probeAns := none })
    let s : State := if s.silentBack then { s with replayBuf := s.replayBuf.filter (fun f => decide (egSent < f.1)) } else s
    if st = psDetaching then (if s.silentBack then s.takeover else s.soloNow)
    else if st = psBroken ∧ s.pairedFace = true then s.soloNow
    else s

/-- HEARTBEAT (R366): on pendant port p; the partner's state, incarnation, and frames transmitted as face. -/
def execHeartbeatRx (p : Fin 2) (st : BitVec 8) (incarn egSent : BitVec 64) (s : State) : Res :=
  s.whenMain (if s.pendUp p.val then s.pairRow (fun s => s.heartbeat st.toNat incarn.toNat egSent.toNat) else s)

/-- The outcome of the probe (R379): lost where the membership does not list the partner, the read shows another incarnation,
or PROBE_US has passed without an answer; split where it shows the same one. -/
def State.probeOutcome (s : State) : State :=
  let since := s.pend.probeAt - 1
  if s.pairState ≠ psPaired ∨ s.pend.probeAt = 0 then s
  else if (s.memberIncarn s.partnerAddr).isNone then s.partnerLost 1
  else
    match s.pend.probeAns with
    | some i => if i = (s.reg R.PEND_PEER_INCARN).toNat then s.partnerSplit else s.partnerLost 4
    | none => if since + s.fld R.PEND_CFG F.PEND_CFG_PROBE_US * usTicks ≤ s.now then s.partnerLost 2 else s

/-- PROBE_RESULT (R379). -/
def execProbeResult (s : State) : Res := s.whenMain (s.pairRow State.probeOutcome)

end Sys2Proof.Machine
end

