-- ==== Sys2Proof/Machine/Fabric.lean ====
section
/-!
DEFINITION. Fabric packets that arrive for this module (R300 to R302, R315 to R319, R340, R341): the order of flows, requests
and answers, the end-to-end timeout, and beat tokens.
-/

namespace Sys2Proof.Machine

open Sys2Proof

/-! ### The order of flows (R301, R302) -/

/-- The flow of a packet: broadcasts have their own. -/
def rxKey (h : Hdr) : Nat := flowKey h.src.toNat h.vc.val + (if h.dst = 0xFFFF then 2 ^ 20 else 0)

/-- Ticks of E2E_US. -/
def State.e2e (s : State) : Nat := s.fld R.RYF_CFG F.RYF_CFG_E2E_US * usTicks

/-- A read follows a held request of its own flow, which must act first (R301). -/
def State.followsHeld (s : State) (h : Hdr) : Bool :=
  s.pend.heldIn.any (fun x => match x.2 with
    | .request g _ _ => rxKey g == rxKey h
    | _ => false)

/-- A packet in its turn: a segment, a retraction, or a request, which at a paired face is ingress where it changes state
(R369). -/
def State.deliver (s : State) (r : RawPkt) : State :=
  let h := r.hdr
  let t := r.type
  if s.mode = mEarly ∧ 0x20 ≤ t then
    (if t = tRedHdr then s.respond h tRedAck true (h.addr.toNat + leField r.body 8 4) [BitVec.ofNat 8 stAddress]
     else if t = tRetract then s.respond h tRetractAck true 0 [BitVec.ofNat 8 stAddress]
     else s)
  else if t = tRedHdr then s.redHdrRx h r.body
  else if t = tRedData then s.redDataRx h r.body
  else if t = tRetract then s.retractRx h r.body
  else if h.dst = 0xFFFF then s.bcastAct h r.body
  else if t = tWrite ∨ t = tRegWr ∨ t = tLockOp ∨ s.followsHeld h = true then
    s.ingress (.request h (BitVec.ofNat 6 t) r.body)
  else s.requestAct false h t r.body

/-- Answer again a request that has been executed (R302). -/
def State.answerAgain (s : State) (h : Hdr) (x : Executed) : State :=
  s.sendRaw { hdr := { dst := h.src, src := BitVec.ofNat 16 s.ownAddr, vc := h.vc, hops := 0, err := x.err, retry := false,
                       seq := h.seq, addr := BitVec.ofNat 48 x.addr }, type := x.type, body := x.body }

/-- The next SEQ expected of a flow. -/
def State.expected (s : State) (key : Nat) : Nat := sparseGet s.fabric.rxFlow key 0

def State.setExpected (s : State) (key n : Nat) : State :=
  { s with fabric := { s.fabric with rxFlow := sparseSet s.fabric.rxFlow key (n % 65536) 0 } }

/-- Packets that were held for a missing one, and follow without a gap now; `k` bounds how many. -/
def State.drainFlow (s : State) (key : Nat) : Nat → State
  | 0 => s
  | k + 1 =>
    match s.fabric.early.find? (fun w => rxKey w.2.hdr == key && w.2.hdr.seq.toNat == s.expected key) with
    | none => s
    | some w =>
      let t : State := { s with fabric := { s.fabric with early := s.fabric.early.filter (fun x => x != w) } }
      ((t.setExpected key (w.2.hdr.seq.toNat + 1)).deliver w.2).drainFlow key k

/-- A flow's missing packet is given up: the first packet held for it is next (R301, R302). -/
def State.skipGap (s : State) (key : Nat) : State :=
  let at_ := s.expected key
  let ahead := fun (w : Nat × RawPkt) => (w.2.hdr.seq.toNat + 65536 - at_) % 65536
  let held := s.fabric.early.filter (fun w => rxKey w.2.hdr == key)
  match held.foldl (fun (b : Option Nat) w => match b with
      | none => some (ahead w)
      | some n => some (min n (ahead w))) none with
  | none => s
  | some n => (s.setExpected key (at_ + n)).drainFlow key held.length

/-- Gaps whose first held packet has waited for the sender's two timeouts are given up. -/
def State.giveUpGaps (s : State) : State :=
  let old := s.fabric.early.filter (fun w => decide (w.1 + 2 * s.e2e ≤ s.now))
  (dedupNat (old.map (fun w => rxKey w.2.hdr))).foldl (fun s key => s.skipGap key) s

/-- A packet of this module's enters its flow (R301): delivered in SEQ order on VC0 to VC11, in any order above; one that was
executed is answered again, and not executed again (R302). -/
def State.inFlow (s : State) (r : RawPkt) : State :=
  let h := r.hdr
  match s.findExecuted h with
  | some x => s.answerAgain h x
  | none =>
    if 12 ≤ h.vc.val then s.deliver r
    else
      let s := s.giveUpGaps
      let key := rxKey h
      let d := (h.seq.toNat + 65536 - s.expected key) % 65536
      if d = 0 then ((s.setExpected key (h.seq.toNat + 1)).deliver r).drainFlow key s.fabric.early.length
      else if 32768 ≤ d then s
      else if s.fabric.early.any (fun w => w.2.hdr.seq == h.seq && rxKey w.2.hdr == key) then s
      else { s with fabric := { s.fabric with early := s.fabric.early ++ [(s.now, r)] } }

/-! ### Arrivals -/

/-- A packet addressed to this module arrives: discarded and counted on a VC of another type (R300); an excluded module has
VC0 alone (R309). -/
def State.packetRx (s : State) (h : Hdr) (type : Nat) (f : State → State) : State :=
  if vcOk type h.vc.val = false then s.count R.RYF_CNT F.RYF_CNT_BADVC 1
  else if s.ownAddr = 0 ∨ h.dst.toNat ≠ s.ownAddr ∨ s.fld R.RYF_STAT F.RYF_STAT_EXCLUDED = 1 then s
  else f s

/-- A request packet arrives. -/
def State.requestRx (s : State) (h : Hdr) (type : Nat) (body : List Byte) : State :=
  s.packetRx h type (fun s => s.inFlow { hdr := h, type := type, body := body })

/-- An answer to a request of this module takes effect, at a paired face as an ingress item (R369). A broadcast's outcome is
known when the last member has answered or the first has refused (R317). -/
def State.replyRx (s : State) (r : Request) (bad : Option Nat) (body : List Byte) : State :=
  let more := match r.owner with
    | .bcast _ _ => bad.isNone && s.fabric.requests.any (fun x => x.owner == r.owner && x.seq == r.seq && x.dst != r.dst)
    | _ => false
  if more then s.dropReq r
  else
    match r.owner.queue with
    | some q =>
      if s.pairedFace then
        (if s.pend.heldIn.any (fun x => match x.2 with
            | .reply p n _ _ => p.toNat == q && n.toNat == r.nth
            | _ => false) then s
         else s.ingress (.reply (BitVec.ofNat 8 q) (BitVec.ofNat 64 r.nth) (bad.map (BitVec.ofNat 8)) body))
      else s.answered r bad body
    | none => s.answered r bad body

/-- A response packet arrives (R302): it answers the request that it names, if one waits. A LOCK that has joined its waiter list
waits on, its request answered. -/
def State.responseRx (s : State) (h : Hdr) (type : Nat) (body : List Byte) : State :=
  s.packetRx h type (fun s =>
    match s.findReq h with
    | none => s
    | some r =>
      if type ≠ answerType r.type then s
      else if type = tLockResp ∧ h.err = false ∧ leField body 0 1 = lockJoined then
        { s with fabric := { s.fabric with requests := s.fabric.requests.map (fun x => if x = r then { x with joined := true } else x) } }
      else s.replyRx r (if h.err then some (leField body 0 1) else none) body)

/-- WRITE (R315). -/
def execFabricWrite (h : Hdr) (body : List (BitVec 8)) (s : State) : Res := s.whenServing (s.requestRx h tWrite body)
/-- READ_REQ (R315). -/
def execReadReq (h : Hdr) (body : List (BitVec 8)) (s : State) : Res := s.whenServing (s.requestRx h tReadReq body)
/-- FABRIC_REG_RD (R316): a REG_RD. -/
def execFabricRegRd (h : Hdr) (s : State) : Res := s.whenServing (s.requestRx h tRegRd [])
/-- LOCK_OP (R238). -/
def execLockOp (h : Hdr) (k : LockReqKind) (w : LockWho) (s : State) : Res :=
  s.whenServing (s.requestRx h tLockOp ([BitVec.ofNat 8 (lockKind k), w.unit, w.queue] ++ leBytes w.incarn.toNat 8 ++
    leBytes w.qincarn.toNat 4))
/-- READ_RESP (R302). -/
def execReadResp (h : Hdr) (body : List (BitVec 8)) (s : State) : Res := s.whenServing (s.responseRx h tReadResp body)
/-- WRITE_ACK (R302). -/
def execWriteAck (h : Hdr) (body : List (BitVec 8)) (s : State) : Res := s.whenServing (s.responseRx h tWriteAck body)
/-- LOCK_RESP (R240): its status. -/
def execLockResp (h : Hdr) (status : BitVec 8) (s : State) : Res := s.whenServing (s.responseRx h tLockResp [status])
/-- RED_HDR (R341). -/
def execRedHdr (h : Hdr) (body : List (BitVec 8)) (s : State) : Res := s.whenServing (s.requestRx h tRedHdr body)
/-- RED_DATA (R341). -/
def execRedData (h : Hdr) (body : List (BitVec 8)) (s : State) : Res := s.whenServing (s.requestRx h tRedData body)
/-- RETRACT (R340). -/
def execRetractRx (h : Hdr) (body : List (BitVec 8)) (s : State) : Res := s.whenServing (s.requestRx h tRetract body)
/-- RETRACT_ACK (R341). -/
def execRetractAck (h : Hdr) (body : List (BitVec 8)) (s : State) : Res := s.whenServing (s.responseRx h tRetractAck body)

/-- A collective's send has failed: it ends with ERROR_LINK (R331, R342). -/
def State.redFailed (s : State) (q n : Nat) : State :=
  match s.findColl q n with
  | some c => (s.putColl { c with linkFail := true }).pump q n
  | none => s

/-- RED_ACK (R341). One that refuses is a failed send. -/
def execRedAck (h : Hdr) (body : List (BitVec 8)) (s : State) : Res :=
  s.whenServing (s.packetRx h tRedAck (fun s =>
    let bad := if h.err then s.redTx.find? (fun x => x.dst == h.src.toNat && x.vc == h.vc.val && x.seq == h.seq.toNat) else none
    let _ := body
    let s := s.redAckRx h
    match bad with
    | some x => s.redFailed x.queue x.qseq
    | none => s))

/-- A flooded packet has been here before (R317, R318). -/
def State.seenFlood (s : State) (k n : Nat) : Bool := s.fabric.tokens.contains (k, n)

/-- Remember a flooded packet; the last 256 are kept (log 38). -/
def State.noteFlood (s : State) (k n : Nat) : State :=
  { s with fabric := { s.fabric with tokens := (k, n) :: s.fabric.tokens.take 255 } }

/-- A broadcast register write arrives on port p (R317, log 33): its first copy goes on over the other version-3 ports and acts
here, but at the partner of its sender in a running pair, which makes the same write itself (R370). -/
def State.bcastRx (s : State) (p : Nat) (h : Hdr) (body : List Byte) : State :=
  if vcOk tRegWr h.vc.val = false then s.count R.RYF_CNT F.RYF_CNT_BADVC 1
  else
    let k := 2 ^ 64 + 2 * h.src.toNat + b2n h.retry
    if s.portV3 p = false ∨ s.ownAddr = 0 ∨ h.src.toNat = s.ownAddr ∨ s.seenFlood k h.seq.toNat = true then s
    else
      let s := s.noteFlood k h.seq.toNat
      let s := if h.hops.val = 63 then s.count R.RYF_CNT F.RYF_CNT_HOPS 1
        else s.bcastOut { hdr := { h with hops := h.hops + 1 }, type := tRegWr, body := body } (some p)
      if s.silentBack ∧ h.src.toNat = s.partnerAddr then
        s.respond h tWriteAck false (h.addr.toNat + bcastMark) []
      else s.inFlow { hdr := h, type := tRegWr, body := body }

/-- FABRIC_REG_WR (R316, R317): a REG_WR arrives on port p, to this module or broadcast. -/
def execFabricRegWr (p : Fin 16) (h : Hdr) (body : List (BitVec 8)) (s : State) : Res :=
  s.whenServing (if h.dst = 0xFFFF then s.bcastRx p.val h body else s.requestRx h tRegWr body)

/-! ### The end-to-end timeout (R302) -/

/-- A request ends with ERROR_LINK. -/
def State.linkEnd (s : State) (r : Request) : State :=
  (s.count R.RYF_CNT F.RYF_CNT_E2E_FAIL 1).replyRx r (some stLink) [BitVec.ofNat 8 stLink]

/-- A reply to this request is already on its way through the pair (R369). -/
def State.replyHeld (s : State) (r : Request) : Bool :=
  match r.owner.queue with
  | some q => s.pend.heldIn.any (fun x => match x.2 with
      | .reply p n _ _ => p.toNat == q && n.toNat == r.nth
      | _ => false)
  | none => false

/-- A request is sent again, with RETRY; a broadcast once for all its members. -/
def State.resend (s : State) (r : Request) : State :=
  let again := fun (x : Request) => x == r || (match r.owner with
    | .bcast _ _ => x.owner == r.owner && x.seq == r.seq
    | _ => false)
  let s : State := { s with fabric := { s.fabric with requests := s.fabric.requests.map (fun x =>
      if again x then { x with resent := true, sentAt := s.now } else x) } }
  let s := s.count R.RYF_CNT F.RYF_CNT_RESENT 1
  let h : Hdr := { dst := BitVec.ofNat 16 r.dst, src := BitVec.ofNat 16 s.ownAddr, vc := vcOf r.vc, hops := 0, err := false, retry := true,
                   seq := BitVec.ofNat 16 r.seq, addr := BitVec.ofNat 48 r.addr }
  match r.owner with
  | .bcast _ _ => s.bcastOut { hdr := { h with dst := 0xFFFF }, type := r.type, body := r.body } none
  | _ => s.sendRaw { hdr := h, type := r.type, body := r.body }

/-- A request has waited (R302, R240): resent after E2E_US, ended with ERROR_LINK after a second. One that joined a waiter list
ends so when its store can no longer be reached. A back's own requests wait for the face's replies (R370). -/
def State.reqTimeout (s : State) (r : Request) : State :=
  if s.fabric.requests.contains r = false ∨ s.replyHeld r = true then s
  else if s.silentBack ∧ r.type < 0x20 ∧ r.owner ≠ .probe then s
  else if r.joined then (if (s.memberIncarn r.dst).isSome && s.routeKnown r.dst r.vc then s else s.linkEnd r)
  else if s.now < r.sentAt + s.e2e then s
  else if r.resent then s.linkEnd r
  else s.resend r

/-- A segment has waited: the whole segment is sent again; after a second time its collective ends with ERROR_LINK. -/
def State.redTimeout (s : State) (x : RedTx) : State :=
  if s.redTx.contains x = false ∨ s.now < x.sentAt + s.e2e then s
  else if x.resent then
    let s : State := { s with redTx := s.redTx.filter (fun y => y != x) }
    (s.count R.RYF_CNT F.RYF_CNT_E2E_FAIL 1).redFailed x.queue x.qseq
  else
    let s : State := { s with redTx := s.redTx.map (fun y => if y = x then { y with resent := true, sentAt := s.now } else y) }
    x.pkts.zipIdx.foldl (fun s p =>
      s.sendRaw { hdr := { dst := BitVec.ofNat 16 x.dst, src := BitVec.ofNat 16 s.ownAddr, vc := vcOf x.vc, hops := 0, err := false,
                           retry := true, seq := BitVec.ofNat 16 (x.seq + p.2), addr := BitVec.ofNat 48 p.1.2.1 },
                  type := p.1.1, body := p.1.2.2 }) (s.count R.RYF_CNT F.RYF_CNT_RESENT 1)

/-- E2E_TIMEOUT (R302): every request and segment that has waited its time; held packets whose gap is given up (R301). -/
def execE2eTimeout (s : State) : Res :=
  s.whenMain (
    let reqs := s.fabric.requests
    let segs := s.redTx
    let s := reqs.foldl State.reqTimeout s
    let s := segs.foldl State.redTimeout s
    s.giveUpGaps)

/-! ### Rows that are the arrival of one answer (R203, R489) -/

/-- LD_RESPONSE (R203): the reply to queue q's remote LD: its value, or ERR with a status in byte 0. -/
def execLdResponse (q : Fin 240) (err : Bool) (body : List (BitVec 8)) (s : State) : Res :=
  s.whenMain (
    match s.fabric.requests.find? (fun r => decide (r.owner = .load q.val)) with
    | some r => s.replyRx r (if err then some (leField body 0 1) else none) body
    | none => s)

/-- ST_REMOTE_OUTCOME (R489): the refusal or link failure, with its status, of the ST that queue q sent with SEQ k. -/
def execStRemoteOutcome (q : Fin 240) (k : BitVec 16) (status : BitVec 8) (s : State) : Res :=
  s.whenMain (
    match s.fabric.requests.find? (fun r => r.seq == k.toNat && (match r.owner with
      | .store x _ => x == q.val
      | .bcast x _ => x == q.val
      | _ => false)) with
    | some r => s.replyRx r (some status.toNat) [status]
    | none => s)

/-! ### Beat tokens (R39, R318, R319) -/

/-- TU as ac of the hub clock with 16 fraction bits. -/
def State.tuToAc (s : State) (n : Nat) : Nat := n * 126 * 65536 / (16 * acTicks s.hubPoint)

/-- Rank and serial in order (R39). -/
def lowerPair (a b : Nat × Nat) : Bool := decide (a.1 < b.1) || (a.1 == b.1 && decide (a.2 < b.2))

/-- The tracker of a takeover master that becomes a follower (R39): while a follower's window for the boundary just passed is
still open, that boundary is the one it awaits (log 38). -/
def Tracker.yielded (t : Tracker) (recent : Bool) : Tracker :=
  if recent && decide (2 ^ 33 ≤ t.pos1) then
    { t with t0 := t.lastE - t.per, pos0 := t.pos1 - 2 ^ 33, t1 := t.lastE, pos1 := t.pos1 - 2 ^ 32, lastE := t.lastE - t.per,
             lastReal := false, coasted := 0 }
  else { t with lastReal := false, coasted := 0 }

/-- A token of a master reaches the tracker, with its edge at time e (R39, R46). The master with the lowest pair is followed; a
higher one only where the followed one's tokens have stopped (log 38). -/
def State.tokenEdge (s : State) (e num rank serial : Nat) : State :=
  let m := (rank, serial)
  let st := s.beatState
  if s.fld R.BEAT_CFG F.BEAT_CFG_SOURCE ≠ 2 then s
  else if st = 5 then
    (if lowerPair m (s.fld R.BEAT_CFG F.BEAT_CFG_MASTER_RANK, s.serial) then
       let s := (s.setBeatState 2).setFld R.BEAT_STAT F.BEAT_STAT_TAKEN_OVER 0
       let s : State := { s with tracker := s.tracker.yielded (decide (absDiff e s.tracker.lastE ≤ s.beatWindow s.tracker.per)) }
       (s.follow (some m)).trackerEdge e (some num)
     else s)
  else
    let stopped := st == 3 || s.tracker.acq.isEmpty && st != 2
    let ok := match s.tracker.follow with
      | none => true
      | some f => f == m || lowerPair m f || stopped
    if ok = false then s
    else
      let s := if s.tracker.follow = some m then s
        else ({ s with tracker := { s.tracker with acq := [] } } : State).follow (some m)
      s.trackerEdge e (some num)

/-- A token arrives on port p; `res` is its residence time in TU, arrival to departure, which the port measures (R318, R319). -/
def State.tokenRx (s : State) (p : Nat) (h : Hdr) (res : Nat) (b : List Byte) : State :=
  let num := leField b 0 6
  let serial := leField b 8 8
  let rank := leField b 16 1
  let corr := leField b 24 4
  if vcOk 0x10 h.vc.val = false then s.count R.RYF_CNT F.RYF_CNT_BADVC 1
  else if s.portV3 p = false ∨ b.length ≠ 32 ∨ serial = s.serial ∨ s.seenFlood serial num = true then s
  else
    let s := s.noteFlood serial num
    let lat := s.fld (R.RYF_PORT_LAT p) F.RYF_PORT_LAT_L
    let s := if h.hops.val = 63 then s.count R.RYF_CNT F.RYF_CNT_HOPS 1
      else s.bcastOut { hdr := { h with hops := h.hops + 1 }, type := 0x10, body := tokenBody num serial rank ((corr + lat + res) % 2 ^ 32) }
        (some p)
    if s.mode = mEarly then s
    else
      let (e, s) := s.jitter (s.hubTime - s.tuToAc (corr + lat))
      match e with
      | some e => s.tokenEdge e num rank serial
      | none => s

/-- BEAT (R318). -/
def execBeatToken (p : Fin 16) (h : Hdr) (res : BitVec 32) (body : List (BitVec 8)) (s : State) : Res :=
  s.whenMain (s.tokenRx p.val h res.toNat body)

end Sys2Proof.Machine
end

