-- ==== Sys2Proof/Machine/HostRows.lean ====
section
/-!
DEFINITION. The rows of what arrives at the host port and the sideband (R368, R391 to R406), and the security engine's signature
(R420).
-/

namespace Sys2Proof.Machine

open Sys2Proof

/-! ### Frames (R368, R391) -/

/-- What the port does with a frame while it is up: a silent module drops and counts every one (R368); the checks of R391 drop
and count; a TCT datagram goes through R398; the rest is ingress. -/
def State.frameRx (s : State) (size : Nat) (fcsOk : Bool) (tag : Option (BitVec 12)) (f : FrameBody) : State :=
  let vid := (tag.getD 0).toNat
  let wrongVid := vid != 0 && !(s.fld R.HOSTP_CFG F.HOSTP_CFG_VLAN_EN == 1 && vid == s.fld R.HOSTP_CFG F.HOSTP_CFG_VID)
  let silent := s.fld R.HOSTP_STAT F.HOSTP_STAT_SILENT == 1
  if silent then s.count R.PEND_CNT F.PEND_CNT_BACK_DROP 1
  else if fcsOk = false then s.count R.HOSTP_RXDROP F.HOSTP_RXDROP_FCS 1
  else if size < 64 ∨ 9216 < size then s.count R.HOSTP_RXDROP F.HOSTP_RXDROP_SIZE 1
  else if wrongVid then s.count R.HOSTP_RXDROP F.HOSTP_RXDROP_VLAN 1
  else if s.frameUnsupported f then s.count R.HOSTP_RXDROP F.HOSTP_RXDROP_UNSUPPORTED 1
  else
    match f with
    | .tct src d =>
      match s.tctCheck src d with
      | (some m, s) => s.ingress (.tct m)
      | (none, s) => s
    | .recovery _ _ => s
    | f => s.ingress (.host f)

/-- What the boot ROM does with a frame in RECOVERY (R416): the recovery protocol, and the solicitations and echo requests that
its link-local address needs. -/
def State.frameRecovery (s : State) (size : Nat) (fcsOk : Bool) (tag : Option (BitVec 12)) (f : FrameBody) : State :=
  if fcsOk = false ∨ size < 64 ∨ 9216 < size ∨ (tag.getD 0) ≠ 0 then s
  else
    match f with
    | .recovery src b => s.recoveryRx src b
    | .neighbor t => s.neighborRx t.toNat
    | .echo false b => s.frameAct (.echo false b)
    | _ => s

/-- HOST_FRAME_RX (R391). -/
def execHostFrameRx (size : BitVec 16) (fcsOk : Bool) (tag : Option (BitVec 12)) (f : FrameBody) (s : State) : Res :=
  s.alive (
    if s.hostUp = false then s
    else if s.serving then s.frameRx size.toNat fcsOk tag f
    else if s.recovering then s.frameRecovery size.toNat fcsOk tag f
    else s)

/-- A RoCEv2 message that has passed the checks of its frames: a silent module drops it (R368), else it is ingress. -/
def State.roceRow (s : State) (f : FrameBody) : State :=
  if s.hostUp = false then s
  else if s.fld R.HOSTP_STAT F.HOSTP_STAT_SILENT = 1 then s.count R.PEND_CNT F.PEND_CNT_BACK_DROP 1
  else s.ingress (.host f)

/-- RDMA_WRITE (R394, R396). -/
def execRdmaWrite (qp psn : BitVec 24) (rkey : BitVec 32) (va : BitVec 64) (data : List (BitVec 8)) (ce : Bool) (s : State) : Res :=
  s.whenServing (s.roceRow (.rdmaWrite qp psn rkey va data ce))

/-- RDMA_READ (R394). -/
def execRdmaRead (qp psn : BitVec 24) (rkey : BitVec 32) (va : BitVec 64) (len : BitVec 32) (ce : Bool) (s : State) : Res :=
  s.whenServing (s.roceRow (.rdmaRead qp psn rkey va len ce))

/-- SEND (R395). -/
def execRdmaSend (qp psn : BitVec 24) (data : List (BitVec 8)) (ce : Bool) (s : State) : Res :=
  s.whenServing (s.roceRow (.send qp psn data ce))

/-- ROCE_ACK_RX (R392). -/
def execRoceAckRx (qp psn : BitVec 24) (nak : Bool) (s : State) : Res := s.whenServing (s.roceRow (.ack qp psn nak))

/-- CNP_RX (R392). -/
def execCnpRx (qp : BitVec 24) (s : State) : Res := s.whenServing (s.roceRow (.cnp qp))

/-! ### TCT messages (R398 to R402) -/

/-- A message of type t whose frame, tag and INCARN are good: its key slot and payload length are checked, a silent module
drops it, and else it is ingress. -/
def State.tctRow (s : State) (m : TctHead) (t : Nat) (payload : List Byte) : State :=
  if s.hostUp = false then s
  else if s.fld R.HOSTP_STAT F.HOSTP_STAT_SILENT = 1 then s.count R.PEND_CNT F.PEND_CNT_BACK_DROP 1
  else if s.keyLoaded m.key.val = false ∨ tctLenOk t payload.length = false then
    s.count R.HOSTP_TCT_CNT F.HOSTP_TCT_CNT_TAG_BAD 1
  else
    s.ingress (.tct { src := m.src, session := m.session, key := m.key, seq := m.seq, type := BitVec.ofNat 8 t, payload := payload })

/-- REG_RD of TCT (R400). -/
def execTctRegRd (m : TctHead) (addr : BitVec 64) (s : State) : Res :=
  s.whenServing (s.tctRow m tctRegRd (leBytes addr.toNat 8))

/-- REG_WR of TCT (R400). -/
def execTctRegWr (m : TctHead) (addr value : BitVec 64) (s : State) : Res :=
  s.whenServing (s.tctRow m tctRegWr (leBytes addr.toNat 8 ++ leBytes value.toNat 8))

/-- MEM_RD (R400). -/
def execMemRd (m : TctHead) (addr : BitVec 64) (len : BitVec 32) (s : State) : Res :=
  s.whenServing (s.tctRow m tctMemRd (leBytes addr.toNat 8 ++ leBytes len.toNat 4))

/-- MEM_WR (R400). -/
def execMemWr (m : TctHead) (addr : BitVec 64) (data : List (BitVec 8)) (s : State) : Res :=
  s.whenServing (s.tctRow m tctMemWr (leBytes addr.toNat 8 ++ data))

/-- DOORBELL (R401). -/
def execTctDoorbell (m : TctHead) (addr : BitVec 64) (value qpn psn : BitVec 32) (s : State) : Res :=
  s.whenServing (s.tctRow m tctDoorbell (leBytes addr.toNat 8 ++ leBytes value.toNat 4 ++ leBytes qpn.toNat 4 ++ leBytes psn.toNat 4))

/-- EVENT_ACK (R402). -/
def execEventAck (m : TctHead) (n : BitVec 64) (s : State) : Res := s.whenServing (s.tctRow m tctEventAck (leBytes n.toNat 8))

/-! ### Sideband registers (R406) -/

/-- What a register access of the sideband answers before it is made: an access error where there is no register, and in AON
the state error for every register but those of the always-on functions. -/
def State.sbAccess (s : State) (a : Nat) : Nat :=
  match (if a % 8 = 0 then blockOf a else none) with
  | none => ccAccess
  | some (b, _) =>
    if s.mode = mAon ∧ b ≠ .hubId ∧ a ≠ R.HOSTP_ALERT ∧ a ≠ R.HOSTP_KEYSTAT ∧ a ≠ R.HOSTP_SB then ccState else ccOk

/-- SB_REG_RD (R406). -/
def execSbRegRd (addr : BitVec 64) (s : State) : Res :=
  s.sideband (
    let c := s.sbAccess addr.toNat
    if c ≠ ccOk then s.sbReply 0x02 c []
    else
      match s.regRead addr.toNat with
      | (some v, s) => s.sbReply 0x02 ccOk (leBytes v 8)
      | (none, s) => s.sbReply 0x02 ccAccess [])

/-- SB_REG_WR (R406): in a mirrored pair the write is ingress (R368). -/
def execSbRegWr (addr value : BitVec 64) (s : State) : Res :=
  s.sideband (
    let c := s.sbAccess addr.toNat
    if c ≠ ccOk then s.sbReply 0x03 c [] else s.ingress (.sbWrite addr value))

/-! ### Identity signatures (R420) -/

/-- A request reaches the head of the queue when no index is left: it is refused. -/
def State.signRefuse (s : State) (o : SignOwner) : State :=
  let s := s.count R.SEC_SIGCNT F.SEC_SIGCNT_REFUSED 1
  match o with
  | .report => s.sbReply 0x10 ccState []
  | .admission _ => s
  | .snapshot => { s with snap := s.snap.map (fun n => { n with signing := 2 }) }
  | .join => s.joinRefuse 2
  | .gone => s

/-- A signature goes to its requester: the report and its signature; the 39 fragments of an ADMIT_RESP (R306); the manifest of a
snapshot (R360); the report of a join (R423). -/
def State.signOut (s : State) (o : SignOwner) (body sig : List Byte) : State :=
  match o with
  | .report => (s.count R.SEC_SIGCNT F.SEC_SIGCNT_REPORTS 1).sbReply 0x10 ccOk (body ++ sig)
  | .admission p =>
    let all := s.identityPub ++ sig
    (List.range 39).foldl (fun s i => s.sendVc0 p tAdmitResp ((all.drop (256 * i)).take 256)) (s.count R.SEC_SIGCNT F.SEC_SIGCNT_ADMIT 1)
  | .snapshot =>
    let s := s.count R.SEC_SIGCNT F.SEC_SIGCNT_SNAPSHOT 1
    { s with snap := s.snap.map (fun n => { n with signing := 3, manifest := body, sig := sig }) }
  | .join => ((s.count R.SEC_SIGCNT F.SEC_SIGCNT_REPORTS 1).joinSigned body sig).joinTry
  | .gone => s

/-- The request at the head of the queue is signed or refused. -/
def State.signHead (s : State) : State :=
  match s.signReqs with
  | [] => s
  | r :: rest =>
    let s := { s with signReqs := rest }
    if 2 ^ 40 ≤ s.idxNext then s.signRefuse r.owner
    else
      let (s, _, body, sig) := s.signNext r.withIndex
      s.signOut r.owner body sig

/-- IDENTITY_SIGN (R420). -/
def execIdentitySign (s : State) : Res := s.alive (s.pairRow State.signHead)

end Sys2Proof.Machine
end

