-- ==== Sys2Proof/Machine/Dispatch.lean ====
section
/-!
DEFINITION. One arm per command: the one direct call of its meaning.
-/

namespace Sys2Proof.Machine

open Sys2Proof

/-- The effect of a command on everything but the queue. -/
def exec (i : Instr) (s : State) : Host.Outcome State Fault Refusal :=
  match i with
  | .auxPowerGood valid node slot lid sbMode => Sys2Proof.Machine.execAuxPowerGood valid node slot lid sbMode s
  | .auxPowerLost => Sys2Proof.Machine.execAuxPowerLost s
  | .mainPowerGood => Sys2Proof.Machine.execMainPowerGood s
  | .mainPowerLoss => Sys2Proof.Machine.execMainPowerLoss s
  | .refclkLoss => Sys2Proof.Machine.execRefclkLoss s
  | .earlyEntry d0 => Sys2Proof.Machine.execEarlyEntry d0 s
  | .bringupComplete dies stks pcFail => Sys2Proof.Machine.execBringupComplete dies stks pcFail s
  | .bringupTimeout dies stks pcFail => Sys2Proof.Machine.execBringupTimeout dies stks pcFail s
  | .warmReset => Sys2Proof.Machine.execWarmReset s
  | .dieReset d force => Sys2Proof.Machine.execDieReset d force s
  | .dieResetComplete d => Sys2Proof.Machine.execDieResetComplete d s
  | .engineReset kind d cv force => Sys2Proof.Machine.execEngineReset kind d cv force s
  | .queueReset q => Sys2Proof.Machine.execQueueReset q s
  | .beatEdge => Sys2Proof.Machine.execBeatEdge s
  | .beatCoast => Sys2Proof.Machine.execBeatCoast s
  | .beatLostEntry => Sys2Proof.Machine.execBeatLostEntry s
  | .masterTakeover => Sys2Proof.Machine.execMasterTakeover s
  | .generatorBoundary => Sys2Proof.Machine.execGeneratorBoundary s
  | .resync => Sys2Proof.Machine.execResync s
  | .releaseHeld => Sys2Proof.Machine.execReleaseHeld s
  | .beatApply => Sys2Proof.Machine.execBeatApply s
  | .beatApplyAtBeat => Sys2Proof.Machine.execBeatApplyAtBeat s
  | .stagedApplyEffect slot => Sys2Proof.Machine.execStagedApplyEffect slot s
  | .waitbRelease q => Sys2Proof.Machine.execWaitbRelease q s
  | .lifetimeMinute => Sys2Proof.Machine.execLifetimeMinute s
  | .beatPosRead => Sys2Proof.Machine.execBeatPosRead s
  | .registerWrite p addr value => Sys2Proof.Machine.execRegisterWrite p addr value s
  | .palStaleWrite d v => Sys2Proof.Machine.execPalStaleWrite d v s
  | .randKeyWrite d n hi v => Sys2Proof.Machine.execRandKeyWrite d n hi v s
  | .randStreamWrite d n v => Sys2Proof.Machine.execRandStreamWrite d n v s
  | .randBindWrite d n v => Sys2Proof.Machine.execRandBindWrite d n v s
  | .prime q n => Sys2Proof.Machine.execPrime q n s
  | .stream q n => Sys2Proof.Machine.execStream q n s
  | .drain q n => Sys2Proof.Machine.execDrain q n s
  | .pack q n => Sys2Proof.Machine.execPack q n s
  | .ringEntryDrain q n => Sys2Proof.Machine.execRingEntryDrain q n s
  | .gatePost d g slot tag => Sys2Proof.Machine.execGatePost d g slot tag s
  | .gateClose d g => Sys2Proof.Machine.execGateClose d g s
  | .canvasRetirement d c kind => Sys2Proof.Machine.execCanvasRetirement d c kind s
  | .canvasRetireWrite d mask => Sys2Proof.Machine.execCanvasRetireWrite d mask s
  | .ddbgAccVRead d => Sys2Proof.Machine.execDdbgAccVRead d s
  | .sliverRun q n => Sys2Proof.Machine.execSliverRun q n s
  | .lendGrant d b => Sys2Proof.Machine.execLendGrant d b s
  | .slvNop d b => Sys2Proof.Machine.execSlvNop d b s
  | .slvEnd d b => Sys2Proof.Machine.execSlvEnd d b s
  | .slvRep d b => Sys2Proof.Machine.execSlvRep d b s
  | .setrb d b => Sys2Proof.Machine.execSetrb d b s
  | .mset d b => Sys2Proof.Machine.execMset d b s
  | .mnot d b => Sys2Proof.Machine.execMnot d b s
  | .mld d b => Sys2Proof.Machine.execMld d b s
  | .mst d b => Sys2Proof.Machine.execMst d b s
  | .slvAdd d b => Sys2Proof.Machine.execSlvAdd d b s
  | .slvSub d b => Sys2Proof.Machine.execSlvSub d b s
  | .slvCmp d b => Sys2Proof.Machine.execSlvCmp d b s
  | .slvMax d b => Sys2Proof.Machine.execSlvMax d b s
  | .slvMin d b => Sys2Proof.Machine.execSlvMin d b s
  | .slvMul d b => Sys2Proof.Machine.execSlvMul d b s
  | .slvAnd d b => Sys2Proof.Machine.execSlvAnd d b s
  | .slvOr d b => Sys2Proof.Machine.execSlvOr d b s
  | .slvXor d b => Sys2Proof.Machine.execSlvXor d b s
  | .slvAndn d b => Sys2Proof.Machine.execSlvAndn d b s
  | .slvNot d b => Sys2Proof.Machine.execSlvNot d b s
  | .slvMov d b => Sys2Proof.Machine.execSlvMov d b s
  | .slvSel d b => Sys2Proof.Machine.execSlvSel d b s
  | .slvConst d b => Sys2Proof.Machine.execSlvConst d b s
  | .slvShl d b => Sys2Proof.Machine.execSlvShl d b s
  | .slvShr d b => Sys2Proof.Machine.execSlvShr d b s
  | .lmul d b => Sys2Proof.Machine.execLmul d b s
  | .ladd d b => Sys2Proof.Machine.execLadd d b s
  | .lmax d b => Sys2Proof.Machine.execLmax d b s
  | .lmin d b => Sys2Proof.Machine.execLmin d b s
  | .fadd d b => Sys2Proof.Machine.execFadd d b s
  | .fsub d b => Sys2Proof.Machine.execFsub d b s
  | .fmul d b => Sys2Proof.Machine.execFmul d b s
  | .fdiv d b => Sys2Proof.Machine.execFdiv d b s
  | .fsqrt d b => Sys2Proof.Machine.execFsqrt d b s
  | .fmax d b => Sys2Proof.Machine.execFmax d b s
  | .fmin d b => Sys2Proof.Machine.execFmin d b s
  | .fcmp d b => Sys2Proof.Machine.execFcmp d b s
  | .slvCvt d b => Sys2Proof.Machine.execSlvCvt d b s
  | .accadd d b => Sys2Proof.Machine.execAccadd d b s
  | .rmask d b => Sys2Proof.Machine.execRmask d b s
  | .slvReduce d b => Sys2Proof.Machine.execSlvReduce d b s
  | .qtailDoorbell q v => Sys2Proof.Machine.execQtailDoorbell q v s
  | .queueEnable q => Sys2Proof.Machine.execQueueEnable q s
  | .queueDisable q => Sys2Proof.Machine.execQueueDisable q s
  | .queueStop q => Sys2Proof.Machine.execQueueStop q s
  | .queueResume q => Sys2Proof.Machine.execQueueResume q s
  | .queueSkip q => Sys2Proof.Machine.execQueueSkip q s
  | .ringEntryTake q => Sys2Proof.Machine.execRingEntryTake q s
  | .cheadWrite q v => Sys2Proof.Machine.execCheadWrite q v s
  | .qNop q => Sys2Proof.Machine.execQNop q s
  | .qEnd q => Sys2Proof.Machine.execQEnd q s
  | .qAdd q => Sys2Proof.Machine.execQAdd q s
  | .qSub q => Sys2Proof.Machine.execQSub q s
  | .qAnd q => Sys2Proof.Machine.execQAnd q s
  | .qOr q => Sys2Proof.Machine.execQOr q s
  | .qXor q => Sys2Proof.Machine.execQXor q s
  | .qShl q => Sys2Proof.Machine.execQShl q s
  | .qShr q => Sys2Proof.Machine.execQShr q s
  | .qSar q => Sys2Proof.Machine.execQSar q s
  | .qMul q => Sys2Proof.Machine.execQMul q s
  | .qMovi q => Sys2Proof.Machine.execQMovi q s
  | .qMovhi q => Sys2Proof.Machine.execQMovhi q s
  | .qSetp q => Sys2Proof.Machine.execQSetp q s
  | .qPlog q => Sys2Proof.Machine.execQPlog q s
  | .qLd q => Sys2Proof.Machine.execQLd q s
  | .ldResponse q err body => Sys2Proof.Machine.execLdResponse q err body s
  | .qSt q => Sys2Proof.Machine.execQSt q s
  | .stRemoteOutcome q k status => Sys2Proof.Machine.execStRemoteOutcome q k status s
  | .qBr q => Sys2Proof.Machine.execQBr q s
  | .qJr q => Sys2Proof.Machine.execQJr q s
  | .qSemwait q => Sys2Proof.Machine.execQSemwait q s
  | .semwaitGrant store ix => Sys2Proof.Machine.execSemwaitGrant store ix s
  | .qSemsig q => Sys2Proof.Machine.execQSemsig q s
  | .qSemadd q => Sys2Proof.Machine.execQSemadd q s
  | .qWaitb q => Sys2Proof.Machine.execQWaitb q s
  | .qWaite q => Sys2Proof.Machine.execQWaite q s
  | .qLock q => Sys2Proof.Machine.execQLock q s
  | .qUnlock q => Sys2Proof.Machine.execQUnlock q s
  | .qFence q => Sys2Proof.Machine.execQFence q s
  | .fenceComplete q => Sys2Proof.Machine.execFenceComplete q s
  | .qRdtime q => Sys2Proof.Machine.execQRdtime q s
  | .qEpoch q => Sys2Proof.Machine.execQEpoch q s
  | .qRbind q => Sys2Proof.Machine.execQRbind q s
  | .qDispatch q => Sys2Proof.Machine.execQDispatch q s
  | .engineBufferFree q => Sys2Proof.Machine.execEngineBufferFree q s
  | .commandCompletion q n => Sys2Proof.Machine.execCommandCompletion q n s
  | .arbGrant pl r u asks => Sys2Proof.Machine.execArbGrant pl r u asks s
  | .arbWindowReset pl r u => Sys2Proof.Machine.execArbWindowReset pl r u s
  | .arbCutoff pl r u => Sys2Proof.Machine.execArbCutoff pl r u s
  | .arbCutWrite pl v => Sys2Proof.Machine.execArbCutWrite pl v s
  | .semWrite pl w v => Sys2Proof.Machine.execSemWrite pl w v s
  | .lockOwnWrite pl ix v => Sys2Proof.Machine.execLockOwnWrite pl ix v s
  | .lockReexamine store => Sys2Proof.Machine.execLockReexamine store s
  | .lockApplyNow hub die => Sys2Proof.Machine.execLockApplyNow hub die s
  | .lockApplyAtBeat hub die => Sys2Proof.Machine.execLockApplyAtBeat hub die s
  | .lockApplyCancel => Sys2Proof.Machine.execLockApplyCancel s
  | .dlockApplyNow d mask => Sys2Proof.Machine.execDlockApplyNow d mask s
  | .dlockApplyAtBeat d mask => Sys2Proof.Machine.execDlockApplyAtBeat d mask s
  | .dlockApplyCancel d => Sys2Proof.Machine.execDlockApplyCancel d s
  | .patrolScrub st => Sys2Proof.Machine.execPatrolScrub st s
  | .hbmRefresh st pc => Sys2Proof.Machine.execHbmRefresh st pc s
  | .pseudoChannelFail st pc => Sys2Proof.Machine.execPseudoChannelFail st pc s
  | .nmaUpdate st => Sys2Proof.Machine.execNmaUpdate st s
  | .nmaCfgWrite st v => Sys2Proof.Machine.execNmaCfgWrite st v s
  | .moveCopy q n => Sys2Proof.Machine.execMoveCopy q n s
  | .moveTranspose q n => Sys2Proof.Machine.execMoveTranspose q n s
  | .moveConvert q n => Sys2Proof.Machine.execMoveConvert q n s
  | .cornerTurn q n => Sys2Proof.Machine.execCornerTurn q n s
  | .moveFill q n => Sys2Proof.Machine.execMoveFill q n s
  | .moveGather q n => Sys2Proof.Machine.execMoveGather q n s
  | .moveScatter q n => Sys2Proof.Machine.execMoveScatter q n s
  | .scatterAcc q n => Sys2Proof.Machine.execScatterAcc q n s
  | .linkUp p v3 credits => Sys2Proof.Machine.execLinkUp p v3 credits s
  | .laneFault p good => Sys2Proof.Machine.execLaneFault p good s
  | .linkFrameRx p lseq lack cvc cn crcOk legal corrected uncorrected vc len => Sys2Proof.Machine.execLinkFrameRx p lseq lack cvc cn crcOk legal corrected uncorrected vc len s
  | .linkRetry p => Sys2Proof.Machine.execLinkRetry p s
  | .helloTimer => Sys2Proof.Machine.execHelloTimer s
  | .helloRx p b => Sys2Proof.Machine.execHelloRx p b s
  | .portDown p lostLock => Sys2Proof.Machine.execPortDown p lostLock s
  | .echoReq p turn => Sys2Proof.Machine.execEchoReq p turn s
  | .echoResp p rtt turn => Sys2Proof.Machine.execEchoResp p rtt turn s
  | .admitChal p nonce => Sys2Proof.Machine.execAdmitChal p nonce s
  | .admitResp p ix b => Sys2Proof.Machine.execAdmitResp p ix b s
  | .electRx p serial => Sys2Proof.Machine.execElectRx p serial s
  | .coordSettle => Sys2Proof.Machine.execCoordSettle s
  | .memberTimer => Sys2Proof.Machine.execMemberTimer s
  | .memberRx p seq coord deputy epoch ms excl => Sys2Proof.Machine.execMemberRx p seq coord deputy epoch ms excl s
  | .deputyTakeover => Sys2Proof.Machine.execDeputyTakeover s
  | .routeRx p epoch ix total first es => Sys2Proof.Machine.execRouteRx p epoch ix total first es s
  | .packetForward h type body => Sys2Proof.Machine.execPacketForward h type body s
  | .vc15Escape => Sys2Proof.Machine.execVc15Escape s
  | .fabricWrite h body => Sys2Proof.Machine.execFabricWrite h body s
  | .readReq h body => Sys2Proof.Machine.execReadReq h body s
  | .readResp h body => Sys2Proof.Machine.execReadResp h body s
  | .writeAck h body => Sys2Proof.Machine.execWriteAck h body s
  | .fabricRegRd h => Sys2Proof.Machine.execFabricRegRd h s
  | .fabricRegWr p h body => Sys2Proof.Machine.execFabricRegWr p h body s
  | .lockOp h k w => Sys2Proof.Machine.execLockOp h k w s
  | .lockResp h status => Sys2Proof.Machine.execLockResp h status s
  | .e2eTimeout => Sys2Proof.Machine.execE2eTimeout s
  | .beatToken p h res body => Sys2Proof.Machine.execBeatToken p h res body s
  | .ryfMqAddrWrite v => Sys2Proof.Machine.execRyfMqAddrWrite v s
  | .groupRegister v => Sys2Proof.Machine.execGroupRegister v s
  | .groupUnregister v => Sys2Proof.Machine.execGroupUnregister v s
  | .reduceScatter q n => Sys2Proof.Machine.execReduceScatter q n s
  | .allGather q n => Sys2Proof.Machine.execAllGather q n s
  | .allReduce q n => Sys2Proof.Machine.execAllReduce q n s
  | .broadcast q n => Sys2Proof.Machine.execBroadcast q n s
  | .closeReduce q n => Sys2Proof.Machine.execCloseReduce q n s
  | .redHdr h body => Sys2Proof.Machine.execRedHdr h body s
  | .redData h body => Sys2Proof.Machine.execRedData h body s
  | .redAck h body => Sys2Proof.Machine.execRedAck h body s
  | .reduceStep q n => Sys2Proof.Machine.execReduceStep q n s
  | .substitutionPoint q n rank => Sys2Proof.Machine.execSubstitutionPoint q n rank s
  | .retractRx h body => Sys2Proof.Machine.execRetractRx h body s
  | .retractAck h body => Sys2Proof.Machine.execRetractAck h body s
  | .redVetoSetWrite v => Sys2Proof.Machine.execRedVetoSetWrite v s
  | .settlement => Sys2Proof.Machine.execSettlement s
  | .trnSettleLocal v => Sys2Proof.Machine.execTrnSettleLocal v s
  | .trnSettledWrite v => Sys2Proof.Machine.execTrnSettledWrite v s
  | .lossWatch v => Sys2Proof.Machine.execLossWatch v s
  | .lwStateWrite v => Sys2Proof.Machine.execLwStateWrite v s
  | .outOfStepClear => Sys2Proof.Machine.execOutOfStepClear s
  | .evalSlotStart => Sys2Proof.Machine.execEvalSlotStart s
  | .evalSlotEnd => Sys2Proof.Machine.execEvalSlotEnd s
  | .snapshotStart => Sys2Proof.Machine.execSnapshotStart s
  | .snapshotRegion => Sys2Proof.Machine.execSnapshotRegion s
  | .snapshotEnd => Sys2Proof.Machine.execSnapshotEnd s
  | .snapshotAbort => Sys2Proof.Machine.execSnapshotAbort s
  | .ckptConfirm v => Sys2Proof.Machine.execCkptConfirm v s
  | .heartbeatTimer => Sys2Proof.Machine.execHeartbeatTimer s
  | .heartbeatRx p st incarn egSent => Sys2Proof.Machine.execHeartbeatRx p st incarn egSent s
  | .partnerSilence => Sys2Proof.Machine.execPartnerSilence s
  | .probeResult => Sys2Proof.Machine.execProbeResult s
  | .neighborAdvertRepeat => Sys2Proof.Machine.execNeighborAdvertRepeat s
  | .pendIngress n x => Sys2Proof.Machine.execPendIngress n x s
  | .ingressAck n => Sys2Proof.Machine.execIngressAck n s
  | .pendManifest d g n body => Sys2Proof.Machine.execPendManifest d g n body s
  | .pendDigest k dg => Sys2Proof.Machine.execPendDigest k dg s
  | .digestTimeout q n => Sys2Proof.Machine.execDigestTimeout q n s
  | .pendBulk b => Sys2Proof.Machine.execPendBulk b s
  | .pendConfirm k => Sys2Proof.Machine.execPendConfirm k s
  | .confirmAck k => Sys2Proof.Machine.execConfirmAck k s
  | .confirmTimeout => Sys2Proof.Machine.execConfirmTimeout s
  | .handoverRx => Sys2Proof.Machine.execHandoverRx s
  | .pendRecovReq p off => Sys2Proof.Machine.execPendRecovReq p off s
  | .pendRecovData p off b => Sys2Proof.Machine.execPendRecovData p off b s
  | .recovEnd p total => Sys2Proof.Machine.execRecovEnd p total s
  | .recovReqTimer => Sys2Proof.Machine.execRecovReqTimer s
  | .pairJoin => Sys2Proof.Machine.execPairJoin s
  | .joinQuiesce => Sys2Proof.Machine.execJoinQuiesce s
  | .joinResume => Sys2Proof.Machine.execJoinResume s
  | .pairDetach => Sys2Proof.Machine.execPairDetach s
  | .detachComplete => Sys2Proof.Machine.execDetachComplete s
  | .pairRestore => Sys2Proof.Machine.execPairRestore s
  | .pairForget => Sys2Proof.Machine.execPairForget s
  | .pendReplicate q n => Sys2Proof.Machine.execPendReplicate q n s
  | .pendDelta q n => Sys2Proof.Machine.execPendDelta q n s
  | .resyncTransfer q n => Sys2Proof.Machine.execResyncTransfer q n s
  | .hostLinkUp => Sys2Proof.Machine.execHostLinkUp s
  | .hostFrameRx size fcsOk tag f => Sys2Proof.Machine.execHostFrameRx size fcsOk tag f s
  | .rdmaWrite qp psn rkey va data ce => Sys2Proof.Machine.execRdmaWrite qp psn rkey va data ce s
  | .rdmaRead qp psn rkey va len ce => Sys2Proof.Machine.execRdmaRead qp psn rkey va len ce s
  | .rdmaSend qp psn data ce => Sys2Proof.Machine.execRdmaSend qp psn data ce s
  | .roceAckRx qp psn nak => Sys2Proof.Machine.execRoceAckRx qp psn nak s
  | .cnpRx qp => Sys2Proof.Machine.execCnpRx qp s
  | .roceRetransmitTimeout qp => Sys2Proof.Machine.execRoceRetransmitTimeout qp s
  | .roceRateRecover qp => Sys2Proof.Machine.execRoceRateRecover qp s
  | .qpLoad qp => Sys2Proof.Machine.execQpLoad qp s
  | .qpReset qp => Sys2Proof.Machine.execQpReset qp s
  | .tctRegRd m addr => Sys2Proof.Machine.execTctRegRd m addr s
  | .tctRegWr m addr value => Sys2Proof.Machine.execTctRegWr m addr value s
  | .memRd m addr len => Sys2Proof.Machine.execMemRd m addr len s
  | .memWr m addr data => Sys2Proof.Machine.execMemWr m addr data s
  | .tctDoorbell m addr value qpn psn => Sys2Proof.Machine.execTctDoorbell m addr value qpn psn s
  | .doorbellRelease => Sys2Proof.Machine.execDoorbellRelease s
  | .eventAck m n => Sys2Proof.Machine.execEventAck m n s
  | .eventResend => Sys2Proof.Machine.execEventResend s
  | .hostpAlertWrite v => Sys2Proof.Machine.execHostpAlertWrite v s
  | .mctpControl cmd data => Sys2Proof.Machine.execMctpControl cmd data s
  | .pldmType0 cmd data => Sys2Proof.Machine.execPldmType0 cmd data s
  | .pldmType2 cmd sensor => Sys2Proof.Machine.execPldmType2 cmd sensor s
  | .sensorRefresh mv win wmod hub => Sys2Proof.Machine.execSensorRefresh mv win wmod hub s
  | .getInfo => Sys2Proof.Machine.execGetInfo s
  | .sbRegRd addr => Sys2Proof.Machine.execSbRegRd addr s
  | .sbRegWr addr value => Sys2Proof.Machine.execSbRegWr addr value s
  | .keyLoad slot flags key => Sys2Proof.Machine.execKeyLoad slot flags key s
  | .keyClear slot => Sys2Proof.Machine.execKeyClear slot s
  | .getReport nonce => Sys2Proof.Machine.execGetReport nonce s
  | .getEndorsement => Sys2Proof.Machine.execGetEndorsement s
  | .debugChallenge => Sys2Proof.Machine.execDebugChallenge s
  | .debugUnlock t => Sys2Proof.Machine.execDebugUnlock t s
  | .debugLock => Sys2Proof.Machine.execDebugLock s
  | .sbExtend ix dg => Sys2Proof.Machine.execSbExtend ix dg s
  | .sbSvnCommit => Sys2Proof.Machine.execSbSvnCommit s
  | .getMeas => Sys2Proof.Machine.execGetMeas s
  | .svnCommit => Sys2Proof.Machine.execSvnCommit s
  | .secCtlDebugLock => Sys2Proof.Machine.execSecCtlDebugLock s
  | .updStart => Sys2Proof.Machine.execUpdStart s
  | .updAbort => Sys2Proof.Machine.execUpdAbort s
  | .updateComplete ok => Sys2Proof.Machine.execUpdateComplete ok s
  | .recovQuery src => Sys2Proof.Machine.execRecovQuery src s
  | .recovData src off b => Sys2Proof.Machine.execRecovData src off b s
  | .recovCommit src n => Sys2Proof.Machine.execRecovCommit src n s
  | .recovSessionTimeout => Sys2Proof.Machine.execRecovSessionTimeout s
  | .recoveryProgrammed ok => Sys2Proof.Machine.execRecoveryProgrammed ok s
  | .identitySign => Sys2Proof.Machine.execIdentitySign s
  | .debugExpiry => Sys2Proof.Machine.execDebugExpiry s
  | .pwrDomReqWrite v => Sys2Proof.Machine.execPwrDomReqWrite v s
  | .domainOff k => Sys2Proof.Machine.execDomainOff k s
  | .domainOnReady k => Sys2Proof.Machine.execDomainOnReady k s
  | .limiterSample w => Sys2Proof.Machine.execLimiterSample w s
  | .limiterRelease => Sys2Proof.Machine.execLimiterRelease s
  | .thermalSample dies stks => Sys2Proof.Machine.execThermalSample dies stks s
  | .capLoop => Sys2Proof.Machine.execCapLoop s
  | .clockPointChange d => Sys2Proof.Machine.execClockPointChange d s
  | .overrideRecord d => Sys2Proof.Machine.execOverrideRecord d s
  | .tripClear => Sys2Proof.Machine.execTripClear s
  | .ceInterval => Sys2Proof.Machine.execCeInterval s
  | .clearFatal => Sys2Proof.Machine.execClearFatal s
  | .pertCtlWrite v => Sys2Proof.Machine.execPertCtlWrite v s
  | .pertEccArm v => Sys2Proof.Machine.execPertEccArm v s
  | .creditHoldEnd => Sys2Proof.Machine.execCreditHoldEnd s
  | .contribHoldEnd => Sys2Proof.Machine.execContribHoldEnd s
  | .beatEvcntRead => Sys2Proof.Machine.execBeatEvcntRead s
  | .palSkcntRead d => Sys2Proof.Machine.execPalSkcntRead d s
  | .palCntRead d p w => Sys2Proof.Machine.execPalCntRead d p w s
  | .canvGateDupRead d => Sys2Proof.Machine.execCanvGateDupRead d s
  | .canvHealthRead d => Sys2Proof.Machine.execCanvHealthRead d s
  | .canvFrzRead d c => Sys2Proof.Machine.execCanvFrzRead d c s
  | .canvDrcntRead d c => Sys2Proof.Machine.execCanvDrcntRead d c s
  | .slvBevRead d b => Sys2Proof.Machine.execSlvBevRead d b s
  | .slvBstallRead d b => Sys2Proof.Machine.execSlvBstallRead d b s
  | .qerrRead q => Sys2Proof.Machine.execQerrRead q s
  | .arbStatRead pl => Sys2Proof.Machine.execArbStatRead pl s
  | .applyCntRead pl => Sys2Proof.Machine.execApplyCntRead pl s
  | .semCntRead pl => Sys2Proof.Machine.execSemCntRead pl s
  | .lockCntRead pl => Sys2Proof.Machine.execLockCntRead pl s
  | .nmaCeCntRead st => Sys2Proof.Machine.execNmaCeCntRead st s
  | .nmaUeCntRead st => Sys2Proof.Machine.execNmaUeCntRead st s
  | .nmaEvRead st => Sys2Proof.Machine.execNmaEvRead st s
  | .movOobRead d => Sys2Proof.Machine.execMovOobRead d s
  | .movEvRead d => Sys2Proof.Machine.execMovEvRead d s
  | .ryfCntRead => Sys2Proof.Machine.execRyfCntRead s
  | .ryfPortFecRead p => Sys2Proof.Machine.execRyfPortFecRead p s
  | .ryfPortLinkcntRead p => Sys2Proof.Machine.execRyfPortLinkcntRead p s
  | .redCntRead => Sys2Proof.Machine.execRedCntRead s
  | .redNfRead => Sys2Proof.Machine.execRedNfRead s
  | .redChkRead => Sys2Proof.Machine.execRedChkRead s
  | .trnNfRead => Sys2Proof.Machine.execTrnNfRead s
  | .trnCntRead => Sys2Proof.Machine.execTrnCntRead s
  | .pendCmpRead => Sys2Proof.Machine.execPendCmpRead s
  | .pendCntRead => Sys2Proof.Machine.execPendCntRead s
  | .hostpTctCntRead => Sys2Proof.Machine.execHostpTctCntRead s
  | .hostpRoceCntRead => Sys2Proof.Machine.execHostpRoceCntRead s
  | .hostpEvtCntRead => Sys2Proof.Machine.execHostpEvtCntRead s
  | .hostpRxdropRead => Sys2Proof.Machine.execHostpRxdropRead s
  | .secSigcntRead => Sys2Proof.Machine.execSecSigcntRead s
  | .rstCntRead => Sys2Proof.Machine.execRstCntRead s
  | .pwrCntRead => Sys2Proof.Machine.execPwrCntRead s
  | .errCntRead => Sys2Proof.Machine.execErrCntRead s
  | .errSramRead => Sys2Proof.Machine.execErrSramRead s
  | .pertCntRead => Sys2Proof.Machine.execPertCntRead s
  | .hostLinkDown => Sys2Proof.Machine.execHostLinkDown s
  | .admitTimeout p => Sys2Proof.Machine.execAdmitTimeout p s
  | .imageChecksComplete flashErr => Sys2Proof.Machine.execImageChecksComplete flashErr s
  | .updateVerifyComplete => Sys2Proof.Machine.execUpdateVerifyComplete s
  | .engineResetComplete e => Sys2Proof.Machine.execEngineResetComplete e s
  | .shadowMergeComplete => Sys2Proof.Machine.execShadowMergeComplete s

end Sys2Proof.Machine
end

