-- ==== Sys2Proof/Machine/Tick.lean ====
section
/-!
DEFINITION. The passing of time: what the block does in one ac of the hub clock (R14, R447) when no command waits.
-/

namespace Sys2Proof.Machine

open Sys2Proof

/-- The freezes of one ac of die d, its ac number t (R449, R466 kind 5): a cycle frozen by both counts for the limiter. -/
def State.freezeTick (s : State) (d t : Nat) : State :=
  let lim := s.fld R.PWR_STAT F.PWR_STAT_F
  let inj := if s.pert 5 && bitOf (s.fld R.PERT_FREEZE F.PERT_FREEZE_DIE_MASK) d then s.fld R.PERT_FREEZE F.PERT_FREEZE_F else 0
  if lim = 0 ∧ inj = 0 then s
  else (List.range 16).foldl (fun s c =>
    let k := (t + c) % 16
    if k < lim then s.freezeCanvas d c F.CANV_FRZ_LIMIT
    else if k < inj ∧ bitOf (s.fld R.PERT_FREEZE F.PERT_FREEZE_CANVAS_MASK) c = true then s.freezeCanvas d c F.CANV_FRZ_OTHER
    else s) s

/-- Die d's clock over n ticks: at most one of its ac ends in an ac of the hub, whose clock is the fastest (R447). -/
def State.dieTick (s : State) (d n : Nat) : State :=
  if !(s.mainUp && s.dieUp d) then s
  else
    let l := s.power.dies.getD d DieLoop.fresh
    let p := l.acPhase + n
    let m := acTicks (s.point d)
    if p < m then { s with power := { s.power with dies := s.power.dies.set d { l with acPhase := p } } }
    else
      let t : State := { s with power := { s.power with dies := s.power.dies.set d { l with acPhase := p - m, acCount := l.acCount + 1 } } }
      t.freezeTick d l.acCount

/-- One ac of the hub clock passes. A mirror back goes on with replicated replies whose requests it has issued since (R370). -/
def State.tick (s : State) : State :=
  if !s.powered then s
  else
    let n := acTicks s.hubPoint
    let t : State := { s with now := s.now + n, hubAc := s.hubAc + 1 }
    ((List.range 4).foldl (fun s d => s.dieTick d n) t).ingressGo

end Sys2Proof.Machine
end

