-- ==== Sys2Proof/Safety.lean ====
section
/-!
DEFINITION. What a safe run is: the invariant that every step keeps; and the words in which the statements speak of a
command's conditions and of what it leaves unchanged.
-/

namespace Sys2Proof.Machine

open Sys2Proof

/-! ### The invariant -/

/-- Memory and both register banks are in canonical form: equal machines are equal data. Memory lists no byte that an unlisted
address reads as; a bank lists no register that holds its Cold value (R11, R243). -/
structure Canonical (s : State) : Prop where
  mem : Memory.wf s.mem = true
  regs : sparseWf coldOf s.regs = true
  staged : sparseWf coldOf s.staged = true

/-- A command that keeps the invariant: its next state, where it has one, is canonical. -/
def Res.Canonical (r : Res) : Prop := ∀ t, r = .next t → Machine.Canonical t

/-! ### Frames -/

/-- Every register but those of a list reads as before, and so does every staged value. -/
def SameRegsBut (l : List Nat) (s t : State) : Prop :=
  (∀ a, a ∉ l → t.reg a = s.reg a) ∧ ∀ a, t.stagedReg a = s.stagedReg a

/-- Every byte of memory reads as before, as stored and as delivered. -/
def SameMemory (s t : State) : Prop := ∀ k, memByte t.mem k = memByte s.mem k ∧ t.byteAt k = s.byteAt k

/-! ### Reads of counters (R13) -/

/-- The register that a row of a counter's read reads. -/
def counterOf : Instr → Option Nat
  | .beatEvcntRead => some R.BEAT_EVCNT
  | .palSkcntRead d => some (R.PAL_SKCNT d.val)
  | .palCntRead d p w => some (R.PAL_CNT d.val p.val w.val)
  | .canvGateDupRead d => some (R.CANV_GATE_DUP d.val)
  | .canvHealthRead d => some (R.CANV_HEALTH d.val)
  | .canvFrzRead d c => some (R.CANV_FRZ d.val c.val)
  | .canvDrcntRead d c => some (R.CANV_DRCNT d.val c.val)
  | .slvBevRead d b => some (R.SLV_BEV d.val b.val)
  | .slvBstallRead d b => some (R.SLV_BSTALL d.val b.val)
  | .qerrRead q => some (R.QERR q.val)
  | .arbStatRead pl => some (R.ARB_STAT pl.val)
  | .applyCntRead pl => some (R.APPLY_CNT pl.val)
  | .semCntRead pl => some (R.SEM_CNT pl.val)
  | .lockCntRead pl => some (R.LOCK_CNT pl.val)
  | .nmaCeCntRead st => some (R.NMA_CE_CNT st.val)
  | .nmaUeCntRead st => some (R.NMA_UE_CNT st.val)
  | .nmaEvRead st => some (R.NMA_EV st.val)
  | .movOobRead d => some (R.MOV_OOB d.val)
  | .movEvRead d => some (R.MOV_EV d.val)
  | .ryfCntRead => some R.RYF_CNT
  | .ryfPortFecRead p => some (R.RYF_PORT_FEC p.val)
  | .ryfPortLinkcntRead p => some (R.RYF_PORT_LINKCNT p.val)
  | .redCntRead => some R.RED_CNT
  | .redNfRead => some R.RED_NF
  | .redChkRead => some R.RED_CHK
  | .trnNfRead => some R.TRN_NF
  | .trnCntRead => some R.TRN_CNT
  | .pendCmpRead => some R.PEND_CMP
  | .pendCntRead => some R.PEND_CNT
  | .hostpTctCntRead => some R.HOSTP_TCT_CNT
  | .hostpRoceCntRead => some R.HOSTP_ROCE_CNT
  | .hostpEvtCntRead => some R.HOSTP_EVT_CNT
  | .hostpRxdropRead => some R.HOSTP_RXDROP
  | .secSigcntRead => some R.SEC_SIGCNT
  | .rstCntRead => some R.RST_CNT
  | .pwrCntRead => some R.PWR_CNT
  | .errCntRead => some R.ERR_CNT
  | .errSramRead => some R.ERR_SRAM
  | .pertCntRead => some R.PERT_CNT
  | _ => none

/-! ### Easels (R198 to R211) -/

/-- Queue q may issue its next word: its easel serves, the queue runs in a list, no refused store is to be reported; the word w is
fetched, which leaves state t; it is of the table and legal (R198, R201), and MAXW has room for it (R204). -/
structure EaselFetched (s : State) (q w : Nat) (t : State) : Prop where
  issuing : s.issuing q = true
  run : s.qState q = qRun
  inList : (s.qint q).inList = true
  clean : (s.qint q).stFault = none
  fetched : ∃ b, s.fetch q (s.qpc q) 8 8 = (.ok b, t) ∧ ofLe b = w
  legal : cwOk w = true
  room : (t.qint q).maxw = 0 ∨ (t.qint q).issued + cwCost w ≤ (t.qint q).maxw

/-- The word is issued and its predicate lets it execute (R200). -/
def EaselReady (s : State) (q w : Nat) (t : State) : Prop := EaselFetched s q w t ∧ t.pred q (cwPs w) ≠ cwPn w

/-- A one-word instruction of queue q has completed: the PC stands at the next word, the queue runs, the word is counted. -/
def EaselDone (s t : State) (q : Nat) : Prop :=
  t.qpc q = (s.qpc q + 8) % 2 ^ 64 ∧ t.qState q = qRun ∧ (t.qint q).issued = (s.qint q).issued + 1 ∧ (t.qint q).wait = none

/-- It has completed with v in scalar register rd: every other scalar register, every predicate and memory are as before, and
register 0 still reads zero (R199). -/
def EaselWrote (s t : State) (q rd v : Nat) : Prop :=
  EaselDone s t q ∧ (∀ r < 32, t.sreg q r = if r = rd ∧ r ≠ 0 then v else s.sreg q r) ∧
    SameRegsBut (if rd = 0 then [R.QPC q, R.QSTAT q] else [R.QSREG q rd, R.QPC q, R.QSTAT q]) s t ∧ SameMemory s t

/-- The instruction waits, and the queue with it: PC and registers are as before (R198). -/
def EaselWaits (s t : State) (q on : Nat) : Prop :=
  t.qState q = qWait ∧ t.fld (R.QSTAT q) F.QSTAT_WAIT_ON = on ∧ t.qpc q = s.qpc q ∧ (∀ r < 32, t.sreg q r = s.sreg q r)

/-- The queue and the opcode of a control instruction's row. -/
def easelOp : Instr → Option (Nat × Nat)
  | .qNop q => some (q.val, 0x00)
  | .qEnd q => some (q.val, 0x01)
  | .qAdd q => some (q.val, 0x10)
  | .qSub q => some (q.val, 0x11)
  | .qAnd q => some (q.val, 0x12)
  | .qOr q => some (q.val, 0x13)
  | .qXor q => some (q.val, 0x14)
  | .qShl q => some (q.val, 0x15)
  | .qShr q => some (q.val, 0x16)
  | .qSar q => some (q.val, 0x17)
  | .qMul q => some (q.val, 0x18)
  | .qMovi q => some (q.val, 0x19)
  | .qMovhi q => some (q.val, 0x1A)
  | .qSetp q => some (q.val, 0x1C)
  | .qPlog q => some (q.val, 0x1D)
  | .qLd q => some (q.val, 0x20)
  | .qSt q => some (q.val, 0x21)
  | .qBr q => some (q.val, 0x28)
  | .qJr q => some (q.val, 0x29)
  | .qSemwait q => some (q.val, 0x30)
  | .qSemsig q => some (q.val, 0x31)
  | .qSemadd q => some (q.val, 0x32)
  | .qWaitb q => some (q.val, 0x33)
  | .qWaite q => some (q.val, 0x34)
  | .qLock q => some (q.val, 0x35)
  | .qUnlock q => some (q.val, 0x36)
  | .qFence q => some (q.val, 0x37)
  | .qRdtime q => some (q.val, 0x38)
  | .qEpoch q => some (q.val, 0x39)
  | .qRbind q => some (q.val, 0x3A)
  | .qDispatch q => some (q.val, 0x40)
  | _ => none

/-! ### Dispatched commands (R213 to R215) -/

/-- Command n of queue q has finished, with a status and results, to complete from `due` on. -/
def CmdFinished (t : State) (q n status res0 res1 due : Nat) : Prop :=
  ∃ x, t.findCmd q n = some x ∧ x.phase = .finished ∧ x.status = status ∧ x.res0 = res0 ∧ x.res1 = res1 ∧ x.due = due

/-- The state in which the work of a canvas command begins: the command has started, its canvas's replay number has advanced
(R138). -/
def State.canvasBegun (s : State) (q n : Nat) (c : Cmd) : State :=
  let t := s.updCmd q n (fun x => { x with phase := .started })
  let k := 16 * c.die + c.canvas
  { t with replayIds := sparseSet t.replayIds k (sparseGet t.replayIds k 0 + 1) 0 }

/-! ### Sliver cores (R151 to R191) -/

/-- Brush b of die d finds its next instruction: the brush serves and is not lent, its program's word is fetched, which leaves state
t, and is one of opcode op in the context c. -/
structure SliverReady (s : State) (d b op : Nat) (c : SlCtx) (t : State) : Prop where
  serving : s.serving = true
  up : s.brushUp d b = true
  kept : s.lent.contains (brushKey d b) = false
  die : c.d = d
  brush : c.b = b
  running : s.brushRun (brushKey d b) = some c.run
  program : s.sliverRun c.run.queue c.run.seq = some c.prog
  mapped : s.fetchable ((c.prog.prog + 16 * c.run.index) % 2 ^ 64) 16 16 = true
  fetched : ∃ bytes, s.readMem { unit := brushUnit d b, queue := c.run.queue }
    (gaLocal ((c.prog.prog + 16 * c.run.index) % 2 ^ 64)) 16 = (bytes, t, false) ∧ ofLe bytes = c.w
  opcode : slOp c.w = op
  rows : slRows c.w (match c.run.rep with | some x => x.iter | none => 0) (match c.run.rep with | some x => x.bstride | none => 0) =
    (c.rd, c.ra, c.rb)

/-- Die, brush, opcode and lane function of the rows that act lane by lane. -/
def sliverLane : Instr → Option (Fin 4 × Fin 32 × Nat × (Nat → LaneIn → LaneOut))
  | .mset d b => some (d, b, 0x08, laneMset)
  | .mnot d b => some (d, b, 0x09, laneMnot)
  | .mld d b => some (d, b, 0x0A, laneMld)
  | .mst d b => some (d, b, 0x0B, laneMst)
  | .slvAdd d b => some (d, b, 0x10, laneAdd)
  | .slvSub d b => some (d, b, 0x11, laneSub)
  | .slvCmp d b => some (d, b, 0x12, laneCmp)
  | .slvMax d b => some (d, b, 0x13, laneMax)
  | .slvMin d b => some (d, b, 0x14, laneMin)
  | .slvMul d b => some (d, b, 0x15, laneMul)
  | .slvAnd d b => some (d, b, 0x18, laneAnd)
  | .slvOr d b => some (d, b, 0x19, laneOr)
  | .slvXor d b => some (d, b, 0x1A, laneXor)
  | .slvAndn d b => some (d, b, 0x1B, laneAndn)
  | .slvNot d b => some (d, b, 0x1C, laneNot)
  | .slvMov d b => some (d, b, 0x1D, laneMov)
  | .slvSel d b => some (d, b, 0x1E, laneSel)
  | .slvConst d b => some (d, b, 0x1F, laneConst)
  | .slvShl d b => some (d, b, 0x20, laneShl)
  | .slvShr d b => some (d, b, 0x21, laneShr)
  | .lmul d b => some (d, b, 0x30, laneLmul)
  | .ladd d b => some (d, b, 0x31, laneLadd)
  | .lmax d b => some (d, b, 0x32, laneLmax)
  | .lmin d b => some (d, b, 0x33, laneLmin)
  | .fadd d b => some (d, b, 0x40, laneFadd)
  | .fsub d b => some (d, b, 0x41, laneFsub)
  | .fmul d b => some (d, b, 0x42, laneFmul)
  | .fdiv d b => some (d, b, 0x43, laneFdiv)
  | .fsqrt d b => some (d, b, 0x44, laneFsqrt)
  | .fmax d b => some (d, b, 0x45, laneFmax)
  | .fmin d b => some (d, b, 0x46, laneFmin)
  | .fcmp d b => some (d, b, 0x47, laneFcmp)
  | .accadd d b => some (d, b, 0x51, laneAccadd)
  | .rmask d b => some (d, b, 0x52, laneRmask)
  | _ => none

/-! ### Moves and collectives (R281 to R293, R325 to R331) -/

/-- Queue, dispatch number and code of a move command's row. -/
def moveRow : Instr → Option (Fin 240 × Nat × Nat)
  | .moveCopy q n => some (q, n, 0x10)
  | .moveTranspose q n => some (q, n, 0x11)
  | .moveConvert q n => some (q, n, 0x12)
  | .cornerTurn q n => some (q, n, 0x13)
  | .moveFill q n => some (q, n, 0x14)
  | .moveGather q n => some (q, n, 0x15)
  | .moveScatter q n => some (q, n, 0x16)
  | .scatterAcc q n => some (q, n, 0x17)
  | _ => none

/-- Queue, dispatch number, code and CLOSE of a collective command's row; a command without CLOSE there may carry a broken one. -/
def collRow (c : Cmd) : Instr → Option (Fin 240 × Nat × Nat × Bool)
  | .reduceScatter q n => some (q, n, 0x20, cfClose c)
  | .allGather q n => some (q, n, 0x21, cfClose c)
  | .allReduce q n => some (q, n, 0x22, false)
  | .broadcast q n => some (q, n, 0x23, cfClose c)
  | .closeReduce q n => some (q, n, 0x22, true)
  | _ => none

/-! ### Packets (R300 to R302, R309) -/

/-- A packet of a type arrives here on one of its channels, at a module that has an address and is not excluded. -/
structure Arrives (s : State) (h : Hdr) (type : Nat) : Prop where
  serving : s.serving = true
  channel : vcOk type h.vc.val = true
  here : h.dst.toNat = s.ownAddr
  addressed : s.ownAddr ≠ 0
  unicast : h.dst ≠ 0xFFFF
  member : s.fld R.RYF_STAT F.RYF_STAT_EXCLUDED ≠ 1

/-- It is no repetition, and its turn in its flow: above VC11 any packet is, below the one expected, with none held. State u is the
one in which it acts: its flow has moved on. -/
structure InTurn (s : State) (h : Hdr) (type : Nat) (u : State) : Prop where
  arrives : Arrives s h type
  fresh : s.findExecuted h = none
  alone : s.fabric.early = []
  turn : (12 ≤ h.vc.val ∧ u = s) ∨
    (h.vc.val < 12 ∧ h.seq.toNat = s.expected (rxKey h) ∧ u = s.setExpected (rxKey h) (h.seq.toNat + 1))

/-- Header, type and payload of the rows that are requests in a flow. -/
def requestRow : Instr → Option (Hdr × Nat × List Byte)
  | .fabricWrite h b => some (h, tWrite, b)
  | .readReq h b => some (h, tReadReq, b)
  | .fabricRegRd h => some (h, tRegRd, [])
  | .fabricRegWr _ h b => some (h, tRegWr, b)
  | .lockOp h k w => some (h, tLockOp, [BitVec.ofNat 8 (lockKind k), w.unit, w.queue] ++ leBytes w.incarn.toNat 8 ++
      leBytes w.qincarn.toNat 4)
  | .redHdr h b => some (h, tRedHdr, b)
  | .redData h b => some (h, tRedData, b)
  | .retractRx h b => some (h, tRetract, b)
  | _ => none

/-- Header, type and payload of the rows that are answers to requests of this module. -/
def answerRow : Instr → Option (Hdr × Nat × List Byte)
  | .readResp h b => some (h, tReadResp, b)
  | .writeAck h b => some (h, tWriteAck, b)
  | .lockResp h st => some (h, tLockResp, [st])
  | .retractAck h b => some (h, tRetractAck, b)
  | _ => none

/-- This module acts on what arrives itself: it is no face of a running pair, and holds nothing back for one (R369). -/
def ActsAlone (s : State) : Prop := s.pairedFace = false ∧ s.holdsIngress = false

/-! ### The host port (R391 to R402) -/

/-- The host port serves, and this module answers the host itself: its link is up, it is not silent, no partner stands between
(R368, R369, R391). -/
structure HostServes (s : State) : Prop where
  serving : s.serving = true
  up : s.hostUp = true
  loud : s.fld R.HOSTP_STAT F.HOSTP_STAT_SILENT ≠ 1
  alone : ActsAlone s
  face : s.silentBack = false

/-- No unit of memory is altered, and no sector is held: a read delivers what is stored, a write stores what it is given. -/
def SoundMemory (s : State) : Prop := s.altered = [] ∧ s.held = []

/-- Header, type and payload of the rows that are TCT messages. -/
def tctMessage : Instr → Option (TctHead × Nat × List Byte)
  | .tctRegRd m a => some (m, tctRegRd, leBytes a.toNat 8)
  | .tctRegWr m a v => some (m, tctRegWr, leBytes a.toNat 8 ++ leBytes v.toNat 8)
  | .memRd m a n => some (m, tctMemRd, leBytes a.toNat 8 ++ leBytes n.toNat 4)
  | .memWr m a d => some (m, tctMemWr, leBytes a.toNat 8 ++ d)
  | .tctDoorbell m a v qp psn => some (m, tctDoorbell, leBytes a.toNat 8 ++ leBytes v.toNat 4 ++ leBytes qp.toNat 4 ++
      leBytes psn.toNat 4)
  | .eventAck m n => some (m, tctEventAck, leBytes n.toNat 8)
  | _ => none

end Sys2Proof.Machine
end

