-- ==== Sys2Proof/Certificates/Slice0/Obligations.lean ====
section
/-!
DEFINITION. The statements for the provers.
-/

open Sys2Proof Sys2Proof.Machine

/-! ### The whole machine -/

/-- A step with a command waiting is that command on the state with the rest of the queue. What a step holds is spec/95; the
step on an empty queue is the model's choice (log 1) and is not stated here. -/
def Obligations.StepRunsFront : Prop :=
  ∀ (c : Instr) (rest : List Instr) (s : State), step { s with pending := c :: rest } = exec c { s with pending := rest }

/-- R428: in OFF nothing acts but AUX_POWER_GOOD, and every other command leaves the state as it is. -/
def Obligations.OffNothingActs : Prop :=
  ∀ (c : Instr) (s : State), s.powered = false →
    (∀ valid node slot lid sb, c ≠ .auxPowerGood valid node slot lid sb) → exec c s = .next s

/-- Every command ends in a next state, in every state, and leaves the queue of the commands that wait as it is. -/
def Obligations.EveryCommandEnds : Prop := ∀ (c : Instr) (s : State), ∃ t, exec c s = .next t ∧ t.pending = s.pending

/-- Every step keeps memory and both register banks in canonical form. -/
def Obligations.CanonicalKept : Prop := ∀ s t : State, Canonical s → step s = .next t → Canonical t

/-- The machine right after reset is canonical. -/
def Obligations.CanonicalReset : Prop := Canonical State.reset

/-- R11: right after reset every register reads its Cold value, but for the two whose value the device has (ID_PART, and the
address in HOSTP_SB); the staged bank reads the same; no byte of memory is listed, no command waits. A Cold value that the
spec gives as device-set is the model's (logs 2, 8). -/
def Obligations.ResetValues : Prop :=
  (∀ a, a ≠ R.ID_PART → a ≠ R.HOSTP_SB → State.reset.reg a = coldOf a) ∧ (∀ a, State.reset.stagedReg a = coldOf a) ∧
    State.reset.mem = [] ∧ State.reset.pending = []

/-! ### Registers -/

/-- R13: every register that a counter's row names has read-to-clear bits; reading it returns it and clears them, and nothing
else changes. -/
def Obligations.CounterReadClears : Prop :=
  (∀ (c : Instr) (a : Nat), counterOf c = some a → ∃ r, rowOf a = some r ∧ r.rc ≠ 0) ∧
  ∀ (c : Instr) (a off : Nat) (b : Block) (r : RegRow) (s : State), counterOf c = some a → s.powered = true →
    blockOf a = some (b, off) → rowOf a = some r → s.regUp b a = true → (b = .pert → s.pertOpen = true) →
    ∃ t, exec c s = .next t ∧ t.out = { kind := .value, nums := [a, (s.reg a &&& ~~~ r.wo).toNat], bytes := [] } :: s.out ∧
      t.reg a = s.reg a &&& ~~~ r.rc ∧ SameRegsBut [a] s t ∧ SameMemory s t

/-- R8, R32: a write that names no aligned register, or one whose block does not serve, or that its path may not write, answers
the access error and changes nothing. -/
def Obligations.RegisterWriteRefused : Prop :=
  ∀ (p : RegPath) (a v : BitVec 64) (s : State), s.powered = true →
    (a.toNat % 8 ≠ 0 ∨ ∀ b off, blockOf a.toNat = some (b, off) → s.regUp b a.toNat = false ∨ pathBars p b a.toNat = true) →
    exec (.registerWrite p a v) s = .next { s with out := { kind := .accessError, nums := [a.toNat], bytes := [] } :: s.out }

/-- R6, R243: a write of a register of the hub's own block, a PAL or a MOV block over a path that may write it. RW bits take
the value, ones clear W1C bits and set W1S bits, ST bits land in the staged bank, no other register changes. No apply names
the block here (log 47). -/
def Obligations.RegisterWritePlain : Prop :=
  ∀ (p : RegPath) (a v : BitVec 64) (b : Block) (off : Nat) (r : RegRow) (s : State), s.powered = true → a.toNat % 8 = 0 →
    blockOf a.toNat = some (b, off) → rowOf a.toNat = some r → s.regUp b a.toNat = true →
    ((b = .hubId ∧ off ≠ 0x100) ∨ (∃ d, b = .pal d) ∨ ∃ d, b = .mov d) → s.namedBy b = none →
    ∃ t, exec (.registerWrite p a v) s = .next t ∧
      t.reg a.toNat = (((s.reg a.toNat &&& ~~~ r.rw) ||| (v &&& r.rw)) &&& ~~~ (v &&& r.w1c)) ||| (v &&& r.w1s) ∧
      t.stagedReg a.toNat = (s.stagedReg a.toNat &&& ~~~ r.st) ||| (v &&& r.st) ∧
      (∀ x, x ≠ a.toNat → t.reg x = s.reg x ∧ t.stagedReg x = s.stagedReg x) ∧ SameMemory s t

/-- R98, R229, R403, R450, R459, R355: ones written to PAL_STALE, ARB_CUT and HOSTP_ALERT.STATUS clear those marks and zeros
keep them; HOSTP_ALERT takes its mask from the write; TRIP_CLEAR clears the trip, CLEAR_FATAL the fatal mark and
OUT_OF_STEP_CLEAR the mark of a module out of step; nothing else changes. -/
def Obligations.ClearingWrites : Prop :=
  (∀ (d : Fin 4) (v : Word) (s : State), s.powered = true → s.blockUp (.pal d) = true →
    ∃ t, exec (.palStaleWrite d v) s = .next t ∧ t.reg (R.PAL_STALE d.val) = s.reg (R.PAL_STALE d.val) &&& ~~~ v ∧
      SameRegsBut [R.PAL_STALE d.val] s t ∧ SameMemory s t) ∧
  (∀ (pl : Fin 5) (v : BitVec 64) (s : State), s.mainUp = true → s.placeUp pl = true →
    ∃ t, exec (.arbCutWrite pl v) s = .next t ∧
      t.fld (R.ARB_CUT pl.val) F.ARB_CUT_WHO = s.fld (R.ARB_CUT pl.val) F.ARB_CUT_WHO &&& (15 - v.toNat % 16) ∧
      SameRegsBut [R.ARB_CUT pl.val] s t ∧ SameMemory s t) ∧
  (∀ (v : BitVec 64) (s : State), s.powered = true →
    ∃ t, exec (.hostpAlertWrite v) s = .next t ∧ t.fld R.HOSTP_ALERT F.HOSTP_ALERT_MASK = F.HOSTP_ALERT_MASK.get v ∧
      (∀ i, bitOf (t.fld R.HOSTP_ALERT F.HOSTP_ALERT_STATUS) i =
        (bitOf (s.fld R.HOSTP_ALERT F.HOSTP_ALERT_STATUS) i && !(bitOf (F.HOSTP_ALERT_STATUS.get v) i))) ∧
      SameRegsBut [R.HOSTP_ALERT] s t ∧ SameMemory s t) ∧
  (∀ s : State, s.powered = true → ∃ t, exec .tripClear s = .next t ∧ t.fld R.PWR_STAT F.PWR_STAT_TRIP = 0 ∧
    t.fld R.PWR_STAT F.PWR_STAT_F = s.fld R.PWR_STAT F.PWR_STAT_F ∧ SameRegsBut [R.PWR_STAT] s t ∧ SameMemory s t) ∧
  (∀ s : State, s.mainUp = true → ∃ t, exec .clearFatal s = .next t ∧ t.fld R.ERR_STAT F.ERR_STAT_FATAL_VALID = 0 ∧
    SameRegsBut [R.ERR_STAT] s t ∧ SameMemory s t) ∧
  (∀ s : State, s.mainUp = true → ∃ t, exec .outOfStepClear s = .next t ∧ t.fld R.TRN_STAT F.TRN_STAT_OUT_OF_STEP = 0 ∧
    t.fld R.TRN_STAT F.TRN_STAT_PENDING = s.fld R.TRN_STAT F.TRN_STAT_PENDING ∧ SameRegsBut [R.TRN_STAT] s t ∧ SameMemory s t)

/-- R103: a write of a random-stream entry's key or stream ID is stored, and its control word is, but for the ALIAS bit, which
follows the check; the palette and the stored memory do not change. -/
def Obligations.RandWrites : Prop :=
  ∀ (d : Fin 4) (n : Fin 64) (v : Word) (s : State), s.powered = true → s.blockUp (.rand d) = true →
    (∀ hi : Bool, ∃ t, exec (.randKeyWrite d n hi v) s = .next t ∧
      t.reg (if hi then R.RAND_KEY_HI d.val n.val else R.RAND_KEY_LO d.val n.val) = v ∧ t.mem = s.mem) ∧
    (∃ t, exec (.randStreamWrite d n v) s = .next t ∧ t.reg (R.RAND_STREAM d.val n.val) = v ∧ t.mem = s.mem) ∧
    (∃ t, exec (.randBindWrite d n v) s = .next t ∧ t.reg (R.RAND_BIND d.val n.val) &&& 0x3FF = v &&& 0x3FF ∧ t.mem = s.mem)

/-- R264, R269: a write of NMA_CFG keeps its defined bits, and a set NOCOMBINE writes back every held sector of the stack.
R466: a write of PERT_CTL stores ENABLE while perturbation is unlocked, and R465: nothing otherwise. TRN_LW_STATE is written
only while the loss watch is off. R468: PERT_ECC_CTL stores XOR, and a write without ARM alters nothing. What a reserved
encoding and a pending apply do to a write is the model's reading (logs 45, 47). -/
def Obligations.ConfigWrites : Prop :=
  (∀ (st : Fin 16) (v : BitVec 64) (s : State), s.powered = true → s.blockUp (.nma st) = true →
    ∃ t, exec (.nmaCfgWrite st v) s = .next t ∧ t.reg (R.NMA_CFG st.val) = v &&& 0x100FF ∧ SameRegsBut [R.NMA_CFG st.val] s t ∧
      (F.NMA_CFG_NOCOMBINE.get v = 1 → sparseGet t.held st.val [] = [])) ∧
  (∀ (v : BitVec 64) (s : State), s.mainUp = true →
    (s.pertOpen = false → exec (.pertCtlWrite v) s = .next s ∧ exec (.pertEccArm v) s = .next s) ∧
    (s.pertOpen = true →
      (∃ t, exec (.pertCtlWrite v) s = .next t ∧ t.fld R.PERT_CTL F.PERT_CTL_ENABLE = v.toNat % 128 ∧
        SameRegsBut [R.PERT_CTL] s t ∧ SameMemory s t) ∧
      (F.PERT_ECC_CTL_ARM.get v = 0 → ∃ t, exec (.pertEccArm v) s = .next t ∧
        t.fld R.PERT_ECC_CTL F.PERT_ECC_CTL_XOR = F.PERT_ECC_CTL_XOR.get v ∧ SameRegsBut [R.PERT_ECC_CTL] s t ∧ SameMemory s t))) ∧
  (∀ (v : BitVec 64) (s : State), s.mainUp = true →
    (s.fld R.TRN_CFG F.TRN_CFG_LW_EN ≠ 0 → exec (.lwStateWrite v) s = .next s) ∧
    (s.fld R.TRN_CFG F.TRN_CFG_LW_EN = 0 → ∃ t, exec (.lwStateWrite v) s = .next t ∧ t.reg R.TRN_LW_STATE = v ∧
      t.fld R.TRN_LW_STAT F.TRN_LW_STAT_SEEN = 255 ∧ SameRegsBut [R.TRN_LW_STATE, R.TRN_LW_STAT] s t ∧ SameMemory s t))

/-! ### Power, module states, resets -/

/-- R473, R33, R434: AUX_POWER_GOOD in OFF enters AON at time 0 with the straps sampled; ID_INCARN starts at the stored limit;
what waits is kept. AUX_POWER_LOST enters OFF. In a powered module AUX_POWER_GOOD does nothing. -/
def Obligations.AuxiliarySupply : Prop :=
  (∀ (valid : Bool) (node : BitVec 10) (slot lid : BitVec 3) (sb : Bool) (s : State), s.powered = false →
    ∃ t, exec (.auxPowerGood valid node slot lid sb) s = .next t ∧ t.powered = true ∧ t.mode = mAon ∧ t.now = 0 ∧
      t.reg R.ID_STRAPS = BitVec.ofNat 64 (node.toNat + slot.toNat * 2 ^ 10 + b2n valid * 2 ^ 13 + lid.toNat * 2 ^ 14) ∧
      t.reg R.ID_INCARN = BitVec.ofNat 64 s.incLimit ∧ t.pending = s.pending ∧ t.flash = s.flash) ∧
  (∀ (valid : Bool) (node : BitVec 10) (slot lid : BitVec 3) (sb : Bool) (s : State), s.powered = true →
    exec (.auxPowerGood valid node slot lid sb) s = .next s) ∧
  (∀ s : State, s.powered = true → ∃ t, exec .auxPowerLost s = .next t ∧ t.powered = false ∧ t.update = none ∧
    SameRegsBut [] s t ∧ SameMemory s t)

/-- R428, R450, R472, R478: main power takes a cool module that is not held from AON to BOOT, where the image does not run yet; the
loss of main power or of the reference clock takes a running one to AON. -/
def Obligations.MainSupply : Prop :=
  (∀ s : State, s.powered = true → s.mode = mAon → s.fld R.RST_CFG F.RST_CFG_HOLD_AON = 0 → s.fld R.PWR_STAT F.PWR_STAT_TRIP = 0 →
    s.cool = true → ∃ t, exec .mainPowerGood s = .next t ∧ t.mode = mBoot ∧ t.imageUp = false ∧ t.mainGood = true) ∧
  (∀ s : State, s.powered = true → s.mode = mAon →
    (s.fld R.RST_CFG F.RST_CFG_HOLD_AON ≠ 0 ∨ s.fld R.PWR_STAT F.PWR_STAT_TRIP ≠ 0 ∨ s.cool = false) →
    exec .mainPowerGood s = .next { s with mainGood := true }) ∧
  (∀ s : State, s.running = true → ∃ t, exec .mainPowerLoss s = .next t ∧ t.mode = mAon ∧ t.mainGood = false ∧ t.staged = []) ∧
  (∀ s : State, s.running = true → ∃ t, exec .refclkLoss s = .next t ∧ t.mode = mAon ∧ t.mainGood = false ∧ t.staged = [])

/-- R413, R430: a verified image runs in BOOT, and one that fails leads to RECOVERY with the reason in BOOT_RESULT; EARLY is entered
from BOOT once the image runs. -/
def Obligations.BootOutcome : Prop :=
  (∀ (e : Bool) (s : State), s.powered = true → s.mode = mBoot → s.imageUp = false →
    let why := s.verifyImage s.flashByte e
    ∃ t, exec (.imageChecksComplete e) s = .next t ∧ t.imageUp = decide (why = 0) ∧
      t.mode = (if why = 0 then mBoot else mRecovery) ∧ t.fld R.SEC_STAT F.SEC_STAT_BOOT_RESULT = why % 256) ∧
  (∀ (d0 : Bool) (s : State), s.powered = true → s.mode = mBoot → s.imageUp = true →
    ∃ t, exec (.earlyEntry d0) s = .next t ∧ t.mode = mEarly ∧ t.fld R.ID_UNITS F.ID_UNITS_DIE_IN_SERVICE = b2n d0 ∧
      t.fld R.HOSTP_STAT F.HOSTP_STAT_LINK = 1) ∧
  (∀ (d0 : Bool) (s : State), s.powered = true → (s.mode ≠ mBoot ∨ s.imageUp = false) → exec (.earlyEntry d0) s = .next s)

/-- R429: bring-up ends with what passed: a module whose election and join are settled takes the dies and stacks that passed; at
the time limit a running join is abandoned first. The host port trains anew. -/
def Obligations.BringupEnds : Prop :=
  ∀ (dies : BitVec 4) (stks : BitVec 16) (pc : List (BitVec 64)) (s : State), s.powered = true → s.mode = mEarly →
    (s.fld R.RYF_STAT F.RYF_STAT_ELECTED = 1 → s.pairState ≠ psJoining → s.pairState ≠ psSyncing →
      exec (.bringupComplete dies stks pc) s = .next (s.finishBringup dies.toNat stks.toNat pc) ∧
      (s.finishBringup dies.toNat stks.toNat pc).fld R.HOSTP_STAT F.HOSTP_STAT_LINK = 1) ∧
    exec (.bringupTimeout dies stks pc) s = .next (s.joinAbandon.finishBringup dies.toNat stks.toNat pc) ∧
    (s.joinAbandon.finishBringup dies.toNat stks.toNat pc).fld R.HOSTP_STAT F.HOSTP_STAT_LINK = 1

/-- R435, R428: a warm reset of a running module boots it anew: the bytes of HBM keep their values, no staged value, command
or queue is left, and RST_STAT names the cause; a request while it still runs is absorbed (R439), and one in AON refused
(R433). From when to when a warm reset runs is the model's reading (log 42). -/
def Obligations.WarmReset : Prop :=
  (∀ s : State, s.running = true → s.warmRun = false → ∃ t, exec .warmReset s = .next t ∧ t.mode = mBoot ∧ t.imageUp = false ∧
    t.warmRun = true ∧ (∀ k, isHbm k = true → memByte t.mem k = memByte s.mem k) ∧ t.staged = [] ∧ t.cmds = [] ∧ t.queues = [] ∧
    t.fld R.RST_STAT F.RST_STAT_LAST_CAUSE = 1) ∧
  (∀ s : State, s.powered = true → s.warmRun = true → ∃ t, exec .warmReset s = .next t ∧ t.fld R.RST_STAT F.RST_STAT_KIND = 1 ∧
    t.fld R.RST_STAT F.RST_STAT_RESULT = 3 ∧ SameRegsBut [R.RST_STAT] s t ∧ SameMemory s t) ∧
  (∀ s : State, s.powered = true → s.warmRun = false → s.mode < mBoot → ∃ t, exec .warmReset s = .next t ∧
    t.fld R.RST_STAT F.RST_STAT_KIND = 1 ∧ t.fld R.RST_STAT F.RST_STAT_RESULT = 4 ∧ SameRegsBut [R.RST_STAT] s t ∧ SameMemory s t)

/-- R433, R436 to R440: where the module accepts resets and no warm reset runs, a reset of a die in service that nothing
holds back starts at once, marked in RST_STAT.DIE_RESET, and no command of the die's queues is left; its completion ends it,
and without one it changes nothing. A reset of an engine that nothing holds back is counted and starts; its completion ends
it. A reset of a queue in service that is not already resetting shows as kind 4. What FORCE and a second request do is the
model's reading (log 73). -/
def Obligations.SmallerResets : Prop :=
  (∀ (d : Fin 4) (force : Bool) (s : State), s.rstAccepts = true → s.warmRun = false → s.dieIn d.val = true →
    s.bit R.RST_STAT F.RST_STAT_DIE_RESET d.val = false → s.resetHolds.contains d.val = false → s.colls = [] →
    ∃ t, exec (.dieReset d force) s = .next t ∧ t.bit R.RST_STAT F.RST_STAT_DIE_RESET d.val = true ∧
      (∀ c ∈ t.cmds, c.queue / 48 ≠ d.val ∨ 192 ≤ c.queue)) ∧
  (∀ (d : Fin 4) (s : State), s.mainUp = true → s.bit R.RST_STAT F.RST_STAT_DIE_RESET d.val = false →
    exec (.dieResetComplete d) s = .next s) ∧
  (∀ (d : Fin 4) (s : State), s.mainUp = true → s.bit R.RST_STAT F.RST_STAT_DIE_RESET d.val = true → s.heldSignals = [] →
    exec (.dieResetComplete d) s =
      .next (((s.setBit R.RST_STAT F.RST_STAT_DIE_RESET d.val false).rstDone 2).lockOpsGo.resumeQueues)) ∧
  (∀ (kind : Fin 5) (d : Fin 4) (cv : Fin 16) (s : State), s.rstAccepts = true → s.warmRun = false → s.dieIn d.val = true →
    s.pairState ≠ psPaired → s.engResets = [] → s.resetHolds = [] → s.bit R.RST_STAT F.RST_STAT_DIE_RESET d.val = false →
    s.colls = [] → exec (.engineReset kind d cv false) s =
      .next ((((s.count R.RST_CNT F.RST_CNT_ENGINE 1).faultHandover).rstResult 3 1).startEngineReset kind.val d.val cv.val)) ∧
  (∀ (e : Fin 74) (s : State), s.mainUp = true → ∃ t, exec (.engineResetComplete e) s = .next t ∧ e.val ∉ t.engResets ∧
    SameRegsBut [R.RST_STAT] s t ∧ SameMemory s t) ∧
  (∀ (q : Fin 240) (s : State), s.rstAccepts = true → s.warmRun = false → s.queueIn q.val = true →
    (s.qint q.val).resetting = false → (q.val < 192 → s.bit R.RST_STAT F.RST_STAT_DIE_RESET (q.val / 48) = false) →
    ∃ t, exec (.queueReset q) s = .next t ∧ t.fld R.RST_STAT F.RST_STAT_KIND = 4 ∧ SameMemory s t)

/-! ### The beat -/

/-- R44, R46: RESYNC restarts acquisition in SEARCH with the position held where it stands. -/
def Obligations.ResyncSearches : Prop :=
  ∀ s : State, s.mainUp = true → ∃ t, exec .resync s = .next t ∧ t.beatState = 1 ∧ t.tracker.pos0 = s.posAt s.hubTime ∧
    t.tracker.acq = [] ∧ t.position = s.position ∧ SameRegsBut [R.BEAT_STAT] s t ∧ SameMemory s t

/-- R41: an edge on the wire, with SOURCE wire and no jitter injected, in LOCKED: inside the window it sets the line of the next
beat; outside it is counted and changes nothing else. With another SOURCE it does nothing. -/
def Obligations.BeatEdgeLocked : Prop :=
  ∀ s : State, s.mainUp = true →
    (s.fld R.BEAT_CFG F.BEAT_CFG_SOURCE ≠ 1 → exec .beatEdge s = .next s) ∧
    (s.fld R.BEAT_CFG F.BEAT_CFG_SOURCE = 1 → s.pert 0 = false → s.beatState = 2 →
      (absDiff s.hubTime s.tracker.t1 ≤ s.beatWindow s.tracker.per →
        ∃ t, exec .beatEdge s = .next t ∧ t.beatState = 2 ∧ t.tracker.t0 = s.hubTime ∧ t.tracker.pos0 = s.posAt s.hubTime ∧
          t.tracker.pos1 = (s.tracker.k + 1) * 2 ^ 32 ∧ t.tracker.lastE = s.hubTime ∧ t.tracker.coasted = 0 ∧
          t.tracker.t1 = s.hubTime + t.tracker.per ∧ SameMemory s t) ∧
      (s.beatWindow s.tracker.per < absDiff s.hubTime s.tracker.t1 →
        ∃ t, exec .beatEdge s = .next t ∧ t.tracker = s.tracker ∧
          t.fld R.BEAT_EVCNT F.BEAT_EVCNT_SPURIOUS = min (s.fld R.BEAT_EVCNT F.BEAT_EVCNT_SPURIOUS + 1) (2 ^ 12 - 1) ∧
          SameRegsBut [R.BEAT_EVCNT] s t ∧ SameMemory s t))

/-- R42, R44: a beat whose window ends without an edge is coasted; after 64 coasted beats the tracker is LOST with the position held
at the end of the last one. -/
def Obligations.CoastThenLost : Prop :=
  (∀ s : State, s.mainUp = true → (s.beatState = 2 ∨ s.beatState = 3) → s.tracker.coasted < 64 →
    s.tracker.t1 + s.beatWindow s.tracker.per ≤ s.hubTime →
    let i := s.tracker.t1 + s.beatWindow s.tracker.per
    ∃ t, exec .beatCoast s = .next t ∧ t.beatState = 3 ∧ t.tracker.coasted = s.tracker.coasted + 1 ∧
      t.tracker.lastE = s.tracker.t1 ∧ t.tracker.per = s.tracker.per ∧ t.tracker.t1 = s.tracker.t1 + s.tracker.per ∧
      t.tracker.t0 = i ∧ t.tracker.pos0 = s.posAt i ∧ t.tracker.pos1 = (s.tracker.k + 1) * 2 ^ 32 ∧
      t.fld R.BEAT_EVCNT F.BEAT_EVCNT_COASTED = min (s.fld R.BEAT_EVCNT F.BEAT_EVCNT_COASTED + 1) 65535 ∧ SameMemory s t) ∧
  (∀ s : State, s.mainUp = true → s.hubTime < s.tracker.t1 + s.beatWindow s.tracker.per → exec .beatCoast s = .next s) ∧
  (∀ s : State, s.mainUp = true → s.beatState = 3 → 64 ≤ s.tracker.coasted →
    ∃ t, exec .beatLostEntry s = .next t ∧ t.beatState = 4 ∧ t.tracker.pos0 = (s.tracker.k - 1) * 2 ^ 32 + 0xFFFF0000 ∧ SameMemory s t) ∧
  (∀ s : State, s.mainUp = true → s.tracker.coasted < 64 → exec .beatLostEntry s = .next s)

/-- R38, R37: an eligible follower that has coasted TAKEOVER beats becomes master, with its own serial and its next boundary where
the coasted line had it; the local generator's boundary sets the line of the next beat. -/
def Obligations.MasterAndGenerator : Prop :=
  (∀ s : State, s.mainUp = true → s.beatState = 3 → s.fld R.BEAT_CFG F.BEAT_CFG_SOURCE = 2 →
    s.fld R.BEAT_CFG F.BEAT_CFG_MASTER_ELIG = 1 → s.fld R.BEAT_CFG F.BEAT_CFG_TAKEOVER ≤ s.tracker.coasted →
    ∃ t, exec .masterTakeover s = .next t ∧ t.beatState = 5 ∧ t.fld R.BEAT_STAT F.BEAT_STAT_TAKEN_OVER = 1 ∧
      t.tracker.genNext = s.tracker.t1 ∧ t.tracker.follow = none ∧ t.reg R.BEAT_MASTER_SERIAL = s.reg R.ID_SERIAL ∧
      SameRegsBut [R.BEAT_STAT, R.BEAT_MASTER_SERIAL] s t ∧ SameMemory s t) ∧
  (∀ s : State, s.mainUp = true → s.fld R.BEAT_CFG F.BEAT_CFG_MASTER_ELIG = 0 → exec .masterTakeover s = .next s) ∧
  (∀ s : State, s.mainUp = true → s.beatState = 5 → s.tracker.genNext ≤ s.hubTime → s.fld R.BEAT_STAT F.BEAT_STAT_TAKEN_OVER = 0 →
    s.fld R.BEAT_CFG F.BEAT_CFG_TOKEN_OUT = 0 → ∃ t, exec .generatorBoundary s = .next t ∧ t.beatState = 5 ∧
      t.tracker.t0 = s.tracker.genNext ∧ t.tracker.pos0 = s.tracker.k * 2 ^ 32 ∧ t.tracker.pos1 = (s.tracker.k + 1) * 2 ^ 32 ∧
      t.tracker.genNext = s.tracker.genNext + s.rcToAc (s.fld R.BEAT_GEN_PERIOD F.BEAT_GEN_PERIOD_PERIOD_RC) ∧
      SameRegsBut [R.BEAT_PERIOD] s t ∧ SameMemory s t) ∧
  (∀ s : State, s.mainUp = true → s.hubTime < s.tracker.genNext → exec .generatorBoundary s = .next s)

/-- R47, R50, R52, R209: a WAITB whose position is reached completes with DONE in its register; RELEASE_HELD does nothing
while the position advances, and otherwise counts what it releases as LATE; a powered minute is counted; a read of BEAT_POS
returns the position and latches UPTIME. Which actions LATE counts is the model's reading (log 43). -/
def Obligations.BeatWaitsAndTime : Prop :=
  (∀ (q : Fin 240) (at_ rd : Nat) (s : State), (s.qint q.val).wait = some (.beat at_ rd) → s.easelUp q.val = true →
    s.qState q.val = qWait → beatAdvances s.beatState = true → at_ ≤ s.position → rd < 32 →
    ∃ t, exec (.waitbRelease q) s = .next t ∧ t.qState q.val = qRun ∧ t.qpc q.val = (s.qpc q.val + 8) % 2 ^ 64 ∧
      (rd ≠ 0 → t.sreg q.val rd = stDone) ∧ (t.qint q.val).wait = none ∧ SameMemory s t) ∧
  (∀ s : State, s.mainUp = true → beatAdvances s.beatState = true → exec .releaseHeld s = .next s) ∧
  (∀ s : State, s.mainUp = true → beatAdvances s.beatState = false → s.queues = [] → s.applies = [] → s.gates = [] → s.colls = [] →
    ∃ t, exec .releaseHeld s = .next t ∧ t.reg R.BEAT_EVCNT = s.reg R.BEAT_EVCNT ∧ SameRegsBut [] s t ∧ SameMemory s t) ∧
  (∀ s : State, s.powered = true →
    s.fld R.LIFETIME F.LIFETIME_MINUTES - s.fld R.LIFETIME F.LIFETIME_POWERON_ID < s.uptime / 6000000000 →
    s.fld R.LIFETIME F.LIFETIME_MINUTES + 1 < 2 ^ 32 → ∃ t, exec .lifetimeMinute s = .next t ∧
      t.fld R.LIFETIME F.LIFETIME_MINUTES = s.fld R.LIFETIME F.LIFETIME_MINUTES + 1 ∧
      t.fld R.LIFETIME F.LIFETIME_POWERON_ID = s.fld R.LIFETIME F.LIFETIME_POWERON_ID ∧ SameRegsBut [R.LIFETIME] s t ∧ SameMemory s t) ∧
  (∀ s : State, s.mainUp = true → ∃ t, exec .beatPosRead s = .next t ∧
    t.out = { kind := .value, nums := [R.BEAT_POS, s.position], bytes := [] } :: s.out ∧
    t.reg R.BEAT_POS_UPTIME = BitVec.ofNat 64 s.uptime ∧ SameRegsBut [R.BEAT_POS_UPTIME] s t ∧ SameMemory s t)

/-! ### Queues -/

/-- R196, R222: a doorbell to a queue that is not OFF, of a tail that the ring can hold, sets TAIL, and an idle queue with entries
runs; a tail beyond the ring is counted and ignored; a doorbell to an OFF queue does nothing. -/
def Obligations.Doorbell : Prop :=
  ∀ (q : Fin 240) (v : BitVec 64) (s : State), s.qBlockUp q.val = true →
    (s.qState q.val = qOff → exec (.qtailDoorbell q v) s = .next s) ∧
    (s.qState q.val ≠ qOff →
      let ahead := (v.toNat % 2 ^ 32 + 2 ^ 32 - s.fld (R.QHEAD q.val) F.QHEAD_HEAD) % 2 ^ 32
      (ahead ≤ 2 ^ s.fld (R.QCFG q.val) F.QCFG_RING_LOG → ∃ t, exec (.qtailDoorbell q v) s = .next t ∧
        t.fld (R.QTAIL q.val) F.QTAIL_TAIL = v.toNat % 2 ^ 32 ∧
        t.qState q.val = (if s.qState q.val = qIdle ∧ ahead ≠ 0 then qRun else s.qState q.val) ∧
        SameRegsBut [R.QTAIL q.val, R.QSTAT q.val] s t ∧ SameMemory s t) ∧
      (2 ^ s.fld (R.QCFG q.val) F.QCFG_RING_LOG < ahead → ∃ t, exec (.qtailDoorbell q v) s = .next t ∧
        t.fld (R.QERR q.val) F.QERR_DB_BAD = min (s.fld (R.QERR q.val) F.QERR_DB_BAD + 1) (2 ^ F.QERR_DB_BAD.width - 1) ∧
        SameRegsBut [R.QERR q.val] s t ∧ SameMemory s t))

/-- R197: ENABLE acts in OFF, DISABLE in IDLE, STOPPED and FAULTED, STOP in IDLE, RUN and WAIT, RESUME in STOPPED, SKIP in FAULTED;
a queue that runs is stopped at its word, a queue without commands is OFF after DISABLE. -/
def Obligations.QueueControl : Prop :=
  ∀ (q : Fin 240) (s : State), s.qBlockUp q.val = true → s.qClosing q.val = false →
    (s.qState q.val = qOff → 1 ≤ s.fld (R.QCFG q.val) F.QCFG_RING_LOG → s.fld (R.QCFG q.val) F.QCFG_RING_LOG ≤ 16 →
      s.crecLog q.val ≤ 16 → ∃ t, exec (.queueEnable q) s = .next t ∧ t.qState q.val = qIdle ∧
        (∀ i < 32, t.sreg q.val i = 0) ∧ (∀ i < 8, 0 < i → t.pred q.val i = false) ∧ t.pendingEntries q.val = 0 ∧ SameMemory s t) ∧
    (s.qState q.val ≠ qOff → exec (.queueEnable q) s = .next s) ∧
    ((s.qState q.val = qIdle ∨ s.qState q.val = qStopped ∨ s.qState q.val = qFaulted) →
      (s.qCmds q.val = [] → ∃ t, exec (.queueDisable q) s = .next t ∧ t.qState q.val = qOff ∧ SameMemory s t) ∧
      (s.qCmds q.val ≠ [] → ∃ t, exec (.queueDisable q) s = .next t ∧ t.qState q.val = qStopped ∧ t.qClosing q.val = true ∧
        SameMemory s t)) ∧
    ((s.qState q.val = qOff ∨ s.qState q.val = qRun ∨ s.qState q.val = qWait) → exec (.queueDisable q) s = .next s) ∧
    ((s.qState q.val = qIdle ∨ s.qState q.val = qRun) → (s.qint q.val).wait = none → ∃ t, exec (.queueStop q) s = .next t ∧
      t.qState q.val = qStopped ∧ t.qpc q.val = s.qpc q.val ∧ SameRegsBut [R.QSTAT q.val] s t ∧ SameMemory s t) ∧
    (s.qState q.val = qStopped → (s.qint q.val).wait = none → ∃ t, exec (.queueResume q) s = .next t ∧
      t.qState q.val = (if s.pendingEntries q.val = 0 then qIdle else qRun) ∧ t.fld (R.QSTAT q.val) F.QSTAT_FAULT = 0 ∧
      SameRegsBut [R.QSTAT q.val] s t ∧ SameMemory s t) ∧
    (s.qState q.val ≠ qStopped → exec (.queueResume q) s = .next s) ∧
    (s.qState q.val = qFaulted → exec (.queueSkip q) s = .next (s.endList q.val (s.fld (R.QSTAT q.val) F.QSTAT_FAULT))) ∧
    (s.qState q.val ≠ qFaulted → exec (.queueSkip q) s = .next s)

/-- R194, R195: a running queue in no list takes its next entry: 16 bytes at its place in the ring. A legal entry without REC
begins its list at its word, with its tag and its limit of words. R216: a write of CHEAD up to CTAIL frees those slots. -/
def Obligations.RingEntryAndHead : Prop :=
  (∀ (q : Fin 240) (b : List Byte) (s u : State), s.issuing q.val = true → s.qState q.val = qRun →
    (s.qint q.val).inList = false → s.pendingEntries q.val ≠ 0 →
    s.fetch q.val (((s.reg (R.QBASE q.val)).toNat +
      16 * (s.fld (R.QHEAD q.val) F.QHEAD_HEAD % 2 ^ s.fld (R.QCFG q.val) F.QCFG_RING_LOG)) % 2 ^ 64) 16 16 = (.ok b, u) →
    leField b 10 1 = 0 → leField b 11 1 = 0 →
    ∃ t, exec (.ringEntryTake q) s = .next t ∧ (t.qint q.val).inList = true ∧ (t.qint q.val).tag = leField b 8 2 ∧
      (t.qint q.val).maxw = leField b 12 4 ∧ (t.qint q.val).issued = 0 ∧ t.reg (R.QPC q.val) = BitVec.ofNat 64 (leField b 0 8) ∧
      SameRegsBut [R.QPC q.val] u t ∧ SameMemory u t) ∧
  (∀ (q : Fin 240) (s : State), s.pendingEntries q.val = 0 → exec (.ringEntryTake q) s = .next s) ∧
  (∀ (q : Fin 240) (v : BitVec 64) (s : State), s.qBlockUp q.val = true → s.qState q.val ≠ qWait →
    ((v.toNat % 2 ^ 32 + 2 ^ 32 - s.fld (R.CHEAD q.val) F.CHEAD_CHEAD) % 2 ^ 32 ≤ s.slotsUsed q.val →
      ∃ t, exec (.cheadWrite q v) s = .next t ∧ t.fld (R.CHEAD q.val) F.CHEAD_CHEAD = v.toNat % 2 ^ 32 ∧
        SameRegsBut [R.CHEAD q.val] s t ∧ SameMemory s t) ∧
    (s.slotsUsed q.val < (v.toNat % 2 ^ 32 + 2 ^ 32 - s.fld (R.CHEAD q.val) F.CHEAD_CHEAD) % 2 ^ 32 →
      exec (.cheadWrite q v) s = .next s))

/-! ### Control instructions of the easels -/

/-- R200: an instruction whose predicate bars it moves the PC past its words and does nothing else. -/
def Obligations.PredicatedOff : Prop :=
  ∀ (c : Instr) (q op w : Nat) (s u : State), easelOp c = some (q, op) → EaselFetched s q w u → cwOp w = op →
    u.pred q (cwPs w) = cwPn w → ∃ t, exec c s = .next t ∧ t.qpc q = (u.qpc q + 8 * cwCost w) % 2 ^ 64 ∧ t.qState q = qRun ∧
      (t.qint q).issued = (u.qint q).issued + cwCost w ∧ SameRegsBut [R.QPC q, R.QSTAT q] u t ∧ SameMemory u t

/-- R195, R201: a fetch that fails faults the queue, whichever row asks; a word that is not legal faults it with
FAULT_DESCRIPTOR. -/
def Obligations.FetchFaults : Prop :=
  ∀ (c : Instr) (q op : Nat) (s u : State), easelOp c = some (q, op) → s.issuing q = true → s.qState q = qRun →
    (s.qint q).inList = true → (s.qint q).stFault = none →
    (∀ st, s.fetch q (s.qpc q) 8 8 = (.error st, u) → exec c s = .next (u.queueFault q st 0)) ∧
    (∀ b, s.fetch q (s.qpc q) 8 8 = (.ok b, u) → (cwOp (ofLe b) = op ∨ cwKnown (cwOp (ofLe b)) = false) → cwOk (ofLe b) = false →
      exec c s = .next (u.queueFault q stDescriptor (ofLe b)))

/-- R202: the nine arithmetic and logic instructions write their 64-bit result to sRD and go on. -/
def Obligations.EaselArithmetic : Prop :=
  ∀ (q : Fin 240) (w : Nat) (s u : State), EaselReady s q.val w u →
    let a := u.sreg q.val (cwRa w)
    let b := if cwI w then wrapInt (cwSimm w) 64 else u.sreg q.val (cwRb w)
    (cwOp w = 0x10 → ∃ t, exec (.qAdd q) s = .next t ∧ EaselWrote u t q.val (cwRd w) ((a + b) % 2 ^ 64)) ∧
    (cwOp w = 0x11 → ∃ t, exec (.qSub q) s = .next t ∧ EaselWrote u t q.val (cwRd w) (wrapInt ((a : Int) - b) 64)) ∧
    (cwOp w = 0x12 → ∃ t, exec (.qAnd q) s = .next t ∧ EaselWrote u t q.val (cwRd w) (a &&& b)) ∧
    (cwOp w = 0x13 → ∃ t, exec (.qOr q) s = .next t ∧ EaselWrote u t q.val (cwRd w) (a ||| b)) ∧
    (cwOp w = 0x14 → ∃ t, exec (.qXor q) s = .next t ∧ EaselWrote u t q.val (cwRd w) (a ^^^ b)) ∧
    (cwOp w = 0x15 → ∃ t, exec (.qShl q) s = .next t ∧ EaselWrote u t q.val (cwRd w) (a * 2 ^ (b % 64) % 2 ^ 64)) ∧
    (cwOp w = 0x16 → ∃ t, exec (.qShr q) s = .next t ∧ EaselWrote u t q.val (cwRd w) (a / 2 ^ (b % 64))) ∧
    (cwOp w = 0x17 → ∃ t, exec (.qSar q) s = .next t ∧
      EaselWrote u t q.val (cwRd w) (wrapInt (signedOf a 64 / 2 ^ (b % 64)) 64)) ∧
    (cwOp w = 0x18 → ∃ t, exec (.qMul q) s = .next t ∧ EaselWrote u t q.val (cwRd w) (a * b % 2 ^ 64))

/-- R202, R209: NOP only goes on; MOVI writes its sign-extended immediate, MOVHI puts its own above the low half of the
register; SETP and PLOG write one predicate, and register and memory are as before; RDTIME writes the time that its X names.
That RDTIME latches nothing is the model's reading (log 82). -/
def Obligations.EaselMovesAndPredicates : Prop :=
  ∀ (q : Fin 240) (w : Nat) (s u : State), EaselReady s q.val w u →
    (cwOp w = 0x00 → ∃ t, exec (.qNop q) s = .next t ∧ EaselDone u t q.val ∧ SameRegsBut [R.QPC q.val, R.QSTAT q.val] u t ∧
      SameMemory u t) ∧
    (cwOp w = 0x19 → ∃ t, exec (.qMovi q) s = .next t ∧ EaselWrote u t q.val (cwRd w) (wrapInt (cwSimm w) 64)) ∧
    (cwOp w = 0x1A → ∃ t, exec (.qMovhi q) s = .next t ∧
      EaselWrote u t q.val (cwRd w) (u.sreg q.val (cwRd w) % 2 ^ 32 + cwImm w * 2 ^ 32)) ∧
    (cwOp w = 0x1C → ∃ t, exec (.qSetp q) s = .next t ∧ EaselDone u t q.val ∧ SameMemory u t ∧
      SameRegsBut [R.QPRED q.val, R.QPC q.val, R.QSTAT q.val] u t ∧ ∀ i < 8, t.pred q.val i = if i = cwRd w ∧ i ≠ 0 then
        setpCond (cwX w) (u.sreg q.val (cwRa w)) (if cwI w then wrapInt (cwSimm w) 64 else u.sreg q.val (cwRb w))
        else u.pred q.val i) ∧
    (cwOp w = 0x1D → ∃ t, exec (.qPlog q) s = .next t ∧ EaselDone u t q.val ∧ SameMemory u t ∧
      SameRegsBut [R.QPRED q.val, R.QPC q.val, R.QSTAT q.val] u t ∧ ∀ i < 8, t.pred q.val i = if i = cwRd w ∧ i ≠ 0 then
        plogOp (cwX w) (u.pred q.val (cwRa w)) (u.pred q.val (cwRb w)) else u.pred q.val i) ∧
    (cwOp w = 0x38 → ∃ t, exec (.qRdtime q) s = .next t ∧ (u.timeItem q.val (cwX w) < 2 ^ 64 →
      EaselWrote u t q.val (cwRd w) (u.timeItem q.val (cwX w))))

/-- R194, R204, R207, R208, R211: END, the branches, FENCE, WAITB, WAITE and EPOCH: each completes, or waits for its cause. -/
def Obligations.EaselControlFlow : Prop :=
  ∀ (q : Fin 240) (w : Nat) (s u : State), EaselReady s q.val w u →
    (cwOp w = 0x01 → exec (.qEnd q) s =
      .next ((u.updQ q.val (fun i => { i with issued := i.issued + 1 })).endList q.val stDone)) ∧
    (cwOp w = 0x28 → ∃ t, exec (.qBr q) s = .next t ∧ t.qpc q.val = wrapInt ((u.qpc q.val : Int) + 8 * cwSimm w) 64 ∧
      t.qState q.val = qRun ∧ SameRegsBut [R.QPC q.val, R.QSTAT q.val] u t ∧ SameMemory u t) ∧
    (cwOp w = 0x29 → ∃ t, exec (.qJr q) s = .next t ∧ t.qpc q.val = u.sreg q.val (cwRa w) ∧ t.qState q.val = qRun ∧
      SameRegsBut [R.QPC q.val, R.QSTAT q.val] u t ∧ SameMemory u t) ∧
    (cwOp w = 0x37 → (u.fenceDone q.val (cwX w) = true → ∃ t, exec (.qFence q) s = .next t ∧ EaselDone u t q.val ∧ SameMemory u t) ∧
      (u.fenceDone q.val (cwX w) = false → ∃ t, exec (.qFence q) s = .next t ∧ EaselWaits u t q.val onFence ∧ SameMemory u t)) ∧
    (cwOp w = 0x33 →
      let at_ := if cwX w = 1 then (u.position + u.sreg q.val (cwRa w)) % 2 ^ 64 else u.sreg q.val (cwRa w)
      (at_ = u.position → ∃ t, exec (.qWaitb q) s = .next t ∧ EaselWrote u t q.val (cwRd w) stDone) ∧
      (at_ < u.position → ∃ t, exec (.qWaitb q) s = .next t ∧ EaselDone u t q.val ∧
        (cwRd w ≠ 0 → t.sreg q.val (cwRd w) = stLate) ∧ SameMemory u t) ∧
      (u.position < at_ → ∃ t, exec (.qWaitb q) s = .next t ∧ EaselWaits u t q.val onBeat ∧
        (t.qint q.val).wait = some (.beat at_ (cwRd w)) ∧ SameMemory u t)) ∧
    (cwOp w = 0x34 →
      (u.sreg q.val (cwRa w) = 0 → ∃ t, exec (.qWaite q) s = .next t ∧ EaselWrote u t q.val (cwRd w) stDone) ∧
      (0 < u.sreg q.val (cwRa w) → u.sreg q.val (cwRa w) ≤ u.settled → ∃ t, exec (.qWaite q) s = .next t ∧
        EaselWrote u t q.val (cwRd w) (u.epochStatus (u.sreg q.val (cwRa w)))) ∧
      (u.settled < u.sreg q.val (cwRa w) → ∃ t, exec (.qWaite q) s = .next t ∧ EaselWaits u t q.val onEpoch ∧ SameMemory u t)) ∧
    (cwOp w = 0x39 → u.sreg q.val (cwRa w) < 2 ^ 48 →
      (u.sreg q.val (cwRa w) ≤ u.settled + 1 + u.fld (R.QCFG q.val) F.QCFG_AHEAD → ∃ t, exec (.qEpoch q) s = .next t ∧
        EaselDone u t q.val ∧ t.fld (R.QEPOCH q.val) F.QEPOCH_EPOCH = u.sreg q.val (cwRa w) ∧ SameMemory u t) ∧
      (u.settled + 1 + u.fld (R.QCFG q.val) F.QCFG_AHEAD < u.sreg q.val (cwRa w) → ∃ t, exec (.qEpoch q) s = .next t ∧
        EaselWaits u t q.val onEpoch ∧ SameMemory u t))

/-- R203, R489: LD of this module's memory writes the extended value, a register is read by whole words, another module is asked and
the answer completes the LD; an address that is not a multiple of the size faults. -/
def Obligations.EaselLoad : Prop :=
  (∀ (q : Fin 240) (w : Nat) (b : List Byte) (s u v : State), EaselReady s q.val w u → cwOp w = 0x20 →
    let g := u.lsAddr q.val w
    (g % sizeBytes (cwX w) ≠ 0 → exec (.qLd q) s = .next (u.queueFault q.val stAddress w)) ∧
    (g % sizeBytes (cwX w) = 0 → u.isOwn g = true → inRegWindow (gaLocal g) = false →
      u.mappedRange (gaLocal g) (sizeBytes (cwX w)) = true →
      u.readMem (easelWho q.val) (gaLocal g) (sizeBytes (cwX w)) = (b, v, false) →
      ∃ t, exec (.qLd q) s = .next t ∧ EaselWrote v t q.val (cwRd w) (extendLoad (cwX w) (ofLe b))) ∧
    (∀ n, g % 8 = 0 → sizeBytes (cwX w) = 8 → u.isOwn g = true → inRegWindow (gaLocal g) = true →
      u.regRead (gaLocal g) = (some n, v) → exec (.qLd q) s = .next (v.nextRd q.val w n)) ∧
    (g % sizeBytes (cwX w) = 0 → u.isOwn g = false → u.isRemote g = true → inRegWindow (gaLocal g) = false →
      ∃ t, exec (.qLd q) s = .next t ∧ t.qState q.val = qWait ∧ t.fld (R.QSTAT q.val) F.QSTAT_WAIT_ON = onFetch)) ∧
  (∀ (q : Fin 240) (rd x k : Nat) (r : Request) (body : List (BitVec 8)) (s : State), s.mainUp = true → s.pairedFace = false →
    s.fabric.requests.find? (fun r => decide (r.owner = .load q.val)) = some r → (s.qint q.val).wait = some (.load rd x k) → rd < 32 →
    extendLoad x (ofLe (body.take 8)) < 2 ^ 64 →
    ∃ t, exec (.ldResponse q false body) s = .next t ∧ EaselWrote s t q.val rd (extendLoad x (ofLe (body.take 8))))

/-- R203, R219, R262, R357, R376, R489: ST to this module's memory writes the low bytes of sRB, when no evaluation window or pendant
area bars it and the queue does not run ahead; a store elsewhere in memory is not changed. A store to another module is sent and the
queue goes on; its outcome is remembered until it is known. -/
def Obligations.EaselStore : Prop :=
  (∀ (q : Fin 240) (w : Nat) (s u : State), EaselReady s q.val w u → cwOp w = 0x21 →
    let g := u.lsAddr q.val w
    let n := sizeBytes (cwX w)
    let v := u.sreg q.val (cwRb w) % 2 ^ (8 * n)
    (g % n ≠ 0 → exec (.qSt q) s = .next (u.queueFault q.val stAddress w)) ∧
    (g % n = 0 → u.isOwn g = true → inRegWindow (gaLocal g) = false → u.mappedRange (gaLocal g) n = true →
      u.aheadNow q.val = false → u.evalRefuses [(gaLocal g, n)] = false → u.pendAreas = [] → u.altered = [] → u.held = [] →
      ∃ t, exec (.qSt q) s = .next t ∧ EaselDone u t q.val ∧ SameRegsBut [R.QPC q.val, R.QSTAT q.val] u t ∧
        (∀ i < n, ∀ k, memKey (gaLocal g + i) = some k → memByte t.mem k = byteN v i) ∧
        ∀ k, k ∉ keysOf (gaLocal g) n → memByte t.mem k = memByte u.mem k) ∧
    (∀ b off, g % 8 = 0 → n = 8 → u.isOwn g = true → inRegWindow (gaLocal g) = true → blockOf (gaLocal g) = some (b, off) →
      u.regUp b (gaLocal g) = true → pathBars .easel b (gaLocal g) = false → u.aheadNow q.val = false →
      exec (.qSt q) s = .next ((u.regWrite .easel (gaLocal g) (BitVec.ofNat 64 v)).2.next q.val)) ∧
    (g % n = 0 → u.isOwn g = false → u.isRemote g = true → inRegWindow (gaLocal g) = false → u.aheadNow q.val = false →
      ∃ t, exec (.qSt q) s = .next t ∧ t.qState q.val = qRun)) ∧
  (∀ (q : Fin 240) (k : BitVec 16) (status : BitVec 8) (r : Request) (pc : Nat) (s : State), s.mainUp = true →
    s.pairedFace = false → s.fabric.requests = [r] → r.seq = k.toNat → r.owner = .store q.val pc → (s.qint q.val).stFault = none →
    ∃ t, exec (.stRemoteOutcome q k status) s = .next t ∧ (t.qint q.val).stFault = some (status.toNat, pc) ∧
      (∀ x ∈ (t.qint q.val).remoteSts, x ≠ (k.toNat, pc)) ∧ SameRegsBut [] s t ∧ SameMemory s t)

/-- R205, R232 to R236: SEMSIG and SEMADD add to a semaphore of a store that serves, the sum clamped to 32 bits; SEMWAIT takes its
amount where the count allows, and else waits in line; both with nobody in line before them. -/
def Obligations.EaselSemaphores : Prop :=
  ∀ (q : Fin 240) (w : Nat) (s u : State), EaselReady s q.val w u → u.aheadNow q.val = false → u.semWaiters = [] →
    let id := u.semId q.val w
    let st := bitsOf id 13 3
    let ix := bitsOf id 0 13
    (semOk id = false → (cwOp w = 0x31 → exec (.qSemsig q) s = .next (u.queueFault q.val stDescriptor w)) ∧
      (cwOp w = 0x32 → exec (.qSemadd q) s = .next (u.queueFault q.val stDescriptor w))) ∧
    (semOk id = true → u.storePresent st = true → u.storeInReset st = false → (u.qint q.val).remoteSts = [] →
      (cwOp w = 0x31 → ∃ t, exec (.qSemsig q) s = .next t ∧ EaselDone u t q.val ∧
        t.semCount st ix = min (u.semCount st ix + 1) (2 ^ 32 - 1) ∧ SameMemory u t) ∧
      (cwOp w = 0x32 → ∃ t, exec (.qSemadd q) s = .next t ∧ EaselDone u t q.val ∧
        (t.semCount st ix : Int) = max 0 (min (u.semCount st ix + signedOf (u.sreg q.val (cwRb w)) 64) (2 ^ 32 - 1)) ∧
        SameMemory u t) ∧
      (cwOp w = 0x30 → 0 < u.sreg q.val (cwRb w) → u.sreg q.val (cwRb w) < 2 ^ 32 →
        (u.sreg q.val (cwRb w) ≤ u.semCount st ix → ∃ t, exec (.qSemwait q) s = .next t ∧ EaselDone u t q.val ∧
          t.semCount st ix = (if cwX w = 1 then u.semCount st ix else u.semCount st ix - u.sreg q.val (cwRb w)) ∧
          t.semWaiters = [] ∧ SameMemory u t) ∧
        (u.semCount st ix < u.sreg q.val (cwRb w) → ∃ t, exec (.qSemwait q) s = .next t ∧ EaselWaits u t q.val onSem ∧
          t.semWaiters = [⟨st, ix, q.val, u.sreg q.val (cwRb w), cwX w == 1⟩] ∧ t.semCount st ix = u.semCount st ix ∧
          SameMemory u t)))

/-- R232 to R234: a grant completes the one consuming waiter whose amount the count holds, and takes it; without waiters it changes
nothing; a register write of a word of semaphores sets both counts. -/
def Obligations.SemaphoreGrants : Prop :=
  (∀ (st : Fin 5) (ix : Fin 8192) (w : SemWaiter) (s : State), s.mainUp = true → s.storePresent st.val = true →
    s.storeInReset st.val = false → (st.val = 4 ∨ ix.val < 4096) → s.semWaiters = [w] → w.store = st.val → w.index = ix.val →
    w.queue < 240 → w.nocons = false → w.n ≤ s.semCount st.val ix.val →
    ∃ t, exec (.semwaitGrant st ix) s = .next t ∧ t.semWaiters = [] ∧ t.semCount st.val ix.val = s.semCount st.val ix.val - w.n ∧
      t.qState w.queue = qRun ∧ t.qpc w.queue = (s.qpc w.queue + 8) % 2 ^ 64 ∧ SameMemory s t) ∧
  (∀ (st : Fin 5) (ix : Fin 8192) (s : State), s.mainUp = true → s.semWaiters = [] → exec (.semwaitGrant st ix) s = .next s) ∧
  (∀ (pl : Fin 5) (w : Fin 4096) (v : BitVec 64) (s : State), s.mainUp = true → s.placeUp pl = true →
    (pl.val = 0 ∨ w.val < 2048) → s.semWaiters = [] → ∃ t, exec (.semWrite pl w v) s = .next t ∧ t.reg (R.SEM pl.val w.val) = v ∧
      SameRegsBut [R.SEM pl.val w.val] s t ∧ SameMemory s t)

/-- R206, R237, R238: LOCK of a lock of this module: a free one is taken and its owner named, one that another live owner
holds is busy under TRY and joined without it; UNLOCK by its owner frees it. The body of a LOCK_OP and how a joined lock is
told is the model's choice (logs 15, 37). -/
def Obligations.EaselLocks : Prop :=
  ∀ (q : Fin 240) (w : Nat) (s u : State), EaselReady s q.val w u → u.aheadNow q.val = false →
    let h := u.sreg q.val (cwRa w)
    let st := lockStore h
    let ix := lockIndex h
    (lockOk h = false → (cwOp w = 0x35 → exec (.qLock q) s = .next (u.queueFault q.val stDescriptor w)) ∧
      (cwOp w = 0x36 → exec (.qUnlock q) s = .next (u.queueFault q.val stDescriptor w))) ∧
    (lockOk h = true → u.lockHere h = true → u.storePresent st = true → u.storeInReset st = false →
      (cwOp w = 0x35 →
        (u.lockVerdict st ix (u.ownerOf q.val) (cwX w == 1) = .got stDone → ∃ t, exec (.qLock q) s = .next t ∧
          EaselDone u t q.val ∧ t.lockOwner st ix = u.ownerOf q.val ∧ (cwRd w ≠ 0 → t.sreg q.val (cwRd w) = stDone) ∧ SameMemory u t) ∧
        (u.lockVerdict st ix (u.ownerOf q.val) (cwX w == 1) = .busy → ∃ t, exec (.qLock q) s = .next t ∧ EaselDone u t q.val ∧
          t.lockOwner st ix = u.lockOwner st ix ∧ (cwRd w ≠ 0 → t.sreg q.val (cwRd w) = stBusy) ∧ SameMemory u t) ∧
        (u.lockVerdict st ix (u.ownerOf q.val) (cwX w == 1) = .joins → ∃ t, exec (.qLock q) s = .next t ∧
          EaselWaits u t q.val onLock ∧ t.lockOwner st ix = u.lockOwner st ix ∧ t.lockWaiters.length = u.lockWaiters.length + 1 ∧
          SameMemory u t)) ∧
      (cwOp w = 0x36 → (u.qint q.val).remoteSts = [] → u.lockOwner st ix = u.ownerOf q.val → u.lockWaiters = [] →
        ∃ t, exec (.qUnlock q) s = .next t ∧ EaselDone u t q.val ∧ t.lockOwner st ix = LockOwner.free ∧ SameMemory u t))

/-- R239, R242: a write of zero to a lock's owner word frees it, any other value changes nothing; a store that looks again at its
locks with nobody in line changes nothing, and gives a free lock to the waiter of another module that is alone in line. -/
def Obligations.LockRegisters : Prop :=
  (∀ (pl : Fin 5) (ix : Fin 1024) (v : BitVec 64) (s : State), s.mainUp = true → s.placeUp pl = true →
    (pl.val = 0 ∨ ix.val < 256) →
    (v ≠ 0 → exec (.lockOwnWrite pl ix v) s = .next s) ∧
    (v = 0 → s.lockWaiters = [] → ∃ t, exec (.lockOwnWrite pl ix v) s = .next t ∧ t.reg (R.LOCK_OWN pl.val ix.val) = 0 ∧
      SameRegsBut [R.LOCK_OWN pl.val ix.val, R.LOCK_INC pl.val ix.val] s t ∧ SameMemory s t)) ∧
  (∀ (st : Fin 5) (s : State), s.mainUp = true → s.lockWaiters = [] → exec (.lockReexamine st) s = .next s) ∧
  (∀ (st : Fin 5) (w : LockWaiter) (s : State), s.mainUp = true → s.storePresent st.val = true → s.storeInReset st.val = false →
    s.lockWaiters = [w] → w.store = st.val → w.index < lockMax st.val → (s.lockOwner st.val w.index).unit = 0 →
    w.owner.module ≠ 0 → w.mute = true → w.owner.queue < 256 → w.owner.unit < 256 → w.owner.module < 65536 →
    w.owner.qincarn < 2 ^ 32 → w.owner.incarn < 2 ^ 64 → ∃ t, exec (.lockReexamine st) s = .next t ∧ t.lockWaiters = [] ∧
      t.lockOwner st.val w.index = w.owner ∧ SameMemory s t)

/-- R208, R210, R212 to R215: a FENCE goes on when what it waits for is done, and not before. RBIND of a legal record of
this module's memory writes the stream entry. A DISPATCH without a fault in its header, without REC, to an engine with room,
adds its command to those that are in flight under the next number of its queue, and the PC moves past its nine words. When
a buffer entry of its engine is free, a waiting DISPATCH is issued again. A finished command with nothing outstanding
completes when it is due, and not before. Which header faults come first is the model's reading (log 52). -/
def Obligations.DispatchAndCompletion : Prop :=
  (∀ (q : Fin 240) (scope : Nat) (s : State), s.easelUp q.val = true → s.qState q.val = qWait →
    (s.qint q.val).wait = some (.fence scope) →
    (s.fenceDone q.val scope = false → exec (.fenceComplete q) s = .next s) ∧
    (s.fenceDone q.val scope = true → (s.qint q.val).stFault = none → ∃ t, exec (.fenceComplete q) s = .next t ∧
      EaselDone s t q.val ∧ SameMemory s t)) ∧
  (∀ (q : Fin 240) (w : Nat) (b : List Byte) (s u v : State), EaselReady s q.val w u → cwOp w = 0x3A → u.aheadNow q.val = false →
    u.sreg q.val (cwRa w) % 32 = 0 → u.isOwn (u.sreg q.val (cwRa w)) = true →
    u.mappedRange (gaLocal (u.sreg q.val (cwRa w))) 32 = true → u.blockUp (.rand (Fin.ofNat 4 (bitsOf (cwImm w) 8 2))) = true →
    u.readMem (easelWho q.val) (gaLocal (u.sreg q.val (cwRa w))) 32 = (b, v, false) → leField b 25 1 < 4 → leField b 26 6 = 0 →
    ∃ t, exec (.qRbind q) s = .next t ∧ t.qState q.val = qRun ∧ t.qpc q.val = (v.qpc q.val + 8) % 2 ^ 64 ∧ t.mem = v.mem ∧
      t.reg (R.RAND_STREAM (bitsOf (cwImm w) 8 2) (bitsOf (cwImm w) 0 6)) = BitVec.ofNat 64 (leField b 16 8)) ∧
  (∀ (q : Fin 240) (w : Nat) (b : List Byte) (s u v : State), EaselReady s q.val w u → cwOp w = 0x40 →
    u.fetch q.val ((u.qpc q.val + 8) % 2 ^ 64) 8 64 = (.ok b, v) → v.aheadNow q.val = false →
    let c := v.newCmd q.val (patched b w (v.sreg q.val (cwRa w)) (v.sreg q.val (cwRb w)))
    v.headerEnds c = none → c.rec_ = false → v.findCmd q.val c.seq = none → v.pendingOn q.val c.engine < engineCap c.engine →
    ∃ t, exec (.qDispatch q) s = .next t ∧ t.cmds = v.cmds ++ [{ c with unit := c.unitId }] ∧
      t.reg (R.QSEQ q.val) = BitVec.ofNat 64 c.seq ∧ t.qState q.val = qRun ∧ t.qpc q.val = (v.qpc q.val + 72) % 2 ^ 64 ∧ SameMemory v t) ∧
  (∀ (q : Fin 240) (s : State), s.easelUp q.val = true → s.qState q.val = qWait →
    s.fld (R.QSTAT q.val) F.QSTAT_WAIT_ON = onBuffer →
    exec (.engineBufferFree q) s = .next ((s.reissue q.val).issue q.val 0x40 (fun w s => s.dispatch q.val w))) ∧
  (∀ (q : Fin 240) (n : Nat) (c : Cmd) (s : State), s.serving = true → s.findCmd q.val n = some c →
    (c.phase = .finished → c.due ≤ s.now → c.open_ = 0 → exec (.commandCompletion q n) s = .next (s.complete c)) ∧
    (s.now < c.due → exec (.commandCompletion q n) s = .next s))

/-! ### Arbiters and staged configuration -/

/-- R226, R227, R229: a lone request that is ready and not masked is granted; the end of a window clears the used counts and the
cut-offs; a privileged holder that reaches its limit is withdrawn, recorded and cut off for the window. -/
def Obligations.Arbiters : Prop :=
  (∀ (pl r : Fin 5) (u : BitVec 16) (k : ArbAsk) (s : State), s.mainUp = true → arbExists pl.val r.val = true →
    s.arb (arbKey pl.val r.val u.toNat) = Arbiter.fresh → s.arbLive k.src = true →
    s.arbDelay pl.val r.val Arbiter.fresh k = 0 → k.ready = true → (s.arbReq Arbiter.fresh k).cls < 4 →
    ∃ t, exec (.arbGrant pl r u [k]) s = .next t ∧
      (t.arb (arbKey pl.val r.val u.toNat)).holder = some (s.arbReq Arbiter.fresh k) ∧
      (t.arb (arbKey pl.val r.val u.toNat)).units = 1 ∧ SameRegsBut [] s t ∧ SameMemory s t) ∧
  (∀ (pl r : Fin 5) (u : BitVec 16) (s : State), s.mainUp = true → arbExists pl.val r.val = true →
    (s.fld (R.ARB_WINDOW pl.val) F.ARB_WINDOW_LEN ≤ (s.arb (arbKey pl.val r.val u.toNat)).cycle →
      ∃ t, exec (.arbWindowReset pl r u) s = .next t ∧ (t.arb (arbKey pl.val r.val u.toNat)).used = [0, 0, 0, 0] ∧
        (t.arb (arbKey pl.val r.val u.toNat)).cycle = 0 ∧ (t.arb (arbKey pl.val r.val u.toNat)).cut = [] ∧
        SameRegsBut [] s t ∧ SameMemory s t) ∧
    ((s.arb (arbKey pl.val r.val u.toNat)).cycle < s.fld (R.ARB_WINDOW pl.val) F.ARB_WINDOW_LEN →
      exec (.arbWindowReset pl r u) s = .next s)) ∧
  (∀ (pl r : Fin 5) (u : BitVec 16) (h : ArbReq) (s : State), s.mainUp = true →
    (s.arb (arbKey pl.val r.val u.toNat)).holder = some h → h.priv < 7 →
    (s.holdLimit pl.val h.priv ≤ (s.arb (arbKey pl.val r.val u.toNat)).held → ∃ t, exec (.arbCutoff pl r u) s = .next t ∧
      (t.arb (arbKey pl.val r.val u.toNat)).holder = none ∧ h.priv ∈ (t.arb (arbKey pl.val r.val u.toNat)).cut ∧
      t.fld (R.ARB_CUT pl.val) F.ARB_CUT_LAST_R = r.val ∧ SameMemory s t) ∧
    ((s.arb (arbKey pl.val r.val u.toNat)).held < s.holdLimit pl.val h.priv → exec (.arbCutoff pl r u) s = .next s))

/-- R244, R246: a request of an apply waits in its slot, at its clock's time or its beat boundary; one that names a block
already named, or finds its slot taken, is counted and ignored; CANCEL discards the request of its own register; an apply
that is due takes effect. Which slot a CANCEL empties is the model's reading (log 18). -/
def Obligations.StagedApplies : Prop :=
  (∀ (c : Instr) (slot hub die : Nat) (atBeat fromBeat : Bool) (s : State), s.mainUp = true →
    (c = .beatApply ∧ slot = 0 ∧ hub = 4 ∧ die = 0 ∧ atBeat = false ∧ fromBeat = true ∨
     c = .beatApplyAtBeat ∧ slot = 0 ∧ hub = 4 ∧ die = 0 ∧ atBeat = true ∧ fromBeat = true ∨
     (∃ (h : BitVec 16) (m : BitVec 36), c = .lockApplyNow h m ∧ slot = 0 ∧ hub = h.toNat ∧ die = m.toNat ∧ atBeat = false ∧
       fromBeat = false) ∨
     (∃ (h : BitVec 16) (m : BitVec 36), c = .lockApplyAtBeat h m ∧ slot = 0 ∧ hub = h.toNat ∧ die = m.toNat ∧ atBeat = true ∧
       fromBeat = false) ∨
     (∃ (d : Fin 4) (m : BitVec 9), c = .dlockApplyNow d m ∧ s.blockUp (.dlock d) = true ∧ slot = d.val + 1 ∧ hub = 0 ∧
       die = m.toNat * 2 ^ (9 * d.val) ∧ atBeat = false ∧ fromBeat = false) ∨
     (∃ (d : Fin 4) (m : BitVec 9), c = .dlockApplyAtBeat d m ∧ s.blockUp (.dlock d) = true ∧ slot = d.val + 1 ∧ hub = 0 ∧
       die = m.toNat * 2 ^ (9 * d.val) ∧ atBeat = true ∧ fromBeat = false)) →
    (s.applySlot slot = none → s.pendingNames &&& (hub + die * 65536) = 0 → ∃ t, exec c s = .next t ∧
      t.applySlot slot = some ⟨atBeat, s.slotClock slot + 64, (s.position / 65536 + 1) * 65536, hub, die, fromBeat⟩ ∧
      SameRegsBut [] s t ∧ SameMemory s t) ∧
    ((s.applySlot slot ≠ none ∨ s.pendingNames &&& (hub + die * 65536) ≠ 0) → ∃ t, exec c s = .next t ∧ t.applies = s.applies ∧
      t.fld (R.APPLY_CNT slot) F.APPLY_CNT_IGNORED =
        min (s.fld (R.APPLY_CNT slot) F.APPLY_CNT_IGNORED + 1) (2 ^ F.APPLY_CNT_IGNORED.width - 1) ∧
      SameRegsBut [R.APPLY_CNT slot] s t ∧ SameMemory s t)) ∧
  (∀ s : State, s.mainUp = true → ∃ t, exec .lockApplyCancel s = .next t ∧ (∀ p ∈ t.applies, p.1 ≠ 0 ∨ p.2.fromBeat = true) ∧
    (∀ p ∈ s.applies, p.1 ≠ 0 → p ∈ t.applies) ∧ SameRegsBut [] s t ∧ SameMemory s t) ∧
  (∀ (d : Fin 4) (s : State), s.mainUp = true → s.blockUp (.dlock d) = true → ∃ t, exec (.dlockApplyCancel d) s = .next t ∧
    (∀ p ∈ t.applies, p.1 ≠ d.val + 1 ∨ p.2.fromBeat = true) ∧ (∀ p ∈ s.applies, p.1 ≠ d.val + 1 → p ∈ t.applies) ∧
    SameRegsBut [] s t ∧ SameMemory s t) ∧
  (∀ (slot : Fin 5) (r : ApplyReq) (s : State), s.mainUp = true → s.applySlot slot.val = some r →
    (s.applyDue slot.val r = true → s.applyReady r = true → exec (.stagedApplyEffect slot) s = .next (s.applyTake slot.val r)) ∧
    (s.applyDue slot.val r = false → exec (.stagedApplyEffect slot) s = .next s))

/-! ### Canvas arrays -/

/-- R119, R113, R116, R122, R123: PRIME, STREAM, DRAIN and PACK. One that must wait for an earlier command of its canvas does
nothing yet; one that starts does its work, in the state where it has started. PACK sets packing and width, clears the canvas and
takes 4,096 ac. A STREAM without RING of local weights ends with its rows as RESULT0, after its last product; a PRIME or STREAM or
DRAIN of nothing is DONE. -/
def Obligations.CanvasCommands : Prop :=
  ∀ (q : Fin 240) (n : Nat) (c : Cmd) (s : State), s.serving = true → s.findCmd q.val n = some c →
    (s.canvasReady c = false → exec (.prime q n) s = .next s ∧ exec (.stream q n) s = .next s ∧ exec (.drain q n) s = .next s ∧
      exec (.pack q n) s = .next s) ∧
    (s.canvasReady c = true → s.engineClosing c = false →
      let u := s.canvasBegun q.val n c
      let d := c.die
      (s.startOf q.val n 0x01 = .go c → exec (.prime q n) s = .next (u.primeBody c) ∧
        (c.at 32 2 = 0 → u.primeOk c = true → CmdFinished (u.primeBody c) q.val n stDone 0 0 s.now)) ∧
      (s.startOf q.val n 0x02 = .go c → exec (.stream q n) s = .next (u.streamBody c) ∧
        (c.at 32 4 = 0 → u.streamOk c = true → CmdFinished (u.streamBody c) q.val n stDone 0 0 s.now) ∧
        (∀ (t : TD) (v : State), c.at 32 4 ≠ 0 → u.readTd c (c.at 16 8) = (.ok t, v) → v.streamOk c = true → bitOf c.flags 3 = false →
          roleOk (c.at 12 1) (t.ext1 (firstDim (bitOf c.flags 2))) = true → v.streamsFull c = false →
          v.canvasTensor t (if u.wide d c.canvas then [fLog4, fLog8, fLog16] else [fLog4, fLog8]) = none →
          v.isRemote t.range.1 = false → u.streamBody c = v.streamPlain c t ∧
            ∃ st frz due, CmdFinished (u.streamBody c) q.val n st (c.at 32 4) frz due)) ∧
      (s.startOf q.val n 0x03 = .go c → exec (.drain q n) s = .next (u.drainBody c) ∧
        (c.at 32 4 = 0 → drainFieldsOk c.desc = true → c.at 9 1 < packProblems (u.packing d c.canvas) → c.at 8 1 < 16 →
          leField c.desc 36 2 ≤ packSize (u.packing d c.canvas) (u.wide d c.canvas) →
          CmdFinished (u.drainBody c) q.val n stDone 0 0 s.now)) ∧
      (s.startOf q.val n 0x04 = .go c → c.at 10 54 = 0 → c.at 8 1 < 16 → c.at 9 1 < 6 → c.at 9 1 ≠ 3 →
        (4 ≤ c.at 9 1 → s.offered fLog16 = true) → s.sharedCanvas d c.canvas = false →
        ∃ t, exec (.pack q n) s = .next t ∧ t.packing d c.canvas = c.at 9 1 % 4 ∧ t.wide d c.canvas = decide (4 ≤ c.at 9 1) ∧
          (∀ p e sz, p < 16 → e < 4096 → t.accRow d c.canvas p e sz = List.replicate sz AccEntry.empty) ∧
          CmdFinished t q.val n stDone 0 0 (s.now + s.acDur d 4096) ∧ SameRegsBut [R.CANV_MODE d] s t ∧ SameMemory s t))

/-- R129 to R131, R128, R136, R137, R141: a post of a free slot is added to its gate, a second post of it is counted; a PRIME that
may close its gate latches the mask and opens the next batch; the oldest final row of a RING STREAM is drained; a corrected entry
is only counted, another detection on a canvas whose partner is whole retires it onto the partner; the debug window reads zero
while it is closed. -/
def Obligations.CanvasEvents : Prop :=
  (∀ (d g : Fin 4) (slot : Fin 256) (tag : BitVec 32) (s : State), s.mainUp = true → s.blockUp (.canv d) = true →
    ((s.gate d.val g.val).posts.any (fun p => p.1 == slot.val) = true → ∃ t, exec (.gatePost d g slot tag) s = .next t ∧
      t.fld (R.CANV_GATE_DUP d.val) (F.CANV_GATE_DUP_DUP g.val) =
        min (s.fld (R.CANV_GATE_DUP d.val) (F.CANV_GATE_DUP_DUP g.val) + 1) (2 ^ (F.CANV_GATE_DUP_DUP g.val).width - 1) ∧
      SameRegsBut [R.CANV_GATE_DUP d.val] s t ∧ SameMemory s t) ∧
    ((s.gate d.val g.val).posts.any (fun p => p.1 == slot.val) = false → (s.gate d.val g.val).waits = [] →
      ∃ t, exec (.gatePost d g slot tag) s = .next t ∧
        (t.gate d.val g.val).posts = (s.gate d.val g.val).posts ++ [(slot.val, tag.toNat)] ∧
        SameRegsBut [R.CANV_GATE_STAT d.val] s t ∧ SameMemory s t)) ∧
  (∀ (d g : Fin 4) (s : State), s.serving = true → s.dieUp d.val = true →
    ((s.gate d.val g.val).waits = [] → exec (.gateClose d g) s = .next s) ∧
    (∀ (w : GateWait) (rest : List GateWait) (c : Cmd) (m : Nat) (td : TD), (s.gate d.val g.val).waits = w :: rest →
      s.findCmd w.queue w.seq = some c → (s.gateCloses d.val g.val w (c.at 48 2) (c.at 40 8) = none →
        exec (.gateClose d g) s = .next s) ∧
      (s.gateCloses d.val g.val w (c.at 48 2) (c.at 40 8) = some m → s.mirror = false → s.peekTd c (c.at 16 8) = some td →
        ∃ u, exec (.gateClose d g) s = .next (u.primeWrite c td m (w.late || w.released) (s.manifest (s.gate d.val g.val) m)) ∧
          (u.gate d.val g.val).posts = [] ∧ (u.gate d.val g.val).closes = (s.gate d.val g.val).closes + 1 ∧
          (u.gate d.val g.val).waits = rest ∧
          (∀ i < 4, u.reg (R.CANV_GATE_MASK d.val g.val i) = BitVec.ofNat 64 (bitsOf m (64 * i) 64)) ∧ SameMemory s u))) ∧
  (∀ (q : Fin 240) (n j w : Nat) (c : Cmd) (g : RingInt) (rest : List (Nat × Nat)) (s : State), s.serving = true →
    s.findCmd q.val n = some c → s.rings.find? (fun x => x.queue == q.val && x.seq == n) = some g → g.waiting = (j, w) :: rest →
    (w ≤ s.now → exec (.ringEntryDrain q n) s = .next (s.ringDrain c g j)) ∧
    (s.now < w → exec (.ringEntryDrain q n) s = .next s)) ∧
  (∀ (d : Fin 4) (c : Fin 16) (kind : Fin 4) (s : State), s.mainUp = true → s.dieUp d.val = true →
    (kind = 3 → ∃ t, exec (.canvasRetirement d c kind) s = .next t ∧
      t.fld (R.CANV_HEALTH d.val) F.CANV_HEALTH_CORRECTED =
        min (s.fld (R.CANV_HEALTH d.val) F.CANV_HEALTH_CORRECTED + 1) (2 ^ F.CANV_HEALTH_CORRECTED.width - 1) ∧
      SameRegsBut [R.CANV_HEALTH d.val] s t ∧ SameMemory s t) ∧
    (kind ≠ 3 → s.bit (R.CANV_RETIRED d.val) F.CANV_RETIRED_RETIRED c.val = false →
      s.bit (R.CANV_RETIRED d.val) F.CANV_RETIRED_RETIRED (c.val ^^^ 1) = false →
      ∃ t, exec (.canvasRetirement d c kind) s = .next t ∧ t.bit (R.CANV_RETIRED d.val) F.CANV_RETIRED_RETIRED c.val = true ∧
        t.physCanvas d.val c.val = c.val ^^^ 1 ∧ t.sharedCanvas d.val c.val = true ∧ t.sharedCanvas d.val (c.val ^^^ 1) = true ∧
        SameMemory s t)) ∧
  (∀ (d : Fin 4) (c : Fin 16) (s : State), s.mainUp = true → s.blockUp (.canv d) = true →
    exec (.canvasRetireWrite d (BitVec.ofNat 16 (2 ^ c.val))) s = .next (s.retire d.val c.val 3) ∧
    (s.bit (R.CANV_RETIRED d.val) F.CANV_RETIRED_RETIRED c.val = true → s.retire d.val c.val 3 = s)) ∧
  (∀ (d : Fin 4) (s : State), s.mainUp = true → s.blockUp (.ddbg d) = true →
    (s.ddbgOpen = false → exec (.ddbgAccVRead d) s =
      .next { s with out := { kind := .value, nums := [R.DDBG_ACC_V d.val, 0], bytes := [] } :: s.out }) ∧
    (s.ddbgOpen = true → ∃ t, exec (.ddbgAccVRead d) s = .next t ∧
      t.out = { kind := .value, nums := [R.DDBG_ACC_V d.val, wrapInt (s.ddbgEntry d.val).read.1 64], bytes := [] } :: s.out ∧
      SameMemory s t))

/-! ### Sliver cores -/

/-- R151, R153, R171: each row of an instruction that acts lane by lane runs its lane function on the rows it names, once issued
and free of faults; with a fault the brush stops and names it. -/
def Obligations.SliverLanes : Prop :=
  ∀ (i : Instr) (d : Fin 4) (b : Fin 32) (op : Nat) (fn : Nat → LaneIn → LaneOut) (c : SlCtx) (s u : State),
    sliverLane i = some (d, b, op, fn) → SliverReady s d.val b.val op c u →
    (u.slFault c = none → exec i s = .next (u.runLanes c (fn c.w))) ∧
    (∀ st row, u.slFault c = some (st, row) → exec i s = .next (u.brushStop d.val b.val c.run st row))

/-- R147, R149, R150, R175: what such an instruction leaves. Every active lane of the brush holds its result's bits in the rows of
RD, bit k in row k, and its new latches; every other lane of those rows, and every other byte of memory, is as before. -/
def Obligations.SliverLaneResults : Prop :=
  ∀ (c : SlCtx) (fn : LaneIn → LaneOut) (u : State), c.d < 4 → c.b < 32 → u.altered = [] → u.badRow c = none →
    let l := u.latch (brushKey c.d c.b)
    let t := u.runLanes c fn
    let inn := fun i j => (⟨(u.laneVals c.d (64 * c.b + i) c.ra).getD j 0, (u.laneVals c.d (64 * c.b + i) c.rb).getD j 0,
      (u.laneVals c.d (64 * c.b + i) c.rb).getD j 0, ((u.withCapture c.prog).laneRand c i).getD j 0, bitOf l.carry (1024 * i + j),
      bitOf l.mask (1024 * i + j)⟩ : LaneIn)
    let on := fun i j => !(slPred c.w) || bitOf l.mask (1024 * i + j)
    (∀ x, c.rd = some x → ∀ i < 64, ∀ j < 1024, ∀ k < x.n,
      bitOf (t.rowBits c.d (64 * c.b + i) (x.first + k)) j =
        (if on i j then bitOf (fn (inn i j)).res.code k else bitOf (u.rowBits c.d (64 * c.b + i) (x.first + k)) j)) ∧
    (∀ a, (∀ x, c.rd = some x → ∀ i < 64, ∀ k < x.n, ∀ j < 128, a ≠ rowKey c.d (64 * c.b + i) (x.first + k) + j) →
      memByte t.mem a = memByte u.mem a) ∧
    (∀ i < 64, ∀ j < 1024,
      bitOf (t.latch (brushKey c.d c.b)).carry (1024 * i + j) =
        (if on i j then (fn (inn i j)).carry.getD (bitOf l.carry (1024 * i + j)) else bitOf l.carry (1024 * i + j)) ∧
      bitOf (t.latch (brushKey c.d c.b)).mask (1024 * i + j) =
        (if on i j then (fn (inn i j)).mask.getD (bitOf l.mask (1024 * i + j)) else bitOf l.mask (1024 * i + j)))

/-- R176: ADD and SUB in one lane, on operands of W bits: the sum with the carry latch under CIN, the sum with NOT B, the carry out
of bit W − 1, no events. R177 to R179: the exact product, the greater and the lesser, the condition of CMP, the bit operations. -/
def Obligations.SliverIntegers : Prop :=
  ∀ (w : Nat) (x : LaneIn), 1 ≤ slW w → x.a < 2 ^ slW w → intB w x < 2 ^ slW w → x.b < 2 ^ slWb w →
    let n := slW w
    let va := if slUns w then (x.a : Int) else signedOf x.a n
    let vb := if slUns w then (intB w x : Int) else signedOf (intB w x) n
    let ca := b2n (slCin w && x.carry)
    let cs := b2n (!(slCin w) || x.carry)
    (∀ (d : Fin 4) (b : Fin 32), sliverLane (.slvAdd d b) = some (d, b, 0x10, laneAdd) ∧
      sliverLane (.slvSub d b) = some (d, b, 0x11, laneSub)) ∧
    (laneAdd w x).res = { code := (x.a + intB w x + ca) % 2 ^ n } ∧
    (laneAdd w x).carry = some (decide (2 ^ n ≤ x.a + intB w x + ca)) ∧
    (laneSub w x).res = { code := (x.a + (2 ^ n - 1 - intB w x) + cs) % 2 ^ n } ∧
    (laneSub w x).carry = some (decide (2 ^ n ≤ x.a + (2 ^ n - 1 - intB w x) + cs)) ∧
    (laneCmp w x).carry = some (decide (intB w x ≤ x.a)) ∧
    (slMmode w = 0 → slCond w ≤ 5 → (laneCmp w x).mask = some (match slCond w with
      | 0 => decide (va = vb) | 1 => decide (va ≠ vb) | 2 => decide (va < vb) | 3 => decide (va ≤ vb) | 4 => decide (vb < va)
      | _ => decide (vb ≤ va))) ∧
    ((laneMax w x).res.code = if va < vb then intB w x else x.a) ∧ ((laneMin w x).res.code = if vb < va then intB w x else x.a) ∧
    (slUns w = true → (laneMul w x).res.code = x.a * x.b) ∧
    (∀ i < n, bitOf (laneAnd w x).res.code i = (bitOf x.a i && bitOf (intB w x) i) ∧
      bitOf (laneOr w x).res.code i = (bitOf x.a i || bitOf (intB w x) i) ∧
      bitOf (laneXor w x).res.code i = (bitOf x.a i != bitOf (intB w x) i) ∧
      bitOf (laneAndn w x).res.code i = (bitOf x.a i && !(bitOf (intB w x) i)) ∧ bitOf (laneNot w x).res.code i = !(bitOf x.a i)) ∧
    (laneMov w x).res.code = x.a ∧ (laneSel w x).res.code = (if x.mask then x.a else intB w x)

/-- R151, R152, R156, R182, R185, R188, R190, R191: NOP, END, REP, SETRB, CVT and REDUCE of a brush; a SLIVER_RUN starts its
program on the brushes of its mask with fresh latches; a lendable idle brush is granted to a collective that runs. That a
SLIVER_RUN waits for a brush still in use is the model's reading (log 20). -/
def Obligations.SliverControl : Prop :=
  (∀ (d : Fin 4) (b : Fin 32) (op : Nat) (c : SlCtx) (s u : State), SliverReady s d.val b.val op c u →
    let k := brushKey d.val b.val
    (op = 0x00 → u.slFault c = none → c.run.rep = none → ∃ t, exec (.slvNop d b) s = .next t ∧
      t.brushRun k = some { c.run with index := c.run.index + 1, busy := max u.now c.run.busy + u.acDur d.val 1 } ∧ SameMemory u t) ∧
    (op = 0x01 → u.slFault c = none → u.findCmd c.run.queue c.run.seq ≠ none → u.sliverRun c.run.queue c.run.seq = some c.prog →
      c.prog.stopped = [] → (∀ p ∈ u.brushRuns, p.1 ≠ k → ¬(p.2.queue = c.run.queue ∧ p.2.seq = c.run.seq)) →
      ∃ t due, exec (.slvEnd d b) s = .next t ∧ t.brushRun k = none ∧ t.sliverRun c.run.queue c.run.seq = none ∧
        CmdFinished t c.run.queue c.run.seq (doneStatus c.prog.counted) 0 0 due ∧ SameMemory u t) ∧
    (op = 0x02 → State.repFault c u = none → ∃ t, exec (.slvRep d b) s = .next t ∧
      t.brushRun k = some { c.run with
        index := c.run.index + 1, busy := max u.now c.run.busy + u.acDur d.val 1,
        rep := some { start := c.run.index + 1, span := bitsOf c.w 48 8, count := bitsOf c.w 56 16, iter := 0,
                      bstride := bitsOf c.w 72 16, rstep := signedOf c.w 24 } } ∧ SameMemory u t) ∧
    (op = 0x03 → slSetrbOk c.w = true → c.run.rep = none → ∃ t, exec (.setrb d b) s = .next t ∧
      t.brushRun k = some { c.run with
        index := c.run.index + 1, busy := max u.now c.run.busy + u.acDur d.val 1,
        base := if bitsOf c.w 64 2 = 0 then bitsOf c.w 0 64 else (c.run.base + bitsOf c.w 0 64) % 2 ^ 64 } ∧ SameMemory u t) ∧
    (op = 0x50 → u.slFault c = none → exec (.slvCvt d b) s =
      .next (u.runLanes c (laneCvt c.w ((u.withCapture c.prog).scaleOf c.d (slPset c.w))))) ∧
    (op = 0x60 → u.slFault c = none → exec (.slvReduce d b) s = .next (u.runReduce c))) ∧
  (∀ (q : Fin 240) (n : Nat) (c : Cmd) (s : State), s.findCmd q.val n = some c → s.serving = true →
    (s.brushesBusy c = true → exec (.sliverRun q n) s = .next s) ∧
    (s.brushesBusy c = false → s.startOf q.val n 0x30 = .go c → s.engineClosing c = false →
      (c.at 16 4 = 0 → ∃ t, exec (.sliverRun q n) s = .next t ∧ CmdFinished t q.val n stDone 0 0 s.now ∧ SameRegsBut [] s t ∧
        SameMemory s t) ∧
      (c.at 16 4 ≠ 0 → (∀ b < 32, bitOf (c.at 16 4) b = true → s.brushUp c.die b = true) → c.at 8 8 % 16 = 0 →
        s.isOwn (c.at 8 8) = true → ∃ t, exec (.sliverRun q n) s = .next t ∧
          (∀ b < 32, bitOf (c.at 16 4) b = true →
            t.brushRun (brushKey c.die b) = some { queue := c.queue, seq := c.seq, index := 0, rep := none, base := 0, busy := s.now } ∧
            t.latch (brushKey c.die b) = Latches.start) ∧ SameRegsBut [] s t ∧ SameMemory s t))) ∧
  (∀ (d : Fin 4) (b : Fin 32) (s : State), s.serving = true →
    s.brushUp d.val b.val = true → bitOf (s.fld (R.SLV_LEND d.val) F.SLV_LEND_LEND_MASK) b.val = true →
    s.fld (R.SLV_LEND d.val) F.SLV_LEND_ROW_COUNT ≠ 0 → s.lent.contains (brushKey d.val b.val) = false →
    s.cmds.any (fun c => isCollective c.code && c.phase == .started) = true →
    (s.brushRun (brushKey d.val b.val) = none → ∃ t, exec (.lendGrant d b) s = .next t ∧
      t.lent = s.lent ++ [brushKey d.val b.val] ∧ SameRegsBut [] s t ∧ SameMemory s t) ∧
    (∀ r, s.brushRun (brushKey d.val b.val) = some r →
      (s.fld (R.SLV_CFG d.val) F.SLV_CFG_LEND_PREEMPT ≠ 1 → exec (.lendGrant d b) s = .next s) ∧
      (s.fld (R.SLV_CFG d.val) F.SLV_CFG_LEND_PREEMPT = 1 → ∃ t, exec (.lendGrant d b) s = .next t ∧
        t.lent = s.lent ++ [brushKey d.val b.val] ∧
        t.brushRun (brushKey d.val b.val) = some { r with busy := max s.now r.busy + s.acDur d.val 4 } ∧
        SameRegsBut [R.SLV_BSTALL d.val b.val] s t ∧ SameMemory s t)))

/-! ### Moves and collectives -/

/-- R215, R281 to R285, R289: each move command that starts reads its descriptors and checks them; one that fails ends with that
status, one that passes does its work. A FILL of local memory ends DONE with its elements counted, and no other byte changes. -/
def Obligations.MoveCommands : Prop :=
  ∀ (i : Instr) (q : Fin 240) (n code : Nat) (c : Cmd) (s : State), moveRow i = some (q, n, code) → s.serving = true →
    s.startOf q.val n code = .go c → s.engineClosing c = false →
    let u := s.updCmd q.val n (fun x => { x with phase := .started })
    (∀ st w v, u.moveTds c = (.error (st, w), v) → exec i s = .next (v.moveFail c st w)) ∧
    (∀ m v, u.moveTds c = (.ok m, v) →
      (∀ st w, v.moveCheck c m = some (st, w) → st ≠ stDone → exec i s = .next (v.moveFail c st w)) ∧
      (v.moveCheck c m = none →
        (code = 0x10 ∨ code = 0x13 → exec i s = .next (v.moveCopyWork c m id)) ∧
        (code = 0x11 → exec i s = .next (v.moveCopyWork c m (fun x => x.getD 1 0 :: x.getD 0 0 :: x.drop 2))) ∧
        (code = 0x12 → exec i s = .next (v.moveConvertWork c m)) ∧
        (0x15 ≤ code → exec i s = .next (v.moveIndexed c m)) ∧
        (code = 0x14 → exec i s = .next (v.moveFillWork c m) ∧
          (v.altered = [] → v.held = [] → v.isRemote m.dst.base = false →
            (∀ x ∈ m.dst.all, ∀ b ∈ m.dst.writes x (fillCode m.dst.fmt c.patternOf), v.isOwn b.addr = true) →
            (∃ due, CmdFinished (v.moveFillWork c m) q.val n stDone m.dst.count 0 due) ∧
            ∀ k, (∀ x ∈ m.dst.all, ∀ b ∈ m.dst.writes x (fillCode m.dst.fmt c.patternOf), (memKey (gaLocal b.addr)).getD 0 ≠ k) →
              memByte (v.moveFillWork c m).mem k = memByte v.mem k))))

/-- R325 to R331, R339, R340: a collective waits for the earlier ones of its group; one that starts advances the sequence of its
group; one of a retracted epoch is cancelled, one whose descriptors and shapes pass is put in flight. -/
def Obligations.CollectiveCommands : Prop :=
  ∀ (i : Instr) (q : Fin 240) (n code : Nat) (close : Bool) (c : Cmd) (s : State), s.serving = true → s.findCmd q.val n = some c →
    collRow c i = some (q, n, code, close) →
    (s.collWaits q.val n close = true → exec i s = .next s) ∧
    (s.collWaits q.val n close = false → s.startOf q.val n code = .go c → s.engineClosing c = false →
      let u := s.updCmd q.val n (fun x => { x with phase := .started })
      (s.slotOf (c.at 8 1) = none → c.epoch ≠ 0 → s.retracted.contains c.epoch = true → ∃ t, exec i s = .next t ∧
        CmdFinished t q.val n stCancelled 0 0 s.now ∧ SameRegsBut [] s t ∧ SameMemory s t) ∧
      (∀ v g, s.slotOf (c.at 8 1) = some v → s.group v = some g →
        (c.epoch ≠ 0 → s.retracted.contains c.epoch = true → ∃ t, exec i s = .next t ∧
          CmdFinished t q.val n stCancelled 0 0 s.now ∧ (t.group v).map Group.cseq = some ((g.cseq + 1) % 65536) ∧
          SameRegsBut [] s t ∧ SameMemory s t) ∧
        (∀ l w gext split, (c.epoch = 0 ∨ s.retracted.contains c.epoch = false) →
          (u.advanceCseq v g c.epoch).collTds c (collAddrs c) = (.ok l, w) →
          w.collCheck c (some g) ((l.take 4).map Prod.fst) (l.getD 4 (none, [])).1 = .ok (gext, split) →
          exec i s = .next (w.runColl c v g ((l.take 4).map Prod.fst) (l.getD 4 (none, [])).1 (l.getD 4 (none, [])).2 gext split
            g.cseq))))

/-- R323, R329, R330, R332, R336, R340, R341, R466: registration of a slot, segments and retractions in their turn, a step
of a collective on a brush lent to it, the point at which a contribution is judged, the software veto, and the ends of
injected holds. That a segment may come before its collective starts here is the model's reading (log 40). -/
def Obligations.CollectiveEvents : Prop :=
  (∀ (v : Fin 10) (s : State), s.mainUp = true →
    (s.slotBusy v.val = true → ∃ t u, exec (.groupRegister v) s = .next t ∧ exec (.groupUnregister v) s = .next u ∧
      t.fld (R.RED_GCTL v.val) F.RED_GCTL_STATUS = stBusy ∧ u.fld (R.RED_GCTL v.val) F.RED_GCTL_STATUS = stBusy ∧
      SameRegsBut [R.RED_GCTL v.val] s t ∧ SameRegsBut [R.RED_GCTL v.val] s u) ∧
    (s.slotBusy v.val = false →
      (∃ t, exec (.groupUnregister v) s = .next t ∧ t.group v.val = none ∧ t.fld (R.RED_GCTL v.val) F.RED_GCTL_VALID = 0 ∧
        t.bit R.RED_STAT F.RED_STAT_BOUND v.val = false ∧ SameRegsBut [R.RED_GCTL v.val, R.RED_STAT] s t ∧ SameMemory s t) ∧
      (∀ b u, s.readGroup (s.reg (R.RED_GADDR v.val)).toNat = (some b, u) → groupOk u.ownAddr v.val b = true →
        (∀ w < 10, w ≠ v.val → u.slotOf (leField b 0 1) ≠ some w) → ∃ t, exec (.groupRegister v) s = .next t ∧
          t.fld (R.RED_GCTL v.val) F.RED_GCTL_VALID = 1 ∧ t.fld (R.RED_GCTL v.val) F.RED_GCTL_GROUP = leField b 0 1 ∧
          t.fld (R.RED_GCTL v.val) F.RED_GCTL_STATUS = stDone ∧ t.bit R.RED_STAT F.RED_STAT_BOUND v.val = true ∧
          (t.group v.val).map Group.cseq = some 0))) ∧
  (∀ (h : Hdr) (b : List (BitVec 8)) (s u : State), s.mode ≠ mEarly →
    (InTurn s h tRedHdr u → exec (.redHdr h b) s = .next (u.redHdrRx h b)) ∧
    (InTurn s h tRedData u → exec (.redData h b) s = .next (u.redDataRx h b)) ∧
    (InTurn s h tRetract u → exec (.retractRx h b) s = .next (u.retractRx h b)) ∧
    (Arrives s h tRedAck → h.err = false → ∃ t, exec (.redAck h b) s = .next t ∧
      (∀ x ∈ t.redTx, x ∈ s.redTx ∧ ¬(x.dst = h.src.toNat ∧ x.vc = h.vc.val ∧ x.seq = h.seq.toNat ∧
        x.cseq = h.addr.toNat / 2 ^ 32 ∧ x.seg = h.addr.toNat % 2 ^ 32)) ∧ SameRegsBut [] s t ∧ SameMemory s t)) ∧
  (∀ (q : Fin 240) (n : Nat) (c : Coll) (g : Group) (s : State), s.serving = true → s.findColl q.val n = some c →
    s.group c.slot = some g →
    (c.ready g = none → exec (.reduceStep q n) s = .next s) ∧
    (∀ d i a b, c.ready g = some (d, i) → c.val d.left i = some a → c.val d.right i = some b →
      (c.close = true → exec (.reduceStep q n) s = .next (s.runStep c g d i a b)) ∧
      (c.close = false → s.lentBrush c = none → exec (.reduceStep q n) s = .next s) ∧
      (∀ br, c.close = false → s.lentBrush c = some br →
        exec (.reduceStep q n) s = .next ((s.lendEnd c.home br).runStep c g d i a b))) ∧
    (∀ op r, c.awaits g = [(op, r)] → s.pointReached c g r = true →
      exec (.substitutionPoint q n r) s =
        .next (((s.substitute c g op r).1.putColl (s.substitute c g op r).2).pump q.val n))) ∧
  (∀ (v : BitVec 64) (s : State), s.mainUp = true →
    let e := F.RED_VETO_SET_EPOCH.get v
    (F.RED_VETO_SET_BITS.get v ≠ vetoSoftware ∨ e ≤ s.settled → exec (.redVetoSetWrite v) s = .next s) ∧
    (F.RED_VETO_SET_BITS.get v = vetoSoftware → s.settled < e → e ≤ s.settled + 8 → s.captured.contains e = false →
      ∃ t, exec (.redVetoSetWrite v) s = .next t ∧ t.vetoWord e = s.vetoWord e ||| 0x20 ∧
        SameRegsBut [R.RED_LVETO (e % 8), R.TRN_STAT] s t ∧ SameMemory s t)) ∧
  (∀ (x : RedSeg) (s : State), s.serving = true → s.redRx = [x] → s.colls = [] → x.acked = false →
    (x.held = 0 → exec .contribHoldEnd s = .next s) ∧
    (x.held ≠ 0 → x.held ≤ s.now + 1 → ∃ t, exec .contribHoldEnd s = .next t ∧
      t.redRx = [{ x with held := 0, acked := true }] ∧ SameMemory s t)) ∧
  (∀ (p vc k at_ : Nat) (s : State), s.mainUp = true → s.creditHolds = [(p, vc, k, at_)] →
    (s.now < at_ → exec .creditHoldEnd s = .next s) ∧
    (at_ ≤ s.now → ∃ t, exec .creditHoldEnd s = .next t ∧ t.creditHolds = [] ∧ t.out.length = s.out.length + 1 ∧
      SameRegsBut [] s t ∧ SameMemory s t))

/-! ### Memory -/

/-- R251, R264, R265, R267: the stack applies the update that arrived first to its element; the scrub reads the next sector of its
stack; a pseudo-channel that fails takes its stack out of service, and the module from FULL to DEGRADED; a refresh changes
nothing. -/
def Obligations.StackEvents : Prop :=
  (∀ (st : Fin 16) (u : NmaUpdate) (s : State), s.serving = true → s.nmaUpdates.find? (fun x => hbmStack x.addr == st.val) = some u →
    (s.stackOn st.val = false → exec (.nmaUpdate st) s = .next s) ∧
    (s.stackOn st.val = true → s.altered = [] → u.fmt ≠ fAcc64 →
      let n := fmtBits u.fmt / 8
      let r := nmaApply u.op u.fmt u.ovfInf (ofLe ((List.range n).map (fun i => s.byteAt (u.addr + i)))) u.val
      ∃ t, exec (.nmaUpdate st) s = .next t ∧ (∀ i < n, memByte t.mem (u.addr + i) = byteN r.code i) ∧
        (∀ k, (k < u.addr ∨ u.addr + n ≤ k) → memByte t.mem k = memByte s.mem k) ∧ t.nmaUpdates = s.nmaUpdates.erase u)) ∧
  (∀ (st : Fin 16) (s : State), s.serving = true → s.nmaUpdates.find? (fun x => hbmStack x.addr == st.val) = none →
    exec (.nmaUpdate st) s = .next s) ∧
  (∀ (st : Fin 16) (s : State), s.mainUp = true →
    (s.fld (R.NMA_CFG st.val) F.NMA_CFG_SCRUB_HOURS = 0 → exec (.patrolScrub st) s = .next s) ∧
    (s.fld (R.NMA_CFG st.val) F.NMA_CFG_SCRUB_HOURS ≠ 0 → s.stackUp st.val = true → s.held = [] →
      s.pattern (hbmKey st.val (64 * s.fld (R.NMA_SCRUB st.val) F.NMA_SCRUB_SECTOR)) = 0 →
      ∃ t, exec (.patrolScrub st) s = .next t ∧ t.fld (R.NMA_SCRUB st.val) F.NMA_SCRUB_SECTOR =
        (s.fld (R.NMA_SCRUB st.val) F.NMA_SCRUB_SECTOR + 1) % 2 ^ 30 ∧
        SameRegsBut [R.NMA_SCRUB st.val, R.NMA_STAT st.val] s t ∧ SameMemory s t)) ∧
  (∀ (st : Fin 16) (pc : Fin 64) (s : State), s.mainUp = true →
    (s.bit R.ID_UNITS F.ID_UNITS_STACK_IN_SERVICE st.val = false → exec (.pseudoChannelFail st pc) s = .next s) ∧
    (s.bit R.ID_UNITS F.ID_UNITS_STACK_IN_SERVICE st.val = true → ∃ t, exec (.pseudoChannelFail st pc) s = .next t ∧
      t.bit R.ID_UNITS F.ID_UNITS_STACK_IN_SERVICE st.val = false ∧ t.bit (R.NMA_PC_FAIL st.val) F.NMA_PC_FAIL_FAILED pc.val = true ∧
      (s.mode = mFull → t.mode = mDegraded) ∧ SameMemory s t)) ∧
  (∀ (st : Fin 16) (pc : Fin 64) (s : State), exec (.hbmRefresh st pc) s = .next s)

/-! ### Links, membership and routes -/

/-- R296 to R298, R304 to R306, R313: a port that is enabled, powered and down trains up in version 3 if both can; a lane
fault narrows it or takes it down. A frame with a bad CRC is counted; a good one frees what it acknowledges, adds its
credits, and moves the next number on if it is the one expected. A retry sends what is not acknowledged anew. HELLO goes out
on each trained port; one that arrives is recorded and, with admission not asked for, makes the port active. A port goes
down when it is lost or 60 µs silent, and not before. Echo requests are answered, answers measured sixteen times. A
challenge is put in line for a signature, the parts of its answer are collected, and no answer within 5 ms refuses the port.
What a pendant port does with HELLO is the model's choice (log 68). -/
def Obligations.PortEvents : Prop :=
  (∀ (p : Fin 18) (v3 : Bool) (cr : List (BitVec 16)) (s : State), s.mainUp = true →
    (p.val < 16 → s.portLinked p.val = true ∨ s.fld (R.RYF_PORT_CFG p.val) F.RYF_PORT_CFG_ENABLE = 0 ∨ s.portPowered p.val = false →
      exec (.linkUp p v3 cr) s = .next s) ∧
    (p.val < 16 → s.portLinked p.val = false → s.fld (R.RYF_PORT_CFG p.val) F.RYF_PORT_CFG_ENABLE ≠ 0 → s.portPowered p.val = true →
      s.fld R.RYF_CFG F.RYF_CFG_COORD_ELIG = 0 → ∃ t, exec (.linkUp p v3 cr) s = .next t ∧
        t.fld (R.RYF_PORT_STAT p.val) F.RYF_PORT_STAT_STATE = 2 ∧
        t.fld (R.RYF_PORT_STAT p.val) F.RYF_PORT_STAT_VERSION = (if v3 = true ∧ s.maxVer p.val = 3 then 3 else 2) ∧
        t.fld (R.RYF_PORT_STAT p.val) F.RYF_PORT_STAT_WIDTH = 4 ∧ (t.link p.val).lastRx = s.now ∧
        SameRegsBut [R.RYF_PORT_STAT p.val] s t ∧ SameMemory s t) ∧
    (16 ≤ p.val → s.pendUp (p.val - 16) = false → s.portPowered p.val = true → ∃ t, exec (.linkUp p v3 cr) s = .next t ∧
      t.pendUp (p.val - 16) = true ∧ SameRegsBut [R.PEND_STAT] s t ∧ SameMemory s t)) ∧
  (∀ (p : Fin 18) (good : BitVec 4) (s : State), s.mainUp = true → p.val < 16 →
    let w := laneWidth (popCount good.toNat 4)
    (s.portLinked p.val = false → exec (.laneFault p good) s = .next s) ∧
    (s.portLinked p.val = true → (w = 0 → exec (.laneFault p good) s = .next (s.portDown p.val)) ∧
      (s.fld (R.RYF_PORT_STAT p.val) F.RYF_PORT_STAT_WIDTH ≤ w → w ≠ 0 → exec (.laneFault p good) s = .next s) ∧
      (w < s.fld (R.RYF_PORT_STAT p.val) F.RYF_PORT_STAT_WIDTH → w ≠ 0 → ∃ t, exec (.laneFault p good) s = .next t ∧
        t.fld (R.RYF_PORT_STAT p.val) F.RYF_PORT_STAT_WIDTH = w ∧ SameMemory s t))) ∧
  (∀ (p : Fin 18) (lseq lack : BitVec 12) (cvc cn : Fin 16) (co un : BitVec 16) (vc : Fin 16) (len : Fin 257) (s : State),
    s.mainUp = true → p.val < 16 → s.portLinked p.val = true → co = 0 → s.fabric.bulkWait = [] → s.pert 1 = false →
    (un = 0 → (∀ legal, ∃ t, exec (.linkFrameRx p lseq lack cvc cn false legal co un vc len) s = .next t ∧
        t.fld (R.RYF_PORT_LINKCNT p.val) F.RYF_PORT_LINKCNT_CRC = min (s.fld (R.RYF_PORT_LINKCNT p.val) F.RYF_PORT_LINKCNT_CRC + 1)
          (2 ^ F.RYF_PORT_LINKCNT_CRC.width - 1) ∧ t.links = s.links ∧ SameMemory s t) ∧
      ∃ t, exec (.linkFrameRx p lseq lack cvc cn true true co un vc len) s = .next t ∧
        sparseGet (t.link p.val).credits cvc.val 0 = sparseGet (s.link p.val).credits cvc.val 0 + cn.val ∧
        (t.link p.val).unacked = ackedBy lack.toNat (s.link p.val).unacked ∧
        (t.link p.val).rxNext = (if (s.link p.val).rxNext = lseq.toNat then ((s.link p.val).rxNext + 1) % 4096 else (s.link p.val).rxNext) ∧
        SameMemory s t)) ∧
  (∀ (p : Fin 18) (s : State), s.mainUp = true → ((s.link p.val).unacked = [] → exec (.linkRetry p) s = .next s) ∧
    ∃ t, exec (.linkRetry p) s = .next t ∧ t.out.length = s.out.length + (s.link p.val).unacked.length ∧ t.links = s.links ∧
      SameRegsBut [R.RYF_PORT_LINKCNT p.val] s t ∧ SameMemory s t) ∧
  (∀ s : State, s.mainUp = true → (∀ p < 16, s.portLinked p = false) → s.fld R.RYF_CFG F.RYF_CFG_COORD_ELIG = 0 →
    exec .helloTimer s = .next s) ∧
  (∀ s : State, s.mainUp = true → s.fld R.RYF_CFG F.RYF_CFG_COORD_ELIG = 0 → s.fabric.bulkWait = [] → ∃ t, exec .helloTimer s = .next t ∧
    t.out.length = s.out.length + ((List.range 16).filter s.portLinked).length ∧ SameRegsBut [] s t ∧ SameMemory s t) ∧
  (∀ (p : Fin 18) (b : HelloBody) (s : State), s.mainUp = true →
    (p.val < 16 → s.portLinked p.val = false → exec (.helloRx p b) s = .next s) ∧
    (p.val < 16 → s.portLinked p.val = true → b.coordElig = false → s.fld R.RYF_STAT F.RYF_STAT_COORD = 0 → b.admitReq = false →
      s.fld (R.RYF_PORT_CFG p.val) F.RYF_PORT_CFG_ADMIT_REQ ≠ 1 → s.fld (R.RYF_PORT_STAT p.val) F.RYF_PORT_STAT_STATE = 2 →
      ∃ t, exec (.helloRx p b) s = .next t ∧ t.fld (R.RYF_PORT_STAT p.val) F.RYF_PORT_STAT_STATE = 4 ∧
        t.reg (R.RYF_PORT_PEER_SERIAL p.val) = b.serial ∧ t.fld (R.RYF_PORT_PEER p.val) F.RYF_PORT_PEER_ADDR = b.moduleAddr.toNat ∧
        SameMemory s t) ∧
    (16 ≤ p.val → s.pendUp (p.val - 16) = true → ∃ t, exec (.helloRx p b) s = .next t ∧ (t.link p.val).peerPair = b.pairId.toNat ∧
      (t.link p.val).peerIncarn = b.incarnation.toNat ∧ SameRegsBut [] s t ∧ SameMemory s t)) ∧
  (∀ (p : Fin 18) (lost : Bool) (s : State), s.mainUp = true →
    (lost = false → s.now < (s.link p.val).lastRx + 60 * usTicks → exec (.portDown p lost) s = .next s) ∧
    (lost = true ∨ (s.link p.val).lastRx + 60 * usTicks ≤ s.now → exec (.portDown p lost) s = .next (s.portDown p.val) ∧
      (16 ≤ p.val → (s.portDown p.val).pendUp (p.val - 16) = false) ∧
      (p.val < 16 → s.portLinked p.val = true → s.fabric.bulkWait = [] → (s.link p.val).unacked = [] →
        s.fld R.RYF_STAT F.RYF_STAT_COORD = 0 → (s.portDown p.val).portLinked p.val = false))) ∧
  (∀ (p : Fin 16) (turn : BitVec 32) (s : State), s.mainUp = true →
    (s.portLinked p.val = false → exec (.echoReq p turn) s = .next s) ∧
    (s.portLinked p.val = true → exec (.echoReq p turn) s = .next (s.sendVc0 p.val tEchoResp (leBytes turn.toNat 4)))) ∧
  (∀ (p : Fin 16) (rtt turn : BitVec 32) (s : State), s.mainUp = true → s.portLinked p.val = true →
    (16 ≤ (s.link p.val).echoes → exec (.echoResp p rtt turn) s = .next s) ∧
    ((s.link p.val).echoes < 16 → ∃ t, exec (.echoResp p rtt turn) s = .next t ∧ (t.link p.val).echoes = (s.link p.val).echoes + 1 ∧
      (t.link p.val).rttMin = (if (s.link p.val).echoes = 0 ∨ rtt.toNat < (s.link p.val).rttMin then rtt.toNat else (s.link p.val).rttMin) ∧
      SameRegsBut [R.RYF_PORT_LAT p.val] s t ∧ SameMemory s t)) ∧
  (∀ (p : Fin 16) (nonce : List (BitVec 8)) (s : State), s.mainUp = true → s.portLinked p.val = true → s.signReqs.length < 64 →
    s.idxNext < 2 ^ 40 → ∃ t, exec (.admitChal p nonce) s = .next t ∧ t.signReqs.length = s.signReqs.length + 1 ∧
      (∃ r ∈ t.signReqs, r.owner = .admission p.val) ∧ SameRegsBut [] s t ∧ SameMemory s t) ∧
  (∀ (p : Fin 16) (i : Fin 39) (b : List (BitVec 8)) (s : State), s.mainUp = true →
    (s.fld (R.RYF_PORT_STAT p.val) F.RYF_PORT_STAT_STATE ≠ 3 → exec (.admitResp p i b) s = .next s) ∧
    (s.fld (R.RYF_PORT_STAT p.val) F.RYF_PORT_STAT_STATE = 3 → (s.link p.val).chalAt ≠ 0 → (s.link p.val).frags = [] →
      ∃ t, exec (.admitResp p i b) s = .next t ∧ (t.link p.val).frags = [(i.val, b)] ∧ SameRegsBut [] s t ∧ SameMemory s t)) ∧
  (∀ (p : Fin 16) (s : State), s.mainUp = true →
    (s.fld (R.RYF_PORT_STAT p.val) F.RYF_PORT_STAT_STATE ≠ 3 → exec (.admitTimeout p) s = .next s) ∧
    (s.fld (R.RYF_PORT_STAT p.val) F.RYF_PORT_STAT_STATE = 3 → (s.link p.val).chalAt ≠ 0 →
      (s.link p.val).chalAt + 5 * msTicks ≤ s.now + 1 → ∃ t, exec (.admitTimeout p) s = .next t ∧
        t.fld (R.RYF_PORT_STAT p.val) F.RYF_PORT_STAT_STATE = 5 ∧ SameMemory s t))

/-- R307 to R311, R314: the lowest serial of an election is remembered; an eligible module whose own stays the lowest for
SETTLE_MS becomes coordinator, and a deputy becomes it after 150 µs without a copy. A coordinator sends its table. A copy
that arrives at a module that follows nobody is taken. A ROUTE of one part puts its entries in force, with no route
elsewhere and none to this module. The member query answers with the serial and the incarnation. What a coordinator knows
and the layout of MEMBER are the model's choice (logs 29 to 31). -/
def Obligations.MembershipEvents : Prop :=
  (∀ (p : Fin 16) (x : BitVec 64) (s : State), s.mainUp = true → s.fld R.RYF_CFG F.RYF_CFG_COORD_ELIG ≠ 1 →
    s.portLinked p.val = true → (s.fabric.lowest ≠ 0 → s.fabric.lowest ≤ x.toNat + 1 → exec (.electRx p x) s = .next s) ∧
    (s.fabric.lowest = 0 ∨ x.toNat + 1 < s.fabric.lowest → ∃ t, exec (.electRx p x) s = .next t ∧ t.fabric.lowest = x.toNat + 1 ∧
      t.fabric.lowestSince = s.now ∧ SameRegsBut [] s t ∧ SameMemory s t)) ∧
  (∀ s : State, s.mainUp = true →
    (s.fld R.RYF_CFG F.RYF_CFG_COORD_ELIG = 1 → s.fld R.RYF_STAT F.RYF_STAT_COORD = 0 → s.fabric.lowest = s.serial + 1 →
      s.fabric.lowestSince + s.fld R.RYF_CFG F.RYF_CFG_SETTLE_MS * msTicks ≤ s.now → ∃ t, exec .coordSettle s = .next t ∧
        t.fld R.RYF_STAT F.RYF_STAT_COORD = 1 ∧ t.fld R.RYF_STAT F.RYF_STAT_ELECTED = 1 ∧ t.reg R.RYF_COORD = s.reg R.ID_SERIAL ∧
        SameMemory s t) ∧
    (s.fabric.lowest ≠ s.serial + 1 → exec .coordSettle s = .next s) ∧
    (s.fld R.RYF_STAT F.RYF_STAT_COORD = 1 → exec .memberTimer s = .next s.sendMember) ∧
    (s.fld R.RYF_STAT F.RYF_STAT_COORD ≠ 1 → exec .memberTimer s = .next s) ∧
    (s.fld R.RYF_STAT F.RYF_STAT_DEPUTY ≠ 1 → exec .deputyTakeover s = .next s) ∧
    (s.fld R.RYF_STAT F.RYF_STAT_DEPUTY = 1 → s.fabric.memberAt + 150 * usTicks ≤ s.now → ∃ t, exec .deputyTakeover s = .next t ∧
      t.fld R.RYF_STAT F.RYF_STAT_COORD = 1 ∧ t.fld R.RYF_STAT F.RYF_STAT_DEPUTY = 0 ∧ t.reg R.RYF_COORD = s.reg R.ID_SERIAL ∧
      SameMemory s t)) ∧
  (∀ (p : Fin 16) (seq : BitVec 16) (co de : BitVec 64) (e : BitVec 48) (ms : List Member) (ex : List (BitVec 64)) (s : State),
    s.mainUp = true →
    (s.portLinked p.val = false ∨ co.toNat = s.serial → exec (.memberRx p seq co de e ms ex) s = .next s) ∧
    (s.portLinked p.val = true → co.toNat ≠ s.serial → s.fld R.RYF_STAT F.RYF_STAT_ELECTED = 0 → ms.length < 2 ^ 14 →
      ∃ t, exec (.memberRx p seq co de e ms ex) s = .next t ∧ t.members = ms ∧ t.reg R.RYF_COORD = co ∧ t.reg R.RYF_DEPUTY = de ∧
        t.fld R.RYF_STAT F.RYF_STAT_COORD = 0 ∧ t.fld R.RYF_STAT F.RYF_STAT_ELECTED = 1 ∧
        t.fld R.RYF_MEMBERS F.RYF_MEMBERS_EPOCH = e.toNat ∧ t.fld R.RYF_MEMBERS F.RYF_MEMBERS_COUNT = ms.length ∧ SameMemory s t)) ∧
  (∀ (p : Fin 16) (e : BitVec 48) (first : BitVec 16) (es : List (BitVec 64)) (s : State), s.mainUp = true →
    (s.portLinked p.val = false → exec (.routeRx p e 0 1 first es) s = .next s) ∧
    (s.portLinked p.val = true → (∀ q < 16, s.portLinked q = true) → s.fld R.RYF_STAT F.RYF_STAT_COORD = 0 →
      s.fabric.routeEpoch ≤ e.toNat → ∃ t, exec (.routeRx p e 0 1 first es) s = .next t ∧
        (∀ i < es.length, 1 ≤ first.toNat + i → first.toNat + i < 0x4000 → first.toNat + i ≠ s.ownAddr →
          t.reg (R.RYF_ROUTE (first.toNat + i)) = es.getD i 0) ∧
        (∀ a < 0x4000, (a < first.toNat ∨ first.toNat + es.length ≤ a ∨ a = s.ownAddr ∨ a = 0) → t.reg (R.RYF_ROUTE a) = 0) ∧
        SameMemory s t)) ∧
  (∀ (v : BitVec 64) (m : Member) (s : State), s.mainUp = true →
    s.members.find? (fun x => x.addr == v.toNat % 65536) = some m → ∃ t, exec (.ryfMqAddrWrite v) s = .next t ∧
      t.fld R.RYF_MQ_ADDR F.RYF_MQ_ADDR_ADDR = v.toNat % 65536 ∧ t.reg R.RYF_MQ_SERIAL = BitVec.ofNat 64 m.serial ∧
      t.reg R.RYF_MQ_INCARN = BitVec.ofNat 64 m.incarn ∧
      SameRegsBut [R.RYF_MQ_ADDR, R.RYF_MQ_SERIAL, R.RYF_MQ_INFO, R.RYF_MQ_INCARN] s t ∧ SameMemory s t)

/-! ### The fabric -/

/-- R299 to R302, R311, R312, R315, R316, R318, R240: a request in its turn acts, an answer ends the request that it names,
a packet for another module goes on over its route, a request without answer is sent again once and then ends with
ERROR_LINK, a beat token is passed on once. How answers name their request, how LOCK answers and broadcast writes go, and
how tokens are passed on are the model's readings (logs 14, 33, 34, 36 to 38). -/
def Obligations.FabricTraffic : Prop :=
  (∀ (i : Instr) (h : Hdr) (type : Nat) (b : List Byte) (s u : State), requestRow i = some (h, type, b) → InTurn s h type u →
    exec i s = .next (u.deliver { hdr := h, type := type, body := b })) ∧
  (∀ (h : Hdr) (b : List Byte) (s u : State), ActsAlone s → s.mode ≠ mEarly → h.dst ≠ 0xFFFF → s.pend.heldIn = [] →
    (InTurn s h tWrite u → exec (.fabricWrite h b) s = .next (u.writeRx false h b) ∧
      (0 < b.length → b.length ≤ 256 → inRegWindow h.addr.toNat = false → s.mappedRange h.addr.toNat b.length = true →
        s.evalRefuses [(h.addr.toNat, b.length)] = false → s.pendAreas = [] → s.altered = [] → s.held = [] →
        (∀ i < b.length, ∀ k, memKey (h.addr.toNat + i) = some k → memByte (u.writeRx false h b).mem k = b.getD i 0) ∧
        ∀ k, k ∉ keysOf h.addr.toNat b.length → memByte (u.writeRx false h b).mem k = memByte s.mem k)) ∧
    (InTurn s h tRegWr u → ∀ p, exec (.fabricRegWr p h b) s = .next (u.regWrRx false h b)) ∧
    (InTurn s h tReadReq u → exec (.readReq h b) s = .next (u.readReqRx h b) ∧
      ∀ d v, 0 < leField b 0 8 → leField b 0 8 ≤ 256 → inRegWindow h.addr.toNat = false →
        s.mappedRange h.addr.toNat (leField b 0 8) = true → u.readMem fabWho h.addr.toNat (leField b 0 8) = (d, v, false) →
        u.readReqRx h b = v.respond h tReadResp false h.addr.toNat d) ∧
    (InTurn s h tRegRd u → exec (.fabricRegRd h) s = .next (u.regRdRx h)) ∧
    (∀ k w, InTurn s h tLockOp u → exec (.lockOp h k w) s = .next (u.lockOpRx false h ([BitVec.ofNat 8 (lockKind k), w.unit, w.queue] ++
      leBytes w.incarn.toNat 8 ++ leBytes w.qincarn.toNat 4)))) ∧
  (∀ (i : Instr) (h : Hdr) (type : Nat) (b : List Byte) (r : Request) (s : State), answerRow i = some (h, type, b) →
    Arrives s h type → s.pairedFace = false →
    (s.findReq h = none → exec i s = .next s) ∧
    (s.findReq h = some r → (∀ q pc, r.owner ≠ .bcast q pc) →
      (type ≠ answerType r.type → exec i s = .next s) ∧
      (type = answerType r.type → (type = tLockResp → h.err = true ∨ leField b 0 1 ≠ lockJoined) →
        exec i s = .next (s.answered r (if h.err then some (leField b 0 1) else none) b)))) ∧
  (∀ (h : Hdr) (type : BitVec 6) (b : List Byte) (s : State), s.mainUp = true → vcOk type.toNat h.vc.val = true →
    (h.dst.toNat = s.ownAddr ∨ h.dst.toNat = 0 ∨ 0x3FFF < h.dst.toNat → exec (.packetForward h type b) s = .next s) ∧
    (h.dst.toNat ≠ s.ownAddr → h.dst.toNat ≠ 0 → h.dst.toNat ≤ 0x3FFF →
      (h.hops.val = 63 → ∃ t, exec (.packetForward h type b) s = .next t ∧ t.fld R.RYF_CNT F.RYF_CNT_HOPS =
        min (s.fld R.RYF_CNT F.RYF_CNT_HOPS + 1) (2 ^ F.RYF_CNT_HOPS.width - 1) ∧ SameRegsBut [R.RYF_CNT] s t ∧ t.out = s.out) ∧
      (∀ p, h.hops.val < 63 → s.fabric.bulkWait = [] → s.routePort h.dst.toNat h.vc.val b.length = some p →
        exec (.packetForward h type b) s =
          .next (s.egress p { hdr := { h with hops := h.hops + 1 }, type := type.toNat, body := b })))) ∧
  (∀ s : State, s.mainUp = true → s.fabric.bulkWait = [] → exec .vc15Escape s = .next s) ∧
  (∀ (at_ p : Nat) (r : RawPkt) (s : State), s.mainUp = true → s.fabric.bulkWait = [(at_, r)] → 12 ≤ r.hdr.vc.val → r.hdr.vc.val ≤ 14 →
    at_ + 2 * usTicks ≤ s.now → s.now ≤ at_ + 2 * s.fld R.RYF_CFG F.RYF_CFG_E2E_US * usTicks →
    s.routePort r.hdr.dst.toNat r.hdr.vc.val r.body.length = none → s.routePort r.hdr.dst.toNat 15 r.body.length = some p →
    exec .vc15Escape s = .next (({ s with fabric := { s.fabric with bulkWait := [] } } : State).egress p
      { r with hdr := { r.hdr with vc := 15 } })) ∧
  (∀ s : State, s.mainUp = true → s.fabric.requests = [] → s.redTx = [] → s.fabric.early = [] → exec .e2eTimeout s = .next s) ∧
  (∀ (r : Request) (s : State), s.mainUp = true → s.fabric.requests = [r] → s.redTx = [] → s.fabric.early = [] → r.joined = false →
    r.owner = .none → s.silentBack = false →
    (s.now < r.sentAt + s.e2e → exec .e2eTimeout s = .next s) ∧
    (r.sentAt + s.e2e ≤ s.now → ∃ t, exec .e2eTimeout s = .next t ∧
      t.fabric.requests = (if r.resent then [] else [{ r with resent := true, sentAt := s.now }]) ∧
      SameRegsBut [R.RYF_CNT] s t ∧ SameMemory s t)) ∧
  (∀ (p : Fin 16) (h : Hdr) (res : BitVec 32) (b : List Byte) (s : State), s.mainUp = true → vcOk 0x10 h.vc.val = true →
    (s.portV3 p.val = false ∨ b.length ≠ 32 ∨ leField b 8 8 = s.serial ∨ s.seenFlood (leField b 8 8) (leField b 0 6) = true →
      exec (.beatToken p h res b) s = .next s) ∧
    (s.portV3 p.val = true → b.length = 32 → leField b 8 8 ≠ s.serial → s.seenFlood (leField b 8 8) (leField b 0 6) = false →
      s.fld R.BEAT_CFG F.BEAT_CFG_SOURCE ≠ 2 → s.pert 0 = false → ∃ t, exec (.beatToken p h res b) s = .next t ∧
        t.seenFlood (leField b 8 8) (leField b 0 6) = true ∧ t.tracker = s.tracker ∧ SameMemory s t))

/-! ### Training steps -/

/-- R349 to R361: the held CLOSE result of the next epoch settles it, commits or cancels; local settlement and the write of
TRN_SETTLED act only where R354 and R356 let them; a submitted loss is dropped or watched; evaluation slots follow the
position; a snapshot starts, reads a region of a committed epoch, ends or is aborted; a checkpoint is confirmed. That
LAST_VETO is free where CLOSE formed no word, a snapshot without an outcome, and the order of command bits are the model's
choice (logs 25, 26, 46). -/
def Obligations.TrainingSteps : Prop :=
  (∀ s : State, s.serving = true →
    let e := s.settled + 1
    (s.closes.find? (fun c => c.1 == e) = none → exec .settlement s = .next s) ∧
    (∀ st w, s.closes.find? (fun c => c.1 == e) = some (e, st, w, true) → w < 256 →
      (st = stLink → ∃ u : State, exec .settlement s = .next (u.settle e w false) ∧ u.fld R.TRN_STAT F.TRN_STAT_OUT_OF_STEP = 1 ∧
        u.fld R.ERR_STAT F.ERR_STAT_FATAL_VALID = 1) ∧
      (st ≠ stLink → ∀ ok : Bool, (ok = true ↔ (st % 0x40 = stDone ∨ st % 0x40 = stDoneCounts) ∧ w = 0 ∧
        s.fld R.TRN_STAT F.TRN_STAT_OUT_OF_STEP ≠ 1) → exec .settlement s = .next (s.settle e w ok)))) ∧
  (∀ (e w : Nat) (s : State), e < 2 ^ 48 → w < 256 → s.snap = none → s.pendingVeto = 0 → (∀ q < 240, (s.qint q).wait = none) →
    let t := s.settle e w true
    t.settled = e ∧ t.fld R.TRN_SETTLED F.TRN_SETTLED_LAST_VETO = w ∧ t.fld R.TRN_HIST F.TRN_HIST_OUTCOME % 2 = 1 ∧
    (∀ i < 63, t.bit R.TRN_HIST F.TRN_HIST_OUTCOME (i + 1) = s.bit R.TRN_HIST F.TRN_HIST_OUTCOME i) ∧
    t.fld R.TRN_SETTLED F.TRN_SETTLED_HIST_VALID = min 64 (s.fld R.TRN_SETTLED F.TRN_SETTLED_HIST_VALID + 1) ∧
    SameRegsBut [R.TRN_SETTLED, R.TRN_HIST, R.RED_LVETO (e % 8), R.TRN_STAT, R.TRN_CNT] s t ∧ SameMemory s t) ∧
  (∀ (v : BitVec 64) (s : State), s.mainUp = true →
    let e := F.TRN_SETTLE_LOCAL_EPOCH.get v
    (s.fld R.TRN_CFG F.TRN_CFG_COMMIT_GROUP ≠ 0 ∨ e ≠ s.settled + 1 → exec (.trnSettleLocal v) s = .next s) ∧
    (s.fld R.TRN_CFG F.TRN_CFG_COMMIT_GROUP = 0 → e = s.settled + 1 →
      exec (.trnSettleLocal v) s = .next (s.settle e (s.vetoWord e) (s.vetoWord e == 0)))) ∧
  (∀ (v : BitVec 64) (s : State), s.mainUp = true →
    let waits := s.cmds.any (fun c => c.gated && !(isCollective c.code) && c.phase == .accepted)
    (s.fld R.TRN_STAT F.TRN_STAT_PENDING ≠ 0 ∨ waits = true → exec (.trnSettledWrite v) s = .next s) ∧
    (s.fld R.TRN_STAT F.TRN_STAT_PENDING = 0 → waits = false → s.snap = none → (∀ q < 240, (s.qint q).wait = none) →
      ∃ t, exec (.trnSettledWrite v) s = .next t ∧ t.settled = F.TRN_SETTLED_EPOCH.get v ∧
        t.fld R.TRN_SETTLED F.TRN_SETTLED_HIST_VALID = 0 ∧ t.fld R.TRN_SETTLED F.TRN_SETTLED_LAST_VETO = 0 ∧
        SameRegsBut [R.TRN_SETTLED] s t ∧ SameMemory s t)) ∧
  (∀ (v : BitVec 64) (s : State), s.mainUp = true →
    let x := F.TRN_LOSS_LOSS.get v
    ((s.lossEpoch (F.TRN_LOSS_EPOCH_LO.get v) = none ∨ s.fld R.TRN_CFG F.TRN_CFG_LW_EN = 0) → ∃ t, exec (.lossWatch v) s = .next t ∧
      t.fld R.TRN_CNT F.TRN_CNT_LOSS_DROPPED = min (s.fld R.TRN_CNT F.TRN_CNT_LOSS_DROPPED + 1) 255 ∧
      SameRegsBut [R.TRN_CNT] s t ∧ SameMemory s t) ∧
    (∀ e, s.lossEpoch (F.TRN_LOSS_EPOCH_LO.get v) = some e → e < 2 ^ 48 → s.fld R.TRN_CFG F.TRN_CFG_LW_EN ≠ 0 →
      s.fld R.TRN_LW_STAT F.TRN_LW_STAT_LAST_EPOCH < e →
      exec (.lossWatch v) s = .next (s.lossWatch x e) ∧
      (nonfinite fFp32 x = true → ∃ t, exec (.lossWatch v) s = .next t ∧ t.reg R.TRN_LW_STATE = s.reg R.TRN_LW_STATE ∧
        t.fld R.TRN_LW_STAT F.TRN_LW_STAT_LAST_EPOCH = e ∧
        t.fld R.TRN_LW_STAT F.TRN_LW_STAT_SEEN = s.fld R.TRN_LW_STAT F.TRN_LW_STAT_SEEN ∧
        t.fld R.TRN_CNT F.TRN_CNT_SPIKES = min (s.fld R.TRN_CNT F.TRN_CNT_SPIKES + 1) 255 ∧ SameMemory s t) ∧
      (nonfinite fFp32 x = false → s.fld R.TRN_LW_STAT F.TRN_LW_STAT_SEEN = 0 → s.fld R.TRN_LW_CFG F.TRN_LW_CFG_WARMUP ≠ 0 →
        ∃ t, exec (.lossWatch v) s = .next t ∧ t.fld R.TRN_LW_STATE F.TRN_LW_STATE_MEAN = x ∧
          t.fld R.TRN_LW_STATE F.TRN_LW_STATE_DEV = 0 ∧ t.fld R.TRN_LW_STAT F.TRN_LW_STAT_SEEN = 1 ∧
          t.fld R.TRN_LW_STAT F.TRN_LW_STAT_LAST_EPOCH = e ∧ SameRegsBut [R.TRN_LW_STATE, R.TRN_LW_STAT] s t ∧ SameMemory s t))) ∧
  (∀ s : State, s.mainUp = true →
    (s.inSlot = false → exec .evalSlotStart s = .next s) ∧ (s.inSlot = true → exec .evalSlotEnd s = .next s) ∧
    (s.inSlot = true → ∃ t, exec .evalSlotStart s = .next t ∧ t.fld R.TRN_EVAL_STAT F.TRN_EVAL_STAT_IN_SLOT = 1 ∧
      t.fld R.TRN_EVAL_STAT F.TRN_EVAL_STAT_REFUSED = s.fld R.TRN_EVAL_STAT F.TRN_EVAL_STAT_REFUSED ∧
      SameRegsBut [R.TRN_EVAL_STAT] s t ∧ SameMemory s t) ∧
    (s.inSlot = false → ∃ t, exec .evalSlotEnd s = .next t ∧ t.fld R.TRN_EVAL_STAT F.TRN_EVAL_STAT_IN_SLOT = 0 ∧
      t.fld R.TRN_EVAL_STAT F.TRN_EVAL_STAT_REFUSED = s.fld R.TRN_EVAL_STAT F.TRN_EVAL_STAT_REFUSED ∧
      SameRegsBut [R.TRN_EVAL_STAT] s t ∧ SameMemory s t)) ∧
  (∀ s : State, s.serving = true →
    (s.fld R.TRN_STAT F.TRN_STAT_SNAP_BUSY = 1 → exec .snapshotStart s = .next s) ∧
    (s.fld R.TRN_STAT F.TRN_STAT_SNAP_BUSY ≠ 1 →
      ((s.reg R.TRN_SNAP_ADDR).toNat % 64 ≠ 0 → ∃ t, exec .snapshotStart s = .next t ∧
        t.fld R.TRN_SNAP_STAT F.TRN_SNAP_STAT_STATUS = stAddress ∧ t.fld R.TRN_STAT F.TRN_STAT_SNAP_BUSY = 0 ∧ t.snap = s.snap ∧
        SameMemory s t) ∧
      (∀ n w, ((s.setReg R.TRN_SNAP_STAT 0).setFld R.TRN_STAT F.TRN_STAT_SNAP_BUSY 1).readSnap = (.ok n, w) →
        (w.epochState n.epoch = .committed ∨ w.epochState n.epoch = .unsettled) →
        exec .snapshotStart s = .next { w with snap := some n }))) ∧
  (∀ s : State, s.serving = true → s.snap = none →
    exec .snapshotRegion s = .next s ∧ exec .snapshotEnd s = .next s ∧ exec .snapshotAbort s = .next s) ∧
  (∀ (n : Snap) (s : State), s.serving = true → s.snap = some n →
    (s.epochState n.epoch ≠ .committed → exec .snapshotRegion s = .next s) ∧
    (∀ r b v bad w, s.epochState n.epoch = .committed → n.regions[n.done]? = some r → n.done + 1 < n.regions.length →
      s.cmds.any (fun c => c.gated && c.epoch == n.epoch && (s.writeBounds c).any (fun x => rangesMeet r x)) = false →
      s.readMem snapWho r.1 r.2 = (b, v, bad) → v.rdmaSend n.qp (n.va + n.read.length) n.rkey b = (w, true) →
      ∃ t, exec .snapshotRegion s = .next t ∧
        t.snap = some { n with done := n.done + 1, read := n.read ++ b, bad := n.bad || bad, stamp := v.stamp } ∧
        t.fld R.TRN_SNAP_STAT F.TRN_SNAP_STAT_REGION = n.done % 256 ∧
        t.fld R.TRN_SNAP_STAT F.TRN_SNAP_STAT_BYTES = (n.read ++ b).length % 2 ^ 41 ∧ SameMemory w t) ∧
    (n.done < n.regions.length → exec .snapshotEnd s = .next s) ∧
    (n.regions.length ≤ n.done → n.bad = true → ∃ t, exec .snapshotEnd s = .next t ∧ t.snap = none ∧
      t.fld R.TRN_SNAP_STAT F.TRN_SNAP_STAT_STATUS = stData ∧ t.fld R.TRN_STAT F.TRN_STAT_SNAP_BUSY = 0 ∧ SameMemory s t) ∧
    (n.regions.length ≤ n.done → n.bad = false → n.signing = 3 → ∀ w ok, s.rdmaSend n.qp (n.va + n.total) n.rkey (n.manifest ++ n.sig) =
      (w, ok) → w.snap = s.snap → ∃ t, exec .snapshotEnd s = .next t ∧ t.snap = none ∧
        t.fld R.TRN_SNAP_STAT F.TRN_SNAP_STAT_STATUS = (if ok then stDone else stLink) ∧
        t.fld R.TRN_STAT F.TRN_STAT_SNAP_BUSY = 0) ∧
    (∃ t, exec .snapshotAbort s = .next t ∧ t.snap = none ∧ t.fld R.TRN_SNAP_STAT F.TRN_SNAP_STAT_STATUS = stCancelled ∧
      t.fld R.TRN_STAT F.TRN_STAT_SNAP_BUSY = 0 ∧ SameMemory s t)) ∧
  (∀ (v : BitVec 64) (s : State), s.mainUp = true →
    let k := F.TRN_CKPT_LAST.get v
    let old := s.fld R.TRN_CKPT F.TRN_CKPT_LAST
    (s.settled < k ∨ k < old ∨ (k ≠ old ∧ s.epochState k ≠ .committed) → exec (.ckptConfirm v) s = .next s) ∧
    (k ≤ s.settled → old ≤ k → (k = old ∨ s.epochState k = .committed) →
      ((s.shadow = false ∨ s.pairState ≠ psPaired) → ∃ t, exec (.ckptConfirm v) s = .next t ∧ t.fld R.TRN_CKPT F.TRN_CKPT_LAST = k ∧
        SameRegsBut [R.TRN_CKPT] s t ∧ SameMemory s t) ∧
      (s.shadow = true → s.pairState = psPaired → s.cmds = [] → s.pend.confirm = none → ∃ t, exec (.ckptConfirm v) s = .next t ∧
        t.pend.confirm = some (k, s.now) ∧ SameRegsBut [] s t ∧ SameMemory s t) ∧
      (s.shadow = true → s.pairState = psPaired → s.pend.confirm ≠ none → ∃ t, exec (.ckptConfirm v) s = .next t ∧
        t.fld R.PEND_CNT F.PEND_CNT_CONFIRM_FAIL = min (s.fld R.PEND_CNT F.PEND_CNT_CONFIRM_FAIL + 1) 65535 ∧
        t.pend = s.pend ∧ SameRegsBut [R.PEND_CNT] s t ∧ SameMemory s t)))

/-! ### The pair -/

/-- R365, R366, R369 to R371, R374, R379, R380, R387: heartbeats, silence and the probe, repeated advertisements, ingress
and its acknowledgements, manifests, digests, bulk data, the handover, and the commands of the pendant engine. Which port
carries a packet, how items are held and what the end of the pair does with them are the model's choice (logs 17, 23, 35,
59, 60). -/
def Obligations.PairTraffic : Prop :=
  (∀ s : State, s.mainUp = true → ∃ t, exec .heartbeatTimer s = .next t ∧
    t.out.length = s.out.length + ((List.range 2).filter s.pendUp).length ∧ SameRegsBut [] s t ∧ SameMemory s t) ∧
  (∀ (p : Fin 2) (st : BitVec 8) (x sent : BitVec 64) (s : State), s.mainUp = true →
    (s.pendUp p.val = false → exec (.heartbeatRx p st x sent) s = .next s) ∧
    (s.pendUp p.val = true → s.pend.heldIn = [] →
      (s.pairState ≠ psPaired →
        exec (.heartbeatRx p st x sent) s = .next { s with pend := { s.pend with lastHb := s.now } }) ∧
      (s.pairState = psPaired → s.mirror = false →
        (x = s.reg R.PEND_PEER_INCARN → st.toNat ≠ psDetaching → exec (.heartbeatRx p st x sent) s =
          .next { s with pend := { s.pend with lastHb := s.now, probeAt := 0, probeAns := none } }) ∧
        (x ≠ s.reg R.PEND_PEER_INCARN → s.pend.compares = [] → s.colls = [] → s.pend.quiesced = false →
          ∃ t, exec (.heartbeatRx p st x sent) s = .next t ∧ t.pairState = psSolo ∧
            t.fld R.PEND_CNT F.PEND_CNT_LOST = min (s.fld R.PEND_CNT F.PEND_CNT_LOST + 1) 255 ∧ SameMemory s t)))) ∧
  (∀ s : State, s.mainUp = true →
    (s.pairState ≠ psPaired ∨ s.pend.probeAt ≠ 0 ∨ s.now < s.pend.lastHb + 20 * usTicks → exec .partnerSilence s = .next s) ∧
    (s.pairState = psPaired → s.pend.probeAt = 0 → s.pend.lastHb + 20 * usTicks ≤ s.now → ∃ t, exec .partnerSilence s = .next t ∧
      t.pend.probeAt = s.now + 1 ∧ SameRegsBut [] s t ∧ SameMemory s t ∧
      ∃ r ∈ t.fabric.requests, r.owner = .probe ∧ r.dst = s.partnerAddr ∧ r.vc = 1 ∧ r.type = tRegRd ∧ r.addr = R.ID_INCARN)) ∧
  (∀ s : State, s.mainUp = true →
    let go := fun (t : State) => exec .probeResult s = .next (t.afterPair (s.role == roleBack))
    (s.pend.heldIn = [] → (s.pairState ≠ psPaired ∨ s.pend.probeAt = 0) → exec .probeResult s = .next s) ∧
    (s.pairState = psPaired → s.pend.probeAt ≠ 0 →
      (s.memberIncarn s.partnerAddr = none → go (s.partnerLost 1)) ∧
      (∀ m, s.memberIncarn s.partnerAddr = some m →
        (∀ i, s.pend.probeAns = some i → i = (s.reg R.PEND_PEER_INCARN).toNat → go s.partnerSplit) ∧
        (∀ i, s.pend.probeAns = some i → i ≠ (s.reg R.PEND_PEER_INCARN).toNat → go (s.partnerLost 4)) ∧
        (s.pend.probeAns = none → s.now < s.pend.probeAt - 1 + s.fld R.PEND_CFG F.PEND_CFG_PROBE_US * usTicks →
          exec .probeResult s = .next s) ∧
        (s.pend.probeAns = none → s.pend.probeAt - 1 + s.fld R.PEND_CFG F.PEND_CFG_PROBE_US * usTicks ≤ s.now →
          go (s.partnerLost 2))))) ∧
  (∀ s : State, s.pend.compares = [] → s.colls = [] → s.pend.quiesced = false →
    (s.mirror = true → s.role = roleBack → s.partnerSplit.pairState = psBroken) ∧
    ((s.mirror = false ∨ s.role ≠ roleBack) → s.partnerSplit.pairState = psSolo ∧ (s.partnerLost 1).pairState = psSolo)) ∧
  (∀ s : State, s.mainUp = true →
    (s.pend.adverts = 0 ∨ s.now < s.pend.advertAt → exec .neighborAdvertRepeat s = .next s) ∧
    (s.pend.adverts ≠ 0 → s.pend.advertAt ≤ s.now → ∃ t, exec .neighborAdvertRepeat s = .next t ∧
      t.pend.adverts = s.pend.adverts - 1 ∧ t.pend.advertAt = s.pend.advertAt + 100 * usTicks ∧ SameRegsBut [] s t ∧
      SameMemory s t)) ∧
  (∀ (n : BitVec 64) (x : IngressItem) (s : State), s.serving = true →
    (s.silentBack = false → exec (.pendIngress n x) s = .next s) ∧
    (s.silentBack = true → s.pend.heldIn = [] →
      (n.toNat ≤ s.pend.ingDone → exec (.pendIngress n x) s = .next (s.sendPend 0x32 [s.pend.ingDone] [])) ∧
      (s.pend.ingDone + 1 < n.toNat → ∃ t, exec (.pendIngress n x) s = .next t ∧ t.pend.heldIn = [(n.toNat, x)] ∧
        t.pend.ingDone = s.pend.ingDone ∧ SameRegsBut [] s t ∧ SameMemory s t) ∧
      (n.toNat = s.pend.ingDone + 1 →
        let u := (s.updPend (fun p => { p with heldIn := [(n.toNat, x)] })).sendPend 0x32 [n.toNat] []
        u.actable x = true → exec (.pendIngress n x) s =
          .next ((u.updPend (fun p => { p with heldIn := [], ingDone := n.toNat })).actItem true x)))) ∧
  (∀ (n : BitVec 64) (s : State), s.serving = true →
    (s.pairedFace = false → exec (.ingressAck n) s = .next s) ∧
    (s.pairedFace = true →
      (s.pend.heldIn = [] → ∃ t, exec (.ingressAck n) s = .next t ∧
        t.fld R.PEND_ING F.PEND_ING_ACKED = n.toNat % 2 ^ 32 ∧ SameRegsBut [R.PEND_ING] s t ∧ SameMemory s t) ∧
      (∀ m x, s.pend.heldIn = [(m, x)] → m ≤ n.toNat → exec (.ingressAck n) s =
        .next (((s.setFld R.PEND_ING F.PEND_ING_ACKED (n.toNat % 2 ^ 32)).updPend (fun p =>
          { p with heldIn := [], ingDone := max p.ingDone m })).actItem false x)))) ∧
  (∀ (d g : Fin 4) (n : BitVec 64) (b : List (BitVec 8)) (s : State), s.serving = true →
    ((s.silentBack = false ∨ s.follows d.val g.val = false) → exec (.pendManifest d g n b) s = .next s) ∧
    (s.silentBack = true → s.follows d.val g.val = true → (s.gate d.val g.val).waits = [] →
      ∃ t, exec (.pendManifest d g n b) s = .next t ∧
        (t.gate d.val g.val).masks = (s.gate d.val g.val).masks ++ [(n.toNat, leField b 0 32)] ∧ SameMemory s t)) ∧
  (∀ (k : DigestKey) (dg : List (BitVec 8)) (s : State), s.serving = true → s.pend.heldIn = [] →
    ((s.pairState ≠ psPaired ∨ s.mirror = false) → exec (.pendDigest k dg) s = .next s) ∧
    (s.pairState = psPaired → s.mirror = true → ∀ q n, k = .replicate q n →
      (s.pend.compares = [] → ∃ t, exec (.pendDigest k dg) s = .next t ∧
        t.pend.digests = s.pend.digests ++ [(q.val, n, dg)] ∧ SameRegsBut [] s t ∧ SameMemory s t) ∧
      (∀ w c, s.pend.compares = [w] → w.queue = q.val → w.seq = n → s.findCmd q.val n = some c → w.own = dg →
        ∃ t, exec (.pendDigest k dg) s = .next t ∧ CmdFinished t q.val n stDone dg.length 0 s.now ∧ t.pend.compares = [] ∧
          t.fld R.PEND_CMP F.PEND_CMP_COMPARED = min (s.fld R.PEND_CMP F.PEND_CMP_COMPARED + 1) (2 ^ 32 - 1) ∧
          SameRegsBut [R.PEND_CMP] s t ∧ SameMemory s t) ∧
      (∀ w c, s.pend.compares = [w] → w.queue = q.val → w.seq = n → s.findCmd q.val n = some c → w.own ≠ dg → s.colls = [] →
        s.pend.quiesced = false → ∃ t, exec (.pendDigest k dg) s = .next t ∧
          CmdFinished t q.val n stMismatch w.own.length 0 s.now ∧
          t.pairState = (if s.role = roleBack then psBroken else psSolo) ∧ SameMemory s t))) ∧
  (∀ (q : Fin 240) (n : Nat) (s : State), s.mainUp = true →
    (s.pend.compares = [] → exec (.digestTimeout q n) s = .next s) ∧
    (∀ w c, s.pend.compares = [w] → w.queue = q.val → w.seq = n → s.findCmd q.val n = some c →
      (s.now < w.since + msTicks → exec (.digestTimeout q n) s = .next s) ∧
      (w.since + msTicks ≤ s.now → ∃ t, exec (.digestTimeout q n) s = .next t ∧ CmdFinished t q.val n stMissing 0 0 s.now ∧
        t.fld R.PEND_CMP F.PEND_CMP_MISSING = min (s.fld R.PEND_CMP F.PEND_CMP_MISSING + 1) 65535 ∧
        SameRegsBut [R.PEND_CMP] s t ∧ SameMemory s t))) ∧
  (∀ (b : PendBulk) (s : State), s.mainUp = true → exec (.pendBulk b) s = .next ((s.bulkRx b).afterPair (s.role == roleBack))) ∧
  (∀ (e a : BitVec 48) (b : List (BitVec 8)) (s : State), s.shadow = true → s.pairState = psPaired →
    (s.bulkRx (.delta e a b)).pend.staged = s.pend.staged ++ [⟨e.toNat, a.toNat, b⟩] ∧ SameRegsBut [] s (s.bulkRx (.delta e a b)) ∧
    SameMemory s (s.bulkRx (.delta e a b))) ∧
  (∀ s : State, s.serving = true → (s.silentBack = false → exec .handoverRx s = .next s) ∧
    (s.silentBack = true → exec .handoverRx s = .next (s.takeover.afterPair true))) ∧
  (∀ (q : Fin 240) (n : Nat) (c : Cmd) (s : State), s.serving = true → s.engineClosing c = false →
    let u := s.updCmd q.val n (fun x => { x with phase := .started })
    (s.startOf q.val n 0x40 = .go c → exec (.pendReplicate q n) s = .next ((u.pendBody c).afterPair (s.role == roleBack))) ∧
    (s.startOf q.val n 0x41 = .go c → exec (.pendDelta q n) s = .next (u.pendBody c) ∧
      (s.shadow = false → CmdFinished (u.pendBody c) q.val n stDescriptor 0 0 s.now)) ∧
    (s.startOf q.val n 0x42 = .go c → exec (.resyncTransfer q n) s = .next (u.pendBody c) ∧
      (s.shadow = false → CmdFinished (u.pendBody c) q.val n stDescriptor 0 0 s.now)))

/-- R361, R367, R368, R376 to R378, R384, R386, R428, R445: a join begins, fails or is refused; the face copies, quiesces
and resumes; a module detaches; a shadow copy is confirmed, merged, restored or forgotten. What a CONFIRM does to a copy
that is not whole, and the order of the checks of a join, are the model's choice (logs 28, 79, 80). -/
def Obligations.PairStates : Prop :=
  (∀ s : State, s.serving = true →
    (s.pairState ≠ psUnpaired → s.pairState ≠ psSolo → s.pairState ≠ psBroken → exec .pairJoin s = .next s) ∧
    ((s.pairState = psUnpaired ∨ s.pairState = psSolo ∨ s.pairState = psBroken) → s.pend.compares = [] → s.colls = [] →
      s.pend.quiesced = false →
      (s.partnerSeen = false → ∃ t, exec .pairJoin s = .next t ∧ t.fld R.PEND_STAT F.PEND_STAT_JOIN_FAIL = 6 ∧
        t.pairState = s.pairState ∧ t.role = s.role ∧ SameMemory s t) ∧
      (s.partnerSeen = true → s.pend.partner = none → ∃ t, exec .pairJoin s = .next t ∧ t.pairState = psJoining ∧
        t.fld R.PEND_STAT F.PEND_STAT_JOIN_FAIL = 0 ∧ t.pend.prev = s.pairState ∧ SameMemory s t))) ∧
  (∀ s : State, s.serving = true →
    ((s.pairState ≠ psSyncing ∨ s.role ≠ roleFace ∨ s.pend.blocksDone = true) → exec .joinQuiesce s = .next s) ∧
    (s.pairState = psSyncing → s.role = roleFace → s.pend.blocksDone = false →
      (s.pend.quiesced = false → s.fld R.PEND_CFG F.PEND_CFG_QUIESCE_MIB * 256 ≤ s.marked.length →
        ∃ t, exec .joinQuiesce s = .next t ∧
          t.fld R.PEND_SYNC F.PEND_SYNC_PASS = min 255 (s.fld R.PEND_SYNC F.PEND_SYNC_PASS + 1) ∧ t.pend.synced = s.mem ∧
          t.pend.quiesced = false ∧ SameRegsBut [R.PEND_SYNC] s t ∧ SameMemory s t) ∧
      ((s.pend.quiesced = true ∨ s.marked.length < s.fld R.PEND_CFG F.PEND_CFG_QUIESCE_MIB * 256) →
        (s.joinIdle = false → exec .joinQuiesce s = .next { s with pend := { s.pend with quiesced := true } }) ∧
        (s.joinIdle = true → (∀ q < 240, (s.qint q).wait = none) → ∃ t, exec .joinQuiesce s = .next t ∧ t.pend.blocksDone = true ∧
          t.pend.quiesced = true ∧ t.pend.synced = s.mem ∧ SameRegsBut [] s t ∧ SameMemory s t)))) ∧
  (∀ s : State, s.serving = true →
    ((s.pairState ≠ psSyncing ∨ s.pend.blocksDone = false) → exec .joinResume s = .next s) ∧
    (s.pairState = psSyncing → s.pend.blocksDone = true → s.pend.heldIn = [] → exec .joinResume s = .next s.pairNow.resumeQueues ∧
      ((∀ q < 240, (s.qint q).wait = none) → ∃ t, exec .joinResume s = .next t ∧ t.pairState = psPaired ∧
        t.reg R.PEND_ING = 0 ∧ t.pend.ingSent = 0 ∧ t.pend.ingDone = 0 ∧ t.pend.lastHb = s.now ∧ t.role = s.role ∧ SameMemory s t))) ∧
  (∀ s : State, s.mainUp = true →
    (s.mode ≠ mFull → s.mode ≠ mDegraded → exec .pairDetach s = .next s) ∧
    ((s.mode = mFull ∨ s.mode = mDegraded) → s.pend.compares = [] → s.colls = [] → s.pend.quiesced = false →
      ∃ t, exec .pairDetach s = .next t ∧ t.mode = mDetaching ∧ t.pairState = psDetaching ∧ t.pend.prev = s.pairState ∧
        (∀ k, memByte t.mem k = memByte s.mem k))) ∧
  (∀ s : State, s.mainUp = true →
    ((s.mode ≠ mDetaching ∨ s.pend.detached = false ∨ s.fld R.PWR_DOM_STAT F.PWR_DOM_STAT_ON ≠ 0) →
      exec .detachComplete s = .next s) ∧
    (s.mode = mDetaching → s.pend.detached = true → s.fld R.PWR_DOM_STAT F.PWR_DOM_STAT_ON = 0 →
      ∃ t, exec .detachComplete s = .next t ∧ t.mode = mAon ∧ SameMemory s t)) ∧
  (∀ (k : BitVec 48) (s : State), s.mainUp = true →
    ((s.shadow = false ∨ s.pairState ≠ psPaired) → exec (.pendConfirm k) s = .next s) ∧
    (s.shadow = true → s.pairState = psPaired → s.pend.merging = 0 → s.fld R.PEND_COPY F.PEND_COPY_STATE = cpValid →
      ∃ t, exec (.pendConfirm k) s = .next t ∧ t.fld R.PEND_COPY F.PEND_COPY_STATE = cpMerging ∧
        t.fld R.PEND_COPY F.PEND_COPY_EPOCH = k.toNat ∧ t.pend.merging = k.toNat + 1 ∧ SameRegsBut [R.PEND_COPY] s t ∧
        SameMemory s t)) ∧
  (∀ (k : BitVec 48) (s : State), s.mainUp = true →
    (s.pend.confirm = none → exec (.confirmAck k) s = .next s ∧ exec .confirmTimeout s = .next s) ∧
    (∀ v t0, s.pend.confirm = some (v, t0) →
      (v ≠ k.toNat → exec (.confirmAck k) s = .next s) ∧
      (v = k.toNat → ∃ t, exec (.confirmAck k) s = .next t ∧ t.fld R.TRN_CKPT F.TRN_CKPT_LAST = k.toNat ∧ t.pend.confirm = none ∧
        SameRegsBut [R.TRN_CKPT] s t ∧ SameMemory s t) ∧
      (s.now < t0 + 100 * usTicks → exec .confirmTimeout s = .next s) ∧
      (t0 + 100 * usTicks ≤ s.now → ∃ t, exec .confirmTimeout s = .next t ∧ t.pend.confirm = none ∧
        t.fld R.PEND_CNT F.PEND_CNT_CONFIRM_FAIL = min (s.fld R.PEND_CNT F.PEND_CNT_CONFIRM_FAIL + 1) 65535 ∧
        SameRegsBut [R.PEND_CNT] s t ∧ SameMemory s t))) ∧
  (∀ s : State, s.mainUp = true →
    (s.pend.merging = 0 → exec .shadowMergeComplete s = .next s) ∧
    (s.pend.merging ≠ 0 → (∀ x ∈ s.pend.staged, s.pend.merging ≤ x.epoch) → s.fld R.PEND_COPY F.PEND_COPY_STATE = cpMerging →
      ∃ t, exec .shadowMergeComplete s = .next t ∧ t.fld R.PEND_COPY F.PEND_COPY_STATE = cpValid ∧
        t.fld R.PEND_COPY F.PEND_COPY_EPOCH = s.fld R.PEND_COPY F.PEND_COPY_EPOCH ∧ t.pend.merging = 0 ∧
        SameRegsBut [R.PEND_COPY] s t ∧ SameMemory s t)) ∧
  (∀ s : State, s.mainUp = true →
    ((s.shadow = false ∨ s.pairState ≠ psPaired ∨ (s.fld R.PEND_COPY F.PEND_COPY_STATE ≠ cpValid ∧
        s.fld R.PEND_COPY F.PEND_COPY_STATE ≠ cpMerging) ∨
        s.fld R.PEND_RESTORE_EPOCH F.PEND_RESTORE_EPOCH_EPOCH ≠ s.fld R.PEND_COPY F.PEND_COPY_EPOCH) →
      ∃ t, exec .pairRestore s = .next t ∧ t.fld R.PEND_STAT F.PEND_STAT_JOIN_FAIL = 7 ∧ t.out = s.out ∧
        SameRegsBut [R.PEND_STAT] s t ∧ SameMemory s t) ∧
    (∀ p, s.pend.partner = some p → s.shadow = true → s.pairState = psPaired → s.fld R.PEND_COPY F.PEND_COPY_STATE = cpValid →
      s.fld R.PEND_RESTORE_EPOCH F.PEND_RESTORE_EPOCH_EPOCH = s.fld R.PEND_COPY F.PEND_COPY_EPOCH → s.pend.merging = 0 →
      ∃ t, exec .pairRestore s = .next t ∧ (s.pendPort ≠ none → s.out.length < t.out.length) ∧ SameRegsBut [] s t ∧ SameMemory s t) ∧
    (∃ t, exec .pairForget s = .next t ∧ t.fld R.PEND_COPY F.PEND_COPY_STATE = cpInvalid ∧ t.pend.staged = [] ∧ SameRegsBut [R.PEND_COPY] s t ∧ SameMemory s t))

/-! ### The host port -/

/-- R389, R391 to R402: the link; what a silent port drops; RDMA writes, reads, sends, acknowledgements, CNPs, timers and
queue pairs; TCT messages by the replay rule, with their answers; held doorbells; events sent again. What a whole message of
frames is, VLAN tags, and the details of queue pairs and TCT are the model's readings (logs 24, 41, 69, 70). -/
def Obligations.HostPort : Prop :=
  (∀ s : State, s.mainUp = true →
    ((s.domUp 52 = false ∨ s.fld R.HOSTP_STAT F.HOSTP_STAT_LINK ≠ 1) → exec .hostLinkUp s = .next s) ∧
    (s.domUp 52 = true → s.fld R.HOSTP_STAT F.HOSTP_STAT_LINK = 1 → ∃ t, exec .hostLinkUp s = .next t ∧
      t.fld R.HOSTP_STAT F.HOSTP_STAT_LINK = 2 ∧
      t.fld R.HOSTP_STAT F.HOSTP_STAT_RATE = (if s.mode = mFull ∨ s.mode = mDegraded ∨ s.mode = mDetaching then
        s.fld R.HOSTP_CFG F.HOSTP_CFG_RATE else 0) ∧ SameRegsBut [R.HOSTP_STAT] s t ∧ SameMemory s t) ∧
    (s.fld R.HOSTP_STAT F.HOSTP_STAT_LINK ≠ 2 → exec .hostLinkDown s = .next s) ∧
    (s.fld R.HOSTP_STAT F.HOSTP_STAT_LINK = 2 → s.mirror = false → ∃ t, exec .hostLinkDown s = .next t ∧
      t.fld R.HOSTP_STAT F.HOSTP_STAT_LINK = 1 ∧ SameRegsBut [R.HOSTP_STAT] s t ∧ SameMemory s t)) ∧
  (∀ (size : BitVec 16) (fcs : Bool) (tag : Option (BitVec 12)) (f : FrameBody) (s : State), s.powered = true →
    let drops := fun (r : Nat) (x : Field) => ∃ t, exec (.hostFrameRx size fcs tag f) s = .next t ∧
      t.fld r x = min (s.fld r x + 1) 65535 ∧ SameRegsBut [r] s t ∧ SameMemory s t
    let loud := s.fld R.HOSTP_STAT F.HOSTP_STAT_SILENT ≠ 1
    (s.hostUp = false → exec (.hostFrameRx size fcs tag f) s = .next s) ∧
    (s.hostUp = true → s.serving = true →
      (¬ loud → drops R.PEND_CNT F.PEND_CNT_BACK_DROP) ∧
      (loud → fcs = false → drops R.HOSTP_RXDROP F.HOSTP_RXDROP_FCS) ∧
      (loud → fcs = true → (size.toNat < 64 ∨ 9216 < size.toNat) → drops R.HOSTP_RXDROP F.HOSTP_RXDROP_SIZE) ∧
      (loud → fcs = true → 64 ≤ size.toNat → size.toNat ≤ 9216 → tag = none → f = .unsupported →
        drops R.HOSTP_RXDROP F.HOSTP_RXDROP_UNSUPPORTED)) ∧
    (HostServes s → fcs = true → 64 ≤ size.toNat → size.toNat ≤ 9216 → tag = none → ∀ b, f = .echo false b →
      ∃ t, exec (.hostFrameRx size fcs tag f) s = .next t ∧ t.out.length = s.out.length + 1 ∧ SameRegsBut [] s t ∧ SameMemory s t)) ∧
  (∀ (qp psn : BitVec 24) (rkey : BitVec 32) (va : BitVec 64) (data : List (BitVec 8)) (len : BitVec 32) (ce nak : Bool) (s : State),
    s.serving = true →
    (∀ i ∈ [Instr.rdmaWrite qp psn rkey va data ce, .rdmaRead qp psn rkey va len ce, .rdmaSend qp psn data ce, .roceAckRx qp psn nak,
        .cnpRx qp],
      (s.hostUp = false → exec i s = .next s) ∧
      (s.hostUp = true → s.fld R.HOSTP_STAT F.HOSTP_STAT_SILENT = 1 → ∃ t, exec i s = .next t ∧
        t.fld R.PEND_CNT F.PEND_CNT_BACK_DROP = min (s.fld R.PEND_CNT F.PEND_CNT_BACK_DROP + 1) 65535 ∧
        SameRegsBut [R.PEND_CNT] s t ∧ SameMemory s t)) ∧
    (HostServes s → qp.toNat < 4096 →
      let x := s.qp qp.toNat
      (x.state ≠ 1 → exec (.rdmaWrite qp psn rkey va data ce) s = .next s ∧ exec (.rdmaRead qp psn rkey va len ce) s = .next s ∧
        exec (.rdmaSend qp psn data ce) s = .next s ∧ exec (.roceAckRx qp psn nak) s = .next s) ∧
      (x.state = 1 → ce = false →
        (∀ i ∈ [Instr.rdmaWrite qp psn rkey va data ce, .rdmaRead qp psn rkey va len ce, .rdmaSend qp psn data ce],
          (psn.toNat ≠ x.rqPsn → psnLe psn.toNat x.rqPsn = true → exec i s =
            .next { s with egSent := s.egSent + 1, out := ackOut qp.toNat x.rqPsn :: s.out }) ∧
          (psn.toNat ≠ x.rqPsn → psnLe psn.toNat x.rqPsn = false → ∃ t, exec i s = .next t ∧
            t.out = roceOut qp.toNat 4 x.rqPsn nakSeq [] :: s.out ∧
            t.fld R.HOSTP_ROCE_CNT F.HOSTP_ROCE_CNT_SEQ_NAK = min (s.fld R.HOSTP_ROCE_CNT F.HOSTP_ROCE_CNT_SEQ_NAK + 1) 65535 ∧
            t.qps = s.qps ∧ SameRegsBut [R.HOSTP_ROCE_CNT] s t ∧ SameMemory s t)) ∧
        (psn.toNat = x.rqPsn → SoundMemory s → s.bells = [] →
          ((s.regionOk rkey.toNat va.toNat data.length 1).2 = true → s.guardWrite va.toNat data.length = (false, s) →
            data.length ≤ 2 ^ 31 → ∃ t, exec (.rdmaWrite qp psn rkey va data ce) s = .next t ∧
              t.mem = (s.writeMem va.toNat data).1.mem ∧
              (t.qp qp.toNat).rqPsn = (x.rqPsn + x.packets data.length) % 2 ^ 24 ∧
              t.out = ackOut qp.toNat (psn.toNat + x.packets data.length) :: s.out ∧ SameRegsBut [] s t) ∧
          ((s.regionOk rkey.toNat va.toNat len.toNat 2).2 = true → len.toNat ≤ 2 ^ 31 →
            ∃ t, exec (.rdmaRead qp psn rkey va len ce) s = .next t ∧
              (t.qp qp.toNat).rqPsn = (x.rqPsn + x.packets len.toNat) % 2 ^ 24 ∧
              t.out = roceOut qp.toNat 2 psn.toNat 0 (s.peek va.toNat len.toNat) :: s.out ∧ SameRegsBut [] s t ∧ SameMemory s t) ∧
          ((s.regionOk rkey.toNat va.toNat len.toNat 2).2 = false → len.toNat ≤ 2 ^ 31 →
            ∃ t, exec (.rdmaRead qp psn rkey va len ce) s = .next t ∧ t.out = roceOut qp.toNat 4 psn.toNat nakAccess [] :: s.out ∧
              t.qps = s.qps ∧ SameRegsBut [R.HOSTP_ROCE_CNT] s t ∧ SameMemory s t) ∧
          ((x.at 48 8 = 0 ∨ 4088 < data.length) → ∃ t, exec (.rdmaSend qp psn data ce) s = .next t ∧
            t.out = roceOut qp.toNat 4 psn.toNat nakInvalid [] :: s.out ∧ t.qps = s.qps ∧ SameRegsBut [] s t ∧ SameMemory s t) ∧
          (x.at 48 8 ≠ 0 → data.length ≤ 4088 → s.isOwn (x.at 48 8) = true → s.isOwn (x.at 56 8) = true →
            s.mappedRange (gaLocal (x.at 56 8)) 4 = true →
            let a := gaLocal (x.at 48 8) + 4096 * (x.sends % 2 ^ (x.at 47 1))
            (x.sends + 2 ^ 32 - ofLe (s.peek (gaLocal (x.at 56 8)) 4)) % 2 ^ 32 < 2 ^ (x.at 47 1) → s.mappedRange a 4096 = true →
            s.guardWrite a 4096 = (false, s) → ∃ t, exec (.rdmaSend qp psn data ce) s = .next t ∧
              (t.qp qp.toNat).sends = (x.sends + 1) % 2 ^ 32 ∧
              (t.qp qp.toNat).rqPsn = (x.rqPsn + x.packets data.length) % 2 ^ 24 ∧
              t.out = ackOut qp.toNat (psn.toNat + x.packets data.length) :: s.out ∧ SameRegsBut [] s t ∧
              (∀ k, k ∉ keysOf a data.length → k ∉ keysOf (a + 4088) 8 → memByte t.mem k = memByte s.mem k)))) ∧
      (x.state = 1 → nak = false → ∃ t, exec (.roceAckRx qp psn nak) s = .next t ∧
        (t.qp qp.toNat).unacked = x.unacked.filter (fun m => !(psnLe ((m.psn + m.count - 1) % 2 ^ 24) psn.toNat)) ∧
        SameRegsBut [] s t ∧ SameMemory s t) ∧
      (x.state = 1 → ∃ t, exec (.cnpRx qp) s = .next t ∧
        (t.qp qp.toNat).rate = (if x.cutAt = 0 ∨ x.cutAt + 50 * usTicks ≤ s.now + 1 then x.rate / 2 else x.rate) ∧
        t.fld R.HOSTP_ROCE_CNT F.HOSTP_ROCE_CNT_CNP_RX = min (s.fld R.HOSTP_ROCE_CNT F.HOSTP_ROCE_CNT_CNP_RX + 1) 65535 ∧
        SameRegsBut [R.HOSTP_ROCE_CNT] s t ∧ SameMemory s t))) ∧
  (∀ (qp : Fin 4096) (s : State), s.mainUp = true →
    let x := s.qp qp.val
    let due := x.state = 1 ∧ x.unacked ≠ [] ∧ x.sentAt * 1000 + 4096 * usTicks * 2 ^ (x.at 45 1 % 32) ≤ s.now * 1000
    (¬ due → exec (.roceRetransmitTimeout qp) s = .next s) ∧
    (due → x.at 44 1 % 8 ≤ x.tries → s.bells = [] → ∃ t, exec (.roceRetransmitTimeout qp) s = .next t ∧
      (t.qp qp.val).state = 2 ∧ (t.qp qp.val).unacked = [] ∧ SameRegsBut [] s t ∧ SameMemory s t) ∧
    (due → x.tries < x.at 44 1 % 8 → ∃ t, exec (.roceRetransmitTimeout qp) s = .next t ∧ (t.qp qp.val).tries = x.tries + 1 ∧
      (t.qp qp.val).unacked = x.unacked) ∧
    (¬ (x.state = 1 ∧ x.rate < lineRate ∧ x.stepAt + 100 * usTicks ≤ s.now + 1) → exec (.roceRateRecover qp) s = .next s) ∧
    (x.state = 1 → x.rate < lineRate → x.stepAt + 100 * usTicks ≤ s.now + 1 → ∃ t, exec (.roceRateRecover qp) s = .next t ∧
      (t.qp qp.val).rate = min lineRate (x.rate + lineRate / 20) ∧ SameRegsBut [] s t ∧ SameMemory s t)) ∧
  (∀ (qp : Fin 4096) (s : State), s.mainUp = true →
    (s.blockUp .hostp = false → exec (.qpLoad qp) s = .next s ∧ exec (.qpReset qp) s = .next s) ∧
    (s.blockUp .hostp = true → s.bells = [] →
      (∃ t, exec (.qpReset qp) s = .next t ∧ t.qp qp.val = Qp.reset ∧ t.fld R.HOSTP_QPCTL F.HOSTP_QPCTL_STATUS = stDone ∧
        t.fld R.HOSTP_QPCTL F.HOSTP_QPCTL_QPN = qp.val ∧ SameRegsBut [R.HOSTP_QPCTL] s t ∧ SameMemory s t) ∧
      (s.fld R.HOSTP_QPC F.HOSTP_QPC_COUNT ≤ qp.val → ∃ t, exec (.qpLoad qp) s = .next t ∧
        t.fld R.HOSTP_QPCTL F.HOSTP_QPCTL_STATUS = stDescriptor ∧ SameRegsBut [R.HOSTP_QPCTL] s t ∧ SameMemory s t) ∧
      (let a := s.fld R.HOSTP_QPC F.HOSTP_QPC_BASE + 64 * qp.val
       qp.val < s.fld R.HOSTP_QPC F.HOSTP_QPC_COUNT → s.mappedRange a 64 = true → SoundMemory s → qpCtxOk (s.peek a 64) = true →
        ∃ t, exec (.qpLoad qp) s = .next t ∧ (t.qp qp.val).state = 1 ∧ (t.qp qp.val).ctx = s.peek a 64 ∧
          t.fld R.HOSTP_QPCTL F.HOSTP_QPCTL_STATUS = stDone ∧ SameRegsBut [R.HOSTP_QPCTL] s t ∧ SameMemory s t))) ∧
  (∀ (i : Instr) (m : TctHead) (ty : Nat) (p : List Byte) (s : State), tctMessage i = some (m, ty, p) → s.serving = true →
    let x := s.session m.session.val
    let q := m.seq.toNat
    (s.hostUp = false → exec i s = .next s) ∧
    (s.hostUp = true → s.fld R.HOSTP_STAT F.HOSTP_STAT_SILENT = 1 → ∃ t, exec i s = .next t ∧
      t.fld R.PEND_CNT F.PEND_CNT_BACK_DROP = min (s.fld R.PEND_CNT F.PEND_CNT_BACK_DROP + 1) 65535 ∧
      SameRegsBut [R.PEND_CNT] s t ∧ SameMemory s t) ∧
    (HostServes s → (s.keyLoaded m.key.val = false ∨ tctLenOk ty p.length = false) → ∃ t, exec i s = .next t ∧
      t.fld R.HOSTP_TCT_CNT F.HOSTP_TCT_CNT_TAG_BAD = min (s.fld R.HOSTP_TCT_CNT F.HOSTP_TCT_CNT_TAG_BAD + 1) 65535 ∧
      SameRegsBut [R.HOSTP_TCT_CNT] s t ∧ SameMemory s t) ∧
    (HostServes s → s.keyLoaded m.key.val = true → tctLenOk ty p.length = true →
      (x.high < q → exec i s = .next ((s.setSession m.session.val
          ⟨q, (q, none) :: x.seen.filter (fun r => decide (q < r.1 + 64)), m.src.toNat, m.key.val⟩).tctAct
        ⟨m.src, m.session, m.key, m.seq, BitVec.ofNat 8 ty, p⟩)) ∧
      (q ≤ x.high → x.seen.find? (fun r => r.1 == q) = none → ∃ t, exec i s = .next t ∧
        t.fld R.HOSTP_TCT_CNT F.HOSTP_TCT_CNT_REPLAY = min (s.fld R.HOSTP_TCT_CNT F.HOSTP_TCT_CNT_REPLAY + 1) 65535 ∧
        t.sessions = s.sessions ∧ SameRegsBut [R.HOSTP_TCT_CNT] s t ∧ SameMemory s t) ∧
      (∀ b r, q ≤ x.high → x.seen.find? (fun r => r.1 == q) = some (q, some (b :: r)) → ∃ t, exec i s = .next t ∧
        t.out.length = s.out.length + 1 ∧ t.sessions = s.sessions ∧ SameRegsBut [] s t ∧ SameMemory s t) ∧
      (x.high < q → (ty = tctRegRd ∨ ty = tctRegWr) → s.keyPriv m.key.val = false → ∃ t, exec i s = .next t ∧
        t.fld R.HOSTP_TCT_CNT F.HOSTP_TCT_CNT_REFUSED = min (s.fld R.HOSTP_TCT_CNT F.HOSTP_TCT_CNT_REFUSED + 1) 65535 ∧
        SameRegsBut [R.HOSTP_TCT_CNT] s t ∧ SameMemory s t))) ∧
  (∀ (m : TctHead) (a : BitVec 64) (n : BitVec 32) (s : State), HostServes s → s.keyLoaded m.key.val = true →
    (s.session m.session.val).high < m.seq.toNat → SoundMemory s → 1 ≤ n.toNat → n.toNat ≤ 8192 →
    s.mappedRange a.toNat n.toNat = true → ∃ t, exec (.memRd m a n) s = .next t ∧
      (t.session m.session.val).seen.find? (fun r => r.1 == m.seq.toNat) =
        some (m.seq.toNat, some (BitVec.ofNat 8 stDone :: s.peek a.toNat n.toNat)) ∧
      t.out.length = s.out.length + 1 ∧ SameRegsBut [] s t ∧ SameMemory s t) ∧
  (∀ (m : TctHead) (a : BitVec 64) (d : List (BitVec 8)) (s : State), HostServes s → s.keyLoaded m.key.val = true →
    (s.session m.session.val).high < m.seq.toNat → SoundMemory s → 1 ≤ d.length → d.length ≤ 8192 →
    s.mappedRange a.toNat d.length = true → s.guardWrite a.toNat d.length = (false, s) → ∃ t, exec (.memWr m a d) s = .next t ∧
      t.mem = (s.writeMem a.toNat d).1.mem ∧ (∀ k, k ∉ keysOf a.toNat d.length → memByte t.mem k = memByte s.mem k) ∧
      t.out.length = s.out.length + 1 ∧ SameRegsBut [] s t) ∧
  (∀ s : State, s.mainUp = true → (s.bells = [] → exec .doorbellRelease s = .next s) ∧
    (∀ b, s.bells = [b] → (s.fencePassed b.qpn b.psn = false → exec .doorbellRelease s = .next s) ∧
      (s.fencePassed b.qpn b.psn = true → exec .doorbellRelease s =
        .next (({ s with bells := [] } : State).ring b.session b.key b.seq b.addr b.value)))) ∧
  (∀ s : State, s.mainUp = true → (s.mirrorBack = true → exec .eventResend s = .next s) ∧
    (s.mirrorBack = false → ∃ t, exec .eventResend s = .next t ∧ t.out.length = s.out.length + s.events.length ∧
      t.events = s.events ∧ SameRegsBut [R.HOSTP_EVT_CNT] s t ∧ SameMemory s t))

/-! ### The sideband and the root of trust -/

/-- R404 to R407, R410, R414, R420 to R425: sideband commands need an endpoint ID but for MCTP control, and each answers
once; keys, sensors, reports, measurements, the committed SVN, debug unlocks and their end, and identity signatures. Which
errors draw which answers, PLDM numbers, sessions and signature order are the model's readings (logs 6, 32, 62, 63, 75, 86).
-/
def Obligations.SidebandCommands : Prop :=
  (∀ (i : Instr) (cmd k flags : BitVec 8) (x : BitVec 16) (a v : BitVec 64) (b : List (BitVec 8)) (s : State),
    i ∈ [Instr.pldmType0 cmd b, .pldmType2 cmd x, .getInfo, .sbRegRd a, .sbRegWr a v, .keyLoad k flags b, .keyClear k, .getReport b,
      .getEndorsement, .debugChallenge, .debugUnlock b, .debugLock, .sbExtend k b, .sbSvnCommit, .getMeas] →
    s.fld R.HOSTP_SB F.HOSTP_SB_EID = 0 → exec i s = .next s) ∧
  (∀ (cmd : BitVec 8) (b : List (BitVec 8)) (s : State), s.powered = true →
    (∃ t, exec (.mctpControl cmd b) s = .next t ∧ t.out.length = s.out.length + 1 ∧ SameRegsBut [R.HOSTP_SB] s t ∧ SameMemory s t) ∧
    (cmd = 1 → b.length = 2 → leField b 0 1 % 4 < 2 → leField b 1 1 ≠ 0 → leField b 1 1 ≠ 0xFF → ∃ t,
      exec (.mctpControl cmd b) s = .next t ∧ t.fld R.HOSTP_SB F.HOSTP_SB_EID = leField b 1 1)) ∧
  (∀ (cmd : BitVec 8) (x : BitVec 16) (b : List (BitVec 8)) (s : State), s.powered = true → s.fld R.HOSTP_SB F.HOSTP_SB_EID ≠ 0 →
    (∀ i ∈ [Instr.pldmType0 cmd b, .pldmType2 cmd x, .getInfo, .getEndorsement, .getMeas, .debugChallenge], ∃ t, exec i s = .next t ∧
      t.out.length = s.out.length + 1 ∧ SameRegsBut [] s t ∧ SameMemory s t) ∧
    (cmd = 0x11 → x.toNat < 9 → exec (.pldmType2 cmd x) s = .next (s.mctpReply 2 0x11 0 (leBytes (sparseGet s.sensors x.toNat 0) 4))) ∧
    exec .getMeas s = .next (s.sbReply 0x17 ccOk ((List.range 8).flatMap s.meas)) ∧
    (∃ t, exec .debugChallenge s = .next t ∧ t.challenge ≠ none)) ∧
  (∀ (mv win wmod : BitVec 32) (hub : BitVec 8) (s : State), s.powered = true → ∃ t, exec (.sensorRefresh mv win wmod hub) s = .next t ∧
    sparseGet t.sensors 0 0 = mv.toNat ∧ sparseGet t.sensors 1 0 = win.toNat ∧ sparseGet t.sensors 2 0 = wmod.toNat ∧
    sparseGet t.sensors 7 0 = hub.toNat ∧ SameRegsBut [] s t ∧ SameMemory s t) ∧
  (∀ (a v : BitVec 64) (s : State), s.powered = true → s.fld R.HOSTP_SB F.HOSTP_SB_EID ≠ 0 →
    (s.sbAccess a.toNat ≠ ccOk → exec (.sbRegRd a) s = .next (s.sbReply 0x02 (s.sbAccess a.toNat) []) ∧
      exec (.sbRegWr a v) s = .next (s.sbReply 0x03 (s.sbAccess a.toNat) [])) ∧
    (s.sbAccess a.toNat = ccOk →
      (∀ x t, s.regRead a.toNat = (some x, t) → exec (.sbRegRd a) s = .next (t.sbReply 0x02 ccOk (leBytes x 8))) ∧
      (∀ t, s.regRead a.toNat = (none, t) → exec (.sbRegRd a) s = .next (t.sbReply 0x02 ccAccess [])) ∧
      (ActsAlone s → ∀ ok t, s.regWrite .sideband a.toNat (BitVec.ofNat 64 v.toNat) = (ok, t) →
        exec (.sbRegWr a v) s = .next (t.sbReply 0x03 (if ok then ccOk else ccAccess) [])))) ∧
  (∀ (k flags : BitVec 8) (key : List (BitVec 8)) (s : State), s.powered = true → s.fld R.HOSTP_SB F.HOSTP_SB_EID ≠ 0 →
    ((8 ≤ k.toNat ∨ 2 ≤ flags.toNat ∨ key.length ≠ 32) → exec (.keyLoad k flags key) s = .next (s.sbReply 0x04 ccInvalid [])) ∧
    (8 ≤ k.toNat → exec (.keyClear k) s = .next (s.sbReply 0x05 ccInvalid [])) ∧
    (k.toNat < 8 →
      (flags.toNat < 2 → key.length = 32 → ∃ t, exec (.keyLoad k flags key) s = .next t ∧ t.keyLoaded k.toNat = true ∧
        t.keyPriv k.toNat = (flags.toNat == 1) ∧ sparseGet t.keys k.toNat [] = key ∧
        (∀ p ∈ t.sessions, p.2.key ≠ k.toNat) ∧ SameRegsBut [R.HOSTP_KEYSTAT] s t ∧ SameMemory s t) ∧
      (∃ t, exec (.keyClear k) s = .next t ∧ t.keyLoaded k.toNat = false ∧ t.keyPriv k.toNat = false ∧
        (∀ p ∈ t.sessions, p.2.key ≠ k.toNat) ∧ SameRegsBut [R.HOSTP_KEYSTAT] s t ∧ SameMemory s t))) ∧
  (∀ (k : BitVec 8) (dg : List (BitVec 8)) (s : State), s.powered = true → s.fld R.HOSTP_SB F.HOSTP_SB_EID ≠ 0 →
    (¬ (4 ≤ k.toNat ∧ k.toNat ≤ 7 ∧ dg.length = 32) → exec (.sbExtend k dg) s = .next (s.sbReply 0x15 ccInvalid [])) ∧
    (4 ≤ k.toNat → k.toNat ≤ 7 → dg.length = 32 → ∃ t, exec (.sbExtend k dg) s = .next t ∧
      SameRegsBut ((List.range 4).map (R.SEC_MEAS k.toNat)) s t ∧ SameMemory s t)) ∧
  (∀ s : State, s.powered = true → s.fld R.HOSTP_SB F.HOSTP_SB_EID ≠ 0 → ∃ t, exec .sbSvnCommit s = .next t ∧
    t.svnOtp = (if s.imageUp then max s.svnOtp (s.fld R.SEC_STAT F.SEC_STAT_SVN_IMAGE) else s.svnOtp) ∧
    SameRegsBut [R.SEC_STAT] s t ∧ SameMemory s t) ∧
  (∀ s : State, s.mainUp = true → ∃ t, exec .svnCommit s = .next t ∧
    t.svnOtp = (if s.imageUp then max s.svnOtp (s.fld R.SEC_STAT F.SEC_STAT_SVN_IMAGE) else s.svnOtp) ∧
    SameRegsBut [R.SEC_STAT] s t ∧ SameMemory s t) ∧
  (∀ (b : List (BitVec 8)) (s : State), s.powered = true → s.fld R.HOSTP_SB F.HOSTP_SB_EID ≠ 0 →
    (b.length ≠ 32 → exec (.getReport b) s = .next (s.sbReply 0x10 ccInvalid [])) ∧
    (b.length = 32 → s.mode = mBoot → exec (.getReport b) s = .next (s.sbReply 0x10 ccState [])) ∧
    (b.length = 32 → s.mode ≠ mBoot → s.signReqs.length < 64 → s.idxNext < 2 ^ 40 →
      exec (.getReport b) s = .next { s with signReqs := s.signReqs ++ [s.reportReq .report b] }) ∧
    ∃ t, exec (.debugUnlock b) s = .next t ∧ t.challenge = none ∧ SameMemory s t ∧
      (s.tokenOk b = false → t = ({ s with challenge := none } : State).sbReply 0x13 ccInvalid []) ∧
      (s.tokenOk b = true → t.fld R.SEC_DEBUG F.SEC_DEBUG_SCOPE = s.fld R.SEC_DEBUG F.SEC_DEBUG_SCOPE ||| leField b 1 1 ∧
        t.fld R.SEC_DEBUG F.SEC_DEBUG_EVER = s.fld R.SEC_DEBUG F.SEC_DEBUG_EVER ||| leField b 1 1)) ∧
  (∀ s : State, s.powered = true →
    (s.fld R.HOSTP_SB F.HOSTP_SB_EID ≠ 0 → exec .debugLock s = .next (s.debugEnd.sbReply 0x14 ccOk [])) ∧
    (s.mainUp = true → exec .secCtlDebugLock s = .next s.debugEnd) ∧
    (s.debugExpiry ≠ 0 → s.debugExpiry ≤ s.uptime → exec .debugExpiry s = .next s.debugEnd) ∧
    ((s.debugExpiry = 0 ∨ s.uptime < s.debugExpiry) → exec .debugExpiry s = .next s) ∧
    s.debugEnd.fld R.SEC_DEBUG F.SEC_DEBUG_SCOPE = 0 ∧ s.debugEnd.debugExpiry = 0 ∧
    s.debugEnd.fld R.SEC_DEBUG F.SEC_DEBUG_EVER = s.fld R.SEC_DEBUG F.SEC_DEBUG_EVER ∧ SameMemory s s.debugEnd) ∧
  (∀ s : State, s.powered = true → s.pend.heldIn = [] →
    (s.signReqs = [] → exec .identitySign s = .next s) ∧
    (∀ b n rest, s.signReqs = { owner := .report, body := b, at_ := n } :: rest →
      (2 ^ 40 ≤ s.idxNext → ∃ t, exec .identitySign s = .next t ∧ t.signReqs = rest ∧ t.idxNext = s.idxNext ∧
        t.fld R.SEC_SIGCNT F.SEC_SIGCNT_REFUSED = min (s.fld R.SEC_SIGCNT F.SEC_SIGCNT_REFUSED + 1) 65535 ∧
        SameRegsBut [R.SEC_SIGCNT] s t ∧ SameMemory s t) ∧
      (s.idxNext < 2 ^ 40 → ∃ t, exec .identitySign s = .next t ∧ t.signReqs = rest ∧ t.idxNext = s.idxNext + 1 ∧
        t.fld R.SEC_SIGCNT F.SEC_SIGCNT_REPORTS = min (s.fld R.SEC_SIGCNT F.SEC_SIGCNT_REPORTS + 1) 65535 ∧
        SameRegsBut [R.SEC_SIGCNT, R.SEC_IDX, R.SEC_IDX_LIMIT] s t ∧ SameMemory s t)))

/-- R415 to R419: an update starts, is refused, aborted, verified and programmed; the recovery doors answer, take data,
check what they took, and the winner is programmed; a serving module sends its image to a recovering partner. That
programming does not fail, and what a read-back failure leaves, are the model's choice (logs 76, 77). -/
def Obligations.UpdateAndRecovery : Prop :=
  (∀ s : State, s.mainUp = true →
    let st := s.fld R.SEC_UPD_STAT F.SEC_UPD_STAT_STATE
    let g := (s.reg R.SEC_UPD_ADDR).toNat
    ((st = 1 ∨ st = 2) → exec .updStart s = .next s) ∧
    (st ≠ 1 → st ≠ 2 → g % 4096 ≠ 0 → ∃ t, exec .updStart s = .next t ∧ t.update = none ∧
      t.fld R.SEC_UPD_STAT F.SEC_UPD_STAT_STATUS = stAddress ∧ t.fld R.SEC_UPD_STAT F.SEC_UPD_STAT_STATE = 3 ∧
      SameRegsBut [R.SEC_UPD_STAT] s t ∧ SameMemory s t) ∧
    (∀ body, st ≠ 1 → st ≠ 2 → g % 4096 = 0 → s.isOwn g = true → s.mappedRange (gaLocal g) 4096 = true →
      body = imgBody (fun i => s.byteAt ((memKey (gaLocal g + i)).getD 0)) → body ≤ 62910464 →
      s.mappedRange (gaLocal g) (4096 + body) = true → ∃ t, exec .updStart s = .next t ∧
        t.update = some (gaLocal g, 4096 + body) ∧ t.fld R.SEC_UPD_STAT F.SEC_UPD_STAT_STATE = 1 ∧
        SameRegsBut [R.SEC_UPD_STAT] s t ∧ SameMemory s t) ∧
    (st ≠ 1 → exec .updAbort s = .next s ∧ exec .updateVerifyComplete s = .next s) ∧
    (st = 1 → ∃ t, exec .updAbort s = .next t ∧ t.update = none ∧ t.fld R.SEC_UPD_STAT F.SEC_UPD_STAT_STATUS = stCancelled ∧
      t.fld R.SEC_UPD_STAT F.SEC_UPD_STAT_STATE = 3 ∧ SameRegsBut [R.SEC_UPD_STAT] s t ∧ SameMemory s t) ∧
    (∀ a n, st = 1 → s.update = some (a, n) → SoundMemory s →
      let why := s.verifyImage (fun i => (s.peek a n).getD i 0) false
      ∃ t, exec .updateVerifyComplete s = .next t ∧ SameRegsBut [R.SEC_UPD_STAT] s t ∧ SameMemory s t ∧
        t.fld R.SEC_UPD_STAT F.SEC_UPD_STAT_STATE = (if why = 0 then 2 else 3) ∧ t.update = (if why = 0 then s.update else none) ∧
        (why ≠ 0 → t.fld R.SEC_UPD_STAT F.SEC_UPD_STAT_STATUS = stDescriptor ∧ t.fld R.SEC_UPD_STAT F.SEC_UPD_STAT_REASON = why)) ∧
    (∀ ok, st ≠ 2 → exec (.updateComplete ok) s = .next s) ∧
    (∀ a n ok, st = 2 → s.update = some (a, n) → ∃ t, exec (.updateComplete ok) s = .next t ∧ t.update = none ∧
      t.fld R.SEC_UPD_STAT F.SEC_UPD_STAT_STATUS = (if ok then stDone else stData) ∧
      t.fld R.SEC_UPD_STAT F.SEC_UPD_STAT_STATE = 3 ∧ t.fld R.SEC_UPD_STAT F.SEC_UPD_STAT_BYTES = n % 2 ^ 48 ∧
      (ok = true → ∀ i < n, t.flashByte i = s.byteAt ((memKey (a + i)).getD 0)) ∧
      SameRegsBut [R.SEC_UPD_STAT] s t ∧ SameMemory s t)) ∧
  (∀ (src : BitVec 64) (off : BitVec 32) (b : List (BitVec 8)) (p : Fin 2) (ok : Bool) (s : State), s.powered = true →
    s.recovering = false → ∀ i ∈ [Instr.recovQuery src, .recovData src off b, .recovCommit src off, .recovSessionTimeout,
      .recoveryProgrammed ok, .recovReqTimer, .pendRecovData p off b, .recovEnd p off], exec i s = .next s) ∧
  (∀ (src : BitVec 64) (off : BitVec 32) (b : List (BitVec 8)) (s : State), s.recovering = true →
    (∃ t, exec (.recovQuery src) s = .next t ∧ t.out.length = s.out.length + 1 ∧ t.recov = s.recov ∧ SameRegsBut [] s t ∧
      SameMemory s t) ∧
    (s.recov.winner = 0 → 1 ≤ b.length → b.length ≤ 8192 → off.toNat < imageMax →
      ((s.recov.owner = none ∨ s.recov.owner = some src.toNat) → ∃ t, exec (.recovData src off b) s = .next t ∧
        t.recov.owner = some src.toNat ∧ t.recov.ownerAt = s.now ∧ t.recov.host = putImage s.recov.host off.toNat b ∧
        t.out.length = s.out.length + 1 ∧ SameRegsBut [] s t ∧ SameMemory s t) ∧
      (∀ o, s.recov.owner = some o → o ≠ src.toNat → exec (.recovData src off b) s = .next s)) ∧
    ((s.recov.winner ≠ 0 ∨ s.recov.owner ≠ some src.toNat) → exec (.recovCommit src off) s = .next s) ∧
    (s.recov.winner = 0 → s.recov.owner = some src.toNat →
      ∃ t, exec (.recovCommit src off) s = .next t ∧ SameRegsBut [] s t ∧ SameMemory s t ∧
        (s.doorCheck s.recov.host off.toNat = 0 → t.recov.winner = 1 ∧ t.recov.length = off.toNat ∧ t.recov.host = s.recov.host ∧
          t.out = s.out) ∧
        (s.doorCheck s.recov.host off.toNat ≠ 0 → t.recov.owner = none ∧ t.recov.host = [] ∧ t.out.length = s.out.length + 1)) ∧
    (∀ o, s.recov.winner = 0 → s.recov.owner = some o →
      (s.now < s.recov.ownerAt + 10000 * msTicks → exec .recovSessionTimeout s = .next s) ∧
      (s.recov.ownerAt + 10000 * msTicks ≤ s.now → ∃ t, exec .recovSessionTimeout s = .next t ∧ t.recov.owner = none ∧
        t.recov.host = [] ∧ t.recov.pend = s.recov.pend ∧ SameRegsBut [] s t ∧ SameMemory s t))) ∧
  (∀ (p : Fin 2) (n : BitVec 32) (b : List (BitVec 8)) (s : State), s.recovering = true → s.recov.winner = 0 →
    (∃ t, exec .recovReqTimer s = .next t ∧ t.out.length = s.out.length + ((List.range 2).filter s.pendUp).length ∧
      t.recov = s.recov ∧ SameRegsBut [] s t ∧ SameMemory s t) ∧
    (s.recovPort p.val = false → exec (.pendRecovData p n b) s = .next s ∧ exec (.recovEnd p n) s = .next s) ∧
    (s.recovPort p.val = true → n.toNat = s.recov.pendNext →
      (∃ t, exec (.pendRecovData p n b) s = .next t ∧ t.recov.pendNext = s.recov.pendNext + b.length ∧
        t.recov.pend = putImage s.recov.pend n.toNat b ∧ SameRegsBut [] s t ∧ SameMemory s t) ∧
      ∃ t, exec (.recovEnd p n) s = .next t ∧ SameRegsBut [] s t ∧ SameMemory s t ∧
        (s.doorCheck s.recov.pend n.toNat = 0 → t.recov.winner = 2 ∧ t.recov.length = n.toNat) ∧
        (s.doorCheck s.recov.pend n.toNat ≠ 0 → t.recov.winner = 0 ∧ t.recov.pendNext = 0 ∧ t.recov.pend = [] ∧
          t.recov.host = s.recov.host))) ∧
  (∀ s : State, s.recovering = true → s.recov.winner ≠ 0 →
    (∃ t, exec (.recoveryProgrammed false) s = .next t ∧ t.recov = Recov.none_ ∧ SameRegsBut [] s t ∧ SameMemory s t) ∧
    (s.recov.owner = none → ∃ u : State, exec (.recoveryProgrammed true) s = .next (u.warmBoot 3) ∧
      u.fld R.SEC_STAT F.SEC_STAT_RECOV_SRC = s.recov.winner % 4 ∧
      (∀ i < s.recov.length, u.flashByte i = sparseGet (if s.recov.winner = 1 then s.recov.host else s.recov.pend) i 0) ∧
      SameRegsBut [R.SEC_STAT] s u ∧ SameMemory s u)) ∧
  (∀ (p : Fin 2) (off : BitVec 32) (s : State), s.serving = true →
    ((s.fld R.SEC_CFG F.SEC_CFG_SERVE_PEER = 0 ∨ s.pendUp p.val = false) → exec (.pendRecovReq p off) s = .next s) ∧
    (s.fld R.SEC_CFG F.SEC_CFG_SERVE_PEER ≠ 0 → s.pendUp p.val = true → ∃ t, exec (.pendRecovReq p off) s = .next t ∧
      t.out.length = s.out.length + (4096 + imgBody s.flashByte - off.toNat + 247) / 248 + 1 ∧ SameRegsBut [] s t ∧ SameMemory s t))

/-! ### Power and errors -/

/-- R442 to R444, R448 to R453, R458: requests of domains, domains that go off and come on; the limiter, the cap and thermal
loops; the point that R452 asks for, override records, and the interval of the corrected records. Which bits of PWR_DOM_REQ
are requests is the model's reading (log 78). -/
def Obligations.PowerLoops : Prop :=
  (∀ (v : BitVec 64) (s : State), s.powered = true →
    (v.toNat % 2 ^ 56 = s.fld R.PWR_DOM_REQ F.PWR_DOM_REQ_REQ → exec (.pwrDomReqWrite v) s = .next s) ∧
    (s.mode = mEarly → ∃ t, exec (.pwrDomReqWrite v) s = .next t ∧
      t.fld R.PWR_CNT F.PWR_CNT_REFUSED = min (s.fld R.PWR_CNT F.PWR_CNT_REFUSED +
        ((List.range 56).filter (fun k => bitOf v.toNat k != s.bit R.PWR_DOM_REQ F.PWR_DOM_REQ_REQ k)).length) 65535 ∧
      SameRegsBut [R.PWR_CNT] s t ∧ SameMemory s t)) ∧
  (∀ (k : Fin 56) (s : State), s.powered = true →
    ((s.bit R.PWR_DOM_CLOSING F.PWR_DOM_CLOSING_DOM k.val = false ∨ s.domainDone k.val = false) →
      exec (.domainOff k) s = .next s) ∧
    (k.val = 52 → s.bit R.PWR_DOM_CLOSING F.PWR_DOM_CLOSING_DOM k.val = true → s.mode ≠ mDetaching →
      s.bit R.PWR_DOM_REQ F.PWR_DOM_REQ_REQ k.val = false → ∃ t, exec (.domainOff k) s = .next t ∧
        t.bit R.PWR_DOM_STAT F.PWR_DOM_STAT_ON k.val = false ∧ t.bit R.PWR_DOM_CLOSING F.PWR_DOM_CLOSING_DOM k.val = false ∧
        t.qps = [] ∧ t.sessions = [] ∧ t.events = [] ∧ SameMemory s t)) ∧
  (∀ (k : Fin 56) (s : State), s.mainUp = true →
    ((∀ x ∈ s.power.turningOn, x.1 ≠ k.val ∨ s.now < x.2) → exec (.domainOnReady k) s = .next s) ∧
    (∀ at_, s.power.turningOn = [(k.val, at_)] → at_ ≤ s.now → s.power.wantOn = [] → 53 ≤ k.val →
      ∃ t, exec (.domainOnReady k) s = .next t ∧ t.bit R.PWR_DOM_STAT F.PWR_DOM_STAT_ON k.val = true ∧ t.power.turningOn = [] ∧
        SameRegsBut [R.PWR_DOM_STAT] s t ∧ SameMemory s t)) ∧
  (∀ (w : BitVec 16) (s : State), s.mainUp = true → ∃ t, exec (.limiterSample w) s = .next t ∧
    t.fld R.PWR_METER F.PWR_METER_NOW_W = w.toNat ∧
    t.fld R.PWR_STAT F.PWR_STAT_F = (if s.threshold < 100 * w.toNat then min 16 (s.fld R.PWR_STAT F.PWR_STAT_F + 1)
      else s.fld R.PWR_STAT F.PWR_STAT_F) ∧
    t.power.usCount = s.power.usCount + 1 ∧ t.power.msSum = s.power.msSum + w.toNat ∧
    SameRegsBut [R.PWR_METER, R.PWR_STAT] s t ∧ SameMemory s t) ∧
  (∀ s : State, s.mainUp = true →
    (s.power.usCount < 10 → exec .limiterRelease s = .next s) ∧
    (10 ≤ s.power.usCount → ∃ t, exec .limiterRelease s = .next t ∧ t.power.usCount = 0 ∧
      t.fld R.PWR_STAT F.PWR_STAT_F = (if s.power.usLow then s.fld R.PWR_STAT F.PWR_STAT_F - 1 else s.fld R.PWR_STAT F.PWR_STAT_F) ∧
      t.fld R.PWR_CNT F.PWR_CNT_LIMIT = (if s.fld R.PWR_STAT F.PWR_STAT_F = 0 then s.fld R.PWR_CNT F.PWR_CNT_LIMIT
        else min (s.fld R.PWR_CNT F.PWR_CNT_LIMIT + 1) 65535) ∧ SameRegsBut [R.PWR_STAT, R.PWR_CNT] s t ∧ SameMemory s t)) ∧
  (∀ (t : BitVec 8) (s : State), s.mainUp = true → t.toNat ≤ s.fld R.PWR_THERM F.PWR_THERM_T_STEP →
    t.toNat ≤ s.fld R.PWR_THERM F.PWR_THERM_T_TRIP → s.power.dies.length = 4 →
    s.fld R.PWR_THERM F.PWR_THERM_T_STEP ≤ t.toNat + s.fld R.PWR_THERM F.PWR_THERM_HYST →
    ∃ u, exec (.thermalSample [t] []) s = .next u ∧ u.fld (R.DPWR_STAT 0) F.DPWR_STAT_TEMP = t.toNat ∧ (u.loop 0).temp = t.toNat ∧
      (u.loop 0).pTherm = (s.loop 0).pTherm ∧ (u.loop 0).hotMs = 0 ∧ (u.loop 0).coolMs = 0 ∧ SameRegsBut [R.DPWR_STAT 0] s u ∧
      SameMemory s u) ∧
  (∀ (t : BitVec 8) (s : State), s.mainUp = true → t.toNat ≤ s.fld R.PWR_THERM F.PWR_THERM_T_TRIP → s.power.stackTemp.length = 16 →
    s.power.stackThrottle.length = 16 → ∃ u, exec (.thermalSample [] [t]) s = .next u ∧ u.power.stackTemp.getD 0 0 = t.toNat ∧
      u.power.stackThrottle.getD 0 false = (if 95 < t.toNat then true else if t.toNat < 90 then false
        else s.power.stackThrottle.getD 0 false) ∧ SameRegsBut [] s u ∧ SameMemory s u) ∧
  (∀ s : State, s.mainUp = true →
    let avg := if s.power.msCount = 0 then 0 else s.power.msSum / s.power.msCount
    let ten := ((avg :: s.power.avgMs).take 10).sum
    (9 * s.cap ≤ ten → ten ≤ 10 * s.cap → ∃ t, exec .capLoop s = .next t ∧ t.power.capMs = 0 ∧ t.power.msSum = 0 ∧
      t.power.avgMs = (avg :: s.power.avgMs).take 10 ∧ t.power.capSteps = s.power.capSteps ∧
      t.fld R.PWR_METER F.PWR_METER_AVG_W = ten / 10 % 65536 ∧ SameRegsBut [R.PWR_METER] s t ∧ SameMemory s t) ∧
    (ten < 9 * s.cap → ten ≤ 10 * s.cap → s.power.capMs + 1 < 50 → ∃ t, exec .capLoop s = .next t ∧
      t.power.capMs = s.power.capMs + 1 ∧ t.power.capSteps = s.power.capSteps ∧ SameRegsBut [R.PWR_METER] s t ∧ SameMemory s t) ∧
    (10 * s.cap < ten → (∀ d < 4, s.dieIn d = false) → s.fld R.PWR_STAT F.PWR_STAT_CAP_HOLD = 0 → ∃ t, exec .capLoop s = .next t ∧
      t.fld R.PWR_STAT F.PWR_STAT_CAP_HOLD = 1 ∧ t.power.capSteps = 0 :: s.power.capSteps ∧
      SameRegsBut [R.PWR_METER, R.PWR_STAT] s t ∧ SameMemory s t)) ∧
  (∀ (d : Fin 4) (s : State), s.mainUp = true → exec (.clockPointChange d) s = .next (s.clockEval d.val) ∧
    (s.pWant d.val = s.point d.val → s.point d.val ≤ s.pProt d.val → (s.loop d.val).overStart = 0 →
      (s.clockRaised = false ∨ s.effFloor d.val ≤ s.point d.val) → exec (.clockPointChange d) s = .next s)) ∧
  (∀ (d : Fin 4) (s : State), s.mainUp = true →
    (((s.loop d.val).overStart = 0 ∨ s.now < (s.loop d.val).overRec + 1000 * msTicks) → exec (.overrideRecord d) s = .next s) ∧
    ((s.loop d.val).overStart ≠ 0 → (s.loop d.val).overRec + 1000 * msTicks ≤ s.now →
      exec (.overrideRecord d) s = .next (s.overrideRecord d.val) ∧
      (s.power.dies.length = 4 → ((s.overrideRecord d.val).loop d.val).overRec = s.now) ∧ SameMemory s (s.overrideRecord d.val))) ∧
  (∀ s : State, s.mainUp = true →
    (s.ceIndex = s.uptime / 100000 → exec .ceInterval s = .next s) ∧
    (s.ceIndex ≠ s.uptime / 100000 → ∃ t, exec .ceInterval s = .next t ∧ t.ceIndex = s.uptime / 100000 ∧ t.ceCount = 0 ∧
      SameRegsBut [] s t ∧ SameMemory s t))
end

