-- ==== Sys2Proof/Laws/Sparse.lean ====
section
/-!
SUPPORT. Laws of the finite maps that hold registers and memory: read after write, and the canonical form that every write
keeps.
-/

namespace Sys2Proof.Machine

open Sys2Proof

variable {α : Type}

/-! ### Read after write -/

theorem sparseGet_put_same (m : Sparse α) (a : Nat) (v d : α) : sparseGet (sparsePut m a v) a d = v := by
  induction m with
  | nil => simp [sparsePut, sparseGet]
  | cons p r ih =>
    obtain ⟨k, w⟩ := p
    simp only [sparsePut]
    split
    · simp [sparseGet]
    · split
      · simp [sparseGet]
      · rename_i h1 h2
        simp only [sparseGet]
        rw [if_neg (fun h => h2 h.symm)]
        exact ih

theorem sparseGet_put_other (m : Sparse α) {a b : Nat} (h : a ≠ b) (v d : α) : sparseGet (sparsePut m a v) b d = sparseGet m b d := by
  induction m with
  | nil => simp [sparsePut, sparseGet, h]
  | cons p r ih =>
    obtain ⟨k, w⟩ := p
    simp only [sparsePut]
    split
    · simp [sparseGet, h]
    · split
      · rename_i _ h2
        subst h2
        simp [sparseGet, h]
      · simp only [sparseGet, ih]

theorem sparseGet_del_other (m : Sparse α) {a b : Nat} (h : a ≠ b) (d : α) : sparseGet (sparseDel m a) b d = sparseGet m b d := by
  induction m with
  | nil => rfl
  | cons p r ih =>
    obtain ⟨k, w⟩ := p
    simp only [sparseDel]
    split
    · rename_i h1
      subst h1
      simpa [sparseGet, h] using ih
    · simp only [sparseGet, ih]

theorem sparseGet_del_same (m : Sparse α) (a : Nat) (d : α) : sparseGet (sparseDel m a) a d = d := by
  induction m with
  | nil => rfl
  | cons p r ih =>
    obtain ⟨k, w⟩ := p
    simp only [sparseDel]
    split
    · exact ih
    · rename_i hk
      simpa only [sparseGet, if_neg hk] using ih

/-! ### The canonical form -/

variable [DecidableEq α] {dflt : Nat → α}

theorem sparseWf_cons {k : Nat} {v : α} {r : Sparse α} :
    sparseWf dflt ((k, v) :: r) = true ↔ v ≠ dflt k ∧ (∀ p ∈ r, k < p.1) ∧ sparseWf dflt r = true := by
  simp only [sparseWf, Bool.and_eq_true, decide_eq_true_eq, List.all_eq_true, and_assoc]

omit [DecidableEq α] in
theorem sparseGet_of_absent (m : Sparse α) (a : Nat) (d : α) (h : ∀ p ∈ m, p.1 ≠ a) : sparseGet m a d = d := by
  induction m with
  | nil => rfl
  | cons p r ih =>
    obtain ⟨k, w⟩ := p
    simp only [sparseGet]
    rw [if_neg (h (k, w) (List.mem_cons_self ..))]
    exact ih (fun q hq => h q (List.mem_cons_of_mem _ hq))

omit [DecidableEq α] in
theorem mem_sparseDel {m : Sparse α} {a : Nat} {p : Nat × α} (h : p ∈ sparseDel m a) : p ∈ m := by
  induction m with
  | nil => exact h
  | cons q r ih =>
    obtain ⟨k, w⟩ := q
    simp only [sparseDel] at h
    split at h
    · exact List.mem_cons_of_mem _ (ih h)
    · rcases List.mem_cons.mp h with h | h
      · exact h ▸ List.mem_cons_self ..
      · exact List.mem_cons_of_mem _ (ih h)

omit [DecidableEq α] in
theorem key_sparsePut {m : Sparse α} {a : Nat} {v : α} {p : Nat × α} (h : p ∈ sparsePut m a v) : p = (a, v) ∨ p ∈ m := by
  induction m with
  | nil => exact .inl (List.mem_singleton.mp h)
  | cons q r ih =>
    obtain ⟨k, w⟩ := q
    simp only [sparsePut] at h
    split at h
    · exact (List.mem_cons.mp h).imp_right id
    · split at h
      · exact (List.mem_cons.mp h).imp_right (List.mem_cons_of_mem _)
      · rcases List.mem_cons.mp h with h | h
        · exact .inr (h ▸ List.mem_cons_self ..)
        · exact (ih h).imp_right (List.mem_cons_of_mem _)

theorem sparseWf_del {m : Sparse α} (a : Nat) (h : sparseWf dflt m = true) : sparseWf dflt (sparseDel m a) = true := by
  induction m with
  | nil => rfl
  | cons q r ih =>
    obtain ⟨k, w⟩ := q
    obtain ⟨hv, hlt, hr⟩ := sparseWf_cons.mp h
    simp only [sparseDel]
    split
    · exact ih hr
    · exact sparseWf_cons.mpr ⟨hv, fun p hp => hlt p (mem_sparseDel hp), ih hr⟩

theorem sparseWf_put {m : Sparse α} {a : Nat} {v : α} (hv : v ≠ dflt a) (h : sparseWf dflt m = true) :
    sparseWf dflt (sparsePut m a v) = true := by
  induction m with
  | nil => exact sparseWf_cons.mpr ⟨hv, fun p hp => absurd hp (List.not_mem_nil), rfl⟩
  | cons q r ih =>
    obtain ⟨k, w⟩ := q
    obtain ⟨hw, hlt, hr⟩ := sparseWf_cons.mp h
    simp only [sparsePut]
    split
    · rename_i hak
      refine sparseWf_cons.mpr ⟨hv, fun p hp => ?_, h⟩
      rcases List.mem_cons.mp hp with hp | hp
      · exact hp ▸ hak
      · exact Nat.lt_trans hak (hlt p hp)
    · split
      · rename_i _ hak
        subst hak
        exact sparseWf_cons.mpr ⟨hv, hlt, hr⟩
      · rename_i h1 h2
        refine sparseWf_cons.mpr ⟨hw, fun p hp => ?_, ih hr⟩
        rcases key_sparsePut hp with hp | hp
        · subst hp
          exact Nat.lt_of_le_of_ne (Nat.not_lt.mp h1) (fun e => h2 e.symm)
        · exact hlt p hp

theorem sparseWf_set {m : Sparse α} (a : Nat) (v : α) (h : sparseWf dflt m = true) :
    sparseWf dflt (sparseSet m a v (dflt a)) = true := by
  unfold sparseSet
  split
  · exact sparseWf_del a h
  · rename_i hv
    exact sparseWf_put hv h

theorem sparseWf_filter {m : Sparse α} (f : Nat × α → Bool) (h : sparseWf dflt m = true) : sparseWf dflt (m.filter f) = true := by
  induction m with
  | nil => rfl
  | cons q r ih =>
    obtain ⟨k, w⟩ := q
    obtain ⟨hv, hlt, hr⟩ := sparseWf_cons.mp h
    rw [List.filter_cons]
    split
    · exact sparseWf_cons.mpr ⟨hv, fun p hp => hlt p (List.mem_filter.mp hp).1, ih hr⟩
    · exact ih hr

theorem sparseGet_set_same (m : Sparse α) (a : Nat) (v d : α) : sparseGet (sparseSet m a v d) a d = v := by
  unfold sparseSet
  split
  · rename_i hv
    rw [sparseGet_del_same m a _, hv]
  · exact sparseGet_put_same m a v _

theorem sparseGet_set_other (m : Sparse α) {a b : Nat} (hab : a ≠ b) (v d e : α) :
    sparseGet (sparseSet m a v d) b e = sparseGet m b e := by
  unfold sparseSet
  split
  · exact sparseGet_del_other m hab e
  · exact sparseGet_put_other m hab v e

/-- Two canonical maps that read alike everywhere are the same data. -/
theorem sparse_ext {m n : Sparse α} (hm : sparseWf dflt m = true) (hn : sparseWf dflt n = true)
    (h : ∀ a, sparseGet m a (dflt a) = sparseGet n a (dflt a)) : m = n := by
  induction m generalizing n with
  | nil =>
    cases n with
    | nil => rfl
    | cons q r =>
      obtain ⟨k, w⟩ := q
      exact absurd (h k) (by simpa [sparseGet] using (sparseWf_cons.mp hn).1.symm)
  | cons p r ih =>
    obtain ⟨k, v⟩ := p
    obtain ⟨hv, hlt, hr⟩ := sparseWf_cons.mp hm
    cases n with
    | nil => exact absurd (h k) (by simpa [sparseGet] using hv)
    | cons q t =>
      obtain ⟨j, w⟩ := q
      obtain ⟨hw, hlt', ht⟩ := sparseWf_cons.mp hn
      have hkj : k = j := by
        rcases Nat.lt_trichotomy k j with hc | hc | hc
        · refine absurd (h k) ?_
          have : sparseGet t k (dflt k) = dflt k := sparseGet_of_absent t k _ (fun p hp => by have := hlt' p hp; omega)
          simpa [sparseGet, Nat.ne_of_gt hc, this] using hv
        · exact hc
        · refine absurd (h j) ?_
          have : sparseGet r j (dflt j) = dflt j := sparseGet_of_absent r j _ (fun p hp => by have := hlt p hp; omega)
          simpa [sparseGet, Nat.ne_of_gt hc, this] using hw.symm
      subst hkj
      have hvw : v = w := by simpa [sparseGet] using h k
      subst hvw
      congr 1
      refine ih hr ht (fun a => ?_)
      by_cases ha : k = a
      · subst ha
        rw [sparseGet_of_absent r k _ (fun p hp => by have := hlt p hp; omega),
          sparseGet_of_absent t k _ (fun p hp => by have := hlt' p hp; omega)]
      · simpa [sparseGet, ha] using h a

end Sys2Proof.Machine
end

