-- ==== Sys2Proof/Laws/Canonical.lean ====
section
/-!
SUPPORT. What keeps the canonical form: the rules from which the lemma of every operation is put together.
-/

namespace Sys2Proof.Machine

open Sys2Proof

/-! ### Rules -/

/-- An update that leaves memory and both banks alone. -/
theorem Canonical.same {s t : State} (h : Canonical s) (hm : t.mem = s.mem) (hr : t.regs = s.regs) (hs : t.staged = s.staged) :
    Canonical t := ⟨hm ▸ h.mem, hr ▸ h.regs, hs ▸ h.staged⟩

theorem Canonical.of_fst {α : Type} {p : State × α} {a : α} {t : State} (e : p = (t, a)) (h : Canonical p.1) : Canonical t := by
  subst e; exact h

theorem Canonical.of_snd {α : Type} {p : α × State} {a : α} {t : State} (e : p = (a, t)) (h : Canonical p.2) : Canonical t := by
  subst e; exact h

theorem Canonical.of_mid {α β : Type} {p : α × State × β} {a : α} {b : β} {t : State} (e : p = (a, t, b)) (h : Canonical p.2.1) :
    Canonical t := by
  subst e; exact h

theorem Canonical.foldl {α : Type} {g : State → α → State} {l : List α} {s : State} (h : Canonical s)
    (hg : ∀ s x, Canonical s → Canonical (g s x)) : Canonical (l.foldl g s) := by
  induction l generalizing s with
  | nil => exact h
  | cons x r ih => exact ih (hg s x h)

theorem Canonical.foldl_fst {α β : Type} {g : State × β → α → State × β} {l : List α} {s : State × β} (h : Canonical s.1)
    (hg : ∀ p x, Canonical p.1 → Canonical (g p x).1) : Canonical (l.foldl g s).1 := by
  induction l generalizing s with
  | nil => exact h
  | cons x r ih => exact ih (hg s x h)

theorem Canonical.foldl_snd {α β : Type} {g : β × State → α → β × State} {l : List α} {s : β × State} (h : Canonical s.2)
    (hg : ∀ p x, Canonical p.2 → Canonical (g p x).2) : Canonical (l.foldl g s).2 := by
  induction l generalizing s with
  | nil => exact h
  | cons x r ih => exact ih (hg s x h)

theorem Res.Canonical.next {t : State} (h : Machine.Canonical t) : Res.Canonical (.next t) := fun _ e => by
  cases e; exact h

/-! ### The primitive updates -/

theorem State.setReg_canonical (s : State) (a : Nat) (v : Word) (h : Canonical s) : Canonical (s.setReg a v) :=
  ⟨h.mem, sparseWf_set a v h.regs, h.staged⟩

theorem State.setStaged_canonical (s : State) (a : Nat) (v : Word) (h : Canonical s) : Canonical (s.setStaged a v) :=
  ⟨h.mem, h.regs, sparseWf_set a v h.staged⟩

theorem wf_memSet (m : List Host.Cell) (k : Nat) (b : Byte) (h : Memory.wf m = true) : Memory.wf (memSet m k b) = true :=
  sparseWf_set (dflt := fun _ => (0 : Byte)) k b h

theorem wf_memFold {β : Type} (l : List β) (m : List Host.Cell) (f : List Host.Cell → β → List Host.Cell) (h : Memory.wf m = true)
    (hf : ∀ m x, Memory.wf m = true → Memory.wf (f m x) = true) : Memory.wf (l.foldl f m) = true := by
  induction l generalizing m with
  | nil => exact h
  | cons x r ih => exact ih _ (hf m x h)

theorem State.poke_canonical (s : State) (kb : List (Nat × Byte)) (h : Canonical s) : Canonical (s.poke kb) :=
  ⟨wf_memFold kb s.mem _ h.mem (fun m p hm => wf_memSet m p.1 p.2 hm), h.regs, h.staged⟩

theorem wf_memFilter (m : List Host.Cell) (f : Host.Cell → Bool) (h : Memory.wf m = true) : Memory.wf (m.filter f) = true :=
  sparseWf_filter (dflt := fun _ => (0 : Byte)) f h

theorem State.alive_canonical (s t : State) (h : Canonical s) (ht : Canonical t) : Res.Canonical (s.alive t) := by
  unfold State.alive
  split
  · exact Res.Canonical.next ht
  · exact Res.Canonical.next h

theorem State.whenMain_canonical (s t : State) (h : Canonical s) (ht : Canonical t) : Res.Canonical (s.whenMain t) := by
  unfold State.whenMain
  split
  · exact Res.Canonical.next ht
  · exact Res.Canonical.next h

theorem State.whenServing_canonical (s t : State) (h : Canonical s) (ht : Canonical t) : Res.Canonical (s.whenServing t) := by
  unfold State.whenServing
  split
  · exact Res.Canonical.next ht
  · exact Res.Canonical.next h

end Sys2Proof.Machine
end

