-- ==== Sys2Proof/Laws/Regs.lean ====
section
/-!
SUPPORT. Laws of registers and their fields: what a read gives after a write of the same or another register or field.
-/

namespace Sys2Proof.Machine

open Sys2Proof

/-! ### Bits -/

theorem bitsOf_testBit (n lo w i : Nat) : (bitsOf n lo w).testBit i = (decide (i < w) && n.testBit (lo + i)) := by
  unfold bitsOf
  rw [Nat.testBit_mod_two_pow, Nat.testBit_shiftRight]

theorem bitsOf_lt (n lo w : Nat) : bitsOf n lo w < 2 ^ w := Nat.mod_lt _ (Nat.two_pow_pos w)

/-- A number is its part above a field, the field, and the part below. -/
theorem bitsOf_split (n lo w : Nat) : n = n / 2 ^ (lo + w) * 2 ^ (lo + w) + bitsOf n lo w * 2 ^ lo + n % 2 ^ lo := by
  unfold bitsOf
  rw [Nat.shiftRight_eq_div_pow]
  have h1 : n / 2 ^ lo = n / 2 ^ lo / 2 ^ w * 2 ^ w + n / 2 ^ lo % 2 ^ w := (Nat.div_add_mod' _ _).symm
  have h2 : n = n / 2 ^ lo * 2 ^ lo + n % 2 ^ lo := (Nat.div_add_mod' _ _).symm
  have h3 : n / 2 ^ lo / 2 ^ w = n / 2 ^ (lo + w) := by rw [Nat.div_div_eq_div_mul, ← Nat.pow_add]
  rw [h3] at h1
  calc n = n / 2 ^ lo * 2 ^ lo + n % 2 ^ lo := h2
    _ = (n / 2 ^ (lo + w) * 2 ^ w + n / 2 ^ lo % 2 ^ w) * 2 ^ lo + n % 2 ^ lo := by rw [← h1]
    _ = _ := by rw [Nat.add_mul, Nat.mul_assoc, ← Nat.pow_add, Nat.add_comm w lo]

theorem putBits_eq (n lo w v : Nat) :
    putBits n lo w v = n / 2 ^ (lo + w) * 2 ^ (lo + w) + v % 2 ^ w * 2 ^ lo + n % 2 ^ lo := by
  unfold putBits
  rw [Nat.shiftLeft_eq, Nat.shiftLeft_eq]
  have h := bitsOf_split n lo w
  omega

theorem putBits_testBit (n lo w v i : Nat) :
    (putBits n lo w v).testBit i = if lo ≤ i ∧ i < lo + w then v.testBit (i - lo) else n.testBit i := by
  rw [putBits_eq]
  have hc : n % 2 ^ lo < 2 ^ lo := Nat.mod_lt _ (Nat.two_pow_pos lo)
  have hv : v % 2 ^ w < 2 ^ w := Nat.mod_lt _ (Nat.two_pow_pos w)
  have e : n / 2 ^ (lo + w) * 2 ^ (lo + w) + v % 2 ^ w * 2 ^ lo + n % 2 ^ lo =
      2 ^ lo * (2 ^ w * (n / 2 ^ (lo + w)) + v % 2 ^ w) + n % 2 ^ lo := by
    rw [Nat.pow_add, Nat.mul_add, ← Nat.mul_assoc (2 ^ lo), Nat.mul_comm (n / (2 ^ lo * 2 ^ w)), Nat.mul_comm (2 ^ lo) (v % 2 ^ w)]
  rw [e, Nat.testBit_two_pow_mul_add _ hc, Nat.testBit_two_pow_mul_add _ hv]
  by_cases h1 : i < lo
  · have h2 : ¬ (lo ≤ i ∧ i < lo + w) := by omega
    simp [h1, h2, Nat.testBit_mod_two_pow]
  · by_cases h3 : i - lo < w
    · have h2 : lo ≤ i ∧ i < lo + w := by omega
      simp [h1, h3, h2, Nat.testBit_mod_two_pow]
    · have h2 : ¬ (lo ≤ i ∧ i < lo + w) := by omega
      have h4 : lo + w + (i - lo - w) = i := by omega
      rw [if_neg h1, if_neg h3, if_neg h2, ← Nat.shiftRight_eq_div_pow, Nat.testBit_shiftRight, h4]

theorem bitsOf_putBits (n lo w v : Nat) : bitsOf (putBits n lo w v) lo w = v % 2 ^ w := by
  apply Nat.eq_of_testBit_eq
  intro i
  rw [bitsOf_testBit, putBits_testBit, Nat.testBit_mod_two_pow]
  by_cases h : i < w
  · have h2 : lo ≤ lo + i ∧ lo + i < lo + w := by omega
    simp [h]
  · simp [h]

theorem bitsOf_putBits_apart (n lo w v lo' w' : Nat) (h : lo' + w' ≤ lo ∨ lo + w ≤ lo') :
    bitsOf (putBits n lo w v) lo' w' = bitsOf n lo' w' := by
  apply Nat.eq_of_testBit_eq
  intro i
  rw [bitsOf_testBit, bitsOf_testBit, putBits_testBit]
  by_cases hi : i < w'
  · have h2 : ¬ (lo ≤ lo' + i ∧ lo' + i < lo + w) := by omega
    simp [hi, h2]
  · simp [hi]

/-! ### Fields -/

/-- A field lies in a word. -/
abbrev Field.fits (f : Field) : Prop := f.lo + f.width ≤ 64

theorem Field.get_lt (f : Field) (w : Word) : f.get w < 2 ^ f.width := bitsOf_lt _ _ _

theorem bitsOf_mod64 (n lo w : Nat) (h : lo + w ≤ 64) : bitsOf (n % 2 ^ 64) lo w = bitsOf n lo w := by
  apply Nat.eq_of_testBit_eq
  intro i
  rw [bitsOf_testBit, bitsOf_testBit, Nat.testBit_mod_two_pow]
  by_cases hi : i < w
  · have : lo + i < 64 := by omega
    simp [hi, this]
  · simp [hi]

theorem Field.get_put (f : Field) (w : Word) (v : Nat) (h : f.fits) : f.get (f.put w v) = v % 2 ^ f.width := by
  unfold Field.get Field.put
  rw [BitVec.toNat_ofNat, bitsOf_mod64 _ _ _ h, bitsOf_putBits]

theorem Field.get_put_apart (f g : Field) (w : Word) (v : Nat) (hg : g.fits)
    (h : g.lo + g.width ≤ f.lo ∨ f.lo + f.width ≤ g.lo) : g.get (f.put w v) = g.get w := by
  unfold Field.get Field.put
  rw [BitVec.toNat_ofNat, bitsOf_mod64 _ _ _ hg, bitsOf_putBits_apart _ _ _ _ _ _ h]

/-! ### Registers -/

@[simp] theorem State.reg_setReg_same (s : State) (a : Nat) (v : Word) : (s.setReg a v).reg a = v :=
  sparseGet_set_same _ _ _ _

theorem State.reg_setReg_other (s : State) (a b : Nat) (v : Word) (h : a ≠ b) : (s.setReg a v).reg b = s.reg b :=
  sparseGet_set_other _ h _ _ _

theorem State.fld_setFld_same (s : State) (a : Nat) (f : Field) (v : Nat) (h : f.fits) (hv : v < 2 ^ f.width) :
    (s.setFld a f v).fld a f = v := by
  unfold State.fld State.setFld
  rw [State.reg_setReg_same, Field.get_put f _ _ h, Nat.mod_eq_of_lt hv]

theorem State.fld_setFld_apart (s : State) (a : Nat) (f g : Field) (v : Nat) (hg : g.fits)
    (h : g.lo + g.width ≤ f.lo ∨ f.lo + f.width ≤ g.lo) : (s.setFld a f v).fld a g = s.fld a g := by
  unfold State.fld State.setFld
  rw [State.reg_setReg_same, Field.get_put_apart f g _ _ hg h]

theorem State.reg_setFld_other (s : State) (a b : Nat) (f : Field) (v : Nat) (h : a ≠ b) :
    (s.setFld a f v).reg b = s.reg b := State.reg_setReg_other _ _ _ _ h

theorem State.fld_setFld_other (s : State) (a b : Nat) (f g : Field) (v : Nat) (h : a ≠ b) :
    (s.setFld a f v).fld b g = s.fld b g := by
  unfold State.fld
  rw [State.reg_setFld_other _ _ _ _ _ h]

theorem State.fld_setReg_other (s : State) (a b : Nat) (g : Field) (v : Word) (h : a ≠ b) :
    (s.setReg a v).fld b g = s.fld b g := by
  unfold State.fld
  rw [State.reg_setReg_other _ _ _ _ h]

theorem State.reg_count_other (s : State) (a b : Nat) (f : Field) (n : Nat) (h : a ≠ b) :
    (s.count a f n).reg b = s.reg b := State.reg_setFld_other _ _ _ _ _ h

theorem State.fld_count_other (s : State) (a b : Nat) (f g : Field) (n : Nat) (h : a ≠ b) :
    (s.count a f n).fld b g = s.fld b g := State.fld_setFld_other _ _ _ _ _ _ h

/-- A saturating counter: the sum, or the largest value. -/
theorem State.fld_count_same (s : State) (a : Nat) (f : Field) (n : Nat) (h : f.fits) :
    (s.count a f n).fld a f = min (s.fld a f + n) (2 ^ f.width - 1) := by
  unfold State.count
  apply State.fld_setFld_same _ _ _ _ h
  have := Nat.two_pow_pos f.width
  omega

theorem State.fld_countWrap_same (s : State) (a : Nat) (f : Field) (n : Nat) (h : f.fits) :
    (s.countWrap a f n).fld a f = (s.fld a f + n) % 2 ^ f.width := by
  unfold State.countWrap
  exact State.fld_setFld_same _ _ _ _ h (Nat.mod_lt _ (Nat.two_pow_pos _))

end Sys2Proof.Machine
end

