-- ==== Sys2Proof/Laws/State.lean ====
section
/-!
SUPPORT. What each elementary update of the state leaves alone: one lemma per field per update.
-/

namespace Sys2Proof.Machine

open Sys2Proof

/-! ### setReg -/

@[simp] theorem State.setReg_pending (s : State) (a : Nat) (v : Word) : (s.setReg a v).pending = s.pending := rfl
@[simp] theorem State.setReg_powered (s : State) (a : Nat) (v : Word) : (s.setReg a v).powered = s.powered := rfl
@[simp] theorem State.setReg_mainGood (s : State) (a : Nat) (v : Word) : (s.setReg a v).mainGood = s.mainGood := rfl
@[simp] theorem State.setReg_strapValid (s : State) (a : Nat) (v : Word) : (s.setReg a v).strapValid = s.strapValid := rfl
@[simp] theorem State.setReg_strapNode (s : State) (a : Nat) (v : Word) : (s.setReg a v).strapNode = s.strapNode := rfl
@[simp] theorem State.setReg_strapSlot (s : State) (a : Nat) (v : Word) : (s.setReg a v).strapSlot = s.strapSlot := rfl
@[simp] theorem State.setReg_lidPins (s : State) (a : Nat) (v : Word) : (s.setReg a v).lidPins = s.lidPins := rfl
@[simp] theorem State.setReg_sbStrap (s : State) (a : Nat) (v : Word) : (s.setReg a v).sbStrap = s.sbStrap := rfl
@[simp] theorem State.setReg_now (s : State) (a : Nat) (v : Word) : (s.setReg a v).now = s.now := rfl
@[simp] theorem State.setReg_hubAc (s : State) (a : Nat) (v : Word) : (s.setReg a v).hubAc = s.hubAc := rfl
@[simp] theorem State.setReg_staged (s : State) (a : Nat) (v : Word) : (s.setReg a v).staged = s.staged := rfl
@[simp] theorem State.setReg_mem (s : State) (a : Nat) (v : Word) : (s.setReg a v).mem = s.mem := rfl
@[simp] theorem State.setReg_altered (s : State) (a : Nat) (v : Word) : (s.setReg a v).altered = s.altered := rfl
@[simp] theorem State.setReg_ceSeen (s : State) (a : Nat) (v : Word) : (s.setReg a v).ceSeen = s.ceSeen := rfl
@[simp] theorem State.setReg_held (s : State) (a : Nat) (v : Word) : (s.setReg a v).held = s.held := rfl
@[simp] theorem State.setReg_tracker (s : State) (a : Nat) (v : Word) : (s.setReg a v).tracker = s.tracker := rfl
@[simp] theorem State.setReg_queues (s : State) (a : Nat) (v : Word) : (s.setReg a v).queues = s.queues := rfl
@[simp] theorem State.setReg_cmds (s : State) (a : Nat) (v : Word) : (s.setReg a v).cmds = s.cmds := rfl
@[simp] theorem State.setReg_semWaiters (s : State) (a : Nat) (v : Word) : (s.setReg a v).semWaiters = s.semWaiters := rfl
@[simp] theorem State.setReg_lockWaiters (s : State) (a : Nat) (v : Word) : (s.setReg a v).lockWaiters = s.lockWaiters := rfl
@[simp] theorem State.setReg_arbs (s : State) (a : Nat) (v : Word) : (s.setReg a v).arbs = s.arbs := rfl
@[simp] theorem State.setReg_applies (s : State) (a : Nat) (v : Word) : (s.setReg a v).applies = s.applies := rfl
@[simp] theorem State.setReg_ceIndex (s : State) (a : Nat) (v : Word) : (s.setReg a v).ceIndex = s.ceIndex := rfl
@[simp] theorem State.setReg_ceCount (s : State) (a : Nat) (v : Word) : (s.setReg a v).ceCount = s.ceCount := rfl
@[simp] theorem State.setReg_lfsr (s : State) (a : Nat) (v : Word) : (s.setReg a v).lfsr = s.lfsr := rfl
@[simp] theorem State.setReg_power (s : State) (a : Nat) (v : Word) : (s.setReg a v).power = s.power := rfl
@[simp] theorem State.setReg_events (s : State) (a : Nat) (v : Word) : (s.setReg a v).events = s.events := rfl
@[simp] theorem State.setReg_eventSeq (s : State) (a : Nat) (v : Word) : (s.setReg a v).eventSeq = s.eventSeq := rfl
@[simp] theorem State.setReg_eventLost (s : State) (a : Nat) (v : Word) : (s.setReg a v).eventLost = s.eventLost := rfl
@[simp] theorem State.setReg_draws (s : State) (a : Nat) (v : Word) : (s.setReg a v).draws = s.draws := rfl
@[simp] theorem State.setReg_out (s : State) (a : Nat) (v : Word) : (s.setReg a v).out = s.out := rfl
@[simp] theorem State.setReg_lifeLimit (s : State) (a : Nat) (v : Word) : (s.setReg a v).lifeLimit = s.lifeLimit := rfl
@[simp] theorem State.setReg_members (s : State) (a : Nat) (v : Word) : (s.setReg a v).members = s.members := rfl
@[simp] theorem State.setReg_links (s : State) (a : Nat) (v : Word) : (s.setReg a v).links = s.links := rfl
@[simp] theorem State.setReg_fabric (s : State) (a : Nat) (v : Word) : (s.setReg a v).fabric = s.fabric := rfl
@[simp] theorem State.setReg_creditHolds (s : State) (a : Nat) (v : Word) : (s.setReg a v).creditHolds = s.creditHolds := rfl
@[simp] theorem State.setReg_heldSignals (s : State) (a : Nat) (v : Word) : (s.setReg a v).heldSignals = s.heldSignals := rfl
@[simp] theorem State.setReg_lent (s : State) (a : Nat) (v : Word) : (s.setReg a v).lent = s.lent := rfl
@[simp] theorem State.setReg_imageUp (s : State) (a : Nat) (v : Word) : (s.setReg a v).imageUp = s.imageUp := rfl
@[simp] theorem State.setReg_resetHolds (s : State) (a : Nat) (v : Word) : (s.setReg a v).resetHolds = s.resetHolds := rfl
@[simp] theorem State.setReg_warmRun (s : State) (a : Nat) (v : Word) : (s.setReg a v).warmRun = s.warmRun := rfl
@[simp] theorem State.setReg_captured (s : State) (a : Nat) (v : Word) : (s.setReg a v).captured = s.captured := rfl
@[simp] theorem State.setReg_pendingVeto (s : State) (a : Nat) (v : Word) : (s.setReg a v).pendingVeto = s.pendingVeto := rfl
@[simp] theorem State.setReg_engResets (s : State) (a : Nat) (v : Word) : (s.setReg a v).engResets = s.engResets := rfl
@[simp] theorem State.setReg_snap (s : State) (a : Nat) (v : Word) : (s.setReg a v).snap = s.snap := rfl
@[simp] theorem State.setReg_banks (s : State) (a : Nat) (v : Word) : (s.setReg a v).banks = s.banks := rfl
@[simp] theorem State.setReg_accs (s : State) (a : Nat) (v : Word) : (s.setReg a v).accs = s.accs := rfl
@[simp] theorem State.setReg_gates (s : State) (a : Nat) (v : Word) : (s.setReg a v).gates = s.gates := rfl
@[simp] theorem State.setReg_probs (s : State) (a : Nat) (v : Word) : (s.setReg a v).probs = s.probs := rfl
@[simp] theorem State.setReg_replayIds (s : State) (a : Nat) (v : Word) : (s.setReg a v).replayIds = s.replayIds := rfl
@[simp] theorem State.setReg_rings (s : State) (a : Nat) (v : Word) : (s.setReg a v).rings = s.rings := rfl
@[simp] theorem State.setReg_slivers (s : State) (a : Nat) (v : Word) : (s.setReg a v).slivers = s.slivers := rfl
@[simp] theorem State.setReg_brushRuns (s : State) (a : Nat) (v : Word) : (s.setReg a v).brushRuns = s.brushRuns := rfl
@[simp] theorem State.setReg_latches (s : State) (a : Nat) (v : Word) : (s.setReg a v).latches = s.latches := rfl
@[simp] theorem State.setReg_lentSince (s : State) (a : Nat) (v : Word) : (s.setReg a v).lentSince = s.lentSince := rfl
@[simp] theorem State.setReg_nmaUpdates (s : State) (a : Nat) (v : Word) : (s.setReg a v).nmaUpdates = s.nmaUpdates := rfl
@[simp] theorem State.setReg_groups (s : State) (a : Nat) (v : Word) : (s.setReg a v).groups = s.groups := rfl
@[simp] theorem State.setReg_colls (s : State) (a : Nat) (v : Word) : (s.setReg a v).colls = s.colls := rfl
@[simp] theorem State.setReg_redRx (s : State) (a : Nat) (v : Word) : (s.setReg a v).redRx = s.redRx := rfl
@[simp] theorem State.setReg_redTx (s : State) (a : Nat) (v : Word) : (s.setReg a v).redTx = s.redTx := rfl
@[simp] theorem State.setReg_retracted (s : State) (a : Nat) (v : Word) : (s.setReg a v).retracted = s.retracted := rfl
@[simp] theorem State.setReg_stepDigests (s : State) (a : Nat) (v : Word) : (s.setReg a v).stepDigests = s.stepDigests := rfl
@[simp] theorem State.setReg_closes (s : State) (a : Nat) (v : Word) : (s.setReg a v).closes = s.closes := rfl
@[simp] theorem State.setReg_qps (s : State) (a : Nat) (v : Word) : (s.setReg a v).qps = s.qps := rfl
@[simp] theorem State.setReg_sessions (s : State) (a : Nat) (v : Word) : (s.setReg a v).sessions = s.sessions := rfl
@[simp] theorem State.setReg_bells (s : State) (a : Nat) (v : Word) : (s.setReg a v).bells = s.bells := rfl
@[simp] theorem State.setReg_keys (s : State) (a : Nat) (v : Word) : (s.setReg a v).keys = s.keys := rfl
@[simp] theorem State.setReg_sensors (s : State) (a : Nat) (v : Word) : (s.setReg a v).sensors = s.sensors := rfl
@[simp] theorem State.setReg_egSent (s : State) (a : Nat) (v : Word) : (s.setReg a v).egSent = s.egSent := rfl
@[simp] theorem State.setReg_replayBuf (s : State) (a : Nat) (v : Word) : (s.setReg a v).replayBuf = s.replayBuf := rfl
@[simp] theorem State.setReg_pldmTid (s : State) (a : Nat) (v : Word) : (s.setReg a v).pldmTid = s.pldmTid := rfl
@[simp] theorem State.setReg_signReqs (s : State) (a : Nat) (v : Word) : (s.setReg a v).signReqs = s.signReqs := rfl
@[simp] theorem State.setReg_challenge (s : State) (a : Nat) (v : Word) : (s.setReg a v).challenge = s.challenge := rfl
@[simp] theorem State.setReg_debugExpiry (s : State) (a : Nat) (v : Word) : (s.setReg a v).debugExpiry = s.debugExpiry := rfl
@[simp] theorem State.setReg_flash (s : State) (a : Nat) (v : Word) : (s.setReg a v).flash = s.flash := rfl
@[simp] theorem State.setReg_incLimit (s : State) (a : Nat) (v : Word) : (s.setReg a v).incLimit = s.incLimit := rfl
@[simp] theorem State.setReg_update (s : State) (a : Nat) (v : Word) : (s.setReg a v).update = s.update := rfl
@[simp] theorem State.setReg_recov (s : State) (a : Nat) (v : Word) : (s.setReg a v).recov = s.recov := rfl
@[simp] theorem State.setReg_pend (s : State) (a : Nat) (v : Word) : (s.setReg a v).pend = s.pend := rfl

/-! ### setStaged -/

@[simp] theorem State.setStaged_pending (s : State) (a : Nat) (v : Word) : (s.setStaged a v).pending = s.pending := rfl
@[simp] theorem State.setStaged_powered (s : State) (a : Nat) (v : Word) : (s.setStaged a v).powered = s.powered := rfl
@[simp] theorem State.setStaged_mainGood (s : State) (a : Nat) (v : Word) : (s.setStaged a v).mainGood = s.mainGood := rfl
@[simp] theorem State.setStaged_strapValid (s : State) (a : Nat) (v : Word) : (s.setStaged a v).strapValid = s.strapValid := rfl
@[simp] theorem State.setStaged_strapNode (s : State) (a : Nat) (v : Word) : (s.setStaged a v).strapNode = s.strapNode := rfl
@[simp] theorem State.setStaged_strapSlot (s : State) (a : Nat) (v : Word) : (s.setStaged a v).strapSlot = s.strapSlot := rfl
@[simp] theorem State.setStaged_lidPins (s : State) (a : Nat) (v : Word) : (s.setStaged a v).lidPins = s.lidPins := rfl
@[simp] theorem State.setStaged_sbStrap (s : State) (a : Nat) (v : Word) : (s.setStaged a v).sbStrap = s.sbStrap := rfl
@[simp] theorem State.setStaged_now (s : State) (a : Nat) (v : Word) : (s.setStaged a v).now = s.now := rfl
@[simp] theorem State.setStaged_hubAc (s : State) (a : Nat) (v : Word) : (s.setStaged a v).hubAc = s.hubAc := rfl
@[simp] theorem State.setStaged_regs (s : State) (a : Nat) (v : Word) : (s.setStaged a v).regs = s.regs := rfl
@[simp] theorem State.setStaged_mem (s : State) (a : Nat) (v : Word) : (s.setStaged a v).mem = s.mem := rfl
@[simp] theorem State.setStaged_altered (s : State) (a : Nat) (v : Word) : (s.setStaged a v).altered = s.altered := rfl
@[simp] theorem State.setStaged_ceSeen (s : State) (a : Nat) (v : Word) : (s.setStaged a v).ceSeen = s.ceSeen := rfl
@[simp] theorem State.setStaged_held (s : State) (a : Nat) (v : Word) : (s.setStaged a v).held = s.held := rfl
@[simp] theorem State.setStaged_tracker (s : State) (a : Nat) (v : Word) : (s.setStaged a v).tracker = s.tracker := rfl
@[simp] theorem State.setStaged_queues (s : State) (a : Nat) (v : Word) : (s.setStaged a v).queues = s.queues := rfl
@[simp] theorem State.setStaged_cmds (s : State) (a : Nat) (v : Word) : (s.setStaged a v).cmds = s.cmds := rfl
@[simp] theorem State.setStaged_semWaiters (s : State) (a : Nat) (v : Word) : (s.setStaged a v).semWaiters = s.semWaiters := rfl
@[simp] theorem State.setStaged_lockWaiters (s : State) (a : Nat) (v : Word) : (s.setStaged a v).lockWaiters = s.lockWaiters := rfl
@[simp] theorem State.setStaged_arbs (s : State) (a : Nat) (v : Word) : (s.setStaged a v).arbs = s.arbs := rfl
@[simp] theorem State.setStaged_applies (s : State) (a : Nat) (v : Word) : (s.setStaged a v).applies = s.applies := rfl
@[simp] theorem State.setStaged_ceIndex (s : State) (a : Nat) (v : Word) : (s.setStaged a v).ceIndex = s.ceIndex := rfl
@[simp] theorem State.setStaged_ceCount (s : State) (a : Nat) (v : Word) : (s.setStaged a v).ceCount = s.ceCount := rfl
@[simp] theorem State.setStaged_lfsr (s : State) (a : Nat) (v : Word) : (s.setStaged a v).lfsr = s.lfsr := rfl
@[simp] theorem State.setStaged_power (s : State) (a : Nat) (v : Word) : (s.setStaged a v).power = s.power := rfl
@[simp] theorem State.setStaged_events (s : State) (a : Nat) (v : Word) : (s.setStaged a v).events = s.events := rfl
@[simp] theorem State.setStaged_eventSeq (s : State) (a : Nat) (v : Word) : (s.setStaged a v).eventSeq = s.eventSeq := rfl
@[simp] theorem State.setStaged_eventLost (s : State) (a : Nat) (v : Word) : (s.setStaged a v).eventLost = s.eventLost := rfl
@[simp] theorem State.setStaged_draws (s : State) (a : Nat) (v : Word) : (s.setStaged a v).draws = s.draws := rfl
@[simp] theorem State.setStaged_out (s : State) (a : Nat) (v : Word) : (s.setStaged a v).out = s.out := rfl
@[simp] theorem State.setStaged_lifeLimit (s : State) (a : Nat) (v : Word) : (s.setStaged a v).lifeLimit = s.lifeLimit := rfl
@[simp] theorem State.setStaged_members (s : State) (a : Nat) (v : Word) : (s.setStaged a v).members = s.members := rfl
@[simp] theorem State.setStaged_links (s : State) (a : Nat) (v : Word) : (s.setStaged a v).links = s.links := rfl
@[simp] theorem State.setStaged_fabric (s : State) (a : Nat) (v : Word) : (s.setStaged a v).fabric = s.fabric := rfl
@[simp] theorem State.setStaged_creditHolds (s : State) (a : Nat) (v : Word) : (s.setStaged a v).creditHolds = s.creditHolds := rfl
@[simp] theorem State.setStaged_heldSignals (s : State) (a : Nat) (v : Word) : (s.setStaged a v).heldSignals = s.heldSignals := rfl
@[simp] theorem State.setStaged_lent (s : State) (a : Nat) (v : Word) : (s.setStaged a v).lent = s.lent := rfl
@[simp] theorem State.setStaged_imageUp (s : State) (a : Nat) (v : Word) : (s.setStaged a v).imageUp = s.imageUp := rfl
@[simp] theorem State.setStaged_resetHolds (s : State) (a : Nat) (v : Word) : (s.setStaged a v).resetHolds = s.resetHolds := rfl
@[simp] theorem State.setStaged_warmRun (s : State) (a : Nat) (v : Word) : (s.setStaged a v).warmRun = s.warmRun := rfl
@[simp] theorem State.setStaged_captured (s : State) (a : Nat) (v : Word) : (s.setStaged a v).captured = s.captured := rfl
@[simp] theorem State.setStaged_pendingVeto (s : State) (a : Nat) (v : Word) : (s.setStaged a v).pendingVeto = s.pendingVeto := rfl
@[simp] theorem State.setStaged_engResets (s : State) (a : Nat) (v : Word) : (s.setStaged a v).engResets = s.engResets := rfl
@[simp] theorem State.setStaged_snap (s : State) (a : Nat) (v : Word) : (s.setStaged a v).snap = s.snap := rfl
@[simp] theorem State.setStaged_banks (s : State) (a : Nat) (v : Word) : (s.setStaged a v).banks = s.banks := rfl
@[simp] theorem State.setStaged_accs (s : State) (a : Nat) (v : Word) : (s.setStaged a v).accs = s.accs := rfl
@[simp] theorem State.setStaged_gates (s : State) (a : Nat) (v : Word) : (s.setStaged a v).gates = s.gates := rfl
@[simp] theorem State.setStaged_probs (s : State) (a : Nat) (v : Word) : (s.setStaged a v).probs = s.probs := rfl
@[simp] theorem State.setStaged_replayIds (s : State) (a : Nat) (v : Word) : (s.setStaged a v).replayIds = s.replayIds := rfl
@[simp] theorem State.setStaged_rings (s : State) (a : Nat) (v : Word) : (s.setStaged a v).rings = s.rings := rfl
@[simp] theorem State.setStaged_slivers (s : State) (a : Nat) (v : Word) : (s.setStaged a v).slivers = s.slivers := rfl
@[simp] theorem State.setStaged_brushRuns (s : State) (a : Nat) (v : Word) : (s.setStaged a v).brushRuns = s.brushRuns := rfl
@[simp] theorem State.setStaged_latches (s : State) (a : Nat) (v : Word) : (s.setStaged a v).latches = s.latches := rfl
@[simp] theorem State.setStaged_lentSince (s : State) (a : Nat) (v : Word) : (s.setStaged a v).lentSince = s.lentSince := rfl
@[simp] theorem State.setStaged_nmaUpdates (s : State) (a : Nat) (v : Word) : (s.setStaged a v).nmaUpdates = s.nmaUpdates := rfl
@[simp] theorem State.setStaged_groups (s : State) (a : Nat) (v : Word) : (s.setStaged a v).groups = s.groups := rfl
@[simp] theorem State.setStaged_colls (s : State) (a : Nat) (v : Word) : (s.setStaged a v).colls = s.colls := rfl
@[simp] theorem State.setStaged_redRx (s : State) (a : Nat) (v : Word) : (s.setStaged a v).redRx = s.redRx := rfl
@[simp] theorem State.setStaged_redTx (s : State) (a : Nat) (v : Word) : (s.setStaged a v).redTx = s.redTx := rfl
@[simp] theorem State.setStaged_retracted (s : State) (a : Nat) (v : Word) : (s.setStaged a v).retracted = s.retracted := rfl
@[simp] theorem State.setStaged_stepDigests (s : State) (a : Nat) (v : Word) : (s.setStaged a v).stepDigests = s.stepDigests := rfl
@[simp] theorem State.setStaged_closes (s : State) (a : Nat) (v : Word) : (s.setStaged a v).closes = s.closes := rfl
@[simp] theorem State.setStaged_qps (s : State) (a : Nat) (v : Word) : (s.setStaged a v).qps = s.qps := rfl
@[simp] theorem State.setStaged_sessions (s : State) (a : Nat) (v : Word) : (s.setStaged a v).sessions = s.sessions := rfl
@[simp] theorem State.setStaged_bells (s : State) (a : Nat) (v : Word) : (s.setStaged a v).bells = s.bells := rfl
@[simp] theorem State.setStaged_keys (s : State) (a : Nat) (v : Word) : (s.setStaged a v).keys = s.keys := rfl
@[simp] theorem State.setStaged_sensors (s : State) (a : Nat) (v : Word) : (s.setStaged a v).sensors = s.sensors := rfl
@[simp] theorem State.setStaged_egSent (s : State) (a : Nat) (v : Word) : (s.setStaged a v).egSent = s.egSent := rfl
@[simp] theorem State.setStaged_replayBuf (s : State) (a : Nat) (v : Word) : (s.setStaged a v).replayBuf = s.replayBuf := rfl
@[simp] theorem State.setStaged_pldmTid (s : State) (a : Nat) (v : Word) : (s.setStaged a v).pldmTid = s.pldmTid := rfl
@[simp] theorem State.setStaged_signReqs (s : State) (a : Nat) (v : Word) : (s.setStaged a v).signReqs = s.signReqs := rfl
@[simp] theorem State.setStaged_challenge (s : State) (a : Nat) (v : Word) : (s.setStaged a v).challenge = s.challenge := rfl
@[simp] theorem State.setStaged_debugExpiry (s : State) (a : Nat) (v : Word) : (s.setStaged a v).debugExpiry = s.debugExpiry := rfl
@[simp] theorem State.setStaged_flash (s : State) (a : Nat) (v : Word) : (s.setStaged a v).flash = s.flash := rfl
@[simp] theorem State.setStaged_incLimit (s : State) (a : Nat) (v : Word) : (s.setStaged a v).incLimit = s.incLimit := rfl
@[simp] theorem State.setStaged_update (s : State) (a : Nat) (v : Word) : (s.setStaged a v).update = s.update := rfl
@[simp] theorem State.setStaged_recov (s : State) (a : Nat) (v : Word) : (s.setStaged a v).recov = s.recov := rfl
@[simp] theorem State.setStaged_pend (s : State) (a : Nat) (v : Word) : (s.setStaged a v).pend = s.pend := rfl

/-! ### emit -/

@[simp] theorem State.emit_pending (s : State) (o : Out) : (s.emit o).pending = s.pending := rfl
@[simp] theorem State.emit_powered (s : State) (o : Out) : (s.emit o).powered = s.powered := rfl
@[simp] theorem State.emit_mainGood (s : State) (o : Out) : (s.emit o).mainGood = s.mainGood := rfl
@[simp] theorem State.emit_strapValid (s : State) (o : Out) : (s.emit o).strapValid = s.strapValid := rfl
@[simp] theorem State.emit_strapNode (s : State) (o : Out) : (s.emit o).strapNode = s.strapNode := rfl
@[simp] theorem State.emit_strapSlot (s : State) (o : Out) : (s.emit o).strapSlot = s.strapSlot := rfl
@[simp] theorem State.emit_lidPins (s : State) (o : Out) : (s.emit o).lidPins = s.lidPins := rfl
@[simp] theorem State.emit_sbStrap (s : State) (o : Out) : (s.emit o).sbStrap = s.sbStrap := rfl
@[simp] theorem State.emit_now (s : State) (o : Out) : (s.emit o).now = s.now := rfl
@[simp] theorem State.emit_hubAc (s : State) (o : Out) : (s.emit o).hubAc = s.hubAc := rfl
@[simp] theorem State.emit_regs (s : State) (o : Out) : (s.emit o).regs = s.regs := rfl
@[simp] theorem State.emit_staged (s : State) (o : Out) : (s.emit o).staged = s.staged := rfl
@[simp] theorem State.emit_mem (s : State) (o : Out) : (s.emit o).mem = s.mem := rfl
@[simp] theorem State.emit_altered (s : State) (o : Out) : (s.emit o).altered = s.altered := rfl
@[simp] theorem State.emit_ceSeen (s : State) (o : Out) : (s.emit o).ceSeen = s.ceSeen := rfl
@[simp] theorem State.emit_held (s : State) (o : Out) : (s.emit o).held = s.held := rfl
@[simp] theorem State.emit_tracker (s : State) (o : Out) : (s.emit o).tracker = s.tracker := rfl
@[simp] theorem State.emit_queues (s : State) (o : Out) : (s.emit o).queues = s.queues := rfl
@[simp] theorem State.emit_cmds (s : State) (o : Out) : (s.emit o).cmds = s.cmds := rfl
@[simp] theorem State.emit_semWaiters (s : State) (o : Out) : (s.emit o).semWaiters = s.semWaiters := rfl
@[simp] theorem State.emit_lockWaiters (s : State) (o : Out) : (s.emit o).lockWaiters = s.lockWaiters := rfl
@[simp] theorem State.emit_arbs (s : State) (o : Out) : (s.emit o).arbs = s.arbs := rfl
@[simp] theorem State.emit_applies (s : State) (o : Out) : (s.emit o).applies = s.applies := rfl
@[simp] theorem State.emit_ceIndex (s : State) (o : Out) : (s.emit o).ceIndex = s.ceIndex := rfl
@[simp] theorem State.emit_ceCount (s : State) (o : Out) : (s.emit o).ceCount = s.ceCount := rfl
@[simp] theorem State.emit_lfsr (s : State) (o : Out) : (s.emit o).lfsr = s.lfsr := rfl
@[simp] theorem State.emit_power (s : State) (o : Out) : (s.emit o).power = s.power := rfl
@[simp] theorem State.emit_events (s : State) (o : Out) : (s.emit o).events = s.events := rfl
@[simp] theorem State.emit_eventSeq (s : State) (o : Out) : (s.emit o).eventSeq = s.eventSeq := rfl
@[simp] theorem State.emit_eventLost (s : State) (o : Out) : (s.emit o).eventLost = s.eventLost := rfl
@[simp] theorem State.emit_draws (s : State) (o : Out) : (s.emit o).draws = s.draws := rfl
@[simp] theorem State.emit_lifeLimit (s : State) (o : Out) : (s.emit o).lifeLimit = s.lifeLimit := rfl
@[simp] theorem State.emit_members (s : State) (o : Out) : (s.emit o).members = s.members := rfl
@[simp] theorem State.emit_links (s : State) (o : Out) : (s.emit o).links = s.links := rfl
@[simp] theorem State.emit_fabric (s : State) (o : Out) : (s.emit o).fabric = s.fabric := rfl
@[simp] theorem State.emit_creditHolds (s : State) (o : Out) : (s.emit o).creditHolds = s.creditHolds := rfl
@[simp] theorem State.emit_heldSignals (s : State) (o : Out) : (s.emit o).heldSignals = s.heldSignals := rfl
@[simp] theorem State.emit_lent (s : State) (o : Out) : (s.emit o).lent = s.lent := rfl
@[simp] theorem State.emit_imageUp (s : State) (o : Out) : (s.emit o).imageUp = s.imageUp := rfl
@[simp] theorem State.emit_resetHolds (s : State) (o : Out) : (s.emit o).resetHolds = s.resetHolds := rfl
@[simp] theorem State.emit_warmRun (s : State) (o : Out) : (s.emit o).warmRun = s.warmRun := rfl
@[simp] theorem State.emit_captured (s : State) (o : Out) : (s.emit o).captured = s.captured := rfl
@[simp] theorem State.emit_pendingVeto (s : State) (o : Out) : (s.emit o).pendingVeto = s.pendingVeto := rfl
@[simp] theorem State.emit_engResets (s : State) (o : Out) : (s.emit o).engResets = s.engResets := rfl
@[simp] theorem State.emit_snap (s : State) (o : Out) : (s.emit o).snap = s.snap := rfl
@[simp] theorem State.emit_banks (s : State) (o : Out) : (s.emit o).banks = s.banks := rfl
@[simp] theorem State.emit_accs (s : State) (o : Out) : (s.emit o).accs = s.accs := rfl
@[simp] theorem State.emit_gates (s : State) (o : Out) : (s.emit o).gates = s.gates := rfl
@[simp] theorem State.emit_probs (s : State) (o : Out) : (s.emit o).probs = s.probs := rfl
@[simp] theorem State.emit_replayIds (s : State) (o : Out) : (s.emit o).replayIds = s.replayIds := rfl
@[simp] theorem State.emit_rings (s : State) (o : Out) : (s.emit o).rings = s.rings := rfl
@[simp] theorem State.emit_slivers (s : State) (o : Out) : (s.emit o).slivers = s.slivers := rfl
@[simp] theorem State.emit_brushRuns (s : State) (o : Out) : (s.emit o).brushRuns = s.brushRuns := rfl
@[simp] theorem State.emit_latches (s : State) (o : Out) : (s.emit o).latches = s.latches := rfl
@[simp] theorem State.emit_lentSince (s : State) (o : Out) : (s.emit o).lentSince = s.lentSince := rfl
@[simp] theorem State.emit_nmaUpdates (s : State) (o : Out) : (s.emit o).nmaUpdates = s.nmaUpdates := rfl
@[simp] theorem State.emit_groups (s : State) (o : Out) : (s.emit o).groups = s.groups := rfl
@[simp] theorem State.emit_colls (s : State) (o : Out) : (s.emit o).colls = s.colls := rfl
@[simp] theorem State.emit_redRx (s : State) (o : Out) : (s.emit o).redRx = s.redRx := rfl
@[simp] theorem State.emit_redTx (s : State) (o : Out) : (s.emit o).redTx = s.redTx := rfl
@[simp] theorem State.emit_retracted (s : State) (o : Out) : (s.emit o).retracted = s.retracted := rfl
@[simp] theorem State.emit_stepDigests (s : State) (o : Out) : (s.emit o).stepDigests = s.stepDigests := rfl
@[simp] theorem State.emit_closes (s : State) (o : Out) : (s.emit o).closes = s.closes := rfl
@[simp] theorem State.emit_qps (s : State) (o : Out) : (s.emit o).qps = s.qps := rfl
@[simp] theorem State.emit_sessions (s : State) (o : Out) : (s.emit o).sessions = s.sessions := rfl
@[simp] theorem State.emit_bells (s : State) (o : Out) : (s.emit o).bells = s.bells := rfl
@[simp] theorem State.emit_keys (s : State) (o : Out) : (s.emit o).keys = s.keys := rfl
@[simp] theorem State.emit_sensors (s : State) (o : Out) : (s.emit o).sensors = s.sensors := rfl
@[simp] theorem State.emit_egSent (s : State) (o : Out) : (s.emit o).egSent = s.egSent := rfl
@[simp] theorem State.emit_replayBuf (s : State) (o : Out) : (s.emit o).replayBuf = s.replayBuf := rfl
@[simp] theorem State.emit_pldmTid (s : State) (o : Out) : (s.emit o).pldmTid = s.pldmTid := rfl
@[simp] theorem State.emit_signReqs (s : State) (o : Out) : (s.emit o).signReqs = s.signReqs := rfl
@[simp] theorem State.emit_challenge (s : State) (o : Out) : (s.emit o).challenge = s.challenge := rfl
@[simp] theorem State.emit_debugExpiry (s : State) (o : Out) : (s.emit o).debugExpiry = s.debugExpiry := rfl
@[simp] theorem State.emit_flash (s : State) (o : Out) : (s.emit o).flash = s.flash := rfl
@[simp] theorem State.emit_incLimit (s : State) (o : Out) : (s.emit o).incLimit = s.incLimit := rfl
@[simp] theorem State.emit_update (s : State) (o : Out) : (s.emit o).update = s.update := rfl
@[simp] theorem State.emit_recov (s : State) (o : Out) : (s.emit o).recov = s.recov := rfl
@[simp] theorem State.emit_pend (s : State) (o : Out) : (s.emit o).pend = s.pend := rfl

/-! ### poke -/

@[simp] theorem State.poke_pending (s : State) (l : List (Nat × Byte)) : (s.poke l).pending = s.pending := rfl
@[simp] theorem State.poke_powered (s : State) (l : List (Nat × Byte)) : (s.poke l).powered = s.powered := rfl
@[simp] theorem State.poke_mainGood (s : State) (l : List (Nat × Byte)) : (s.poke l).mainGood = s.mainGood := rfl
@[simp] theorem State.poke_strapValid (s : State) (l : List (Nat × Byte)) : (s.poke l).strapValid = s.strapValid := rfl
@[simp] theorem State.poke_strapNode (s : State) (l : List (Nat × Byte)) : (s.poke l).strapNode = s.strapNode := rfl
@[simp] theorem State.poke_strapSlot (s : State) (l : List (Nat × Byte)) : (s.poke l).strapSlot = s.strapSlot := rfl
@[simp] theorem State.poke_lidPins (s : State) (l : List (Nat × Byte)) : (s.poke l).lidPins = s.lidPins := rfl
@[simp] theorem State.poke_sbStrap (s : State) (l : List (Nat × Byte)) : (s.poke l).sbStrap = s.sbStrap := rfl
@[simp] theorem State.poke_now (s : State) (l : List (Nat × Byte)) : (s.poke l).now = s.now := rfl
@[simp] theorem State.poke_hubAc (s : State) (l : List (Nat × Byte)) : (s.poke l).hubAc = s.hubAc := rfl
@[simp] theorem State.poke_regs (s : State) (l : List (Nat × Byte)) : (s.poke l).regs = s.regs := rfl
@[simp] theorem State.poke_staged (s : State) (l : List (Nat × Byte)) : (s.poke l).staged = s.staged := rfl
@[simp] theorem State.poke_altered (s : State) (l : List (Nat × Byte)) : (s.poke l).altered = s.altered := rfl
@[simp] theorem State.poke_ceSeen (s : State) (l : List (Nat × Byte)) : (s.poke l).ceSeen = s.ceSeen := rfl
@[simp] theorem State.poke_held (s : State) (l : List (Nat × Byte)) : (s.poke l).held = s.held := rfl
@[simp] theorem State.poke_tracker (s : State) (l : List (Nat × Byte)) : (s.poke l).tracker = s.tracker := rfl
@[simp] theorem State.poke_queues (s : State) (l : List (Nat × Byte)) : (s.poke l).queues = s.queues := rfl
@[simp] theorem State.poke_cmds (s : State) (l : List (Nat × Byte)) : (s.poke l).cmds = s.cmds := rfl
@[simp] theorem State.poke_semWaiters (s : State) (l : List (Nat × Byte)) : (s.poke l).semWaiters = s.semWaiters := rfl
@[simp] theorem State.poke_lockWaiters (s : State) (l : List (Nat × Byte)) : (s.poke l).lockWaiters = s.lockWaiters := rfl
@[simp] theorem State.poke_arbs (s : State) (l : List (Nat × Byte)) : (s.poke l).arbs = s.arbs := rfl
@[simp] theorem State.poke_applies (s : State) (l : List (Nat × Byte)) : (s.poke l).applies = s.applies := rfl
@[simp] theorem State.poke_ceIndex (s : State) (l : List (Nat × Byte)) : (s.poke l).ceIndex = s.ceIndex := rfl
@[simp] theorem State.poke_ceCount (s : State) (l : List (Nat × Byte)) : (s.poke l).ceCount = s.ceCount := rfl
@[simp] theorem State.poke_lfsr (s : State) (l : List (Nat × Byte)) : (s.poke l).lfsr = s.lfsr := rfl
@[simp] theorem State.poke_power (s : State) (l : List (Nat × Byte)) : (s.poke l).power = s.power := rfl
@[simp] theorem State.poke_events (s : State) (l : List (Nat × Byte)) : (s.poke l).events = s.events := rfl
@[simp] theorem State.poke_eventSeq (s : State) (l : List (Nat × Byte)) : (s.poke l).eventSeq = s.eventSeq := rfl
@[simp] theorem State.poke_eventLost (s : State) (l : List (Nat × Byte)) : (s.poke l).eventLost = s.eventLost := rfl
@[simp] theorem State.poke_draws (s : State) (l : List (Nat × Byte)) : (s.poke l).draws = s.draws := rfl
@[simp] theorem State.poke_out (s : State) (l : List (Nat × Byte)) : (s.poke l).out = s.out := rfl
@[simp] theorem State.poke_lifeLimit (s : State) (l : List (Nat × Byte)) : (s.poke l).lifeLimit = s.lifeLimit := rfl
@[simp] theorem State.poke_members (s : State) (l : List (Nat × Byte)) : (s.poke l).members = s.members := rfl
@[simp] theorem State.poke_links (s : State) (l : List (Nat × Byte)) : (s.poke l).links = s.links := rfl
@[simp] theorem State.poke_fabric (s : State) (l : List (Nat × Byte)) : (s.poke l).fabric = s.fabric := rfl
@[simp] theorem State.poke_creditHolds (s : State) (l : List (Nat × Byte)) : (s.poke l).creditHolds = s.creditHolds := rfl
@[simp] theorem State.poke_heldSignals (s : State) (l : List (Nat × Byte)) : (s.poke l).heldSignals = s.heldSignals := rfl
@[simp] theorem State.poke_lent (s : State) (l : List (Nat × Byte)) : (s.poke l).lent = s.lent := rfl
@[simp] theorem State.poke_imageUp (s : State) (l : List (Nat × Byte)) : (s.poke l).imageUp = s.imageUp := rfl
@[simp] theorem State.poke_resetHolds (s : State) (l : List (Nat × Byte)) : (s.poke l).resetHolds = s.resetHolds := rfl
@[simp] theorem State.poke_warmRun (s : State) (l : List (Nat × Byte)) : (s.poke l).warmRun = s.warmRun := rfl
@[simp] theorem State.poke_captured (s : State) (l : List (Nat × Byte)) : (s.poke l).captured = s.captured := rfl
@[simp] theorem State.poke_pendingVeto (s : State) (l : List (Nat × Byte)) : (s.poke l).pendingVeto = s.pendingVeto := rfl
@[simp] theorem State.poke_engResets (s : State) (l : List (Nat × Byte)) : (s.poke l).engResets = s.engResets := rfl
@[simp] theorem State.poke_snap (s : State) (l : List (Nat × Byte)) : (s.poke l).snap = s.snap := rfl
@[simp] theorem State.poke_banks (s : State) (l : List (Nat × Byte)) : (s.poke l).banks = s.banks := rfl
@[simp] theorem State.poke_accs (s : State) (l : List (Nat × Byte)) : (s.poke l).accs = s.accs := rfl
@[simp] theorem State.poke_gates (s : State) (l : List (Nat × Byte)) : (s.poke l).gates = s.gates := rfl
@[simp] theorem State.poke_probs (s : State) (l : List (Nat × Byte)) : (s.poke l).probs = s.probs := rfl
@[simp] theorem State.poke_replayIds (s : State) (l : List (Nat × Byte)) : (s.poke l).replayIds = s.replayIds := rfl
@[simp] theorem State.poke_rings (s : State) (l : List (Nat × Byte)) : (s.poke l).rings = s.rings := rfl
@[simp] theorem State.poke_slivers (s : State) (l : List (Nat × Byte)) : (s.poke l).slivers = s.slivers := rfl
@[simp] theorem State.poke_brushRuns (s : State) (l : List (Nat × Byte)) : (s.poke l).brushRuns = s.brushRuns := rfl
@[simp] theorem State.poke_latches (s : State) (l : List (Nat × Byte)) : (s.poke l).latches = s.latches := rfl
@[simp] theorem State.poke_lentSince (s : State) (l : List (Nat × Byte)) : (s.poke l).lentSince = s.lentSince := rfl
@[simp] theorem State.poke_nmaUpdates (s : State) (l : List (Nat × Byte)) : (s.poke l).nmaUpdates = s.nmaUpdates := rfl
@[simp] theorem State.poke_groups (s : State) (l : List (Nat × Byte)) : (s.poke l).groups = s.groups := rfl
@[simp] theorem State.poke_colls (s : State) (l : List (Nat × Byte)) : (s.poke l).colls = s.colls := rfl
@[simp] theorem State.poke_redRx (s : State) (l : List (Nat × Byte)) : (s.poke l).redRx = s.redRx := rfl
@[simp] theorem State.poke_redTx (s : State) (l : List (Nat × Byte)) : (s.poke l).redTx = s.redTx := rfl
@[simp] theorem State.poke_retracted (s : State) (l : List (Nat × Byte)) : (s.poke l).retracted = s.retracted := rfl
@[simp] theorem State.poke_stepDigests (s : State) (l : List (Nat × Byte)) : (s.poke l).stepDigests = s.stepDigests := rfl
@[simp] theorem State.poke_closes (s : State) (l : List (Nat × Byte)) : (s.poke l).closes = s.closes := rfl
@[simp] theorem State.poke_qps (s : State) (l : List (Nat × Byte)) : (s.poke l).qps = s.qps := rfl
@[simp] theorem State.poke_sessions (s : State) (l : List (Nat × Byte)) : (s.poke l).sessions = s.sessions := rfl
@[simp] theorem State.poke_bells (s : State) (l : List (Nat × Byte)) : (s.poke l).bells = s.bells := rfl
@[simp] theorem State.poke_keys (s : State) (l : List (Nat × Byte)) : (s.poke l).keys = s.keys := rfl
@[simp] theorem State.poke_sensors (s : State) (l : List (Nat × Byte)) : (s.poke l).sensors = s.sensors := rfl
@[simp] theorem State.poke_egSent (s : State) (l : List (Nat × Byte)) : (s.poke l).egSent = s.egSent := rfl
@[simp] theorem State.poke_replayBuf (s : State) (l : List (Nat × Byte)) : (s.poke l).replayBuf = s.replayBuf := rfl
@[simp] theorem State.poke_pldmTid (s : State) (l : List (Nat × Byte)) : (s.poke l).pldmTid = s.pldmTid := rfl
@[simp] theorem State.poke_signReqs (s : State) (l : List (Nat × Byte)) : (s.poke l).signReqs = s.signReqs := rfl
@[simp] theorem State.poke_challenge (s : State) (l : List (Nat × Byte)) : (s.poke l).challenge = s.challenge := rfl
@[simp] theorem State.poke_debugExpiry (s : State) (l : List (Nat × Byte)) : (s.poke l).debugExpiry = s.debugExpiry := rfl
@[simp] theorem State.poke_flash (s : State) (l : List (Nat × Byte)) : (s.poke l).flash = s.flash := rfl
@[simp] theorem State.poke_incLimit (s : State) (l : List (Nat × Byte)) : (s.poke l).incLimit = s.incLimit := rfl
@[simp] theorem State.poke_update (s : State) (l : List (Nat × Byte)) : (s.poke l).update = s.update := rfl
@[simp] theorem State.poke_recov (s : State) (l : List (Nat × Byte)) : (s.poke l).recov = s.recov := rfl
@[simp] theorem State.poke_pend (s : State) (l : List (Nat × Byte)) : (s.poke l).pend = s.pend := rfl

/-! ### setFld -/

@[simp] theorem State.setFld_pending (s : State) (a : Nat) (f : Field) (v : Nat) : (s.setFld a f v).pending = s.pending := rfl
@[simp] theorem State.setFld_powered (s : State) (a : Nat) (f : Field) (v : Nat) : (s.setFld a f v).powered = s.powered := rfl
@[simp] theorem State.setFld_mainGood (s : State) (a : Nat) (f : Field) (v : Nat) : (s.setFld a f v).mainGood = s.mainGood := rfl
@[simp] theorem State.setFld_strapValid (s : State) (a : Nat) (f : Field) (v : Nat) : (s.setFld a f v).strapValid = s.strapValid := rfl
@[simp] theorem State.setFld_strapNode (s : State) (a : Nat) (f : Field) (v : Nat) : (s.setFld a f v).strapNode = s.strapNode := rfl
@[simp] theorem State.setFld_strapSlot (s : State) (a : Nat) (f : Field) (v : Nat) : (s.setFld a f v).strapSlot = s.strapSlot := rfl
@[simp] theorem State.setFld_lidPins (s : State) (a : Nat) (f : Field) (v : Nat) : (s.setFld a f v).lidPins = s.lidPins := rfl
@[simp] theorem State.setFld_sbStrap (s : State) (a : Nat) (f : Field) (v : Nat) : (s.setFld a f v).sbStrap = s.sbStrap := rfl
@[simp] theorem State.setFld_now (s : State) (a : Nat) (f : Field) (v : Nat) : (s.setFld a f v).now = s.now := rfl
@[simp] theorem State.setFld_hubAc (s : State) (a : Nat) (f : Field) (v : Nat) : (s.setFld a f v).hubAc = s.hubAc := rfl
@[simp] theorem State.setFld_staged (s : State) (a : Nat) (f : Field) (v : Nat) : (s.setFld a f v).staged = s.staged := rfl
@[simp] theorem State.setFld_mem (s : State) (a : Nat) (f : Field) (v : Nat) : (s.setFld a f v).mem = s.mem := rfl
@[simp] theorem State.setFld_altered (s : State) (a : Nat) (f : Field) (v : Nat) : (s.setFld a f v).altered = s.altered := rfl
@[simp] theorem State.setFld_ceSeen (s : State) (a : Nat) (f : Field) (v : Nat) : (s.setFld a f v).ceSeen = s.ceSeen := rfl
@[simp] theorem State.setFld_held (s : State) (a : Nat) (f : Field) (v : Nat) : (s.setFld a f v).held = s.held := rfl
@[simp] theorem State.setFld_tracker (s : State) (a : Nat) (f : Field) (v : Nat) : (s.setFld a f v).tracker = s.tracker := rfl
@[simp] theorem State.setFld_queues (s : State) (a : Nat) (f : Field) (v : Nat) : (s.setFld a f v).queues = s.queues := rfl
@[simp] theorem State.setFld_cmds (s : State) (a : Nat) (f : Field) (v : Nat) : (s.setFld a f v).cmds = s.cmds := rfl
@[simp] theorem State.setFld_semWaiters (s : State) (a : Nat) (f : Field) (v : Nat) : (s.setFld a f v).semWaiters = s.semWaiters := rfl
@[simp] theorem State.setFld_lockWaiters (s : State) (a : Nat) (f : Field) (v : Nat) : (s.setFld a f v).lockWaiters = s.lockWaiters := rfl
@[simp] theorem State.setFld_arbs (s : State) (a : Nat) (f : Field) (v : Nat) : (s.setFld a f v).arbs = s.arbs := rfl
@[simp] theorem State.setFld_applies (s : State) (a : Nat) (f : Field) (v : Nat) : (s.setFld a f v).applies = s.applies := rfl
@[simp] theorem State.setFld_ceIndex (s : State) (a : Nat) (f : Field) (v : Nat) : (s.setFld a f v).ceIndex = s.ceIndex := rfl
@[simp] theorem State.setFld_ceCount (s : State) (a : Nat) (f : Field) (v : Nat) : (s.setFld a f v).ceCount = s.ceCount := rfl
@[simp] theorem State.setFld_lfsr (s : State) (a : Nat) (f : Field) (v : Nat) : (s.setFld a f v).lfsr = s.lfsr := rfl
@[simp] theorem State.setFld_power (s : State) (a : Nat) (f : Field) (v : Nat) : (s.setFld a f v).power = s.power := rfl
@[simp] theorem State.setFld_events (s : State) (a : Nat) (f : Field) (v : Nat) : (s.setFld a f v).events = s.events := rfl
@[simp] theorem State.setFld_eventSeq (s : State) (a : Nat) (f : Field) (v : Nat) : (s.setFld a f v).eventSeq = s.eventSeq := rfl
@[simp] theorem State.setFld_eventLost (s : State) (a : Nat) (f : Field) (v : Nat) : (s.setFld a f v).eventLost = s.eventLost := rfl
@[simp] theorem State.setFld_draws (s : State) (a : Nat) (f : Field) (v : Nat) : (s.setFld a f v).draws = s.draws := rfl
@[simp] theorem State.setFld_out (s : State) (a : Nat) (f : Field) (v : Nat) : (s.setFld a f v).out = s.out := rfl
@[simp] theorem State.setFld_lifeLimit (s : State) (a : Nat) (f : Field) (v : Nat) : (s.setFld a f v).lifeLimit = s.lifeLimit := rfl
@[simp] theorem State.setFld_members (s : State) (a : Nat) (f : Field) (v : Nat) : (s.setFld a f v).members = s.members := rfl
@[simp] theorem State.setFld_links (s : State) (a : Nat) (f : Field) (v : Nat) : (s.setFld a f v).links = s.links := rfl
@[simp] theorem State.setFld_fabric (s : State) (a : Nat) (f : Field) (v : Nat) : (s.setFld a f v).fabric = s.fabric := rfl
@[simp] theorem State.setFld_creditHolds (s : State) (a : Nat) (f : Field) (v : Nat) : (s.setFld a f v).creditHolds = s.creditHolds := rfl
@[simp] theorem State.setFld_heldSignals (s : State) (a : Nat) (f : Field) (v : Nat) : (s.setFld a f v).heldSignals = s.heldSignals := rfl
@[simp] theorem State.setFld_lent (s : State) (a : Nat) (f : Field) (v : Nat) : (s.setFld a f v).lent = s.lent := rfl
@[simp] theorem State.setFld_imageUp (s : State) (a : Nat) (f : Field) (v : Nat) : (s.setFld a f v).imageUp = s.imageUp := rfl
@[simp] theorem State.setFld_resetHolds (s : State) (a : Nat) (f : Field) (v : Nat) : (s.setFld a f v).resetHolds = s.resetHolds := rfl
@[simp] theorem State.setFld_warmRun (s : State) (a : Nat) (f : Field) (v : Nat) : (s.setFld a f v).warmRun = s.warmRun := rfl
@[simp] theorem State.setFld_captured (s : State) (a : Nat) (f : Field) (v : Nat) : (s.setFld a f v).captured = s.captured := rfl
@[simp] theorem State.setFld_pendingVeto (s : State) (a : Nat) (f : Field) (v : Nat) : (s.setFld a f v).pendingVeto = s.pendingVeto := rfl
@[simp] theorem State.setFld_engResets (s : State) (a : Nat) (f : Field) (v : Nat) : (s.setFld a f v).engResets = s.engResets := rfl
@[simp] theorem State.setFld_snap (s : State) (a : Nat) (f : Field) (v : Nat) : (s.setFld a f v).snap = s.snap := rfl
@[simp] theorem State.setFld_banks (s : State) (a : Nat) (f : Field) (v : Nat) : (s.setFld a f v).banks = s.banks := rfl
@[simp] theorem State.setFld_accs (s : State) (a : Nat) (f : Field) (v : Nat) : (s.setFld a f v).accs = s.accs := rfl
@[simp] theorem State.setFld_gates (s : State) (a : Nat) (f : Field) (v : Nat) : (s.setFld a f v).gates = s.gates := rfl
@[simp] theorem State.setFld_probs (s : State) (a : Nat) (f : Field) (v : Nat) : (s.setFld a f v).probs = s.probs := rfl
@[simp] theorem State.setFld_replayIds (s : State) (a : Nat) (f : Field) (v : Nat) : (s.setFld a f v).replayIds = s.replayIds := rfl
@[simp] theorem State.setFld_rings (s : State) (a : Nat) (f : Field) (v : Nat) : (s.setFld a f v).rings = s.rings := rfl
@[simp] theorem State.setFld_slivers (s : State) (a : Nat) (f : Field) (v : Nat) : (s.setFld a f v).slivers = s.slivers := rfl
@[simp] theorem State.setFld_brushRuns (s : State) (a : Nat) (f : Field) (v : Nat) : (s.setFld a f v).brushRuns = s.brushRuns := rfl
@[simp] theorem State.setFld_latches (s : State) (a : Nat) (f : Field) (v : Nat) : (s.setFld a f v).latches = s.latches := rfl
@[simp] theorem State.setFld_lentSince (s : State) (a : Nat) (f : Field) (v : Nat) : (s.setFld a f v).lentSince = s.lentSince := rfl
@[simp] theorem State.setFld_nmaUpdates (s : State) (a : Nat) (f : Field) (v : Nat) : (s.setFld a f v).nmaUpdates = s.nmaUpdates := rfl
@[simp] theorem State.setFld_groups (s : State) (a : Nat) (f : Field) (v : Nat) : (s.setFld a f v).groups = s.groups := rfl
@[simp] theorem State.setFld_colls (s : State) (a : Nat) (f : Field) (v : Nat) : (s.setFld a f v).colls = s.colls := rfl
@[simp] theorem State.setFld_redRx (s : State) (a : Nat) (f : Field) (v : Nat) : (s.setFld a f v).redRx = s.redRx := rfl
@[simp] theorem State.setFld_redTx (s : State) (a : Nat) (f : Field) (v : Nat) : (s.setFld a f v).redTx = s.redTx := rfl
@[simp] theorem State.setFld_retracted (s : State) (a : Nat) (f : Field) (v : Nat) : (s.setFld a f v).retracted = s.retracted := rfl
@[simp] theorem State.setFld_stepDigests (s : State) (a : Nat) (f : Field) (v : Nat) : (s.setFld a f v).stepDigests = s.stepDigests := rfl
@[simp] theorem State.setFld_closes (s : State) (a : Nat) (f : Field) (v : Nat) : (s.setFld a f v).closes = s.closes := rfl
@[simp] theorem State.setFld_qps (s : State) (a : Nat) (f : Field) (v : Nat) : (s.setFld a f v).qps = s.qps := rfl
@[simp] theorem State.setFld_sessions (s : State) (a : Nat) (f : Field) (v : Nat) : (s.setFld a f v).sessions = s.sessions := rfl
@[simp] theorem State.setFld_bells (s : State) (a : Nat) (f : Field) (v : Nat) : (s.setFld a f v).bells = s.bells := rfl
@[simp] theorem State.setFld_keys (s : State) (a : Nat) (f : Field) (v : Nat) : (s.setFld a f v).keys = s.keys := rfl
@[simp] theorem State.setFld_sensors (s : State) (a : Nat) (f : Field) (v : Nat) : (s.setFld a f v).sensors = s.sensors := rfl
@[simp] theorem State.setFld_egSent (s : State) (a : Nat) (f : Field) (v : Nat) : (s.setFld a f v).egSent = s.egSent := rfl
@[simp] theorem State.setFld_replayBuf (s : State) (a : Nat) (f : Field) (v : Nat) : (s.setFld a f v).replayBuf = s.replayBuf := rfl
@[simp] theorem State.setFld_pldmTid (s : State) (a : Nat) (f : Field) (v : Nat) : (s.setFld a f v).pldmTid = s.pldmTid := rfl
@[simp] theorem State.setFld_signReqs (s : State) (a : Nat) (f : Field) (v : Nat) : (s.setFld a f v).signReqs = s.signReqs := rfl
@[simp] theorem State.setFld_challenge (s : State) (a : Nat) (f : Field) (v : Nat) : (s.setFld a f v).challenge = s.challenge := rfl
@[simp] theorem State.setFld_debugExpiry (s : State) (a : Nat) (f : Field) (v : Nat) : (s.setFld a f v).debugExpiry = s.debugExpiry := rfl
@[simp] theorem State.setFld_flash (s : State) (a : Nat) (f : Field) (v : Nat) : (s.setFld a f v).flash = s.flash := rfl
@[simp] theorem State.setFld_incLimit (s : State) (a : Nat) (f : Field) (v : Nat) : (s.setFld a f v).incLimit = s.incLimit := rfl
@[simp] theorem State.setFld_update (s : State) (a : Nat) (f : Field) (v : Nat) : (s.setFld a f v).update = s.update := rfl
@[simp] theorem State.setFld_recov (s : State) (a : Nat) (f : Field) (v : Nat) : (s.setFld a f v).recov = s.recov := rfl
@[simp] theorem State.setFld_pend (s : State) (a : Nat) (f : Field) (v : Nat) : (s.setFld a f v).pend = s.pend := rfl

/-! ### count -/

@[simp] theorem State.count_pending (s : State) (a : Nat) (f : Field) (n : Nat) : (s.count a f n).pending = s.pending := rfl
@[simp] theorem State.count_powered (s : State) (a : Nat) (f : Field) (n : Nat) : (s.count a f n).powered = s.powered := rfl
@[simp] theorem State.count_mainGood (s : State) (a : Nat) (f : Field) (n : Nat) : (s.count a f n).mainGood = s.mainGood := rfl
@[simp] theorem State.count_strapValid (s : State) (a : Nat) (f : Field) (n : Nat) : (s.count a f n).strapValid = s.strapValid := rfl
@[simp] theorem State.count_strapNode (s : State) (a : Nat) (f : Field) (n : Nat) : (s.count a f n).strapNode = s.strapNode := rfl
@[simp] theorem State.count_strapSlot (s : State) (a : Nat) (f : Field) (n : Nat) : (s.count a f n).strapSlot = s.strapSlot := rfl
@[simp] theorem State.count_lidPins (s : State) (a : Nat) (f : Field) (n : Nat) : (s.count a f n).lidPins = s.lidPins := rfl
@[simp] theorem State.count_sbStrap (s : State) (a : Nat) (f : Field) (n : Nat) : (s.count a f n).sbStrap = s.sbStrap := rfl
@[simp] theorem State.count_now (s : State) (a : Nat) (f : Field) (n : Nat) : (s.count a f n).now = s.now := rfl
@[simp] theorem State.count_hubAc (s : State) (a : Nat) (f : Field) (n : Nat) : (s.count a f n).hubAc = s.hubAc := rfl
@[simp] theorem State.count_staged (s : State) (a : Nat) (f : Field) (n : Nat) : (s.count a f n).staged = s.staged := rfl
@[simp] theorem State.count_mem (s : State) (a : Nat) (f : Field) (n : Nat) : (s.count a f n).mem = s.mem := rfl
@[simp] theorem State.count_altered (s : State) (a : Nat) (f : Field) (n : Nat) : (s.count a f n).altered = s.altered := rfl
@[simp] theorem State.count_ceSeen (s : State) (a : Nat) (f : Field) (n : Nat) : (s.count a f n).ceSeen = s.ceSeen := rfl
@[simp] theorem State.count_held (s : State) (a : Nat) (f : Field) (n : Nat) : (s.count a f n).held = s.held := rfl
@[simp] theorem State.count_tracker (s : State) (a : Nat) (f : Field) (n : Nat) : (s.count a f n).tracker = s.tracker := rfl
@[simp] theorem State.count_queues (s : State) (a : Nat) (f : Field) (n : Nat) : (s.count a f n).queues = s.queues := rfl
@[simp] theorem State.count_cmds (s : State) (a : Nat) (f : Field) (n : Nat) : (s.count a f n).cmds = s.cmds := rfl
@[simp] theorem State.count_semWaiters (s : State) (a : Nat) (f : Field) (n : Nat) : (s.count a f n).semWaiters = s.semWaiters := rfl
@[simp] theorem State.count_lockWaiters (s : State) (a : Nat) (f : Field) (n : Nat) : (s.count a f n).lockWaiters = s.lockWaiters := rfl
@[simp] theorem State.count_arbs (s : State) (a : Nat) (f : Field) (n : Nat) : (s.count a f n).arbs = s.arbs := rfl
@[simp] theorem State.count_applies (s : State) (a : Nat) (f : Field) (n : Nat) : (s.count a f n).applies = s.applies := rfl
@[simp] theorem State.count_ceIndex (s : State) (a : Nat) (f : Field) (n : Nat) : (s.count a f n).ceIndex = s.ceIndex := rfl
@[simp] theorem State.count_ceCount (s : State) (a : Nat) (f : Field) (n : Nat) : (s.count a f n).ceCount = s.ceCount := rfl
@[simp] theorem State.count_lfsr (s : State) (a : Nat) (f : Field) (n : Nat) : (s.count a f n).lfsr = s.lfsr := rfl
@[simp] theorem State.count_power (s : State) (a : Nat) (f : Field) (n : Nat) : (s.count a f n).power = s.power := rfl
@[simp] theorem State.count_events (s : State) (a : Nat) (f : Field) (n : Nat) : (s.count a f n).events = s.events := rfl
@[simp] theorem State.count_eventSeq (s : State) (a : Nat) (f : Field) (n : Nat) : (s.count a f n).eventSeq = s.eventSeq := rfl
@[simp] theorem State.count_eventLost (s : State) (a : Nat) (f : Field) (n : Nat) : (s.count a f n).eventLost = s.eventLost := rfl
@[simp] theorem State.count_draws (s : State) (a : Nat) (f : Field) (n : Nat) : (s.count a f n).draws = s.draws := rfl
@[simp] theorem State.count_out (s : State) (a : Nat) (f : Field) (n : Nat) : (s.count a f n).out = s.out := rfl
@[simp] theorem State.count_lifeLimit (s : State) (a : Nat) (f : Field) (n : Nat) : (s.count a f n).lifeLimit = s.lifeLimit := rfl
@[simp] theorem State.count_members (s : State) (a : Nat) (f : Field) (n : Nat) : (s.count a f n).members = s.members := rfl
@[simp] theorem State.count_links (s : State) (a : Nat) (f : Field) (n : Nat) : (s.count a f n).links = s.links := rfl
@[simp] theorem State.count_fabric (s : State) (a : Nat) (f : Field) (n : Nat) : (s.count a f n).fabric = s.fabric := rfl
@[simp] theorem State.count_creditHolds (s : State) (a : Nat) (f : Field) (n : Nat) : (s.count a f n).creditHolds = s.creditHolds := rfl
@[simp] theorem State.count_heldSignals (s : State) (a : Nat) (f : Field) (n : Nat) : (s.count a f n).heldSignals = s.heldSignals := rfl
@[simp] theorem State.count_lent (s : State) (a : Nat) (f : Field) (n : Nat) : (s.count a f n).lent = s.lent := rfl
@[simp] theorem State.count_imageUp (s : State) (a : Nat) (f : Field) (n : Nat) : (s.count a f n).imageUp = s.imageUp := rfl
@[simp] theorem State.count_resetHolds (s : State) (a : Nat) (f : Field) (n : Nat) : (s.count a f n).resetHolds = s.resetHolds := rfl
@[simp] theorem State.count_warmRun (s : State) (a : Nat) (f : Field) (n : Nat) : (s.count a f n).warmRun = s.warmRun := rfl
@[simp] theorem State.count_captured (s : State) (a : Nat) (f : Field) (n : Nat) : (s.count a f n).captured = s.captured := rfl
@[simp] theorem State.count_pendingVeto (s : State) (a : Nat) (f : Field) (n : Nat) : (s.count a f n).pendingVeto = s.pendingVeto := rfl
@[simp] theorem State.count_engResets (s : State) (a : Nat) (f : Field) (n : Nat) : (s.count a f n).engResets = s.engResets := rfl
@[simp] theorem State.count_snap (s : State) (a : Nat) (f : Field) (n : Nat) : (s.count a f n).snap = s.snap := rfl
@[simp] theorem State.count_banks (s : State) (a : Nat) (f : Field) (n : Nat) : (s.count a f n).banks = s.banks := rfl
@[simp] theorem State.count_accs (s : State) (a : Nat) (f : Field) (n : Nat) : (s.count a f n).accs = s.accs := rfl
@[simp] theorem State.count_gates (s : State) (a : Nat) (f : Field) (n : Nat) : (s.count a f n).gates = s.gates := rfl
@[simp] theorem State.count_probs (s : State) (a : Nat) (f : Field) (n : Nat) : (s.count a f n).probs = s.probs := rfl
@[simp] theorem State.count_replayIds (s : State) (a : Nat) (f : Field) (n : Nat) : (s.count a f n).replayIds = s.replayIds := rfl
@[simp] theorem State.count_rings (s : State) (a : Nat) (f : Field) (n : Nat) : (s.count a f n).rings = s.rings := rfl
@[simp] theorem State.count_slivers (s : State) (a : Nat) (f : Field) (n : Nat) : (s.count a f n).slivers = s.slivers := rfl
@[simp] theorem State.count_brushRuns (s : State) (a : Nat) (f : Field) (n : Nat) : (s.count a f n).brushRuns = s.brushRuns := rfl
@[simp] theorem State.count_latches (s : State) (a : Nat) (f : Field) (n : Nat) : (s.count a f n).latches = s.latches := rfl
@[simp] theorem State.count_lentSince (s : State) (a : Nat) (f : Field) (n : Nat) : (s.count a f n).lentSince = s.lentSince := rfl
@[simp] theorem State.count_nmaUpdates (s : State) (a : Nat) (f : Field) (n : Nat) : (s.count a f n).nmaUpdates = s.nmaUpdates := rfl
@[simp] theorem State.count_groups (s : State) (a : Nat) (f : Field) (n : Nat) : (s.count a f n).groups = s.groups := rfl
@[simp] theorem State.count_colls (s : State) (a : Nat) (f : Field) (n : Nat) : (s.count a f n).colls = s.colls := rfl
@[simp] theorem State.count_redRx (s : State) (a : Nat) (f : Field) (n : Nat) : (s.count a f n).redRx = s.redRx := rfl
@[simp] theorem State.count_redTx (s : State) (a : Nat) (f : Field) (n : Nat) : (s.count a f n).redTx = s.redTx := rfl
@[simp] theorem State.count_retracted (s : State) (a : Nat) (f : Field) (n : Nat) : (s.count a f n).retracted = s.retracted := rfl
@[simp] theorem State.count_stepDigests (s : State) (a : Nat) (f : Field) (n : Nat) : (s.count a f n).stepDigests = s.stepDigests := rfl
@[simp] theorem State.count_closes (s : State) (a : Nat) (f : Field) (n : Nat) : (s.count a f n).closes = s.closes := rfl
@[simp] theorem State.count_qps (s : State) (a : Nat) (f : Field) (n : Nat) : (s.count a f n).qps = s.qps := rfl
@[simp] theorem State.count_sessions (s : State) (a : Nat) (f : Field) (n : Nat) : (s.count a f n).sessions = s.sessions := rfl
@[simp] theorem State.count_bells (s : State) (a : Nat) (f : Field) (n : Nat) : (s.count a f n).bells = s.bells := rfl
@[simp] theorem State.count_keys (s : State) (a : Nat) (f : Field) (n : Nat) : (s.count a f n).keys = s.keys := rfl
@[simp] theorem State.count_sensors (s : State) (a : Nat) (f : Field) (n : Nat) : (s.count a f n).sensors = s.sensors := rfl
@[simp] theorem State.count_egSent (s : State) (a : Nat) (f : Field) (n : Nat) : (s.count a f n).egSent = s.egSent := rfl
@[simp] theorem State.count_replayBuf (s : State) (a : Nat) (f : Field) (n : Nat) : (s.count a f n).replayBuf = s.replayBuf := rfl
@[simp] theorem State.count_pldmTid (s : State) (a : Nat) (f : Field) (n : Nat) : (s.count a f n).pldmTid = s.pldmTid := rfl
@[simp] theorem State.count_signReqs (s : State) (a : Nat) (f : Field) (n : Nat) : (s.count a f n).signReqs = s.signReqs := rfl
@[simp] theorem State.count_challenge (s : State) (a : Nat) (f : Field) (n : Nat) : (s.count a f n).challenge = s.challenge := rfl
@[simp] theorem State.count_debugExpiry (s : State) (a : Nat) (f : Field) (n : Nat) : (s.count a f n).debugExpiry = s.debugExpiry := rfl
@[simp] theorem State.count_flash (s : State) (a : Nat) (f : Field) (n : Nat) : (s.count a f n).flash = s.flash := rfl
@[simp] theorem State.count_incLimit (s : State) (a : Nat) (f : Field) (n : Nat) : (s.count a f n).incLimit = s.incLimit := rfl
@[simp] theorem State.count_update (s : State) (a : Nat) (f : Field) (n : Nat) : (s.count a f n).update = s.update := rfl
@[simp] theorem State.count_recov (s : State) (a : Nat) (f : Field) (n : Nat) : (s.count a f n).recov = s.recov := rfl
@[simp] theorem State.count_pend (s : State) (a : Nat) (f : Field) (n : Nat) : (s.count a f n).pend = s.pend := rfl

/-! ### setQint -/

@[simp] theorem State.setQint_pending (s : State) (q : Nat) (i : QueueInt) : (s.setQint q i).pending = s.pending := rfl
@[simp] theorem State.setQint_powered (s : State) (q : Nat) (i : QueueInt) : (s.setQint q i).powered = s.powered := rfl
@[simp] theorem State.setQint_mainGood (s : State) (q : Nat) (i : QueueInt) : (s.setQint q i).mainGood = s.mainGood := rfl
@[simp] theorem State.setQint_strapValid (s : State) (q : Nat) (i : QueueInt) : (s.setQint q i).strapValid = s.strapValid := rfl
@[simp] theorem State.setQint_strapNode (s : State) (q : Nat) (i : QueueInt) : (s.setQint q i).strapNode = s.strapNode := rfl
@[simp] theorem State.setQint_strapSlot (s : State) (q : Nat) (i : QueueInt) : (s.setQint q i).strapSlot = s.strapSlot := rfl
@[simp] theorem State.setQint_lidPins (s : State) (q : Nat) (i : QueueInt) : (s.setQint q i).lidPins = s.lidPins := rfl
@[simp] theorem State.setQint_sbStrap (s : State) (q : Nat) (i : QueueInt) : (s.setQint q i).sbStrap = s.sbStrap := rfl
@[simp] theorem State.setQint_now (s : State) (q : Nat) (i : QueueInt) : (s.setQint q i).now = s.now := rfl
@[simp] theorem State.setQint_hubAc (s : State) (q : Nat) (i : QueueInt) : (s.setQint q i).hubAc = s.hubAc := rfl
@[simp] theorem State.setQint_regs (s : State) (q : Nat) (i : QueueInt) : (s.setQint q i).regs = s.regs := rfl
@[simp] theorem State.setQint_staged (s : State) (q : Nat) (i : QueueInt) : (s.setQint q i).staged = s.staged := rfl
@[simp] theorem State.setQint_mem (s : State) (q : Nat) (i : QueueInt) : (s.setQint q i).mem = s.mem := rfl
@[simp] theorem State.setQint_altered (s : State) (q : Nat) (i : QueueInt) : (s.setQint q i).altered = s.altered := rfl
@[simp] theorem State.setQint_ceSeen (s : State) (q : Nat) (i : QueueInt) : (s.setQint q i).ceSeen = s.ceSeen := rfl
@[simp] theorem State.setQint_held (s : State) (q : Nat) (i : QueueInt) : (s.setQint q i).held = s.held := rfl
@[simp] theorem State.setQint_tracker (s : State) (q : Nat) (i : QueueInt) : (s.setQint q i).tracker = s.tracker := rfl
@[simp] theorem State.setQint_cmds (s : State) (q : Nat) (i : QueueInt) : (s.setQint q i).cmds = s.cmds := rfl
@[simp] theorem State.setQint_semWaiters (s : State) (q : Nat) (i : QueueInt) : (s.setQint q i).semWaiters = s.semWaiters := rfl
@[simp] theorem State.setQint_lockWaiters (s : State) (q : Nat) (i : QueueInt) : (s.setQint q i).lockWaiters = s.lockWaiters := rfl
@[simp] theorem State.setQint_arbs (s : State) (q : Nat) (i : QueueInt) : (s.setQint q i).arbs = s.arbs := rfl
@[simp] theorem State.setQint_applies (s : State) (q : Nat) (i : QueueInt) : (s.setQint q i).applies = s.applies := rfl
@[simp] theorem State.setQint_ceIndex (s : State) (q : Nat) (i : QueueInt) : (s.setQint q i).ceIndex = s.ceIndex := rfl
@[simp] theorem State.setQint_ceCount (s : State) (q : Nat) (i : QueueInt) : (s.setQint q i).ceCount = s.ceCount := rfl
@[simp] theorem State.setQint_lfsr (s : State) (q : Nat) (i : QueueInt) : (s.setQint q i).lfsr = s.lfsr := rfl
@[simp] theorem State.setQint_power (s : State) (q : Nat) (i : QueueInt) : (s.setQint q i).power = s.power := rfl
@[simp] theorem State.setQint_events (s : State) (q : Nat) (i : QueueInt) : (s.setQint q i).events = s.events := rfl
@[simp] theorem State.setQint_eventSeq (s : State) (q : Nat) (i : QueueInt) : (s.setQint q i).eventSeq = s.eventSeq := rfl
@[simp] theorem State.setQint_eventLost (s : State) (q : Nat) (i : QueueInt) : (s.setQint q i).eventLost = s.eventLost := rfl
@[simp] theorem State.setQint_draws (s : State) (q : Nat) (i : QueueInt) : (s.setQint q i).draws = s.draws := rfl
@[simp] theorem State.setQint_out (s : State) (q : Nat) (i : QueueInt) : (s.setQint q i).out = s.out := rfl
@[simp] theorem State.setQint_lifeLimit (s : State) (q : Nat) (i : QueueInt) : (s.setQint q i).lifeLimit = s.lifeLimit := rfl
@[simp] theorem State.setQint_members (s : State) (q : Nat) (i : QueueInt) : (s.setQint q i).members = s.members := rfl
@[simp] theorem State.setQint_links (s : State) (q : Nat) (i : QueueInt) : (s.setQint q i).links = s.links := rfl
@[simp] theorem State.setQint_fabric (s : State) (q : Nat) (i : QueueInt) : (s.setQint q i).fabric = s.fabric := rfl
@[simp] theorem State.setQint_creditHolds (s : State) (q : Nat) (i : QueueInt) : (s.setQint q i).creditHolds = s.creditHolds := rfl
@[simp] theorem State.setQint_heldSignals (s : State) (q : Nat) (i : QueueInt) : (s.setQint q i).heldSignals = s.heldSignals := rfl
@[simp] theorem State.setQint_lent (s : State) (q : Nat) (i : QueueInt) : (s.setQint q i).lent = s.lent := rfl
@[simp] theorem State.setQint_imageUp (s : State) (q : Nat) (i : QueueInt) : (s.setQint q i).imageUp = s.imageUp := rfl
@[simp] theorem State.setQint_resetHolds (s : State) (q : Nat) (i : QueueInt) : (s.setQint q i).resetHolds = s.resetHolds := rfl
@[simp] theorem State.setQint_warmRun (s : State) (q : Nat) (i : QueueInt) : (s.setQint q i).warmRun = s.warmRun := rfl
@[simp] theorem State.setQint_captured (s : State) (q : Nat) (i : QueueInt) : (s.setQint q i).captured = s.captured := rfl
@[simp] theorem State.setQint_pendingVeto (s : State) (q : Nat) (i : QueueInt) : (s.setQint q i).pendingVeto = s.pendingVeto := rfl
@[simp] theorem State.setQint_engResets (s : State) (q : Nat) (i : QueueInt) : (s.setQint q i).engResets = s.engResets := rfl
@[simp] theorem State.setQint_snap (s : State) (q : Nat) (i : QueueInt) : (s.setQint q i).snap = s.snap := rfl
@[simp] theorem State.setQint_banks (s : State) (q : Nat) (i : QueueInt) : (s.setQint q i).banks = s.banks := rfl
@[simp] theorem State.setQint_accs (s : State) (q : Nat) (i : QueueInt) : (s.setQint q i).accs = s.accs := rfl
@[simp] theorem State.setQint_gates (s : State) (q : Nat) (i : QueueInt) : (s.setQint q i).gates = s.gates := rfl
@[simp] theorem State.setQint_probs (s : State) (q : Nat) (i : QueueInt) : (s.setQint q i).probs = s.probs := rfl
@[simp] theorem State.setQint_replayIds (s : State) (q : Nat) (i : QueueInt) : (s.setQint q i).replayIds = s.replayIds := rfl
@[simp] theorem State.setQint_rings (s : State) (q : Nat) (i : QueueInt) : (s.setQint q i).rings = s.rings := rfl
@[simp] theorem State.setQint_slivers (s : State) (q : Nat) (i : QueueInt) : (s.setQint q i).slivers = s.slivers := rfl
@[simp] theorem State.setQint_brushRuns (s : State) (q : Nat) (i : QueueInt) : (s.setQint q i).brushRuns = s.brushRuns := rfl
@[simp] theorem State.setQint_latches (s : State) (q : Nat) (i : QueueInt) : (s.setQint q i).latches = s.latches := rfl
@[simp] theorem State.setQint_lentSince (s : State) (q : Nat) (i : QueueInt) : (s.setQint q i).lentSince = s.lentSince := rfl
@[simp] theorem State.setQint_nmaUpdates (s : State) (q : Nat) (i : QueueInt) : (s.setQint q i).nmaUpdates = s.nmaUpdates := rfl
@[simp] theorem State.setQint_groups (s : State) (q : Nat) (i : QueueInt) : (s.setQint q i).groups = s.groups := rfl
@[simp] theorem State.setQint_colls (s : State) (q : Nat) (i : QueueInt) : (s.setQint q i).colls = s.colls := rfl
@[simp] theorem State.setQint_redRx (s : State) (q : Nat) (i : QueueInt) : (s.setQint q i).redRx = s.redRx := rfl
@[simp] theorem State.setQint_redTx (s : State) (q : Nat) (i : QueueInt) : (s.setQint q i).redTx = s.redTx := rfl
@[simp] theorem State.setQint_retracted (s : State) (q : Nat) (i : QueueInt) : (s.setQint q i).retracted = s.retracted := rfl
@[simp] theorem State.setQint_stepDigests (s : State) (q : Nat) (i : QueueInt) : (s.setQint q i).stepDigests = s.stepDigests := rfl
@[simp] theorem State.setQint_closes (s : State) (q : Nat) (i : QueueInt) : (s.setQint q i).closes = s.closes := rfl
@[simp] theorem State.setQint_qps (s : State) (q : Nat) (i : QueueInt) : (s.setQint q i).qps = s.qps := rfl
@[simp] theorem State.setQint_sessions (s : State) (q : Nat) (i : QueueInt) : (s.setQint q i).sessions = s.sessions := rfl
@[simp] theorem State.setQint_bells (s : State) (q : Nat) (i : QueueInt) : (s.setQint q i).bells = s.bells := rfl
@[simp] theorem State.setQint_keys (s : State) (q : Nat) (i : QueueInt) : (s.setQint q i).keys = s.keys := rfl
@[simp] theorem State.setQint_sensors (s : State) (q : Nat) (i : QueueInt) : (s.setQint q i).sensors = s.sensors := rfl
@[simp] theorem State.setQint_egSent (s : State) (q : Nat) (i : QueueInt) : (s.setQint q i).egSent = s.egSent := rfl
@[simp] theorem State.setQint_replayBuf (s : State) (q : Nat) (i : QueueInt) : (s.setQint q i).replayBuf = s.replayBuf := rfl
@[simp] theorem State.setQint_pldmTid (s : State) (q : Nat) (i : QueueInt) : (s.setQint q i).pldmTid = s.pldmTid := rfl
@[simp] theorem State.setQint_signReqs (s : State) (q : Nat) (i : QueueInt) : (s.setQint q i).signReqs = s.signReqs := rfl
@[simp] theorem State.setQint_challenge (s : State) (q : Nat) (i : QueueInt) : (s.setQint q i).challenge = s.challenge := rfl
@[simp] theorem State.setQint_debugExpiry (s : State) (q : Nat) (i : QueueInt) : (s.setQint q i).debugExpiry = s.debugExpiry := rfl
@[simp] theorem State.setQint_flash (s : State) (q : Nat) (i : QueueInt) : (s.setQint q i).flash = s.flash := rfl
@[simp] theorem State.setQint_incLimit (s : State) (q : Nat) (i : QueueInt) : (s.setQint q i).incLimit = s.incLimit := rfl
@[simp] theorem State.setQint_update (s : State) (q : Nat) (i : QueueInt) : (s.setQint q i).update = s.update := rfl
@[simp] theorem State.setQint_recov (s : State) (q : Nat) (i : QueueInt) : (s.setQint q i).recov = s.recov := rfl
@[simp] theorem State.setQint_pend (s : State) (q : Nat) (i : QueueInt) : (s.setQint q i).pend = s.pend := rfl

/-! ### setTracker -/

@[simp] theorem State.setTracker_pending (s : State) (k : Tracker) : (s.setTracker k).pending = s.pending := rfl
@[simp] theorem State.setTracker_powered (s : State) (k : Tracker) : (s.setTracker k).powered = s.powered := rfl
@[simp] theorem State.setTracker_mainGood (s : State) (k : Tracker) : (s.setTracker k).mainGood = s.mainGood := rfl
@[simp] theorem State.setTracker_strapValid (s : State) (k : Tracker) : (s.setTracker k).strapValid = s.strapValid := rfl
@[simp] theorem State.setTracker_strapNode (s : State) (k : Tracker) : (s.setTracker k).strapNode = s.strapNode := rfl
@[simp] theorem State.setTracker_strapSlot (s : State) (k : Tracker) : (s.setTracker k).strapSlot = s.strapSlot := rfl
@[simp] theorem State.setTracker_lidPins (s : State) (k : Tracker) : (s.setTracker k).lidPins = s.lidPins := rfl
@[simp] theorem State.setTracker_sbStrap (s : State) (k : Tracker) : (s.setTracker k).sbStrap = s.sbStrap := rfl
@[simp] theorem State.setTracker_now (s : State) (k : Tracker) : (s.setTracker k).now = s.now := rfl
@[simp] theorem State.setTracker_hubAc (s : State) (k : Tracker) : (s.setTracker k).hubAc = s.hubAc := rfl
@[simp] theorem State.setTracker_staged (s : State) (k : Tracker) : (s.setTracker k).staged = s.staged := rfl
@[simp] theorem State.setTracker_mem (s : State) (k : Tracker) : (s.setTracker k).mem = s.mem := rfl
@[simp] theorem State.setTracker_altered (s : State) (k : Tracker) : (s.setTracker k).altered = s.altered := rfl
@[simp] theorem State.setTracker_ceSeen (s : State) (k : Tracker) : (s.setTracker k).ceSeen = s.ceSeen := rfl
@[simp] theorem State.setTracker_held (s : State) (k : Tracker) : (s.setTracker k).held = s.held := rfl
@[simp] theorem State.setTracker_queues (s : State) (k : Tracker) : (s.setTracker k).queues = s.queues := rfl
@[simp] theorem State.setTracker_cmds (s : State) (k : Tracker) : (s.setTracker k).cmds = s.cmds := rfl
@[simp] theorem State.setTracker_semWaiters (s : State) (k : Tracker) : (s.setTracker k).semWaiters = s.semWaiters := rfl
@[simp] theorem State.setTracker_lockWaiters (s : State) (k : Tracker) : (s.setTracker k).lockWaiters = s.lockWaiters := rfl
@[simp] theorem State.setTracker_arbs (s : State) (k : Tracker) : (s.setTracker k).arbs = s.arbs := rfl
@[simp] theorem State.setTracker_applies (s : State) (k : Tracker) : (s.setTracker k).applies = s.applies := rfl
@[simp] theorem State.setTracker_ceIndex (s : State) (k : Tracker) : (s.setTracker k).ceIndex = s.ceIndex := rfl
@[simp] theorem State.setTracker_ceCount (s : State) (k : Tracker) : (s.setTracker k).ceCount = s.ceCount := rfl
@[simp] theorem State.setTracker_lfsr (s : State) (k : Tracker) : (s.setTracker k).lfsr = s.lfsr := rfl
@[simp] theorem State.setTracker_power (s : State) (k : Tracker) : (s.setTracker k).power = s.power := rfl
@[simp] theorem State.setTracker_events (s : State) (k : Tracker) : (s.setTracker k).events = s.events := rfl
@[simp] theorem State.setTracker_eventSeq (s : State) (k : Tracker) : (s.setTracker k).eventSeq = s.eventSeq := rfl
@[simp] theorem State.setTracker_eventLost (s : State) (k : Tracker) : (s.setTracker k).eventLost = s.eventLost := rfl
@[simp] theorem State.setTracker_draws (s : State) (k : Tracker) : (s.setTracker k).draws = s.draws := rfl
@[simp] theorem State.setTracker_out (s : State) (k : Tracker) : (s.setTracker k).out = s.out := rfl
@[simp] theorem State.setTracker_lifeLimit (s : State) (k : Tracker) : (s.setTracker k).lifeLimit = s.lifeLimit := rfl
@[simp] theorem State.setTracker_members (s : State) (k : Tracker) : (s.setTracker k).members = s.members := rfl
@[simp] theorem State.setTracker_links (s : State) (k : Tracker) : (s.setTracker k).links = s.links := rfl
@[simp] theorem State.setTracker_fabric (s : State) (k : Tracker) : (s.setTracker k).fabric = s.fabric := rfl
@[simp] theorem State.setTracker_creditHolds (s : State) (k : Tracker) : (s.setTracker k).creditHolds = s.creditHolds := rfl
@[simp] theorem State.setTracker_heldSignals (s : State) (k : Tracker) : (s.setTracker k).heldSignals = s.heldSignals := rfl
@[simp] theorem State.setTracker_lent (s : State) (k : Tracker) : (s.setTracker k).lent = s.lent := rfl
@[simp] theorem State.setTracker_imageUp (s : State) (k : Tracker) : (s.setTracker k).imageUp = s.imageUp := rfl
@[simp] theorem State.setTracker_resetHolds (s : State) (k : Tracker) : (s.setTracker k).resetHolds = s.resetHolds := rfl
@[simp] theorem State.setTracker_warmRun (s : State) (k : Tracker) : (s.setTracker k).warmRun = s.warmRun := rfl
@[simp] theorem State.setTracker_captured (s : State) (k : Tracker) : (s.setTracker k).captured = s.captured := rfl
@[simp] theorem State.setTracker_pendingVeto (s : State) (k : Tracker) : (s.setTracker k).pendingVeto = s.pendingVeto := rfl
@[simp] theorem State.setTracker_engResets (s : State) (k : Tracker) : (s.setTracker k).engResets = s.engResets := rfl
@[simp] theorem State.setTracker_snap (s : State) (k : Tracker) : (s.setTracker k).snap = s.snap := rfl
@[simp] theorem State.setTracker_banks (s : State) (k : Tracker) : (s.setTracker k).banks = s.banks := rfl
@[simp] theorem State.setTracker_accs (s : State) (k : Tracker) : (s.setTracker k).accs = s.accs := rfl
@[simp] theorem State.setTracker_gates (s : State) (k : Tracker) : (s.setTracker k).gates = s.gates := rfl
@[simp] theorem State.setTracker_probs (s : State) (k : Tracker) : (s.setTracker k).probs = s.probs := rfl
@[simp] theorem State.setTracker_replayIds (s : State) (k : Tracker) : (s.setTracker k).replayIds = s.replayIds := rfl
@[simp] theorem State.setTracker_rings (s : State) (k : Tracker) : (s.setTracker k).rings = s.rings := rfl
@[simp] theorem State.setTracker_slivers (s : State) (k : Tracker) : (s.setTracker k).slivers = s.slivers := rfl
@[simp] theorem State.setTracker_brushRuns (s : State) (k : Tracker) : (s.setTracker k).brushRuns = s.brushRuns := rfl
@[simp] theorem State.setTracker_latches (s : State) (k : Tracker) : (s.setTracker k).latches = s.latches := rfl
@[simp] theorem State.setTracker_lentSince (s : State) (k : Tracker) : (s.setTracker k).lentSince = s.lentSince := rfl
@[simp] theorem State.setTracker_nmaUpdates (s : State) (k : Tracker) : (s.setTracker k).nmaUpdates = s.nmaUpdates := rfl
@[simp] theorem State.setTracker_groups (s : State) (k : Tracker) : (s.setTracker k).groups = s.groups := rfl
@[simp] theorem State.setTracker_colls (s : State) (k : Tracker) : (s.setTracker k).colls = s.colls := rfl
@[simp] theorem State.setTracker_redRx (s : State) (k : Tracker) : (s.setTracker k).redRx = s.redRx := rfl
@[simp] theorem State.setTracker_redTx (s : State) (k : Tracker) : (s.setTracker k).redTx = s.redTx := rfl
@[simp] theorem State.setTracker_retracted (s : State) (k : Tracker) : (s.setTracker k).retracted = s.retracted := rfl
@[simp] theorem State.setTracker_stepDigests (s : State) (k : Tracker) : (s.setTracker k).stepDigests = s.stepDigests := rfl
@[simp] theorem State.setTracker_closes (s : State) (k : Tracker) : (s.setTracker k).closes = s.closes := rfl
@[simp] theorem State.setTracker_qps (s : State) (k : Tracker) : (s.setTracker k).qps = s.qps := rfl
@[simp] theorem State.setTracker_sessions (s : State) (k : Tracker) : (s.setTracker k).sessions = s.sessions := rfl
@[simp] theorem State.setTracker_bells (s : State) (k : Tracker) : (s.setTracker k).bells = s.bells := rfl
@[simp] theorem State.setTracker_keys (s : State) (k : Tracker) : (s.setTracker k).keys = s.keys := rfl
@[simp] theorem State.setTracker_sensors (s : State) (k : Tracker) : (s.setTracker k).sensors = s.sensors := rfl
@[simp] theorem State.setTracker_egSent (s : State) (k : Tracker) : (s.setTracker k).egSent = s.egSent := rfl
@[simp] theorem State.setTracker_replayBuf (s : State) (k : Tracker) : (s.setTracker k).replayBuf = s.replayBuf := rfl
@[simp] theorem State.setTracker_pldmTid (s : State) (k : Tracker) : (s.setTracker k).pldmTid = s.pldmTid := rfl
@[simp] theorem State.setTracker_signReqs (s : State) (k : Tracker) : (s.setTracker k).signReqs = s.signReqs := rfl
@[simp] theorem State.setTracker_challenge (s : State) (k : Tracker) : (s.setTracker k).challenge = s.challenge := rfl
@[simp] theorem State.setTracker_debugExpiry (s : State) (k : Tracker) : (s.setTracker k).debugExpiry = s.debugExpiry := rfl
@[simp] theorem State.setTracker_flash (s : State) (k : Tracker) : (s.setTracker k).flash = s.flash := rfl
@[simp] theorem State.setTracker_incLimit (s : State) (k : Tracker) : (s.setTracker k).incLimit = s.incLimit := rfl
@[simp] theorem State.setTracker_update (s : State) (k : Tracker) : (s.setTracker k).update = s.update := rfl
@[simp] theorem State.setTracker_recov (s : State) (k : Tracker) : (s.setTracker k).recov = s.recov := rfl
@[simp] theorem State.setTracker_pend (s : State) (k : Tracker) : (s.setTracker k).pend = s.pend := rfl

end Sys2Proof.Machine
end

