-- ==== Sys2Proof/Laws/Frames.lean ====
section
/-!
SUPPORT. Frames: updates that leave memory alone, and updates that change one register.
-/

namespace Sys2Proof.Machine

open Sys2Proof

theorem SameMemory.of_eq {s t : State} (hm : t.mem = s.mem) (ha : t.altered = s.altered) : SameMemory s t := fun k => by
  refine ⟨by rw [hm], ?_⟩
  unfold State.byteAt State.pattern
  rw [hm, ha]

theorem SameMemory.refl (s : State) : SameMemory s s := .of_eq rfl rfl

theorem SameMemory.step {s t u : State} (h : SameMemory s t) (g : SameMemory t u) : SameMemory s u := fun k =>
  ⟨(g k).1.trans (h k).1, (g k).2.trans (h k).2⟩

theorem SameMemory.setReg (s : State) (a : Nat) (v : Word) : SameMemory s (s.setReg a v) :=
  .of_eq (State.setReg_mem ..) (State.setReg_altered ..)

theorem SameMemory.setFld (s : State) (a : Nat) (f : Field) (v : Nat) : SameMemory s (s.setFld a f v) :=
  .of_eq (State.setFld_mem ..) (State.setFld_altered ..)

theorem SameMemory.count (s : State) (a : Nat) (f : Field) (n : Nat) : SameMemory s (s.count a f n) :=
  .of_eq (State.count_mem ..) (State.count_altered ..)

theorem SameMemory.emit (s : State) (o : Out) : SameMemory s (s.emit o) := .of_eq (State.emit_mem ..) (State.emit_altered ..)

theorem SameRegsBut.refl (l : List Nat) (s : State) : SameRegsBut l s s := ⟨fun _ _ => rfl, fun _ => rfl⟩

theorem SameRegsBut.step {l : List Nat} {s t u : State} (h : SameRegsBut l s t) (g : SameRegsBut l t u) : SameRegsBut l s u :=
  ⟨fun a ha => (g.1 a ha).trans (h.1 a ha), fun a => (g.2 a).trans (h.2 a)⟩

theorem SameRegsBut.of_eq {l : List Nat} {s t : State} (hr : t.regs = s.regs) (hs : t.staged = s.staged) : SameRegsBut l s t :=
  ⟨fun a _ => by unfold State.reg; rw [hr], fun a => by unfold State.stagedReg; rw [hs]⟩

theorem SameRegsBut.setReg {l : List Nat} (s : State) {a : Nat} (v : Word) (h : a ∈ l) : SameRegsBut l s (s.setReg a v) :=
  ⟨fun b hb => s.reg_setReg_other a b v (fun e => hb (e ▸ h)), fun _ => rfl⟩

theorem SameRegsBut.setFld {l : List Nat} (s : State) {a : Nat} (f : Field) (v : Nat) (h : a ∈ l) : SameRegsBut l s (s.setFld a f v) :=
  .setReg s _ h

theorem SameRegsBut.count {l : List Nat} (s : State) {a : Nat} (f : Field) (n : Nat) (h : a ∈ l) : SameRegsBut l s (s.count a f n) :=
  .setFld s _ _ h

/-! ### When a command acts -/

theorem State.alive_next {s : State} (t : State) (h : s.powered = true) : s.alive t = .next t := by simp [State.alive, h]
theorem State.whenMain_next {s : State} (t : State) (h : s.mainUp = true) : s.whenMain t = .next t := by simp [State.whenMain, h]
theorem State.whenServing_next {s : State} (t : State) (h : s.serving = true) : s.whenServing t = .next t := by simp [State.whenServing, h]

end Sys2Proof.Machine
end

