-- ==== Sys2Proof/WellFormed.lean ====
section
/-!
DEFINITION. Which terms of Instr are well formed: each bound that the spec puts on an operand and that its type does not already
carry. The meanings are total all the same; a term that is not well formed stands for nothing that can happen.
-/

namespace Sys2Proof

/-- The payload of a packet fits a packet (R299): at most 256 bytes. -/
def payloadOk (b : List Byte) : Bool := decide (b.length ≤ 256)

/-- Numbers of dispatches count in QSEQ, 64 bits. -/
def seqOk (n : Nat) : Bool := decide (n < 2 ^ 64)

/-- A member of the membership has an address from 0x0001 to 0x3FFF and numbers of its fields' widths (R299, R310). -/
def Member.wf (m : Member) : Bool :=
  decide (1 ≤ m.addr) && decide (m.addr ≤ 0x3FFF) && decide (m.serial < 2 ^ 64) && decide (m.incarn < 2 ^ 64) &&
    decide (m.pairId < 2 ^ 16) && decide (m.version < 16)

/-- Stores of a die have 4,096 semaphores and 256 locks, that of the hub 8,192 and 1,024 (R205, R237). -/
def placeHas (pl : Fin 5) (hub : Nat) (die : Nat) (i : Nat) : Bool := if pl.val = 0 then decide (i < hub) else decide (i < die)

/-- As stores are numbered: dies 0 to 3, the hub 4. -/
def storeHas (st : Fin 5) (hub : Nat) (die : Nat) (i : Nat) : Bool := if st.val = 4 then decide (i < hub) else decide (i < die)

/-- A command is well formed. -/
def Instr.wf (c : Instr) : Bool :=
  match c with
  | .bringupComplete _ _ l | .bringupTimeout _ _ l => l.length == 16
  | .prime _ n | .stream _ n | .drain _ n | .pack _ n | .ringEntryDrain _ n | .sliverRun _ n | .commandCompletion _ n
  | .moveCopy _ n | .moveTranspose _ n | .moveConvert _ n | .cornerTurn _ n | .moveFill _ n | .moveGather _ n | .moveScatter _ n
  | .scatterAcc _ n | .reduceScatter _ n | .allGather _ n | .allReduce _ n | .broadcast _ n | .closeReduce _ n | .reduceStep _ n
  | .digestTimeout _ n | .pendReplicate _ n | .pendDelta _ n | .resyncTransfer _ n => seqOk n
  | .substitutionPoint _ n r => seqOk n && decide (r < 2 ^ 16)
  | .semwaitGrant st ix => storeHas st 8192 4096 ix.val
  | .semWrite pl w _ => placeHas pl 4096 2048 w.val
  | .lockOwnWrite pl ix _ => placeHas pl 1024 256 ix.val
  | .linkUp _ _ cr => cr.length == 16
  | .admitChal _ b => b.length == 32
  | .admitResp _ _ b => payloadOk b
  | .memberRx _ _ _ _ _ ms _ => ms.all Member.wf
  | .routeRx _ _ i total first es => decide (i.toNat < total.toNat) && decide (first.toNat + es.length ≤ 0x4000)
  | .packetForward _ _ b | .fabricWrite _ b | .readReq _ b | .readResp _ b | .writeAck _ b | .fabricRegWr _ _ b | .beatToken _ _ _ b
  | .redHdr _ b | .redData _ b | .redAck _ b | .retractRx _ b | .retractAck _ b | .ldResponse _ _ b => payloadOk b
  | .pendManifest _ _ _ b => b.length == 32
  | .pendDigest _ dg => dg.length == 16
  | .pendRecovData _ _ b => payloadOk b
  | .memWr _ _ d => decide (d.length ≤ 8192)
  | .thermalSample ds ss => ds.length == 4 && ss.length == 16
  | _ => true

end Sys2Proof
end

