-- ==== Sys2Proof/Tests/Slice0.lean ====
section
/-!
SUPPORT. The model's own tests. Ill-formed terms that the checks of WellFormed refuse; values worked out in the spec; and,
    for each
statement of the obligations that has hypotheses, concrete states and operands that meet them,
    a theorem for each of its clauses, at
the ends of the operands' ranges.
-/

namespace Sys2Proof.Tests

open Sys2Proof Sys2Proof.Machine

set_option Elab.async false

/-! ### Small states and commands -/

/-- A state with fields set. -/
def tAt (s : State) (f : List (Nat × Field × Nat)) : State := f.foldl (fun s x => s.setFld x.1 x.2.1 x.2.2) s
/-- AON with another service level, and fields set. -/
def tMode (m : Nat) (f : List (Nat × Field × Nat)) : State := tAt (State.reset.setFld R.ID_STATE F.ID_STATE_STATE m) f
/-- OFF. -/
def tOff : State := { State.reset with powered := false }
/-- After reset. -/
def tAon : State := State.reset
/-- BOOT. -/
def tBoot : State := tMode mBoot []
/-- EARLY. -/
def tEarly : State := tMode mEarly [(R.ID_UNITS, F.ID_UNITS_DIE_IN_SERVICE, 1), (R.PWR_DOM_STAT, F.PWR_DOM_STAT_ON, 2 ^ 56 - 1)]
/-- FULL with every die, stack and domain in service. -/
def tFull : State := tMode mFull [(R.ID_UNITS, F.ID_UNITS_DIE_IN_SERVICE, 15), (R.ID_UNITS, F.ID_UNITS_STACK_IN_SERVICE, 0xFFFF),
  (R.PWR_DOM_STAT, F.PWR_DOM_STAT_ON, 2 ^ 56 - 1)]
/-- A control word. -/
def cw (op rd ra rb : Nat) (i : Bool) (x imm : Nat) : Nat :=
  op * 2 ^ 56 + rd * 2 ^ 47 + ra * 2 ^ 42 + rb * 2 ^ 37 + b2n i * 2 ^ 36 + x * 2 ^ 32 + imm
/-- A queue that runs in a list, its next word at 0x1000. -/
def tRun (q : Nat) (s : State) : State :=
  { (s.setQState q qRun 0).setPc q 0x1000 with queues := [(q, { QueueInt.empty with inList := true, maxw := 1 })] }
/-- The queue finds the word w next. -/
def tWord (q w : Nat) : State := (tRun q tFull).poke (keysOf 0x1000 8 |>.zip (leBytes w 8))
/-- The queue finds the word w next, with scalar registers set. -/
def tEz (q w : Nat) (r : List (Nat × Nat)) : State := r.foldl (fun s x => s.setSreg q x.1 x.2) (tWord q w)
/-- Queue q finds the word w, which leaves u. -/
def fetchOk (s : State) (q w : Nat) (u : State) : Bool :=
  s.issuing q && decide (s.qState q = qRun) && (s.qint q).inList && decide ((s.qint q).stFault = none) && cwOk w &&
  decide ((u.qint q).maxw = 0 ∨ (u.qint q).issued + cwCost w ≤ (u.qint q).maxw) &&
  (match s.fetch q (s.qpc q) 8 8 with | (.ok b, t) => decide (ofLe b = w) && decide (t = u) | _ => false)
/-- The word is issued and its predicate lets it execute. -/
def ready (s : State) (q w : Nat) (u : State) : Bool := fetchOk s q w u && decide (u.pred q (cwPs w) ≠ cwPn w)
/-- A dispatched command. -/
def tCmd (q code : Nat) (d : List Byte) : Cmd :=
  { queue := q, seq := 1, desc := ([BitVec.ofNat 8 code] ++ d ++ List.replicate 63 0).take 64, epoch := 0, pc := 0, slot := 0, unit := 0, phase := .accepted, status := 0, res0 := 0, res1 := 0, due := 0, capt := [], orphan := false, palDie := 0, tally := [], rx := [], open_ := 0, rerr := 0 }
/-- Bytes in memory. -/
def putm (s : State) (a : Nat) (b : List Byte) : State := s.poke ((keysOf a b.length).zip b)
/-- A descriptor of n bytes, by fields: offset, bytes, value. -/
def dsc (n : Nat) (f : List (Nat × Nat × Nat)) : List Byte :=
  f.foldl (fun l x => l.take x.1 ++ leBytes x.2.2 x.2.1 ++ l.drop (x.1 + x.2.1)) (List.replicate n 0)
/-- A dispatched command, by its descriptor's fields. -/
def mkCmd (q : Nat) (f : List (Nat × Nat × Nat)) : Cmd := { tCmd q 0 [] with desc := dsc 64 f }
/-- A tensor descriptor of rank 1. -/
def tTd (base fmt n : Nat) : List Byte := dsc 128 [(0, 8, base), (8, 1, fmt), (9, 1, 1), (16, 4, n), (40, 6, 1)]
/-- A brush whose next word is w, at 0x1000. -/
def tBr (d b w : Nat) (r : Option RepState) : State :=
  { putm tFull 0x1000 (leBytes w 16) with
    brushRuns := [(brushKey d b, ⟨16, 1, 0, r, 0, 0⟩)], slivers := [⟨16, 1, d, 0x1000, [], 0, 0, 0, [], false, 0⟩], cmds :=
        [{ tCmd 16 0x30 [] with phase := .started }] }
/-- Its context. -/
def tSlc (d b w : Nat) (r : Option RepState) : SlCtx :=
  ⟨d, b, ⟨16, 1, 0, r, 0, 0⟩, ⟨16, 1, d, 0x1000, [], 0, 0, 0, [], false, 0⟩, w,
    (slRows w (match r with | some x => x.iter | none => 0) (match r with | some x => x.bstride | none => 0)).1,
    (slRows w (match r with | some x => x.iter | none => 0) (match r with | some x => x.bstride | none => 0)).2.1,
    (slRows w (match r with | some x => x.iter | none => 0) (match r with | some x => x.bstride | none => 0)).2.2⟩
/-- A brush finds its next instruction. -/
def slReady (s : State) (d b op : Nat) (c : SlCtx) : Bool :=
  s.serving && s.brushUp d b && !(s.lent.contains (brushKey d b)) && decide (c.d = d ∧ c.b = b) &&
  decide (s.brushRun (brushKey d b) = some c.run ∧ s.sliverRun c.run.queue c.run.seq = some c.prog) &&
  s.fetchable ((c.prog.prog + 16 * c.run.index) % 2 ^ 64) 16 16 &&
  (match s.readMem { unit := brushUnit d b, queue := c.run.queue } (gaLocal ((c.prog.prog + 16 * c.run.index) % 2 ^ 64)) 16 with
    | (bs, t, e) => decide (ofLe bs = c.w ∧ t = s ∧ e = false)) && decide (slOp c.w = op) &&
  decide (slRows c.w (match c.run.rep with | some x => x.iter | none => 0) (match c.run.rep with | some x => x.bstride | none => 0) = (c.rd, c.ra, c.rb))
def arr (s : State) (h : Hdr) (type : Nat) : Bool := s.serving && vcOk type h.vc.val && decide (h.dst.toNat = s.ownAddr ∧
    s.ownAddr ≠ 0 ∧ h.dst ≠ 0xFFFF ∧ s.fld R.RYF_STAT F.RYF_STAT_EXCLUDED ≠ 1)
def inT (s : State) (h : Hdr) (type : Nat) (u : State) : Bool := arr s h type && decide (s.findExecuted h = none ∧
    s.fabric.early = []) && decide ((12 ≤ h.vc.val ∧ u = s) ∨ (h.vc.val < 12 ∧ h.seq.toNat = s.expected (rxKey h) ∧
    u = s.setExpected (rxKey h) (h.seq.toNat + 1)))
def hSv (s : State) : Bool := s.serving && s.hostUp && decide (s.fld R.HOSTP_STAT F.HOSTP_STAT_SILENT ≠ 1) &&
    !s.pairedFace && !s.holdsIngress && !s.silentBack && decide (s.altered = [] ∧ s.held = [])

/-! ### What the checks above give the statements' own words -/

theorem easelFetched_of {s u : State} {q w : Nat} (h : fetchOk s q w u = true) : EaselFetched s q w u := by
  simp only [fetchOk, Bool.and_eq_true, decide_eq_true_eq] at h
  obtain ⟨⟨⟨⟨⟨⟨h1, h2⟩, h3⟩, h4⟩, h5⟩, h6⟩, h7⟩ := h
  refine ⟨h1, h2, h3, h4, ?_, h5, h6⟩
  split at h7
  · rename_i b t he
    simp only [Bool.and_eq_true, decide_eq_true_eq] at h7
    exact ⟨b, by rw [he, h7.2], h7.1⟩
  · cases h7

theorem easelReady_of {s u : State} {q w : Nat} (h : ready s q w u = true) : EaselReady s q w u := by
  simp only [ready, Bool.and_eq_true, decide_eq_true_eq] at h
  exact ⟨easelFetched_of h.1, h.2⟩

theorem sliverReady_of {s : State} {d b op : Nat} {c : SlCtx} (h : slReady s d b op c = true) : SliverReady s d b op c s := by
  simp only [slReady, Bool.and_eq_true, Bool.not_eq_true', decide_eq_true_eq] at h
  obtain ⟨⟨⟨⟨⟨⟨⟨⟨h1, h2⟩, h3⟩, h4⟩, h5⟩, h6⟩, h7⟩, h8⟩, h9⟩ := h
  exact ⟨h1, h2, h3, h4.1, h4.2, h5.1, h5.2, h6, ⟨_, Prod.ext rfl (Prod.ext h7.2.1 h7.2.2), h7.1⟩, h8, h9⟩

theorem arrives_of {s : State} {h : Hdr} {type : Nat} (k : arr s h type = true) : Arrives s h type := by
  simp only [arr, Bool.and_eq_true, decide_eq_true_eq] at k
  obtain ⟨⟨h1, h2⟩, h3, h4, h5, h6⟩ := k
  exact ⟨h1, h2, h3, h4, h5, h6⟩

theorem inTurn_of {s u : State} {h : Hdr} {type : Nat} (k : inT s h type u = true) : InTurn s h type u := by
  simp only [inT, Bool.and_eq_true, decide_eq_true_eq] at k
  obtain ⟨⟨h1, h2, h3⟩, h4⟩ := k
  exact ⟨arrives_of h1, h2, h3, h4⟩

theorem hostServes_of {s : State} (k : hSv s = true) : HostServes s ∧ SoundMemory s := by
  simp only [hSv, Bool.and_eq_true, Bool.not_eq_true', decide_eq_true_eq] at k
  obtain ⟨⟨⟨⟨⟨⟨h1, h2⟩, h3⟩, h4⟩, h5⟩, h6⟩, h7⟩ := k
  exact ⟨⟨h1, h2, h3, ⟨h4, h5⟩, h6⟩, h7⟩

/-! ### Ill-formed terms, one for each check -/

theorem test_wf_bringup : (Instr.bringupComplete 15 0 (List.replicate 15 0)).wf = false := by decide
theorem test_wf_seq : (Instr.prime 0 (2 ^ 64)).wf = false := by decide
theorem test_wf_seq_last : (Instr.prime 0 (2 ^ 64 - 1)).wf = true := by decide
theorem test_wf_rank : (Instr.substitutionPoint 0 0 (2 ^ 16)).wf = false := by decide
theorem test_wf_semaphore_of_die : (Instr.semwaitGrant 3 4096).wf = false := by decide
theorem test_wf_semaphore_of_hub : (Instr.semwaitGrant 4 8191).wf = true := by decide
theorem test_wf_sem_word : (Instr.semWrite 1 2048 0).wf = false := by decide
theorem test_wf_lock : (Instr.lockOwnWrite 1 256 0).wf = false := by decide
theorem test_wf_credits : (Instr.linkUp 0 true (List.replicate 15 0)).wf = false := by decide
theorem test_wf_nonce : (Instr.admitChal 0 (List.replicate 31 0)).wf = false := by decide
theorem test_wf_admission : (Instr.admitResp 0 0 (List.replicate 257 0)).wf = false := by decide +kernel
theorem test_wf_member : (Instr.memberRx 0 0 0 0 0 [⟨0x4000, 0, 0, 0, 0⟩] []).wf = false := by decide
theorem test_wf_member_zero : (Instr.memberRx 0 0 0 0 0 [⟨0, 0, 0, 0, 0⟩] []).wf = false := by decide
theorem test_wf_route_part : (Instr.routeRx 0 0 1 1 0 []).wf = false := by decide
theorem test_wf_route_range : (Instr.routeRx 0 0 0 1 0x3FFF [0, 0]).wf = false := by decide
theorem test_wf_payload : (Instr.packetForward ⟨1, 2, 0, 0, false, false, 0, 0⟩ 0 (List.replicate 257 0)).wf = false := by
  decide +kernel
theorem test_wf_manifest : (Instr.pendManifest 0 0 0 (List.replicate 33 0)).wf = false := by decide
theorem test_wf_recovery_data : (Instr.pendRecovData 0 0 (List.replicate 257 0)).wf = false := by decide +kernel
theorem test_wf_mem_wr : (Instr.memWr ⟨0, 0, 0, 0⟩ 0 (List.replicate 8193 0)).wf = false := by decide +kernel
theorem test_wf_readings : (Instr.thermalSample (List.replicate 4 0) (List.replicate 15 0)).wf = false := by decide

/-! ### The spec's worked conversions (03, table of worked conversions; R87's example) -/

def toNearest (src dst x : Nat) : Nat × Bool × Bool :=
  (fun r => (r.code, r.ovf, r.unf)) (convert src dst 0 Cvt.nearest x)

theorem test_cvt_fp32_log8 :
    toNearest fFp32 fLog8 0x3F800000 = (0x48, false, false) ∧ toNearest fFp32 fLog8 0x40400000 = (0x55, false, false) ∧
    toNearest fFp32 fLog8 0xBDCCCCCD = (0xAD, false, false) ∧ toNearest fFp32 fLog8 0x3ADED289 = (0x03, false, false) ∧
    toNearest fFp32 fLog8 0x3951B717 = (0x00, false, true) ∧ toNearest fFp32 fLog8 0x43480000 = (0x7E, true, false) := by
  decide +kernel
theorem test_cvt_infinity : (convert fFp32 fLog8 0 ⟨0, true, 0⟩ 0x43480000).code = 0x7F := by decide +kernel
theorem test_cvt_int8_log8 : toNearest fInt8 fLog8 0x9C = (0xFD, false, false) := by decide +kernel
theorem test_cvt_fp16_tie : toNearest fFp16 fLog8 0x1500 = (0x02, false, false) := by decide +kernel
theorem test_cvt_log16_log8 : (toNearest fLog16 fLog8 0x4030).1 = 0x4A ∧ (toNearest fLog16 fLog8 0x4070).1 = 0x4C := by
  decide +kernel
theorem test_cvt_log16 : (toNearest fFp16 fLog16 0x0010).1 = 0x2C00 ∧ (toNearest fFp32 fLog16 0x40400000).1 = 0x4196 := by
  decide +kernel
theorem test_cvt_from_log8 : (toNearest fLog8 fFp16 0x49).1 = 0x3C5C ∧ (toNearest fLog8 fBf16 0x55).1 = 0x4045 ∧
    (toNearest fLog8 fE4M3 0x55).1 = 0x44 := by decide +kernel
theorem test_cvt_log4 : (toNearest fLog4 fLog8 0x9).1 = 0xBC := by decide +kernel
theorem test_cvt_stochastic : (convert fFp32 fLog8 0 ⟨1, false, 0x84⟩ 0x3ADED289).code = 3 ∧
    (convert fFp32 fLog8 0 ⟨1, false, 0x85⟩ 0x3ADED289).code = 4 := by decide +kernel

/-! ### Its other worked values -/

/-- 04, channel 300: converted under the scale 2^2. -/
theorem test_scaled : (convertScaled fFp32 fLog8 0 Cvt.nearest (-2) 0x43534CCD).code = 0x76 ∧
    (convertScaled fFp32 fLog8 0 Cvt.nearest (-2) 0x44160000).ovf = true := by decide +kernel
/-- 06, R160 and R161: 0x55 × 0x55, 0x48 + 0x48, 0x55 + 0xAD. -/
theorem test_log_arithmetic : (lMul fLog8 Cvt.nearest 0x55 0x55).code = 0x62 ∧ (lAdd fLog8 Cvt.nearest 0x48 0x48).code = 0x50 ∧
    (lAdd fLog8 Cvt.nearest 0x55 0xAD).code = 0x55 := by decide +kernel
/-- 05, three products into one entry: W = −43, scales 2 and 2^−5; then W = −20. -/
theorem test_products : (({ AccEntry.empty with w := -43 } : AccEntry).add (product (cellNum false (0x55,
    1)) (cellNum false (0xBC, -5)))).v =
      -599363944448 ∧
    (({ AccEntry.empty with w := -43 } : AccEntry).add (product (cellNum false (0x03, 1)) (cellNum false (0xBC,
        -5)))).v = -284688384 ∧
    (({ AccEntry.empty with w := -20 } : AccEntry).add (product (cellNum false (0x55, 1)) (cellNum false (0xBC,
        -5)))).v = -71450 := by
  decide +kernel
/-- 01 and 10: interleaved address 0x0000_0123_4567 is offset 0x0012_3567 of stack 4, 0x0140_0012_3567 in its own view. -/
theorem test_interleaved : hbmStack 0x1234567 = 4 ∧ hbmOffset 0x1234567 = 0x123567 ∧ memKey 0x014000123567 = some 0x1234567 := by
  decide
/-- 01: node 0x012, slot 3 has address 0x0094; 00: the SRAM of D2; 01: unit 0x75; 16: QTAIL of queue 0; 09: the record of lock 5. -/
theorem test_places : strapAddr (0x012 + 3 * 2 ^ 10 + 2 ^ 13) = some 0x0094 ∧ sramBase 2 = 0x100800000000 ∧ brushUnit 2 5 = 0x75 ∧
    R.QTAIL 0 = 0x200001041010 ∧ R.LOCK_OWN 0 5 = 0x2000000D1050 ∧ R.PAL_CFG 2 = 0x200001210000 := by decide
/-- FIPS 202: SHAKE128 and SHAKE256 of no bytes begin so. -/
theorem test_shake : shake128 [] 4 = [0x7F, 0x9C, 0x2B, 0xA4] ∧ shake256 [] 4 = [0x46, 0xB9, 0xDD, 0x2B] := by decide +kernel

/-! ### CanonicalKept: a canonical state that steps -/

theorem test_canonical_after_reset : Canonical State.reset := ⟨by decide, by decide, by decide⟩
theorem test_canonical_steps : ∃ t, step State.reset = .next t := ⟨_, rfl⟩
theorem test_reset_write : ∃ t, step { State.reset with pending := [.registerWrite .sideband R.ID_SCRATCH 5] } = .next t ∧
    Canonical { State.reset with pending := [.registerWrite .sideband R.ID_SCRATCH 5] } := by
  refine ⟨_, rfl, by decide, by decide, by decide⟩

/-! ### Witnesses (OffNothingActs, CounterReadClears, RegisterWriteRefused, RegisterWritePlain, ClearingWrites, RandWrites,
    ConfigWrites, AuxiliarySupply, MainSupply, BootOutcome, BringupEnds, WarmReset) -/

namespace W1

def vB : BitVec 64 := 0xFFFFFFFFFFFFFFFF
def tPert : State := tAt tFull [(R.SEC_DEBUG, F.SEC_DEBUG_SCOPE, 2)]
def tTrk : Tracker := ⟨(4000000 + 2 ^ 36) * 65536, 7 * 2 ^ 32, (5000000 + 2 ^ 36) * 65536, 8 * 2 ^ 32, 1000000 * 65536,
    (4000000 + 2 ^ 36) * 65536, true, 0, [], 0, 0, none⟩
def tBeat (st : Nat) : State := { tAt tFull [(R.BEAT_STAT, F.BEAT_STAT_STATE, st), (R.BEAT_CFG, F.BEAT_CFG_SOURCE, 1)] with hubAc := 5000000, tracker := tTrk }
theorem witness_OffNothingActs_1 :
  tOff.powered = false := by decide +kernel
theorem witness_CounterReadClears_1 :
  counterOf (.rstCntRead) = some R.RST_CNT ∧ tAon.powered = true ∧ (blockOf R.RST_CNT).isSome = true ∧
    (rowOf R.RST_CNT).isSome = true ∧ (∀ x ∈ blockOf R.RST_CNT, tAon.regUp x.1 R.RST_CNT = true ∧ x.1 ≠ .pert) :=
        by decide +kernel
theorem witness_CounterReadClears_2 :
  counterOf .pertCntRead = some R.PERT_CNT ∧
    (∀ x ∈ blockOf R.PERT_CNT, tPert.regUp x.1 R.PERT_CNT = true ∧ x.1 = .pert ∧ tPert.pertOpen = true) := by decide +kernel
theorem witness_RegisterWriteRefused_1 :
  tAon.powered = true ∧ (4 : BitVec 64).toNat % 8 ≠ 0 := by decide +kernel
theorem witness_RegisterWriteRefused_2 :
  tAon.powered = true ∧ (∀ x ∈ blockOf R.BEAT_CFG, tAon.regUp x.1 R.BEAT_CFG = false) := by decide +kernel
theorem witness_RegisterWriteRefused_3 :
  tFull.powered = true ∧ (blockOf R.SEC_DEBUG).isSome ∧
    (∀ x ∈ blockOf R.SEC_DEBUG, pathBars .host x.1 R.SEC_DEBUG = true) := by decide +kernel
theorem witness_RegisterWritePlain_1 :
  (∀ x ∈ blockOf (R.PAL_STALE 3), x.1 = .pal 3 ∧ tFull.regUp x.1 (R.PAL_STALE 3) = true ∧ tFull.namedBy x.1 = none) ∧
    (blockOf (R.PAL_STALE 3)).isSome ∧ (rowOf (R.PAL_STALE 3)).isSome := by decide +kernel
theorem witness_RegisterWritePlain_2 :
  (∀ x ∈ blockOf (R.MOV_CFG 2), x.1 = .mov 2 ∧ tFull.regUp x.1 (R.MOV_CFG 2) = true ∧ tFull.namedBy x.1 = none) ∧
    (rowOf (R.MOV_CFG 2)).isSome := by decide +kernel
theorem witness_RegisterWritePlain_3 :
  (∀ x ∈ blockOf R.RST_CFG, x.1 = .hubId ∧ x.2 ≠ 0x100 ∧ tFull.regUp x.1 R.RST_CFG = true) ∧ (rowOf R.RST_CFG).isSome :=
      by decide +kernel
theorem witness_ClearingWrites_1 :
  tFull.powered = true ∧ tFull.blockUp (.pal 3) = true := by decide +kernel
theorem witness_ClearingWrites_2 :
  tFull.mainUp = true ∧ tFull.placeUp 0 = true ∧ tFull.placeUp 4 = true := by decide +kernel
theorem witness_ClearingWrites_3 :
  tAon.powered = true := by decide +kernel
theorem witness_ClearingWrites_4 :
  tAon.powered = true := by decide +kernel
theorem witness_ClearingWrites_5 :
  tFull.mainUp = true := by decide +kernel
theorem witness_ClearingWrites_6 :
  tFull.mainUp = true := by decide +kernel
theorem witness_RandWrites_1 :
  tFull.powered = true ∧ tFull.blockUp (.rand 3) = true := by decide +kernel
theorem witness_ConfigWrites_1 :
  tFull.powered = true ∧ tFull.blockUp (.nma 15) = true ∧ F.NMA_CFG_NOCOMBINE.get vB = 1 := by decide +kernel
theorem witness_ConfigWrites_2 :
  tFull.mainUp = true ∧ tFull.pertOpen = false := by decide +kernel
theorem witness_ConfigWrites_3 :
  tPert.mainUp = true ∧ tPert.pertOpen = true ∧ F.PERT_ECC_CTL_ARM.get 0x2600 = 0 := by decide +kernel
theorem witness_ConfigWrites_4 :
  (tAt tFull [(R.TRN_CFG, F.TRN_CFG_LW_EN, 1)]).fld R.TRN_CFG F.TRN_CFG_LW_EN ≠ 0 := by decide +kernel
theorem witness_ConfigWrites_5 :
  tFull.fld R.TRN_CFG F.TRN_CFG_LW_EN = 0 := by decide +kernel
theorem witness_AuxiliarySupply_1 :
  tOff.powered = false := by decide +kernel
theorem witness_AuxiliarySupply_2 :
  tFull.powered = true := by decide +kernel
theorem witness_MainSupply_1 :
  tAon.powered = true ∧ tAon.mode = mAon ∧ tAon.fld R.RST_CFG F.RST_CFG_HOLD_AON = 0 ∧
    tAon.fld R.PWR_STAT F.PWR_STAT_TRIP = 0 ∧ tAon.cool = true := by decide +kernel
theorem witness_MainSupply_2 :
  let s := tAt tAon [(R.PWR_STAT, F.PWR_STAT_TRIP, 1)]
  s.powered = true ∧ s.mode = mAon ∧ s.fld R.PWR_STAT F.PWR_STAT_TRIP ≠ 0 := by decide +kernel
theorem witness_MainSupply_3 :
  let s := tAt tAon [(R.RST_CFG, F.RST_CFG_HOLD_AON, 1)]
  s.fld R.RST_CFG F.RST_CFG_HOLD_AON ≠ 0 ∧ s.mode = mAon := by decide +kernel
theorem witness_MainSupply_4 :
  tBoot.running = true ∧ tFull.running = true := by decide +kernel
theorem witness_BootOutcome_1 :
  tBoot.powered = true ∧ tBoot.mode = mBoot ∧ tBoot.imageUp = false ∧ tBoot.verifyImage tBoot.flashByte true ≠ 0 :=
      by decide +kernel
theorem witness_BootOutcome_2 :
  let s := { tBoot with imageUp := true }
  s.mode = mBoot ∧ s.imageUp = true := by decide +kernel
theorem witness_BootOutcome_3 :
  tBoot.powered = true ∧ tBoot.imageUp = false ∧ tFull.mode ≠ mBoot := by decide +kernel
theorem witness_BringupEnds_1 :
  let s := tAt tEarly [(R.RYF_STAT, F.RYF_STAT_ELECTED, 1)]
  s.powered = true ∧ s.mode = mEarly ∧ s.fld R.RYF_STAT F.RYF_STAT_ELECTED = 1 ∧ s.pairState ≠ psJoining ∧
    s.pairState ≠ psSyncing := by decide +kernel
theorem witness_BringupEnds_2 :
  tEarly.powered = true ∧ tEarly.mode = mEarly := by decide +kernel
theorem witness_WarmReset_1 :
  tFull.running = true ∧ tFull.warmRun = false ∧ isHbm 7 = true := by decide +kernel
theorem witness_WarmReset_2 :
  let s := { tBoot with warmRun := true }
  s.powered = true ∧ s.warmRun = true := by decide +kernel
theorem witness_WarmReset_3 :
  tAon.powered = true ∧ tAon.warmRun = false ∧ tAon.mode < mBoot := by decide +kernel

end W1

/-! ### Witnesses (SmallerResets, ResyncSearches, BeatEdgeLocked, CoastThenLost, MasterAndGenerator, BeatWaitsAndTime,
    Doorbell, QueueControl, RingEntryAndHead) -/

namespace W2

def tBeat (st : Nat) (x : Int) : State := { tAt tFull [(R.BEAT_STAT, F.BEAT_STAT_STATE, st), (R.BEAT_CFG, F.BEAT_CFG_SOURCE, 1)] with hubAc := (5000000 + x).toNat, tracker := ⟨(4000000 + 2 ^ 36) * 65536, 7 * 2 ^ 32, (5000000 + 2 ^ 36) * 65536, 8 * 2 ^ 32, 1000000 * 65536, (4000000 + 2 ^ 36) * 65536, true, 0, [], 0, 0, none⟩ }
def win : Int := ((tBeat 2 0).beatWindow (1000000 * 65536) / 65536 : Nat)
theorem witness_SmallerResets_1 :
  tFull.rstAccepts = true ∧ tFull.warmRun = false ∧ tFull.dieIn 3 = true ∧
    tFull.bit R.RST_STAT F.RST_STAT_DIE_RESET 3 = false ∧ tFull.resetHolds.contains 3 = false ∧ tFull.colls = [] :=
        by decide +kernel
theorem witness_SmallerResets_2 :
  tFull.mainUp = true ∧ tFull.bit R.RST_STAT F.RST_STAT_DIE_RESET 0 = false := by decide +kernel
theorem witness_SmallerResets_3 :
  let s := tFull.setBit R.RST_STAT F.RST_STAT_DIE_RESET 3 true
  s.mainUp = true ∧ s.bit R.RST_STAT F.RST_STAT_DIE_RESET 3 = true ∧ s.heldSignals = [] := by decide +kernel
theorem witness_SmallerResets_4 :
  tFull.rstAccepts = true ∧ tFull.warmRun = false ∧ tFull.dieIn 0 = true ∧ tFull.pairState ≠ psPaired ∧
    tFull.engResets = [] ∧ tFull.resetHolds = [] ∧ tFull.bit R.RST_STAT F.RST_STAT_DIE_RESET 0 = false ∧
    tFull.colls = [] := by decide +kernel
theorem witness_SmallerResets_5 :
  tFull.mainUp = true := by decide +kernel
theorem witness_SmallerResets_6 :
  tFull.rstAccepts = true ∧ tFull.warmRun = false ∧ tFull.queueIn 191 = true ∧ (tFull.qint 191).resetting = false ∧
    tFull.bit R.RST_STAT F.RST_STAT_DIE_RESET (191 / 48) = false ∧ tFull.queueIn 239 = true ∧
    (tFull.qint 239).resetting = false := by decide +kernel
theorem witness_ResyncSearches_1 :
  tFull.mainUp = true := by decide +kernel
theorem witness_BeatEdgeLocked_1 :
  tFull.mainUp = true ∧ tFull.fld R.BEAT_CFG F.BEAT_CFG_SOURCE ≠ 1 := by decide +kernel
theorem witness_BeatEdgeLocked_2 :
  let s := tBeat 2 win
  s.mainUp = true ∧ s.fld R.BEAT_CFG F.BEAT_CFG_SOURCE = 1 ∧ s.pert 0 = false ∧ s.beatState = 2 ∧
    absDiff s.hubTime s.tracker.t1 ≤ s.beatWindow s.tracker.per := by decide +kernel
theorem witness_BeatEdgeLocked_3 :
  let s := tBeat 2 (-win - 1)
  s.mainUp = true ∧ s.fld R.BEAT_CFG F.BEAT_CFG_SOURCE = 1 ∧ s.pert 0 = false ∧ s.beatState = 2 ∧
    s.beatWindow s.tracker.per < absDiff s.hubTime s.tracker.t1 := by decide +kernel
theorem witness_CoastThenLost_1 :
  let s := { tBeat 2 (win + 1) with tracker := { (tBeat 2 0).tracker with coasted := 63 } }
  s.mainUp = true ∧ (s.beatState = 2 ∨ s.beatState = 3) ∧ s.tracker.coasted < 64 ∧
    s.tracker.t1 + s.beatWindow s.tracker.per ≤ s.hubTime := by decide +kernel
theorem witness_CoastThenLost_2 :
  let s := tBeat 2 (win - 1)
  s.mainUp = true ∧ s.hubTime < s.tracker.t1 + s.beatWindow s.tracker.per := by decide +kernel
theorem witness_CoastThenLost_3 :
  let s := { tBeat 3 0 with tracker := { (tBeat 2 0).tracker with coasted := 64 } }
  s.mainUp = true ∧ s.beatState = 3 ∧ 64 ≤ s.tracker.coasted := by decide +kernel
theorem witness_CoastThenLost_4 :
  (tBeat 3 0).mainUp = true ∧ (tBeat 3 0).tracker.coasted < 64 := by decide +kernel
theorem witness_MasterAndGenerator_1 :
  let s := { tAt tFull [(R.BEAT_STAT, F.BEAT_STAT_STATE, 3), (R.BEAT_CFG, F.BEAT_CFG_SOURCE, 2), (R.BEAT_CFG, F.BEAT_CFG_MASTER_ELIG, 1), (R.BEAT_CFG, F.BEAT_CFG_TAKEOVER, 5)] with tracker := { (tBeat 2 0).tracker with coasted := 5 } }
  s.mainUp = true ∧ s.beatState = 3 ∧ s.fld R.BEAT_CFG F.BEAT_CFG_SOURCE = 2 ∧
    s.fld R.BEAT_CFG F.BEAT_CFG_MASTER_ELIG = 1 ∧ s.fld R.BEAT_CFG F.BEAT_CFG_TAKEOVER ≤ s.tracker.coasted := by decide +kernel
theorem witness_MasterAndGenerator_2 :
  tFull.mainUp = true ∧ tFull.fld R.BEAT_CFG F.BEAT_CFG_MASTER_ELIG = 0 := by decide +kernel
theorem witness_MasterAndGenerator_3 :
  let s := { tBeat 5 0 with tracker := { (tBeat 5 0).tracker with genNext := (tBeat 5 0).hubTime } }
  s.mainUp = true ∧ s.beatState = 5 ∧ s.tracker.genNext ≤ s.hubTime ∧ s.fld R.BEAT_STAT F.BEAT_STAT_TAKEN_OVER = 0 ∧
    s.fld R.BEAT_CFG F.BEAT_CFG_TOKEN_OUT = 0 := by decide +kernel
theorem witness_MasterAndGenerator_4 :
  let s := { tBeat 5 0 with tracker := { (tBeat 5 0).tracker with genNext := (tBeat 5 0).hubTime + 1 } }
  s.mainUp = true ∧ s.hubTime < s.tracker.genNext := by decide +kernel
theorem witness_BeatWaitsAndTime_1 :
  let s := { tBeat 2 0 with queues := [(3, { QueueInt.empty with wait := some (.beat (8 * 65536) 31) })] }.setQState 3 qWait onBeat
  (s.qint 3).wait = some (.beat (8 * 65536) 31) ∧ s.easelUp 3 = true ∧ s.qState 3 = qWait ∧
    beatAdvances s.beatState = true ∧ 8 * 65536 ≤ s.position := by decide +kernel
theorem witness_BeatWaitsAndTime_2 :
  (tBeat 2 0).mainUp = true ∧ beatAdvances (tBeat 2 0).beatState = true := by decide +kernel
theorem witness_BeatWaitsAndTime_3 :
  let s := tBeat 4 0
  s.mainUp = true ∧ beatAdvances s.beatState = false ∧ s.queues = [] ∧ s.applies = [] ∧ s.gates = [] ∧ s.colls = [] :=
      by decide +kernel
theorem witness_BeatWaitsAndTime_4 :
  let s := { tAon with now := 6000000000 * 1260 }
  s.powered = true ∧
    s.fld R.LIFETIME F.LIFETIME_MINUTES - s.fld R.LIFETIME F.LIFETIME_POWERON_ID < s.uptime / 6000000000 ∧
    s.fld R.LIFETIME F.LIFETIME_MINUTES + 1 < 2 ^ 32 := by decide +kernel
theorem witness_BeatWaitsAndTime_5 :
  (tBeat 2 1).mainUp = true := by decide +kernel
theorem witness_Doorbell_1 :
  tFull.qBlockUp 239 = true ∧ tFull.qState 239 = qOff := by decide +kernel
theorem witness_Doorbell_2 :
  let s := tAt tFull [(R.QSTAT 3, F.QSTAT_STATE, 1), (R.QCFG 3, F.QCFG_RING_LOG, 4), (R.QHEAD 3, F.QHEAD_HEAD, 0xFFFFFFFF),
      (R.QTAIL 3, F.QTAIL_TAIL, 0xFFFFFFFF)]
  s.qBlockUp 3 = true ∧ s.qState 3 ≠ qOff ∧
    ((15 : BitVec 64).toNat % 2 ^ 32 + 2 ^ 32 - s.fld (R.QHEAD 3) F.QHEAD_HEAD) % 2 ^ 32 ≤ 2 ^ s.fld (R.QCFG 3) F.QCFG_RING_LOG := by decide +kernel
theorem witness_Doorbell_3 :
  let s := tAt tFull [(R.QSTAT 3, F.QSTAT_STATE, 1), (R.QCFG 3, F.QCFG_RING_LOG, 4)]
  s.qBlockUp 3 = true ∧ s.qState 3 ≠ qOff ∧
    2 ^ s.fld (R.QCFG 3) F.QCFG_RING_LOG < ((17 : BitVec 64).toNat % 2 ^ 32 + 2 ^ 32 - s.fld (R.QHEAD 3) F.QHEAD_HEAD) % 2 ^ 32 := by decide +kernel
theorem witness_QueueControl_1 :
  let s := tAt tFull [(R.QCFG 3, F.QCFG_RING_LOG, 16)]
  s.qBlockUp 3 = true ∧ s.qClosing 3 = false ∧ s.qState 3 = qOff ∧ 1 ≤ s.fld (R.QCFG 3) F.QCFG_RING_LOG ∧
    s.fld (R.QCFG 3) F.QCFG_RING_LOG ≤ 16 ∧ s.crecLog 3 ≤ 16 := by decide +kernel
theorem witness_QueueControl_2 :
  let s := tAt tFull [(R.QSTAT 3, F.QSTAT_STATE, 4)]
  s.qBlockUp 3 = true ∧ s.qClosing 3 = false ∧ s.qState 3 = qStopped ∧ s.qCmds 3 = [] ∧ (s.qint 3).wait = none :=
      by decide +kernel
theorem witness_QueueControl_3 :
  let s := tRun 3 tFull
  s.qBlockUp 3 = true ∧ s.qClosing 3 = false ∧ s.qState 3 = qRun ∧ (s.qint 3).wait = none := by decide +kernel
theorem witness_QueueControl_4 :
  let s := tAt tFull [(R.QSTAT 3, F.QSTAT_STATE, 5)]
  s.qBlockUp 3 = true ∧ s.qClosing 3 = false ∧ s.qState 3 = qFaulted := by decide +kernel
theorem witness_RingEntryAndHead_1 :
  let s := ((tAt tFull [(R.QSTAT 3, F.QSTAT_STATE, 2), (R.QCFG 3, F.QCFG_RING_LOG, 1), (R.QHEAD 3, F.QHEAD_HEAD, 5),
      (R.QTAIL 3, F.QTAIL_TAIL, 6)]).setReg (R.QBASE 3) 0x2000).poke ((keysOf 0x2010 16).zip (leBytes 0x1000 8 ++ leBytes 7 2 ++ [0, 0] ++ leBytes 99 4))
  s.issuing 3 = true ∧ s.qState 3 = qRun ∧ (s.qint 3).inList = false ∧ s.pendingEntries 3 ≠ 0 ∧
    (match s.fetch 3 0x2010 16 16 with | (.ok b, u) => decide (leField b 10 1 = 0 ∧ leField b 11 1 = 0 ∧ u = s) | _ => false) = true := by decide +kernel
theorem witness_RingEntryAndHead_2 :
  tFull.pendingEntries 239 = 0 := by decide +kernel
theorem witness_RingEntryAndHead_3 :
  let s := tAt tFull [(R.CTAIL 3, F.CTAIL_CTAIL, 4), (R.CHEAD 3, F.CHEAD_CHEAD, 1)]
  s.qBlockUp 3 = true ∧ s.qState 3 ≠ qWait ∧
    ((4 : BitVec 64).toNat % 2 ^ 32 + 2 ^ 32 - s.fld (R.CHEAD 3) F.CHEAD_CHEAD) % 2 ^ 32 ≤ s.slotsUsed 3 ∧
    s.slotsUsed 3 < ((5 : BitVec 64).toNat % 2 ^ 32 + 2 ^ 32 - s.fld (R.CHEAD 3) F.CHEAD_CHEAD) % 2 ^ 32 := by decide +kernel

end W2

/-! ### Witnesses (PredicatedOff, FetchFaults, EaselArithmetic, EaselMovesAndPredicates, EaselControlFlow, EaselLoad,
    EaselStore) -/

namespace W3

def al (op : Nat) (i : Bool) : State := tEz 3 (cw op 31 1 (if i then 0 else 2) i 0 (if i then 0xFFFFFFFE else 0)) [(1,
    2 ^ 63 + 5), (2, 2 ^ 64 - 2)]
def alw (op : Nat) (i : Bool) : Nat := cw op 31 1 (if i then 0 else 2) i 0 (if i then 0xFFFFFFFE else 0)
def A : Nat := 2 ^ 63 + 5
def B : Nat := 2 ^ 64 - 2
def tLink : State := { tAt tFull [(R.ID_ADDR, F.ID_ADDR_MODULE_ADDR, 1)] with fabric := FabricInt.fresh }
theorem witness_PredicatedOff_1 :
  let w := cw 0x10 1 2 3 false 0 0 + 2 ^ 55
  let s := tEz 3 w []
  easelOp (.qAdd 3) = some (3, 0x10) ∧ fetchOk s 3 w s = true ∧ cwOp w = 0x10 ∧ s.pred 3 (cwPs w) = cwPn w := by decide +kernel
theorem witness_PredicatedOff_2 :
  let w := cw 0x40 0 0 0 false 0 0 + 2 ^ 55
  let s := { tEz 3 w [] with queues := [(3, { QueueInt.empty with inList := true, maxw := 9 })] }
  easelOp (.qDispatch 3) = some (3, 0x40) ∧ fetchOk s 3 w s = true ∧ cwOp w = 0x40 ∧ s.pred 3 (cwPs w) = cwPn w :=
      by decide +kernel
theorem witness_FetchFaults_1 :
  let s := (tRun 3 tFull).setPc 3 0x1004
  easelOp (.qJr 3) = some (3, 0x29) ∧ s.issuing 3 = true ∧ s.qState 3 = qRun ∧ (s.qint 3).inList = true ∧
    (s.qint 3).stFault = none ∧
    (match s.fetch 3 (s.qpc 3) 8 8 with | (.error st, u) => decide (st = stAddress ∧ u = s) | _ => false) = true := by decide +kernel
theorem witness_FetchFaults_2 :
  let w := cw 0x10 1 2 3 true 0 0
  let s := tEz 3 w []
  s.issuing 3 = true ∧ cwOp w = 0x10 ∧ cwOk w = false ∧
    (match s.fetch 3 (s.qpc 3) 8 8 with | (.ok b, u) => decide (ofLe b = w ∧ u = s) | _ => false) = true := by decide +kernel
theorem witness_EaselArithmetic_1 :
  let w := alw 0x10 true
  ready (al 0x10 true) 3 w (al 0x10 true) = true ∧ cwOp w = 0x10 ∧ cwI w = true := by decide +kernel
theorem witness_EaselArithmetic_2 :
  ready (al 0x11 false) 3 (alw 0x11 false) (al 0x11 false) = true ∧ cwOp (alw 0x11 false) = 0x11 := by decide +kernel
theorem witness_EaselArithmetic_3 :
  ready (al 0x12 false) 3 (alw 0x12 false) (al 0x12 false) = true ∧ cwOp (alw 0x12 false) = 0x12 := by decide +kernel
theorem witness_EaselArithmetic_4 :
  ready (al 0x13 true) 3 (alw 0x13 true) (al 0x13 true) = true ∧ cwOp (alw 0x13 true) = 0x13 := by decide +kernel
theorem witness_EaselArithmetic_5 :
  ready (al 0x14 false) 3 (alw 0x14 false) (al 0x14 false) = true ∧ cwOp (alw 0x14 false) = 0x14 := by decide +kernel
theorem witness_EaselArithmetic_6 :
  ready (al 0x15 false) 3 (alw 0x15 false) (al 0x15 false) = true ∧ cwOp (alw 0x15 false) = 0x15 := by decide +kernel
theorem witness_EaselArithmetic_7 :
  ready (al 0x16 false) 3 (alw 0x16 false) (al 0x16 false) = true ∧ cwOp (alw 0x16 false) = 0x16 := by decide +kernel
theorem witness_EaselArithmetic_8 :
  ready (al 0x17 false) 3 (alw 0x17 false) (al 0x17 false) = true ∧ cwOp (alw 0x17 false) = 0x17 := by decide +kernel
theorem witness_EaselArithmetic_9 :
  ready (al 0x18 false) 3 (alw 0x18 false) (al 0x18 false) = true ∧ cwOp (alw 0x18 false) = 0x18 := by decide +kernel
theorem witness_EaselMovesAndPredicates_1 :
  let w := cw 0 0 0 0 false 0 0
  ready (tEz 3 w []) 3 w (tEz 3 w []) = true ∧ cwOp w = 0 := by decide +kernel
theorem witness_EaselMovesAndPredicates_2 :
  let w := cw 0x19 0 0 0 false 0 0x80000000
  ready (tEz 3 w []) 3 w (tEz 3 w []) = true ∧ cwOp w = 0x19 := by decide +kernel
theorem witness_EaselMovesAndPredicates_3 :
  let w := cw 0x1A 31 0 0 false 0 0xFFFFFFFF
  ready (tEz 3 w [(31, 5)]) 3 w (tEz 3 w [(31, 5)]) = true ∧ cwOp w = 0x1A := by decide +kernel
theorem witness_EaselMovesAndPredicates_4 :
  let w := cw 0x1C 7 1 2 false 5 0
  let s := tEz 3 w [(1, 4), (2, 2 ^ 64 - 1)]
  ready s 3 w s = true ∧ cwOp w = 0x1C := by decide +kernel
theorem witness_EaselMovesAndPredicates_5 :
  let w := cw 0x1D 1 0 2 false 3 0
  let s := tEz 3 w []
  ready s 3 w s = true ∧ cwOp w = 0x1D := by decide +kernel
theorem witness_EaselMovesAndPredicates_6 :
  let w := cw 0x38 4 0 0 false 3 0
  let s := tEz 3 w []
  ready s 3 w s = true ∧ cwOp w = 0x38 ∧ s.timeItem 3 (cwX w) < 2 ^ 64 := by decide +kernel
theorem witness_EaselControlFlow_1 :
  let w := cw 1 0 0 0 false 0 0
  let s := tEz 3 w []
  ready s 3 w s = true ∧ cwOp w = 1 := by decide +kernel
theorem witness_EaselControlFlow_2 :
  let w := cw 0x28 0 0 0 false 0 0xFFFFFFFF
  let s := tEz 3 w []
  ready s 3 w s = true ∧ cwOp w = 0x28 := by decide +kernel
theorem witness_EaselControlFlow_3 :
  let w := cw 0x29 0 31 0 false 0 0
  let s := tEz 3 w [(31, 2 ^ 64 - 8)]
  ready s 3 w s = true ∧ cwOp w = 0x29 := by decide +kernel
theorem witness_EaselControlFlow_4 :
  let w := cw 0x37 0 0 0 false 3 0
  let s := tEz 3 w []
  ready s 3 w s = true ∧ cwOp w = 0x37 ∧ s.fenceDone 3 3 = true := by decide +kernel
theorem witness_EaselControlFlow_5 :
  let w := cw 0x37 0 0 0 false 1 0
  let s := { tEz 3 w [] with cmds := [tCmd 3 1 []] }
  ready s 3 w s = true ∧ cwOp w = 0x37 ∧ s.fenceDone 3 1 = false := by decide +kernel
theorem witness_EaselControlFlow_6 :
  let w := cw 0x33 4 0 0 false 0 0
  let s := tEz 3 w []
  ready s 3 w s = true ∧ cwOp w = 0x33 ∧ s.sreg 3 0 = s.position := by decide +kernel
theorem witness_EaselControlFlow_7 :
  let w := cw 0x33 4 0 0 false 0 0
  let s := { tEz 3 w [] with tracker := { Tracker.idle with pos0 := 2 ^ 32 } }
  ready s 3 w s = true ∧ s.sreg 3 0 < s.position := by decide +kernel
theorem witness_EaselControlFlow_8 :
  let w := cw 0x33 4 1 0 false 1 0
  let s := tEz 3 w [(1, 1)]
  ready s 3 w s = true ∧ cwX w = 1 ∧ s.position < (s.position + s.sreg 3 1) % 2 ^ 64 := by decide +kernel
theorem witness_EaselControlFlow_9 :
  let w := cw 0x34 4 1 0 false 0 0
  let s := tEz 3 w []
  ready s 3 w s = true ∧ cwOp w = 0x34 ∧ s.sreg 3 1 = 0 := by decide +kernel
theorem witness_EaselControlFlow_10 :
  let w := cw 0x34 4 1 0 false 0 0
  let s := tAt (tEz 3 w [(1, 5)]) [(R.TRN_SETTLED, F.TRN_SETTLED_EPOCH, 5)]
  ready s 3 w s = true ∧ 0 < s.sreg 3 1 ∧ s.sreg 3 1 ≤ s.settled := by decide +kernel
theorem witness_EaselControlFlow_11 :
  let w := cw 0x34 4 1 0 false 0 0
  let s := tAt (tEz 3 w [(1, 6)]) [(R.TRN_SETTLED, F.TRN_SETTLED_EPOCH, 5)]
  ready s 3 w s = true ∧ s.settled < s.sreg 3 1 := by decide +kernel
theorem witness_EaselControlFlow_12 :
  let w := cw 0x39 0 1 0 false 0 0
  let s := tEz 3 w [(1, 1)]
  ready s 3 w s = true ∧ cwOp w = 0x39 ∧ s.sreg 3 1 < 2 ^ 48 ∧
    s.sreg 3 1 ≤ s.settled + 1 + s.fld (R.QCFG 3) F.QCFG_AHEAD := by decide +kernel
theorem witness_EaselControlFlow_13 :
  let w := cw 0x39 0 1 0 false 0 0
  let s := tEz 3 w [(1, 2)]
  ready s 3 w s = true ∧ s.settled + 1 + s.fld (R.QCFG 3) F.QCFG_AHEAD < s.sreg 3 1 := by decide +kernel
theorem witness_EaselLoad_1 :
  let w := cw 0x20 4 1 0 false 5 3
  let s := tEz 3 w [(1, 0x2002)]
  ready s 3 w s = true ∧ cwOp w = 0x20 ∧ s.lsAddr 3 w % sizeBytes (cwX w) ≠ 0 := by decide +kernel
theorem witness_EaselLoad_2 :
  let w := cw 0x20 4 1 0 false 5 0xFFFFFFFE
  let s := (putm (tEz 3 w [(1, 0x2002)]) 0x2000 [1, 0x80])
  ready s 3 w s = true ∧ s.lsAddr 3 w = 0x2000 ∧ s.isOwn 0x2000 = true ∧ inRegWindow (gaLocal 0x2000) = false ∧
    s.mappedRange 0x2000 2 = true ∧
    (match s.readMem (easelWho 3) 0x2000 2 with | (b, v, e) => decide (b = [1, 0x80] ∧ v = s ∧ e = false)) = true := by decide +kernel
theorem witness_EaselLoad_3 :
  let w := cw 0x20 4 1 0 false 3 0
  let s := tEz 3 w [(1, R.ID_INCARN)]
  ready s 3 w s = true ∧ s.lsAddr 3 w % 8 = 0 ∧ sizeBytes (cwX w) = 8 ∧ inRegWindow (gaLocal (s.lsAddr 3 w)) = true ∧
    (s.regRead (gaLocal (s.lsAddr 3 w))).1 = some 0 := by decide +kernel
theorem witness_EaselLoad_4 :
  let w := cw 0x20 4 1 0 false 3 0
  let s := tEz 3 w [(1, 2 * 2 ^ 48)]
  ready s 3 w s = true ∧ s.isOwn (s.lsAddr 3 w) = false ∧ s.isRemote (s.lsAddr 3 w) = true ∧
    inRegWindow (gaLocal (s.lsAddr 3 w)) = false := by decide +kernel
theorem witness_EaselLoad_5 :
  let s := { tFull with queues := [(3, { QueueInt.empty with wait := some (.load 31 6 9) })], fabric := { FabricInt.fresh with requests := [⟨2, 1, 9, tReadReq, 0, [], false, .load 3, 0, false, 0⟩] } }
  s.mainUp = true ∧ s.pairedFace = false ∧ (s.fabric.requests.find? (fun r => decide (r.owner = .load 3))).isSome = true ∧
    (s.qint 3).wait = some (.load 31 6 9) ∧ extendLoad 6 (ofLe ([255, 255, 255, 255] : List Byte)) < 2 ^ 64 := by decide +kernel
theorem witness_EaselStore_1 :
  let w := cw 0x21 0 1 2 false 3 4
  let s := tEz 3 w [(1, 0x2000)]
  ready s 3 w s = true ∧ cwOp w = 0x21 ∧ s.lsAddr 3 w % 8 ≠ 0 := by decide +kernel
theorem witness_EaselStore_2 :
  let w := cw 0x21 0 1 2 false 3 0
  let s := putm (tEz 3 w [(1, 0x2000), (2, 0x1122334455667788)]) 0x2000 [9, 9, 9, 9, 9, 9, 9, 9, 9]
  ready s 3 w s = true ∧ s.lsAddr 3 w = 0x2000 ∧ s.isOwn 0x2000 = true ∧ inRegWindow 0x2000 = false ∧
    s.mappedRange 0x2000 8 = true ∧ s.aheadNow 3 = false ∧ s.evalRefuses [(0x2000, 8)] = false ∧ s.pendAreas = [] ∧
    s.altered = [] ∧ s.held = [] := by decide +kernel
theorem witness_EaselStore_3 :
  let w := cw 0x21 0 1 2 false 3 0
  let s := tEz 3 w [(1, R.PAL_AUTO 0)]
  ready s 3 w s = true ∧ inRegWindow (R.PAL_AUTO 0) = true ∧
    (∀ x ∈ blockOf (R.PAL_AUTO 0), s.regUp x.1 (R.PAL_AUTO 0) = true ∧ pathBars .easel x.1 (R.PAL_AUTO 0) = false) ∧
    s.aheadNow 3 = false := by decide +kernel
theorem witness_EaselStore_4 :
  let w := cw 0x21 0 1 2 false 0 0
  let s := tEz 3 w [(1, 0x3FFF * 2 ^ 48)]
  ready s 3 w s = true ∧ s.isOwn (s.lsAddr 3 w) = false ∧ s.isRemote (s.lsAddr 3 w) = true ∧
    inRegWindow (gaLocal (s.lsAddr 3 w)) = false ∧ s.aheadNow 3 = false := by decide +kernel
theorem witness_EaselStore_5 :
  let s := { tFull with queues := [(3, { QueueInt.empty with remoteSts := [(9, 0x1000)] })], fabric := { FabricInt.fresh with requests := [⟨2, 1, 9, tWrite, 0, [], false, .store 3 0x1000, 0, false, 0⟩] } }
  s.mainUp = true ∧ s.pairedFace = false ∧ (s.qint 3).stFault = none ∧ (9 : BitVec 16).toNat = 9 := by decide +kernel

end W3

/-! ### Witnesses (EaselSemaphores, SemaphoreGrants, EaselLocks, LockRegisters, DispatchAndCompletion, Arbiters, StagedApplies) -/

namespace W4

def es (op x imm : Nat) (r : List (Nat × Nat)) : State := tEz 3 (cw op 0 1 (if op = 0x31 ∨ op = 0x36 ∨
    op = 0x35 then 0 else 2) false x imm) r
def ew (op x imm : Nat) : Nat := cw op 0 1 (if op = 0x31 ∨ op = 0x36 ∨ op = 0x35 then 0 else 2) false x imm
def lk (op x h : Nat) : State := tEz 3 (cw op (if op = 0x35 then 4 else 0) 1 0 false x 0) [(1, h)]
def lkw (op x : Nat) : Nat := cw op (if op = 0x35 then 4 else 0) 1 0 false x 0
def hL : Nat := 3 * 8192 + 255
def other : LockOwner := ⟨0, 0xC4, 7, 0, 0⟩
theorem witness_EaselSemaphores_1 :
  ready (es 0x31 0 0x5000 []) 3 (ew 0x31 0 0x5000) (es 0x31 0 0x5000 []) = true ∧
    (es 0x31 0 0x5000 []).aheadNow 3 = false ∧ semOk ((es 0x31 0 0x5000 []).semId 3 (ew 0x31 0 0x5000)) = false ∧
    ready (es 0x32 0 0x1000 []) 3 (ew 0x32 0 0x1000) (es 0x32 0 0x1000 []) = true ∧
    semOk ((es 0x32 0 0x1000 []).semId 3 (ew 0x32 0 0x1000)) = false := by decide +kernel
theorem witness_EaselSemaphores_2 :
  let s := (es 0x31 0 0x9FFF []).setSem 4 8191 (2 ^ 32 - 1)
  let w := ew 0x31 0 0x9FFF
  ready s 3 w s = true ∧ s.aheadNow 3 = false ∧ s.semWaiters = [] ∧ semOk (s.semId 3 w) = true ∧ s.storePresent 4 = true ∧
    s.storeInReset 4 = false ∧ (s.qint 3).remoteSts = [] ∧ cwOp w = 0x31 := by decide +kernel
theorem witness_EaselSemaphores_3 :
  let s := (es 0x32 0 0x0FFF [(2, 2 ^ 64 - 5)]).setSem 0 4095 4
  let w := ew 0x32 0 0x0FFF
  ready s 3 w s = true ∧ semOk (s.semId 3 w) = true ∧ s.storePresent 0 = true ∧ s.storeInReset 0 = false ∧ cwOp w = 0x32 :=
      by decide +kernel
theorem witness_EaselSemaphores_4 :
  let s := (es 0x30 0 0x0FFF [(2, 4)]).setSem 0 4095 4
  let w := ew 0x30 0 0x0FFF
  ready s 3 w s = true ∧ semOk (s.semId 3 w) = true ∧ cwOp w = 0x30 ∧ 0 < s.sreg 3 2 ∧ s.sreg 3 2 ≤ s.semCount 0 4095 ∧
    cwRb w = 2 := by decide +kernel
theorem witness_EaselSemaphores_5 :
  let s := (es 0x30 1 0x0FFF [(2, 5)]).setSem 0 4095 4
  let w := ew 0x30 1 0x0FFF
  ready s 3 w s = true ∧ s.semCount 0 4095 < s.sreg 3 2 := by decide +kernel
theorem witness_SemaphoreGrants_1 :
  let s := { tFull with semWaiters := [⟨3, 4095, 3, 2, false⟩] }.setSem 3 4095 2
  s.mainUp = true ∧ s.storePresent 3 = true ∧ s.storeInReset 3 = false ∧ s.semWaiters = [⟨3, 4095, 3, 2, false⟩] ∧
    2 ≤ s.semCount 3 4095 := by decide +kernel
theorem witness_SemaphoreGrants_2 :
  tFull.mainUp = true ∧ tFull.semWaiters = [] := by decide +kernel
theorem witness_SemaphoreGrants_3 :
  tFull.mainUp = true ∧ tFull.placeUp 4 = true ∧ (2047 : Fin 4096).val < 2048 ∧ tFull.placeUp 0 = true := by decide +kernel
theorem witness_EaselLocks_1 :
  let s := lk 0x35 0 (3 * 8192 + 256)
  ready s 3 (lkw 0x35 0) s = true ∧ s.aheadNow 3 = false ∧ lockOk (s.sreg 3 1) = false ∧ cwRa (lkw 0x35 0) = 1 :=
      by decide +kernel
theorem witness_EaselLocks_2 :
  let s := lk 0x35 0 hL
  ready s 3 (lkw 0x35 0) s = true ∧ lockOk hL = true ∧ s.lockHere hL = true ∧ lockStore hL = 3 ∧ lockIndex hL = 255 ∧
    s.storePresent 3 = true ∧ s.storeInReset 3 = false ∧
    s.lockVerdict 3 255 (s.ownerOf 3) (cwX (lkw 0x35 0) == 1) = .got stDone := by decide +kernel
theorem witness_EaselLocks_3 :
  let s := (lk 0x35 1 hL).setLock 3 255 other
  ready s 3 (lkw 0x35 1) s = true ∧ s.lockVerdict 3 255 (s.ownerOf 3) (cwX (lkw 0x35 1) == 1) = .busy := by decide +kernel
theorem witness_EaselLocks_4 :
  let s := (lk 0x35 0 hL).setLock 3 255 other
  ready s 3 (lkw 0x35 0) s = true ∧ s.lockVerdict 3 255 (s.ownerOf 3) (cwX (lkw 0x35 0) == 1) = .joins := by decide +kernel
theorem witness_EaselLocks_5 :
  let s := (lk 0x36 0 hL).setLock 3 255 ((lk 0x36 0 hL).ownerOf 3)
  ready s 3 (lkw 0x36 0) s = true ∧ (s.qint 3).remoteSts = [] ∧ s.lockOwner 3 255 = s.ownerOf 3 ∧ s.lockWaiters = [] :=
      by decide +kernel
theorem witness_LockRegisters_1 :
  tFull.mainUp = true ∧ tFull.placeUp 4 = true ∧ tFull.lockWaiters = [] := by decide +kernel
theorem witness_LockRegisters_2 :
  let s := { tFull with lockWaiters := [⟨3, 255, ⟨2, 255, 255, 2 ^ 64 - 1, 2 ^ 32 - 1⟩, 0, true⟩] }
  s.mainUp = true ∧ s.storePresent 3 = true ∧ s.storeInReset 3 = false ∧ (s.lockOwner 3 255).unit = 0 ∧ 255 < lockMax 3 :=
      by decide +kernel
theorem witness_DispatchAndCompletion_1 :
  let s := { (tRun 3 tFull).setQState 3 qWait onFence with queues := [(3, { QueueInt.empty with wait := some (.fence 1) })], cmds := [tCmd 3 1 []] }
  s.easelUp 3 = true ∧ s.qState 3 = qWait ∧ (s.qint 3).wait = some (.fence 1) ∧ s.fenceDone 3 1 = false := by decide +kernel
theorem witness_DispatchAndCompletion_2 :
  let s := { (tRun 3 tFull).setQState 3 qWait onFence with queues := [(3, { QueueInt.empty with wait := some (.fence 3) })] }
  s.fenceDone 3 3 = true ∧ (s.qint 3).stFault = none ∧ (s.qint 3).wait = some (.fence 3) := by decide +kernel
theorem witness_DispatchAndCompletion_3 :
  let w := cw 0x3A 4 1 0 false 0 (3 * 256 + 63)
  let s := putm (tEz 3 w [(1, 0x2020)]) 0x2020 (dsc 32 [(16, 8, 0x1234), (25, 1, 3)])
  ready s 3 w s = true ∧ cwOp w = 0x3A ∧ s.aheadNow 3 = false ∧ s.sreg 3 1 % 32 = 0 ∧ s.isOwn 0x2020 = true ∧
    s.mappedRange 0x2020 32 = true ∧ s.blockUp (.rand (Fin.ofNat 4 (bitsOf (cwImm w) 8 2))) = true ∧
    (match s.readMem (easelWho 3) 0x2020 32 with | (b, v, e) => decide (leField b 25 1 < 4 ∧ leField b 26 6 = 0 ∧ v = s ∧ e = false)) = true := by decide +kernel
theorem witness_DispatchAndCompletion_4 :
  let w := cw 0x40 0 0 0 false 0 0
  let s := { putm (tEz 3 w []) 0x1008 (dsc 64 [(0, 1, 4), (8, 1, 15)]) with queues := [(3, { QueueInt.empty with inList := true })] }
  ready s 3 w s = true ∧ cwOp w = 0x40 ∧
    (match s.fetch 3 0x1008 8 64 with | (.ok b, v) => (let c := v.newCmd 3 (patched b w 0 0); decide (v = s ∧ v.aheadNow 3 = false ∧ v.headerEnds c = none ∧ c.rec_ = false ∧ v.findCmd 3 c.seq = none ∧ v.pendingOn 3 c.engine < engineCap c.engine)) | _ => false) = true := by decide +kernel
theorem witness_DispatchAndCompletion_5 :
  let s := (tRun 3 tFull).setQState 3 qWait onBuffer
  s.easelUp 3 = true ∧ s.qState 3 = qWait ∧ s.fld (R.QSTAT 3) F.QSTAT_WAIT_ON = onBuffer := by decide +kernel
theorem witness_DispatchAndCompletion_6 :
  let s := { tFull with cmds := [{ tCmd 3 1 [] with phase := .finished }] }
  s.serving = true ∧ (s.findCmd 3 1).isSome = true ∧
    (∀ c ∈ s.findCmd 3 1, c.phase = .finished ∧ c.due ≤ s.now ∧ c.open_ = 0) := by decide +kernel
theorem witness_DispatchAndCompletion_7 :
  let s := { tFull with cmds := [{ tCmd 3 1 [] with phase := .finished, due := 1 }] }
  (∀ c ∈ s.findCmd 3 1, s.now < c.due) := by decide +kernel
theorem witness_Arbiters_1 :
  let k : ArbAsk := ⟨.queue 47, 5, 0, true⟩
  tFull.mainUp = true ∧ arbExists 4 4 = true ∧ tFull.arb (arbKey 4 4 65535) = Arbiter.fresh ∧ tFull.arbLive k.src = true ∧
    tFull.arbDelay 4 4 Arbiter.fresh k = 0 ∧ (tFull.arbReq Arbiter.fresh k).cls < 4 := by decide +kernel
theorem witness_Arbiters_2 :
  let s := { tFull with arbs := [(arbKey 4 4 1, { Arbiter.fresh with cycle := tFull.fld (R.ARB_WINDOW 4) F.ARB_WINDOW_LEN, used := [1, 2, 3, 4], cut := [1] })] }
  s.mainUp = true ∧ arbExists 4 4 = true ∧ s.fld (R.ARB_WINDOW 4) F.ARB_WINDOW_LEN ≤ (s.arb (arbKey 4 4 1)).cycle :=
      by decide +kernel
theorem witness_Arbiters_3 :
  let s := { tFull with arbs := [(arbKey 4 4 1, { Arbiter.fresh with cycle := tFull.fld (R.ARB_WINDOW 4) F.ARB_WINDOW_LEN - 1 })] }
  (s.arb (arbKey 4 4 1)).cycle < s.fld (R.ARB_WINDOW 4) F.ARB_WINDOW_LEN := by decide +kernel
theorem witness_Arbiters_4 :
  let s := { tFull with arbs := [(arbKey 4 4 1, { Arbiter.fresh with holder := some ⟨6, 0, 3⟩, held := tFull.holdLimit 4 6 })] }
  s.mainUp = true ∧ (s.arb (arbKey 4 4 1)).holder = some ⟨6, 0, 3⟩ ∧ s.holdLimit 4 6 ≤ (s.arb (arbKey 4 4 1)).held :=
      by decide +kernel
theorem witness_Arbiters_5 :
  let s := { tFull with arbs := [(arbKey 4 4 1, { Arbiter.fresh with holder := some ⟨0, 0, 3⟩, held := tFull.holdLimit 4 0 - 1 })] }
  (s.arb (arbKey 4 4 1)).held < s.holdLimit 4 0 := by decide +kernel
theorem witness_StagedApplies_1 :
  tFull.mainUp = true ∧ tFull.applySlot 0 = none ∧ tFull.applySlot 4 = none ∧ tFull.pendingNames = 0 ∧
    tFull.blockUp (.dlock 3) = true := by decide +kernel
theorem witness_StagedApplies_2 :
  let s := { tFull with applies := [(1, ⟨false, 5, 5, 4, 0, false⟩)] }
  s.applySlot 0 = none ∧ s.pendingNames &&& (4 + 0 * 65536) ≠ 0 := by decide +kernel
theorem witness_StagedApplies_3 :
  let s := { tFull with applies := [(4, ⟨false, 5, 5, 4, 0, false⟩)] }
  s.applySlot 4 ≠ none ∧ s.blockUp (.dlock 3) = true := by decide +kernel
theorem witness_StagedApplies_4 :
  tFull.mainUp = true ∧ tFull.blockUp (.dlock 0) = true := by decide +kernel
theorem witness_StagedApplies_5 :
  let s := { tFull with applies := [(0, ⟨false, 5, 5, 4, 0, false⟩)], hubAc := 5 }
  s.applySlot 0 = some ⟨false, 5, 5, 4, 0, false⟩ ∧ s.applyDue 0 ⟨false, 5, 5, 4, 0, false⟩ = true ∧
    s.applyReady ⟨false, 5, 5, 4, 0, false⟩ = true := by decide +kernel
theorem witness_StagedApplies_6 :
  let s := { tFull with applies := [(0, ⟨false, 5, 5, 4, 0, false⟩)], hubAc := 4 }
  s.applySlot 0 = some ⟨false, 5, 5, 4, 0, false⟩ ∧ s.applyDue 0 ⟨false, 5, 5, 4, 0, false⟩ = false := by decide +kernel

end W4

/-! ### Witnesses (CanvasCommands, CanvasEvents, SliverLanes, SliverLaneResults, SliverIntegers, SliverControl) -/

namespace W5

def cvs (f : List (Nat × Nat × Nat)) : State := { tFull with cmds := [mkCmd 3 f] }
def rng : RingInt := ⟨3, 1, [], 1, 0, [(0, 5)], 0, false, false⟩
def gcls : State := { putm (cvs [(0, 1, 1), (16, 8, 0x2000), (48, 2, 1)]) 0x2000 (tTd 0x3000 2 1) with gates := [(15, ⟨[(7, 9)], 3, [], [⟨3, 1, false, false⟩]⟩)] }
def wAdd : Nat := 0x10 * 2 ^ 120 + 16 * 2 ^ 72 + 8 * 2 ^ 40 + 8
def wOf (op : Nat) : Nat := op * 2 ^ 120
theorem witness_CanvasCommands_1 :
  let s := { tFull with cmds := [{ mkCmd 3 [(0, 1, 1)] with phase := .started }, { mkCmd 3 [(0, 1, 4)] with seq := 2 }] }
  s.serving = true ∧ (∀ c ∈ s.findCmd 3 2, s.canvasReady c = false) ∧ (s.findCmd 3 2).isSome = true := by decide +kernel
theorem witness_CanvasCommands_2 :
  let s := cvs [(0, 1, 1)]
  let c := mkCmd 3 [(0, 1, 1)]
  s.findCmd 3 1 = some c ∧ s.canvasReady c = true ∧ s.engineClosing c = false ∧ s.startOf 3 1 1 = .go c ∧ c.at 32 2 = 0 ∧
    (s.canvasBegun 3 1 c).primeOk c = true := by decide +kernel
theorem witness_CanvasCommands_3 :
  let s := cvs [(0, 1, 2)]
  let c := mkCmd 3 [(0, 1, 2)]
  s.findCmd 3 1 = some c ∧ s.canvasReady c = true ∧ s.startOf 3 1 2 = .go c ∧ c.at 32 4 = 0 ∧
    (s.canvasBegun 3 1 c).streamOk c = true := by decide +kernel
theorem witness_CanvasCommands_4 :
  let f := [(0, 1, 2), (16, 8, 0x2000), (32, 4, 1), (12, 1, 63), (10, 1, 2)]
  let s := putm (cvs f) 0x2000 (tTd 0x3000 2 1)
  let c := mkCmd 3 f
  s.startOf 3 1 2 = .go c ∧
    (match (s.canvasBegun 3 1 c).readTd c (c.at 16 8) with | (.ok t, v) => decide (v.streamOk c = true ∧ bitOf c.flags 3 = false ∧ roleOk (c.at 12 1) (t.ext1 (firstDim (bitOf c.flags 2))) = true ∧ v.streamsFull c = false ∧ v.canvasTensor t [fLog4, fLog8] = none ∧ v.isRemote t.range.1 = false) | _ => false) = true ∧
    (s.canvasBegun 3 1 c).wide c.die c.canvas = false := by decide +kernel
theorem witness_CanvasCommands_5 :
  let f := [(0, 1, 3), (36, 2, 256)]
  let s := cvs f
  let c := mkCmd 3 f
  s.startOf 3 1 3 = .go c ∧ c.at 32 4 = 0 ∧ drainFieldsOk c.desc = true ∧
    c.at 9 1 < packProblems ((s.canvasBegun 3 1 c).packing 0 0) ∧ c.at 8 1 < 16 ∧
    leField c.desc 36 2 ≤ packSize ((s.canvasBegun 3 1 c).packing 0 0) ((s.canvasBegun 3 1 c).wide 0 0) := by decide +kernel
theorem witness_CanvasCommands_6 :
  let f := [(0, 1, 4), (8, 1, 15), (9, 1, 5)]
  let s := cvs f
  let c := mkCmd 3 f
  s.startOf 3 1 4 = .go c ∧ c.at 10 54 = 0 ∧ c.at 8 1 < 16 ∧ c.at 9 1 < 6 ∧ c.at 9 1 ≠ 3 ∧ s.offered fLog16 = true ∧
    s.sharedCanvas 0 15 = false := by decide +kernel
theorem witness_CanvasEvents_1 :
  let s := { tFull with gates := [(15, ⟨[(255, 9)], 3, [], []⟩)] }
  s.mainUp = true ∧ s.blockUp (.canv 3) = true ∧ (s.gate 3 3).posts.any (fun p => p.1 == 255) = true ∧
    (s.gate 3 3).posts.any (fun p => p.1 == 0) = false ∧ (s.gate 3 3).waits = [] := by decide +kernel
theorem witness_CanvasEvents_2 :
  tFull.serving = true ∧ tFull.dieUp 3 = true ∧ (tFull.gate 3 3).waits = [] := by decide +kernel
theorem witness_CanvasEvents_3 :
  let c := mkCmd 3 [(0, 1, 1), (16, 8, 0x2000), (48, 2, 1)]
  (gcls.gate 3 3).waits = [⟨3, 1, false, false⟩] ∧ gcls.findCmd 3 1 = some c ∧
    (gcls.gateCloses 3 3 ⟨3, 1, false, false⟩ (c.at 48 2) (c.at 40 8)).isSome = true ∧ gcls.mirror = false ∧
    gcls.peekTd c (c.at 16 8) = some (TD.parse (tTd 0x3000 2 1)) := by decide +kernel
theorem witness_CanvasEvents_4 :
  let c := mkCmd 3 [(0, 1, 1), (16, 8, 0x2000), (48, 2, 2)]
  let s := { gcls with cmds := [c] }
  s.findCmd 3 1 = some c ∧ s.gateCloses 3 3 ⟨3, 1, false, false⟩ (c.at 48 2) (c.at 40 8) = none := by decide +kernel
theorem witness_CanvasEvents_5 :
  let s := { cvs [(0, 1, 2)] with rings := [rng], now := 5 }
  s.serving = true ∧ (s.findCmd 3 1).isSome = true ∧ s.rings.find? (fun x => x.queue == 3 && x.seq == 1) = some rng ∧
    rng.waiting = [(0, 5)] ∧ 5 ≤ s.now := by decide +kernel
theorem witness_CanvasEvents_6 :
  tFull.mainUp = true ∧ tFull.dieUp 3 = true ∧ tFull.bit (R.CANV_RETIRED 3) F.CANV_RETIRED_RETIRED 15 = false ∧
    tFull.bit (R.CANV_RETIRED 3) F.CANV_RETIRED_RETIRED (15 ^^^ 1) = false := by decide +kernel
theorem witness_CanvasEvents_7 :
  tFull.mainUp = true ∧ tFull.blockUp (.canv 3) = true ∧
    (tFull.setBit (R.CANV_RETIRED 3) F.CANV_RETIRED_RETIRED 15 true).bit (R.CANV_RETIRED 3) F.CANV_RETIRED_RETIRED 15 = true := by decide +kernel
theorem witness_CanvasEvents_8 :
  tFull.mainUp = true ∧ tFull.blockUp (.ddbg 3) = true ∧ tFull.ddbgOpen = false ∧
    (tAt tFull [(R.SEC_DEBUG, F.SEC_DEBUG_SCOPE, 255)]).ddbgOpen = true := by decide +kernel
theorem witness_SliverLanes_1 :
  let c := tSlc 3 31 wAdd none
  let s := tBr 3 31 wAdd none
  slReady s 3 31 0x10 c = true ∧ (sliverLane (.slvAdd 3 31)).isSome = true ∧ s.slFault c = none := by decide +kernel
theorem witness_SliverLanes_2 :
  let w := wAdd + 65535 * 2 ^ 72
  let c := tSlc 3 31 w none
  let s := tBr 3 31 w none
  slReady s 3 31 0x10 c = true ∧ (s.slFault c).isSome = true := by decide +kernel
theorem witness_SliverLaneResults_1 :
  let c := tSlc 3 31 wAdd none
  let u := tBr 3 31 wAdd none
  c.d < 4 ∧ c.b < 32 ∧ u.altered = [] ∧ u.badRow c = none ∧ c.rd = some ⟨16, 8⟩ := by decide +kernel
theorem witness_SliverIntegers_1 :
  (∀ w ∈ [8, 64], 1 ≤ slW w ∧ 2 ^ slW w - 1 < 2 ^ slW w) ∧ slCin (8 + 2 ^ 15) = true := by decide +kernel
theorem witness_SliverControl_1 :
  slReady (tBr 3 31 0 none) 3 31 0 (tSlc 3 31 0 none) = true ∧ (tBr 3 31 0 none).slFault (tSlc 3 31 0 none) = none :=
      by decide +kernel
theorem witness_SliverControl_2 :
  let w := wOf 1
  slReady (tBr 3 31 w none) 3 31 1 (tSlc 3 31 w none) = true ∧ (tBr 3 31 w none).slFault (tSlc 3 31 w none) = none ∧
    (tBr 3 31 w none).findCmd 16 1 ≠ none := by decide +kernel
theorem witness_SliverControl_3 :
  let w := wOf 2 + 1 * 2 ^ 48 + 3 * 2 ^ 56
  slReady (tBr 3 31 w none) 3 31 2 (tSlc 3 31 w none) = true ∧
    State.repFault (tSlc 3 31 w none) (tBr 3 31 w none) = none := by decide +kernel
theorem witness_SliverControl_4 :
  let w := wOf 3 + 2 ^ 64 + (2 ^ 64 - 1)
  slReady (tBr 3 31 w none) 3 31 3 (tSlc 3 31 w none) = true ∧ slSetrbOk w = true := by decide +kernel
theorem witness_SliverControl_5 :
  let w := wOf 0x50 + 0x13 * 2 ^ 112 + 0x14 * 2 ^ 104 + 64 * 2 ^ 72 + 63 * 2 ^ 30
  slReady (tBr 3 31 w none) 3 31 0x50 (tSlc 3 31 w none) = true ∧ (tBr 3 31 w none).slFault (tSlc 3 31 w none) = none :=
      by decide +kernel
theorem witness_SliverControl_6 :
  let w := wOf 0x60 + 64 * 2 ^ 72 + 8
  slReady (tBr 3 31 w none) 3 31 0x60 (tSlc 3 31 w none) = true ∧ (tBr 3 31 w none).slFault (tSlc 3 31 w none) = none :=
      by decide +kernel
theorem witness_SliverControl_7 :
  let s := { tFull with cmds := [mkCmd 16 [(0, 1, 0x30), (16, 4, 2 ^ 31)]], brushRuns := [(31, ⟨17, 1, 0, none, 0, 0⟩)] }
  s.serving = true ∧ (∀ c ∈ s.findCmd 16 1, s.brushesBusy c = true) ∧ (s.findCmd 16 1).isSome = true := by decide +kernel
theorem witness_SliverControl_8 :
  let s := { tFull with cmds := [mkCmd 16 [(0, 1, 0x30)]] }
  let c := mkCmd 16 [(0, 1, 0x30)]
  s.brushesBusy c = false ∧ s.startOf 16 1 0x30 = .go c ∧ s.engineClosing c = false ∧ c.at 16 4 = 0 := by decide +kernel
theorem witness_SliverControl_9 :
  let c := mkCmd 16 [(0, 1, 0x30), (16, 4, 2 ^ 31), (8, 8, 0x1000)]
  let s := { tFull with cmds := [c] }
  s.brushesBusy c = false ∧ s.startOf 16 1 0x30 = .go c ∧ c.at 16 4 ≠ 0 ∧ s.brushUp c.die 31 = true ∧ c.at 8 8 % 16 = 0 ∧
    s.isOwn (c.at 8 8) = true ∧ (∀ b ∈ List.range 31, bitOf (c.at 16 4) b = false) := by decide +kernel
theorem witness_SliverControl_10 :
  let s := { tAt tFull [(R.SLV_LEND 3, F.SLV_LEND_LEND_MASK, 2 ^ 31), (R.SLV_LEND 3, F.SLV_LEND_ROW_COUNT, 1)] with cmds := [{ tCmd 208 0x22 [] with phase := .started }] }
  s.serving = true ∧ s.brushUp 3 31 = true ∧ bitOf (s.fld (R.SLV_LEND 3) F.SLV_LEND_LEND_MASK) 31 = true ∧
    s.fld (R.SLV_LEND 3) F.SLV_LEND_ROW_COUNT ≠ 0 ∧ s.lent.contains (brushKey 3 31) = false ∧
    s.cmds.any (fun c => isCollective c.code && c.phase == .started) = true ∧ s.brushRun (brushKey 3 31) = none ∧
    s.fld (R.SLV_CFG 3) F.SLV_CFG_LEND_PREEMPT ≠ 1 := by decide +kernel
theorem witness_SliverControl_11 :
  let s := { tAt tFull [(R.SLV_CFG 3, F.SLV_CFG_LEND_PREEMPT, 1), (R.SLV_LEND 3, F.SLV_LEND_LEND_MASK, 2 ^ 31), (R.SLV_LEND 3, F.SLV_LEND_ROW_COUNT, 1)] with cmds := [{ tCmd 208 0x22 [] with phase := .started }], brushRuns := [(127, ⟨16, 1, 0, none, 0, 0⟩)] }
  s.fld (R.SLV_CFG 3) F.SLV_CFG_LEND_PREEMPT = 1 ∧ s.brushRun (brushKey 3 31) = some ⟨16, 1, 0, none, 0, 0⟩ := by decide +kernel

end W5

/-! ### Witnesses (MoveCommands, CollectiveCommands, CollectiveEvents, StackEvents) -/

namespace W6

def mvs (q : Nat) (f : List (Nat × Nat × Nat)) : State := putm (putm { tFull with cmds := [mkCmd q f] } 0x2000 (tTd 0x3000 fLog8 4)) 0x2080 (tTd 0x4000 fLog8 4)
def mvu (s : State) (q : Nat) : State := s.updCmd q 1 (fun x => { x with phase := .started })
def mvc (q k : Nat) : Cmd := mkCmd q [(0, 1, k), (24, 8, 0x2000), (32, 8, 0x2080)]
def mvOk (s : State) (c : Cmd) : Bool := match (mvu s c.queue).moveTds c with
  | (.ok m, v) => decide (v.moveCheck c m = none) | _ => false
def iTd (base : Nat) : List Byte := tTd base fInt32 4
def ixs (k : Nat) : State := putm (putm { tFull with cmds := [mkCmd 3 [(0, 1, k), (24, 8, 0x2000), (32, 8, 0x2080), (56, 8, 0x2100)]] } 0x2000 (tTd 0x3000 (if k = 0x17 then fInt32 else fLog8) 4)) 0x2080 (tTd 0x4000 (if k = 0x17 then fInt32 else fLog8) 4) |> fun s => putm s 0x2100 (iTd 0x5000)
def ixc (k : Nat) : Cmd := mkCmd 3 [(0, 1, k), (24, 8, 0x2000), (32, 8, 0x2080), (56, 8, 0x2100)]
def gD : List Byte := leBytes 5 1 ++ leBytes 2 1 ++ leBytes 1 2 ++ leBytes 1 2 ++ List.replicate 26 0 ++ leBytes 0x3FFF 8
def gG : Group := ⟨5, gD, membersOf gD 1, 0, false, 65535, []⟩
def cls : Cmd := { mkCmd 208 [(0, 1, 0x22), (8, 1, 5), (9, 1, 1)] with epoch := 9 }
def gS (c : Cmd) : State := { tAt tFull [(R.ID_ADDR, F.ID_ADDR_MODULE_ADDR, 0x3FFF), (R.SLV_LEND 3, F.SLV_LEND_LEND_MASK, 2 ^ 31), (R.SLV_LEND 3, F.SLV_LEND_ROW_COUNT, 256)] with cmds := [c], groups := [(9, some gG)] }
def rg : List Byte := leBytes 5 1 ++ leBytes 11 1 ++ leBytes 1 2 ++ leBytes 1 2 ++ List.replicate 26 0 ++ leBytes 0x3FFF 8
def rgS : State := putm (tAt tFull [(R.ID_ADDR, F.ID_ADDR_MODULE_ADDR, 0x3FFF), (R.RED_GADDR 9, F.RED_GADDR_ADDR,
    0x1000)]) 0x1000 rg
def tColl : Coll := { queue := 3, seq := 1, slot := 9, gid := 5, cseq := 0, code := 0x22, close := true, epoch := 0, digest := [], fmt := fFp32, gext := [], split := 0, shard := 1, home := 3, lend := 2 ^ 31, srcs := [], dst := [], root := 0, deadline := 0, sampled := false, late := false, released := false, word := none, vfield := 0, ops := [], sent := [], written := [], judged := [], mismatched := [], veto := 0, elems := 0, nonfinite := 0, subst := 0, counted := false, linkFail := false, dataErr := false, checks := [] }
def mm (m n s : Nat) : Nat := m + n * 2 ^ 32 + s * 2 ^ 42
def g2 : List Byte := leBytes 5 1 ++ leBytes 11 1 ++ leBytes 2 2 ++ leBytes 1 2 ++ List.replicate 26 0 ++ leBytes (mm 0x3FFF 0 0) 8 ++ leBytes (mm 1 0 7) 8
def gg2 : Group := ⟨5, g2, membersOf g2 2, 0, false, 0, []⟩
def rh (vc : Fin 16) : Hdr := { dst := 0x3FFF, src := 1, vc := vc, hops := 0, err := false, retry := false, seq := 0, addr := 7 }
def rx (vc type : Nat) (s : State) (h : Hdr) : Bool := s.serving && vcOk type vc && decide (h.dst.toNat = s.ownAddr ∧
    s.ownAddr ≠ 0 ∧ h.dst ≠ 0xFFFF ∧ s.fld R.RYF_STAT F.RYF_STAT_EXCLUDED ≠ 1)
def rtx : RedTx := ⟨1, 11, 0, 0, 7, [], false, 208, 1, 0⟩
def c2 : Coll := (tColl.put (opNode 0 0) 0 ⟨none, 0⟩).put (opNode 2 1) 0 ⟨none, 1⟩
def c3 : Coll := (tColl.put (opNode 2 0) 0 ⟨none, 0⟩).put (opNode 2 1) 0 ⟨none, 1⟩
def sg (h : Nat) : RedSeg := { slot := 9, hdr := rh 11, cseq := 0, sender := 1, level := 0, seg := 0, count := 1, epoch := 0, veto := 0, digest := [], pkts := [], held := h, acked := false }
def nu (st : Nat) : NmaUpdate := ⟨hbmKey st 64, 0, fInt32, 5, false, 3, 1⟩
theorem witness_MoveCommands_1 :
  let c := mkCmd 3 [(0, 1, 0x10), (24, 8, 1)]
  let s := { tFull with cmds := [c] }
  moveRow (.moveCopy 3 1) = some (3, 1, 0x10) ∧ s.serving = true ∧ s.startOf 3 1 0x10 = .go c ∧
    s.engineClosing c = false ∧ (match (mvu s 3).moveTds c with | (.error _, _) => true | _ => false) = true := by decide +kernel
theorem witness_MoveCommands_2 :
  let c := mkCmd 3 [(0, 1, 0x10), (24, 8, 0x2000), (32, 8, 0x2080), (8, 1, 1)]
  let s := mvs 3 [(0, 1, 0x10), (24, 8, 0x2000), (32, 8, 0x2080), (8, 1, 1)]
  s.startOf 3 1 0x10 = .go c ∧
    (match (mvu s 3).moveTds c with | (.ok m, v) => decide (v.moveCheck c m = some (stDescriptor, whMove)) | _ => false) = true := by decide +kernel
theorem witness_MoveCommands_3 :
  let c := mvc 3 0x10
  let s := mvs 3 [(0, 1, 0x10), (24, 8, 0x2000), (32, 8, 0x2080)]
  s.startOf 3 1 0x10 = .go c ∧ mvOk s c = true := by decide +kernel
theorem witness_MoveCommands_4 :
  let c := mkCmd 3 [(0, 1, 0x12), (24, 8, 0x2000), (32, 8, 0x2080), (17, 1, 63), (19, 1, 63)]
  let s := mvs 3 [(0, 1, 0x12), (24, 8, 0x2000), (32, 8, 0x2080), (17, 1, 63), (19, 1, 63)]
  s.startOf 3 1 0x12 = .go c ∧ mvOk s c = true := by decide +kernel
theorem witness_MoveCommands_5 :
  (∀ k ∈ [0x15, 0x16], (ixs k).startOf 3 1 k = .go (ixc k) ∧ mvOk (ixs k) (ixc k) = true) ∧
    ((ixs 0x17).startOf 3 1 0x17 = .go (ixc 0x17)) := by decide +kernel
theorem witness_MoveCommands_6 :
  let k := 0x17
  mvOk (ixs k) (ixc k) = true := by decide +kernel
theorem witness_MoveCommands_7 :
  let f := [(0, 1, 0x14), (32, 8, 0x2080), (44, 4, 0xAB)]
  let c := mkCmd 3 f
  let s := mvs 3 f
  s.startOf 3 1 0x14 = .go c ∧ mvOk s c = true ∧
    (match (mvu s 3).moveTds c with | (.ok m, v) => decide (v.altered = [] ∧ v.held = [] ∧ v.isRemote m.dst.base = false) && m.dst.all.all (fun x => (m.dst.writes x (fillCode m.dst.fmt c.patternOf)).all (fun b => v.isOwn b.addr)) | _ => false) = true := by decide +kernel
theorem witness_CollectiveCommands_1 :
  let c := cls
  let s := { gS c with cmds := [{ c with seq := 0 }, c] }
  s.serving = true ∧ s.findCmd 208 1 = some c ∧ collRow c (.closeReduce 208 1) = some (208, 1, 0x22, true) ∧
    s.collWaits 208 1 true = true := by decide +kernel
theorem witness_CollectiveCommands_2 :
  let c := cls
  let s := { gS c with groups := [], retracted := [9] }
  s.collWaits 208 1 true = false ∧ s.startOf 208 1 0x22 = .go c ∧ s.engineClosing c = false ∧ s.slotOf (c.at 8 1) = none ∧
    c.epoch ≠ 0 ∧ s.retracted.contains c.epoch = true := by decide +kernel
theorem witness_CollectiveCommands_3 :
  let c := cls
  let s := { gS c with retracted := [9] }
  s.collWaits 208 1 true = false ∧ s.startOf 208 1 0x22 = .go c ∧ s.slotOf (c.at 8 1) = some 9 ∧ s.group 9 = some gG ∧
    s.retracted.contains c.epoch = true := by decide +kernel
theorem witness_CollectiveCommands_4 :
  let c := cls
  let s := gS c
  (match ((mvu s 208).advanceCseq 9 gG c.epoch).collTds c (collAddrs c) with | (.ok l, w) => (match w.collCheck c (some gG) ((l.take 4).map Prod.fst) (l.getD 4 (none, [])).1 with | .ok _ => true | _ => false) | _ => false) = true := by decide +kernel
theorem witness_CollectiveEvents_1 :
  let s := { tFull with colls := [tColl] }
  s.mainUp = true ∧ s.slotBusy 9 = true ∧ s.slotBusy 0 = false := by decide +kernel
theorem witness_CollectiveEvents_2 :
  rgS.mainUp = true ∧ rgS.slotBusy 9 = false ∧
    (match rgS.readGroup (rgS.reg (R.RED_GADDR 9)).toNat with | (some b, u) => groupOk u.ownAddr 9 b && (List.range 10).all (fun w => w == 9 || decide (u.slotOf (leField b 0 1) ≠ some w)) | _ => false) = true := by decide +kernel
theorem witness_CollectiveEvents_3 :
  let s := rgS
  rx 11 tRedHdr s (rh 11) = true ∧ rx 11 tRedData s (rh 11) = true ∧ s.findExecuted (rh 11) = none ∧ s.fabric.early = [] ∧
    (rh 11).seq.toNat = s.expected (rxKey (rh 11)) ∧ s.mode ≠ mEarly ∧ vcOk tRetract 2 = true ∧ vcOk tRedAck 11 = true :=
        by decide +kernel
theorem witness_CollectiveEvents_4 :
  let c := tColl
  let s := { tFull with colls := [c], groups := [(9, some gg2)] }
  s.findColl 3 1 = some c ∧ s.group c.slot = some gg2 ∧ c.ready gg2 = none := by decide +kernel
theorem witness_CollectiveEvents_5 :
  c2.awaits gg2 = [(opNode 2 1, 1)] := by decide +kernel
theorem witness_CollectiveEvents_6 :
  (c2.derives gg2).map (fun d => (d.out, d.left, d.right)) = [(opNode 1 0, opNode 0 0, opNode 0 1), (opNode 2 0, opNode 1 0,
      opNode 1 1), (opNode 3 0, opNode 2 0, opNode 2 1), (opChain 0, opChain (0-1), opNode 3 0)] := by decide +kernel
theorem witness_CollectiveEvents_7 :
  let c := c3
  (match c.ready gg2 with | some (d, i) => (c.val d.left i).isSome && (c.val d.right i).isSome | none => false) = true ∧
    c.close = true := by decide +kernel
theorem witness_CollectiveEvents_8 :
  let c := { c3 with close := false, gext := [1] }
  let s := { tFull with colls := [c], groups := [(9, some gg2)] }
  s.lentBrush c = none ∧ (c.ready gg2).isSome = true ∧ (let s := { s with lent := [127] }; s.lentBrush c = some 31) :=
      by decide +kernel
theorem witness_CollectiveEvents_9 :
  let c := { c2 with deadline := 5 }
  let s := { tFull with colls := [c], groups := [(9, some gg2)] }
  s.pointReached c gg2 1 = true := by decide +kernel
theorem witness_CollectiveEvents_10 :
  let v : BitVec 64 := BitVec.ofNat 64 (vetoSoftware * 2 ^ F.RED_VETO_SET_BITS.lo + 8 * 2 ^ F.RED_VETO_SET_EPOCH.lo)
  tFull.mainUp = true ∧ F.RED_VETO_SET_BITS.get v = vetoSoftware ∧ F.RED_VETO_SET_EPOCH.get v = 8 ∧ tFull.settled = 0 ∧
    tFull.captured.contains 8 = false := by decide +kernel
theorem witness_CollectiveEvents_11 :
  let s := { rgS with redRx := [sg 1], groups := [(9, some gg2)] }
  s.serving = true ∧ s.colls = [] ∧ (sg 1).acked = false ∧ (sg 1).held ≠ 0 ∧ (sg 1).held ≤ s.now + 1 ∧ (sg 0).held = 0 :=
      by decide +kernel
theorem witness_CollectiveEvents_12 :
  let s := { tFull with creditHolds := [(15, 15, 3, 0)] }
  s.mainUp = true ∧ s.now = 0 ∧ (0 : Nat) < 1 := by decide +kernel
theorem witness_StackEvents_1 :
  let s := { tFull with nmaUpdates := [nu 15], cmds := [{ tCmd 3 0x17 [] with phase := .started }] }
  s.serving = true ∧ s.nmaUpdates.find? (fun x => hbmStack x.addr == 15) = some (nu 15) ∧ s.stackOn 15 = true ∧
    s.altered = [] ∧ (nu 15).fmt ≠ fAcc64 ∧ s.nmaUpdates.find? (fun x => hbmStack x.addr == 0) = none ∧
    (tAt s [(R.PWR_DOM_STAT, F.PWR_DOM_STAT_ON, 0)]).stackOn 15 = false := by decide +kernel
theorem witness_StackEvents_2 :
  let s := tAt tFull [(R.NMA_CFG 15, F.NMA_CFG_SCRUB_HOURS, 1), (R.NMA_SCRUB 15, F.NMA_SCRUB_SECTOR, 2 ^ 30 - 1)]
  s.mainUp = true ∧ s.fld (R.NMA_CFG 15) F.NMA_CFG_SCRUB_HOURS ≠ 0 ∧ s.stackUp 15 = true ∧ s.held = [] ∧
    s.pattern (hbmKey 15 (64 * s.fld (R.NMA_SCRUB 15) F.NMA_SCRUB_SECTOR)) = 0 ∧
    (tAt s [(R.NMA_CFG 15, F.NMA_CFG_SCRUB_HOURS, 0)]).fld (R.NMA_CFG 15) F.NMA_CFG_SCRUB_HOURS = 0 := by decide +kernel
theorem witness_StackEvents_3 :
  let s := tFull
  s.mainUp = true ∧ s.bit R.ID_UNITS F.ID_UNITS_STACK_IN_SERVICE 15 = true ∧
    tEarly.bit R.ID_UNITS F.ID_UNITS_STACK_IN_SERVICE 15 = false ∧ tEarly.mainUp = true := by decide +kernel

end W6

/-! ### Witnesses (PortEvents, MembershipEvents) -/

namespace W7

def lkf (p st : Nat) : List (Nat × Field × Nat) := [(R.RYF_PORT_STAT p, F.RYF_PORT_STAT_STATE, st), (R.RYF_PORT_STAT p,
    F.RYF_PORT_STAT_VERSION, 3), (R.RYF_PORT_STAT p, F.RYF_PORT_STAT_WIDTH, 4)]
def lk (p st : Nat) : State := tAt tFull (lkf p st)
def all16 (st : Nat) : State := tAt tFull ((List.range 16).flatMap (fun p => lkf p st))
def pkt : RawPkt := ⟨{ dst := 7, src := 1, vc := 3, hops := 0, err := false, retry := false, seq := 0, addr := 0 }, 0x18, []⟩
def lp : LinkPort := { LinkPort.down with rxNext := 4095, unacked := [(4095, pkt), (0, pkt)], credits := [(15, 3)] }
def hb : HelloBody := { coordElig := false, admitReq := false, isCoord := false, incarnation := 77, port := 3, version := 3, maxVersion := 3, moduleAddr := 0x3FFF, pairId := 9, straps := 0, keyDigest := 5, serial := 0xFFFFFFFFFFFFFFFF }
def mb (n : Nat) : Member := ⟨n, 2 ^ 64 - 1, 2 ^ 64 - 1, 0, 3⟩
def wl (s : State) (l : Nat) : State := { s with fabric := { s.fabric with lowest := l } }
theorem witness_PortEvents_1 :
  let s := tAt tFull [(R.RYF_PORT_CFG 15, F.RYF_PORT_CFG_ENABLE, 1), (R.RYF_PORT_CFG 15, F.RYF_PORT_CFG_MAXVER, 3),
      (R.RYF_CFG, F.RYF_CFG_COORD_ELIG, 0)]
  s.mainUp = true ∧ s.portLinked 15 = false ∧ s.fld (R.RYF_PORT_CFG 15) F.RYF_PORT_CFG_ENABLE ≠ 0 ∧
    s.portPowered 15 = true ∧ s.fld R.RYF_CFG F.RYF_CFG_COORD_ELIG = 0 ∧ s.maxVer 15 = 3 ∧ s.pendUp 1 = false ∧
    s.portPowered 17 = true := by decide +kernel
theorem witness_PortEvents_2 :
  let s := lk 15 5
  s.mainUp = true ∧ s.portLinked 15 = true ∧ laneWidth (popCount 0 4) = 0 ∧ laneWidth (popCount 15 4) = 4 ∧
    laneWidth (popCount 7 4) = 2 ∧ s.fld (R.RYF_PORT_STAT 15) F.RYF_PORT_STAT_WIDTH = 4 ∧ s.portLinked 0 = false :=
        by decide +kernel
theorem witness_PortEvents_3 :
  let s := (lk 15 4).setLink 15 lp
  s.mainUp = true ∧ s.portLinked 15 = true ∧ s.fabric.bulkWait = [] ∧ s.pert 1 = false := by decide +kernel
theorem witness_PortEvents_4 :
  let s := (lk 15 4).setLink 15 lp
  s.mainUp = true := by decide +kernel
theorem witness_PortEvents_5 :
  let s := tAt (all16 4) [(R.RYF_CFG, F.RYF_CFG_COORD_ELIG, 0)]
  s.mainUp = true ∧ (List.range 16).all s.portLinked = true ∧ s.fld R.RYF_CFG F.RYF_CFG_COORD_ELIG = 0 ∧
    s.fabric.bulkWait = [] ∧ (List.range 16).all (fun p => !(tFull.portLinked p)) = true := by decide +kernel
theorem witness_PortEvents_6 :
  let s := lk 15 2
  s.mainUp = true ∧ s.portLinked 15 = true ∧ hb.coordElig = false ∧ s.fld R.RYF_STAT F.RYF_STAT_COORD = 0 ∧
    s.fld (R.RYF_PORT_CFG 15) F.RYF_PORT_CFG_ADMIT_REQ ≠ 1 ∧ s.fld (R.RYF_PORT_STAT 15) F.RYF_PORT_STAT_STATE = 2 ∧
    (s.setBit R.PEND_STAT F.PEND_STAT_LINKS 1 true).pendUp 1 = true := by decide +kernel
theorem witness_PortEvents_7 :
  let s := { (lk 15 4) with now := 60 * usTicks }
  s.mainUp = true ∧ (s.link 15).lastRx + 60 * usTicks ≤ s.now ∧ s.portLinked 15 = true ∧ s.fabric.bulkWait = [] ∧
    (s.link 15).unacked = [] ∧ s.fld R.RYF_STAT F.RYF_STAT_COORD = 0 := by decide +kernel
theorem witness_PortEvents_8 :
  let s := (lk 15 4).setLink 15 { lp with echoes := 15, rttMin := 9 }
  s.mainUp = true ∧ s.portLinked 15 = true ∧ (s.link 15).echoes < 16 ∧
    ((lk 15 4).setLink 15 { lp with echoes := 16 } |>.link 15).echoes = 16 := by decide +kernel
theorem witness_PortEvents_9 :
  let s := lk 15 3
  s.mainUp = true ∧ s.portLinked 15 = true ∧ s.signReqs.length < 64 ∧ s.idxNext < 2 ^ 40 := by decide +kernel
theorem witness_PortEvents_10 :
  let s := (lk 15 3).setLink 15 { lp with chalAt := 1 }
  s.mainUp = true ∧ s.fld (R.RYF_PORT_STAT 15) F.RYF_PORT_STAT_STATE = 3 ∧ (s.link 15).chalAt ≠ 0 ∧
    (s.link 15).frags = [] := by decide +kernel
theorem witness_PortEvents_11 :
  let s := { (lk 15 3).setLink 15 { lp with chalAt := 1 } with now := 5 * msTicks }
  s.mainUp = true ∧ s.fld (R.RYF_PORT_STAT 15) F.RYF_PORT_STAT_STATE = 3 ∧ (s.link 15).chalAt ≠ 0 ∧
    (s.link 15).chalAt + 5 * msTicks ≤ s.now + 1 := by decide +kernel
theorem witness_MembershipEvents_1 :
  let s := wl (tAt (lk 15 4) [(R.RYF_CFG, F.RYF_CFG_COORD_ELIG, 0)]) 9
  s.mainUp = true ∧ s.fld R.RYF_CFG F.RYF_CFG_COORD_ELIG ≠ 1 ∧ s.portLinked 15 = true ∧ s.fabric.lowest ≠ 0 ∧
    s.fabric.lowest ≤ 8 + 1 := by decide +kernel
theorem witness_MembershipEvents_2 :
  let s := wl (tAt tFull [(R.RYF_CFG, F.RYF_CFG_COORD_ELIG, 1), (R.RYF_CFG, F.RYF_CFG_SETTLE_MS, 0)]) 1
  s.mainUp = true ∧ s.fld R.RYF_CFG F.RYF_CFG_COORD_ELIG = 1 ∧ s.fld R.RYF_STAT F.RYF_STAT_COORD = 0 ∧
    s.fabric.lowest = s.serial + 1 ∧ s.fabric.lowestSince + s.fld R.RYF_CFG F.RYF_CFG_SETTLE_MS * msTicks ≤ s.now :=
        by decide +kernel
theorem witness_MembershipEvents_3 :
  let s := { (tAt tFull [(R.RYF_STAT, F.RYF_STAT_DEPUTY, 1)]) with now := 150 * usTicks }
  s.mainUp = true ∧ s.fabric.memberAt + 150 * usTicks ≤ s.now := by decide +kernel
theorem witness_MembershipEvents_4 :
  let s := lk 15 4
  s.mainUp = true ∧ s.portLinked 15 = true ∧ s.serial ≠ 2 ^ 64 - 1 ∧ s.fld R.RYF_STAT F.RYF_STAT_ELECTED = 0 := by decide +kernel
theorem witness_MembershipEvents_5 :
  let s := all16 4
  s.mainUp = true ∧ (List.range 16).all s.portLinked = true ∧ s.fld R.RYF_STAT F.RYF_STAT_COORD = 0 ∧
    s.fabric.routeEpoch ≤ 2 ^ 48 - 1 := by decide +kernel
theorem witness_MembershipEvents_6 :
  let s := { tFull with members := [mb 0x3FFF] }
  s.mainUp = true ∧ s.members.find? (fun x => x.addr == 0x13FFF % 65536) = some (mb 0x3FFF) := by decide +kernel

end W7

/-! ### Witnesses (FabricTraffic, TrainingSteps) -/

namespace W8

def fh (vc : Fin 16) (a : BitVec 48) : Hdr := { dst := 0x3FFF, src := 1, vc := vc, hops := 0, err := false, retry := false, seq := 0, addr := a }
def fS : State := tAt tFull [(R.ID_ADDR, F.ID_ADDR_MODULE_ADDR, 0x3FFF)]
def fU (h : Hdr) : State := fS.setExpected (rxKey h) 1
def lw : LockWho := ⟨0xFF, 239, 7, 1⟩
def frq (o : ReqOwner) (type : Nat) : Request := { dst := 1, vc := 1, seq := 0, type := type, addr := 0x10, body := [], resent := false, owner := o, sentAt := 0, joined := false, nth := 0 }
def fRq (r : Request) (s : State) : State := { s with fabric := { s.fabric with requests := [r] } }
def rpk (vc : Fin 16) : RawPkt := ⟨{ dst := 7, src := 1, vc := vc, hops := 62, err := false, retry := false, seq := 0, addr := 0 }, 0x18, []⟩
def up15 : State := ((tAt fS [(R.RYF_PORT_STAT 15, F.RYF_PORT_STAT_STATE, 4), (R.RYF_PORT_STAT 15, F.RYF_PORT_STAT_VERSION,
    3)]).setReg (R.RYF_ROUTE 7) (BitVec.ofNat 64 (2 ^ 63 + 2 ^ 61 + 15 * 2 ^ 52))).setLink 15 { LinkPort.down with credits := [(1, 1), (15, 1)] }
def bwS (t : Nat) : State := { up15 with fabric := { up15.fabric with bulkWait := [(0, rpk 12)] }, now := t }
def tok (n : Nat) : List Byte := leBytes n 8 ++ leBytes 77 8 ++ List.replicate 16 0
def cl1 (st w : Nat) : State := { tFull with closes := [(1, st, w, true)] }
def snD (n : Nat) : List Byte := dsc (64 + 16 * n) ([(0, 6, 0), (8, 2, n), (16, 8, 0x99), (24, 4, 7), (28, 4,
    3)] ++ (List.range n).flatMap (fun i => [(64 + 16 * i, 8, 0x8000 + 64 * i), (72 + 16 * i, 8, 64)]))
def snS (n : Nat) : State := (putm tFull 0x4000 (snD n)).setReg R.TRN_SNAP_ADDR 0x4000
def qpR : Qp := { Qp.reset with state := 1, ctx := List.replicate 64 1, rate := 20 * 2 ^ 40 }
def sn (n d : Nat) : Snap := { epoch := 0, regions := (List.range n).map (fun i => (0x8000 + 64 * i, 64)), done := d, read := [], table := [], va := 0x99, qp := 7, rkey := 3, bad := false, stamp := [], signing := 0, manifest := [], sig := [] }
def snC : State := ((tAt tFull [(R.TRN_SETTLED, F.TRN_SETTLED_HIST_VALID, 1), (R.TRN_HIST, F.TRN_HIST_OUTCOME, 1)]).setQp 7 qpR)
def lwS : State := tAt tFull [(R.TRN_CFG, F.TRN_CFG_LW_EN, 1), (R.TRN_LW_CFG, F.TRN_LW_CFG_WARMUP, 255)]
def lv (x e : Nat) : BitVec 64 := BitVec.ofNat 64 (x * 2 ^ 32 + e)
def ckS : State := tAt tFull [(R.TRN_SETTLED, F.TRN_SETTLED_EPOCH, 5), (R.TRN_SETTLED, F.TRN_SETTLED_HIST_VALID, 64),
    (R.TRN_HIST, F.TRN_HIST_OUTCOME, 2 ^ 64 - 1), (R.TRN_CKPT, F.TRN_CKPT_LAST, 3)]
def shS (s : State) : State := tAt s [(R.PEND_STAT, F.PEND_STAT_STATE, psPaired), (R.PEND_CFG, F.PEND_CFG_MODE, 2)]
theorem witness_FabricTraffic_1 :
  (∀ x ∈ [(1, tWrite), (15, tWrite), (1, tReadReq), (1, tRegRd), (1, tRegWr), (1, tLockOp), (2, tRedHdr), (11, tRedData), (2,
      tRetract)], inT fS (fh x.1 0x1000) x.2 (if 12 ≤ x.1.val then fS else fU (fh x.1 0x1000)) = true) ∧
    fS.pairedFace = false ∧ fS.holdsIngress = false ∧ fS.mode ≠ mEarly ∧ fS.pend.heldIn = [] := by decide +kernel
theorem witness_FabricTraffic_2 :
  let b := List.replicate 256 (7 : Byte)
  fS.mappedRange 0x1000 256 = true ∧ inRegWindow 0x1000 = false ∧ fS.evalRefuses [(0x1000, 256)] = false ∧
    fS.pendAreas = [] ∧ fS.altered = [] ∧ fS.held = [] ∧ b.length = 256 := by decide +kernel
theorem witness_FabricTraffic_3 :
  let h := fh 1 0x1000
  let x := (fU h).readMem fabWho 0x1000 256
  x.2.2 = false := by decide +kernel
theorem witness_FabricTraffic_4 :
  let h := fh 1 0x10
  arr fS h tReadResp = true ∧ fS.pairedFace = false ∧ fS.findReq h = none ∧
    (fRq (frq (.load 3) tRegRd) fS).findReq h = some (frq (.load 3) tRegRd) ∧ tReadResp = answerType tRegRd ∧
    tWriteAck ≠ answerType tRegRd ∧ (∀ t ∈ [tWriteAck, tLockResp], arr fS h t = true) ∧
    arr fS (fh 2 0x10) tRetractAck = true := by decide +kernel
theorem witness_FabricTraffic_5 :
  let h : Hdr := { (rpk 1).hdr with hops := 62 }
  up15.mainUp = true ∧ vcOk tWrite 1 = true ∧ h.dst.toNat ≠ up15.ownAddr ∧ h.dst.toNat ≠ 0 ∧ h.dst.toNat ≤ 0x3FFF ∧
    up15.fabric.bulkWait = [] ∧ up15.routePort 7 1 0 = some 15 := by decide +kernel
theorem witness_FabricTraffic_6 :
  let s := bwS (2 * usTicks)
  s.mainUp = true ∧ 0 + 2 * usTicks ≤ s.now ∧ s.now ≤ 0 + 2 * s.fld R.RYF_CFG F.RYF_CFG_E2E_US * usTicks ∧
    s.routePort 7 12 0 = none ∧ s.routePort 7 15 0 = some 15 := by decide +kernel
theorem witness_FabricTraffic_7 :
  let s := fRq (frq .none tWrite) fS
  s.mainUp = true ∧ s.redTx = [] ∧ s.fabric.early = [] ∧ s.silentBack = false ∧ s.now < 0 + s.e2e ∧
    (let s := { s with now := s.e2e }; 0 + s.e2e ≤ s.now) := by decide +kernel
theorem witness_FabricTraffic_8 :
  let h := fh 1 0
  let b := tok 5
  up15.portV3 15 = true ∧ b.length = 32 ∧ leField b 8 8 ≠ up15.serial ∧
    up15.seenFlood (leField b 8 8) (leField b 0 6) = false ∧ up15.fld R.BEAT_CFG F.BEAT_CFG_SOURCE ≠ 2 ∧
    up15.pert 0 = false ∧ vcOk 0x10 h.vc.val = true ∧ up15.portV3 0 = false := by decide +kernel
theorem witness_TrainingSteps_1 :
  let s := cl1 stDone 0
  s.serving = true ∧ s.settled = 0 ∧ s.closes.find? (fun c => c.1 == 1) = some (1, stDone, 0, true) ∧
    tFull.closes.find? (fun c => c.1 == 1) = none ∧ stLink ≠ stDone ∧ s.fld R.TRN_STAT F.TRN_STAT_OUT_OF_STEP ≠ 1 :=
        by decide +kernel
theorem witness_TrainingSteps_2 :
  let s := tFull
  s.snap = none ∧ s.pendingVeto = 0 ∧ (List.range 240).all (fun q => decide ((s.qint q).wait = none)) = true := by decide +kernel
theorem witness_TrainingSteps_3 :
  let s := tFull
  s.mainUp = true ∧ s.fld R.TRN_CFG F.TRN_CFG_COMMIT_GROUP = 0 ∧ F.TRN_SETTLE_LOCAL_EPOCH.get 1 = s.settled + 1 ∧
    F.TRN_SETTLE_LOCAL_EPOCH.get 2 ≠ s.settled + 1 := by decide +kernel
theorem witness_TrainingSteps_4 :
  let s := tFull
  s.mainUp = true ∧ s.fld R.TRN_STAT F.TRN_STAT_PENDING = 0 ∧
    s.cmds.any (fun c => c.gated && !(isCollective c.code) && c.phase == .accepted) = false ∧
    (tAt s [(R.TRN_STAT, F.TRN_STAT_PENDING, 8)]).fld R.TRN_STAT F.TRN_STAT_PENDING ≠ 0 := by decide +kernel
theorem witness_TrainingSteps_5 :
  let s := lwS
  s.mainUp = true ∧ s.lossEpoch 8 = some 8 ∧ s.lossEpoch 9 = none ∧ s.fld R.TRN_CFG F.TRN_CFG_LW_EN ≠ 0 ∧
    s.fld R.TRN_LW_STAT F.TRN_LW_STAT_LAST_EPOCH < 8 ∧ nonfinite fFp32 0x7F800000 = true ∧
    nonfinite fFp32 0x7F7FFFFF = false ∧ s.fld R.TRN_LW_STAT F.TRN_LW_STAT_SEEN = 0 ∧
    s.fld R.TRN_LW_CFG F.TRN_LW_CFG_WARMUP ≠ 0 ∧ tFull.fld R.TRN_CFG F.TRN_CFG_LW_EN = 0 ∧
    F.TRN_LOSS_LOSS.get (lv 0x7F800000 8) = 0x7F800000 ∧ F.TRN_LOSS_EPOCH_LO.get (lv 0x7F800000 8) = 8 := by decide +kernel
theorem witness_TrainingSteps_6 :
  let s := tAt tFull [(R.TRN_EVAL_CFG, F.TRN_EVAL_CFG_PERIOD, 65535), (R.TRN_EVAL_CFG, F.TRN_EVAL_CFG_COUNT, 1)]
  s.mainUp = true ∧ s.inSlot = true ∧ tFull.inSlot = false := by decide +kernel
theorem witness_TrainingSteps_7 :
  let s := tFull.setReg R.TRN_SNAP_ADDR 63
  s.serving = true ∧ s.fld R.TRN_STAT F.TRN_STAT_SNAP_BUSY ≠ 1 ∧ (s.reg R.TRN_SNAP_ADDR).toNat % 64 ≠ 0 ∧
    (tAt s [(R.TRN_STAT, F.TRN_STAT_SNAP_BUSY, 1)]).fld R.TRN_STAT F.TRN_STAT_SNAP_BUSY = 1 := by decide +kernel
theorem witness_TrainingSteps_8 :
  let s := snS 2
  (match ((s.setReg R.TRN_SNAP_STAT 0).setFld R.TRN_STAT F.TRN_STAT_SNAP_BUSY 1).readSnap with | (.ok n, w) => decide (w.epochState n.epoch = .unsettled ∨ w.epochState n.epoch = .committed) | _ => false) = false := by decide +kernel
theorem witness_TrainingSteps_9 :
  let s := tAt (snS 2) [(R.TRN_SETTLED, F.TRN_SETTLED_HIST_VALID, 1), (R.TRN_HIST, F.TRN_HIST_OUTCOME, 1)]
  (match ((s.setReg R.TRN_SNAP_STAT 0).setFld R.TRN_STAT F.TRN_STAT_SNAP_BUSY 1).readSnap with | (.ok n, w) => decide (w.epochState n.epoch = .unsettled ∨ w.epochState n.epoch = .committed) | _ => false) = true := by decide +kernel
theorem witness_TrainingSteps_10 :
  let s := { snC with snap := some (sn 2 0) }
  s.serving = true ∧ s.epochState 0 = .committed ∧ (sn 2 0).regions[0]? = some (0x8000, 64) ∧
    (0 + 1 < (sn 2 0).regions.length) ∧
    (match s.readMem snapWho 0x8000 64 with | (b, v, _) => (v.rdmaSend 7 0x99 3 b).2) = true ∧
    tFull.epochState 0 ≠ .committed := by decide +kernel
theorem witness_TrainingSteps_11 :
  let s := { snC with snap := some { sn 2 2 with signing := 3 } }
  s.serving = true ∧ (s.rdmaSend 7 (0x99 + (sn 2 2).total) 3 []).2 = true ∧
    (s.rdmaSend 7 (0x99 + (sn 2 2).total) 3 []).1.snap = s.snap := by decide +kernel
theorem witness_TrainingSteps_12 :
  let s := ckS
  s.mainUp = true ∧ s.settled = 5 ∧ s.epochState 5 = .committed ∧ s.shadow = false := by decide +kernel
theorem witness_TrainingSteps_13 :
  let s := shS ckS
  s.mainUp = true ∧ s.settled = 5 ∧ s.epochState 5 = .committed ∧ s.shadow = true ∧ s.pairState = psPaired ∧ s.cmds = [] ∧
    s.pend.confirm = none := by decide +kernel

end W8

/-! ### Witnesses (PairTraffic, PairStates) -/

namespace W9

def pS (st mode role : Nat) : State := tAt tFull [(R.ID_ADDR, F.ID_ADDR_MODULE_ADDR, 0x3FFF), (R.PEND_STAT,
    F.PEND_STAT_STATE, st), (R.PEND_STAT, F.PEND_STAT_ROLE, role), (R.PEND_CFG, F.PEND_CFG_MODE, mode), (R.PEND_STAT,
    F.PEND_STAT_LINKS, 3), (R.PEND_CFG, F.PEND_CFG_PROBE_US, 50)]
def pT : Partner := { mode := 1, solo := false, fw := 0, serial := 5, straps := 0, source := 0, master := 0, addr := 2, win := 0, resv := 0, darea := 0, nonce := [] }
def pM : Member := ⟨2, 5, 9, 1, 3⟩
def pB (st mode role : Nat) : State := { pS st mode role with members := [pM], pend := { PendInt.fresh with partner := some pT } }
def upP (s : State) (f : PendInt → PendInt) : State := { s with pend := f s.pend }
def itm : IngressItem := .sbWrite 0x10 5
def itR : IngressItem := .reply 3 0 none []
def cmpC : Cmd := { mkCmd 208 [(0, 1, 0x40), (8, 1, 1)] with phase := .started }
def cmpS (role : Nat) (since : Nat) : State := { upP (pB psPaired 1 role) (fun p => { p with compares := [⟨208, 1, [7], since⟩] }) with cmds := [cmpC] }
def aP (s : State) (b : Bool) : State := s.afterPair b
def jS : State := (tAt (pS psUnpaired 1 0) [(R.PEND_CFG, F.PEND_CFG_PAIR_ID, 9)]).setLink 17 { LinkPort.down with peerPair := 9 }
def cpS (st e : Nat) : State := tAt (pB psPaired 2 3) [(R.PEND_COPY, F.PEND_COPY_STATE, st), (R.PEND_COPY, F.PEND_COPY_EPOCH,
    e), (R.PEND_RESTORE_EPOCH, F.PEND_RESTORE_EPOCH_EPOCH, e)]
theorem witness_PairTraffic_1 :
  (pS psPaired 1 1).mainUp = true ∧ ((List.range 2).filter (pS psPaired 1 1).pendUp).length = 2 := by decide +kernel
theorem witness_PairTraffic_2 :
  let s := pS psSyncing 1 1
  s.mainUp = true ∧ s.pendUp 1 = true ∧ s.pend.heldIn = [] ∧ s.pairState ≠ psPaired ∧ tFull.pendUp 1 = false := by decide +kernel
theorem witness_PairTraffic_3 :
  let s := pS psPaired 2 3
  s.pairState = psPaired ∧ s.mirror = false ∧ s.reg R.PEND_PEER_INCARN = 0 ∧ (3 : BitVec 8).toNat ≠ psDetaching ∧
    s.pend.compares = [] ∧ s.colls = [] ∧ s.pend.quiesced = false := by decide +kernel
theorem witness_PairTraffic_4 :
  let s := { pB psPaired 1 1 with now := 20 * usTicks }
  s.mainUp = true ∧ s.pairState = psPaired ∧ s.pend.probeAt = 0 ∧ s.pend.lastHb + 20 * usTicks ≤ s.now := by decide +kernel
theorem witness_PairTraffic_5 :
  let s := upP (pB psPaired 1 2) (fun p => { p with probeAt := 1 })
  s.mainUp = true ∧ s.pairState = psPaired ∧ s.pend.probeAt ≠ 0 ∧ s.memberIncarn s.partnerAddr = some 9 ∧
    s.now < s.pend.probeAt - 1 + s.fld R.PEND_CFG F.PEND_CFG_PROBE_US * usTicks ∧
    (let s := { s with members := [] }; s.memberIncarn s.partnerAddr = none) ∧
    (let s := { s with now := 50 * usTicks }; s.pend.probeAt - 1 + s.fld R.PEND_CFG F.PEND_CFG_PROBE_US * usTicks ≤ s.now) :=
        by decide +kernel
theorem witness_PairTraffic_6 :
  let s := pB psPaired 1 2
  s.pend.compares = [] ∧ s.colls = [] ∧ s.pend.quiesced = false ∧ s.mirror = true ∧ s.role = roleBack := by decide +kernel
theorem witness_PairTraffic_7 :
  let s := upP (pB psSolo 1 1) (fun p => { p with adverts := 2 })
  s.mainUp = true ∧ s.pend.adverts ≠ 0 ∧ s.pend.advertAt ≤ s.now := by decide +kernel
theorem witness_PairTraffic_8 :
  let s := pB psPaired 1 2
  s.serving = true ∧ s.silentBack = true ∧ s.pend.heldIn = [] ∧ s.pend.ingDone = 0 ∧ s.actable itm = true ∧
    tFull.silentBack = false := by decide +kernel
theorem witness_PairTraffic_9 :
  let s := pB psPaired 1 1
  s.serving = true ∧ s.pairedFace = true ∧ s.pend.heldIn = [] ∧ tFull.pairedFace = false := by decide +kernel
theorem witness_PairTraffic_10 :
  let s := (pB psPaired 1 2).setFld (R.CANV_GATE_CFG 3) (F.CANV_GATE_CFG_FOLLOW 3) 1
  s.serving = true ∧ s.silentBack = true ∧ s.follows 3 3 = true ∧ s.follows 0 0 = false ∧ (s.gate 3 3).waits = [] :=
      by decide +kernel
theorem witness_PairTraffic_11 :
  let s := cmpS 1 0
  s.serving = true ∧ s.pend.heldIn = [] ∧ s.pairState = psPaired ∧ s.mirror = true ∧ s.findCmd 208 1 = some cmpC ∧
    s.colls = [] ∧ s.pend.quiesced = false ∧ (pB psPaired 1 1).pend.compares = [] ∧ tFull.mirror = false := by decide +kernel
theorem witness_PairTraffic_12 :
  let s := { cmpS 1 0 with now := msTicks }
  s.mainUp = true ∧ s.findCmd 208 1 = some cmpC ∧ 0 + msTicks ≤ s.now := by decide +kernel
theorem witness_PairTraffic_13 :
  let s := pB psPaired 2 3
  s.mainUp = true ∧ s.shadow = true ∧ s.pairState = psPaired := by decide +kernel
theorem witness_PairTraffic_14 :
  let s := pB psPaired 1 2
  s.serving = true ∧ s.silentBack = true := by decide +kernel
theorem witness_PairTraffic_15 :
  (∀ k ∈ [0x40, 0x41, 0x42], ({ pS psPaired 1 1 with cmds := [mkCmd 208 [(0, 1, k)]] } : State).startOf 208 1 k = .go (mkCmd 208 [(0, 1, k)])) ∧
    (pS psPaired 1 1).shadow = false ∧ (pS psPaired 1 1).engineClosing (mkCmd 208 [(0, 1, 0x40)]) = false := by decide +kernel
theorem witness_PairStates_1 :
  let s := pS psUnpaired 1 0
  s.serving = true ∧ s.pairState = psUnpaired ∧ s.pend.compares = [] ∧ s.colls = [] ∧ s.pend.quiesced = false ∧
    s.partnerSeen = false ∧ jS.partnerSeen = true ∧ jS.pend.partner = none ∧ jS.pairState = psUnpaired := by decide +kernel
theorem witness_PairStates_2 :
  let s := pS psSyncing 1 1
  s.serving = true ∧ s.role = roleFace ∧ s.pend.blocksDone = false ∧ s.pend.quiesced = false ∧
    (tAt s [(R.PEND_CFG, F.PEND_CFG_QUIESCE_MIB, 0)]).marked.length = 0 ∧
    (tAt s [(R.PEND_CFG, F.PEND_CFG_QUIESCE_MIB, 65535)]).marked.length < 65535 * 256 ∧ s.joinIdle = true ∧
    (let s := { s with cmds := [{ tCmd 3 1 [] with phase := .started }] }; s.joinIdle = false) ∧
    (List.range 240).all (fun q => decide ((s.qint q).wait = none)) = true := by decide +kernel
theorem witness_PairStates_3 :
  let s := upP (pB psSyncing 1 1) (fun p => { p with blocksDone := true })
  s.serving = true ∧ s.pairState = psSyncing ∧ s.pend.blocksDone = true ∧ s.pend.heldIn = [] := by decide +kernel
theorem witness_PairStates_4 :
  let s := pB psPaired 1 1
  s.mainUp = true ∧ s.mode = mFull ∧ s.pend.compares = [] ∧ tEarly.mode ≠ mFull ∧ tEarly.mode ≠ mDegraded ∧
    tEarly.mainUp = true := by decide +kernel
theorem witness_PairStates_5 :
  let s := upP (tAt tFull [(R.ID_STATE, F.ID_STATE_STATE, mDetaching), (R.PWR_DOM_STAT, F.PWR_DOM_STAT_ON,
      0)]) (fun p => { p with detached := true })
  s.mainUp = true ∧ s.mode = mDetaching ∧ s.pend.detached = true ∧ s.fld R.PWR_DOM_STAT F.PWR_DOM_STAT_ON = 0 := by decide +kernel
theorem witness_PairStates_6 :
  let s := cpS cpValid 4
  s.mainUp = true ∧ s.shadow = true ∧ s.pairState = psPaired ∧ s.pend.merging = 0 ∧
    s.fld R.PEND_COPY F.PEND_COPY_STATE = cpValid := by decide +kernel
theorem witness_PairStates_7 :
  let s := upP tFull (fun p => { p with confirm := some (7, 0) })
  s.mainUp = true ∧ s.now < 0 + 100 * usTicks ∧ tFull.pend.confirm = none := by decide +kernel
theorem witness_PairStates_8 :
  let s := upP (cpS cpMerging 4) (fun p => { p with merging := 5, staged := [⟨5, 0x40, [1]⟩] })
  s.mainUp = true ∧ s.pend.merging ≠ 0 ∧ s.pend.staged.all (fun x => decide (s.pend.merging ≤ x.epoch)) = true ∧
    s.fld R.PEND_COPY F.PEND_COPY_STATE = cpMerging := by decide +kernel
theorem witness_PairStates_9 :
  let s := cpS cpValid 4
  s.pend.partner = some pT ∧ s.fld R.PEND_RESTORE_EPOCH F.PEND_RESTORE_EPOCH_EPOCH = s.fld R.PEND_COPY F.PEND_COPY_EPOCH ∧
    s.pendPort ≠ none ∧ tFull.shadow = false := by decide +kernel

end W9

/-! ### Witnesses (HostPort, SidebandCommands) -/

namespace W10

def hS (f : List (Nat × Field × Nat)) : State := tAt tFull ([(R.HOSTP_STAT, F.HOSTP_STAT_LINK, 2)] ++ f)
def hT : State := hS []
def hQp (b : List Byte) : Qp := { Qp.reset with state := 1, ctx := b, rqPsn := 0xFFFFFF, rate := lineRate, unacked := [⟨0xFFFFFE, 3, 0, 0, []⟩, ⟨1, 1, 0, 0, []⟩] }
def ctx0 : List Byte := dsc 64 [(46, 1, 3), (47, 1, 1), (48, 8, 0x10000), (56, 8, 0x8000), (44, 1, 7), (45, 1, 1)]
def mrT : List Byte := dsc 32 [(0, 8, 0x20000), (8, 8, 0x1000), (16, 4, 0x100), (20, 1, 7)]
def hR : State := (putm (hS [(R.HOSTP_MR, F.HOSTP_MR_BASE, 0x9000), (R.HOSTP_MR, F.HOSTP_MR_COUNT,
    1)]) 0x9000 mrT).setQp 4095 (hQp ctx0)
def th (k : Fin 8) (q : BitVec 64) : TctHead := ⟨9, 63, k, q⟩
def hK : State := tAt hT [(R.HOSTP_KEYSTAT, F.HOSTP_KEYSTAT_LOADED, 128)]
def hKq (h : Nat) (r : Option (List Byte)) : State := hK.setSession 63 ⟨h, [(h, r)], 9, 7⟩
def sE (m : Nat) : State := (State.reset.setFld R.ID_STATE F.ID_STATE_STATE m).setFld R.HOSTP_SB F.HOSTP_SB_EID 255
def sF : State := { (tAt tFull [(R.HOSTP_SB, F.HOSTP_SB_EID, 9), (R.SEC_STAT, F.SEC_STAT_SVN_IMAGE, 3)]) with imageUp := true }
theorem witness_HostPort_1 :
  let s := tAt tFull [(R.HOSTP_STAT, F.HOSTP_STAT_LINK, 1), (R.HOSTP_CFG, F.HOSTP_CFG_RATE, 2)]
  s.mainUp = true ∧ s.domUp 52 = true ∧ s.fld R.HOSTP_STAT F.HOSTP_STAT_LINK = 1 ∧ s.mirror = false ∧
    hT.fld R.HOSTP_STAT F.HOSTP_STAT_LINK = 2 := by decide +kernel
theorem witness_HostPort_2 :
  hT.powered = true ∧ hT.hostUp = true ∧ hT.serving = true ∧ tFull.hostUp = false ∧ hSv hT = true := by decide +kernel
theorem witness_HostPort_3 :
  (hR.qp 4095).state = 1 ∧ hSv hR = true ∧ (hR.qp 0).state ≠ 1 ∧ psnLe 0xFFFFFE 0xFFFFFF = true ∧
    psnLe 0 0xFFFFFF = false ∧ hR.bells = [] ∧ (hR.regionOk 0x100 0x20000 256 1).2 = true ∧
    (hR.regionOk 0x100 0x20F00 256 2).2 = true ∧ (hR.regionOk 0x100 0x20F01 256 2).2 = false := by decide +kernel
theorem witness_HostPort_4 :
  hR.guardWrite 0x20000 256 = (false, hR) := by decide +kernel
theorem witness_HostPort_5 :
  let x := hR.qp 4095
  x.at 48 8 ≠ 0 ∧ hR.isOwn (x.at 48 8) = true ∧ hR.isOwn (x.at 56 8) = true ∧
    hR.mappedRange (gaLocal (x.at 56 8)) 4 = true ∧
    (x.sends + 2 ^ 32 - ofLe (hR.peek (gaLocal (x.at 56 8)) 4)) % 2 ^ 32 < 2 ^ (x.at 47 1) ∧
    hR.mappedRange 0x10000 4096 = true ∧ hR.guardWrite 0x10000 4096 = (false, hR) := by decide +kernel
theorem witness_HostPort_6 :
  (hR.qp 4095).cutAt = 0 ∧ (hR.qp 4095).unacked.length = 2 := by decide +kernel
theorem witness_HostPort_7 :
  let s := { hR with now := 9 * usTicks }
  let x := s.qp 4095
  x.state = 1 ∧ x.unacked ≠ [] ∧ x.sentAt * 1000 + 4096 * usTicks * 2 ^ (x.at 45 1 % 32) ≤ s.now * 1000 ∧
    x.tries < x.at 44 1 % 8 ∧ s.bells = [] := by decide +kernel
theorem witness_HostPort_8 :
  tFull.blockUp .hostp = true ∧ tFull.bells = [] ∧ tAon.blockUp .hostp = false ∧
    tFull.fld R.HOSTP_QPC F.HOSTP_QPC_COUNT ≤ 4095 ∧ qpCtxOk ctx0 = true := by decide +kernel
theorem witness_HostPort_9 :
  hSv hK = true ∧ hK.keyLoaded 7 = true ∧ hK.keyLoaded 0 = false ∧ hK.keyPriv 7 = false ∧ tctLenOk tctRegRd 8 = true ∧
    (hK.session 63).high < 1 ∧ ((hKq 5 none).session 63).seen.find? (fun r => r.1 == 4) = none ∧
    ((hKq 5 (some [0])).session 63).seen.find? (fun r => r.1 == 5) = some (5, some [0]) := by decide +kernel
theorem witness_HostPort_10 :
  hK.mappedRange 0x1000 8192 = true ∧ hK.guardWrite 0x1000 3 = (false, hK) := by decide +kernel
theorem witness_HostPort_11 :
  let b : HeldBell := ⟨63, 5, 7, R.QTAIL 0, 1, 4095, 0xFFFFFE⟩
  let s := { hR with bells := [b] }
  s.mainUp = true ∧ s.fencePassed b.qpn b.psn = true ∧ hT.fencePassed b.qpn b.psn = false := by decide +kernel
theorem witness_HostPort_12 :
  let s := { hT with events := [⟨1, []⟩, ⟨2, []⟩] }
  s.mainUp = true ∧ s.mirrorBack = false := by decide +kernel
theorem witness_SidebandCommands_1 :
  State.reset.fld R.HOSTP_SB F.HOSTP_SB_EID = 0 ∧ tFull.fld R.HOSTP_SB F.HOSTP_SB_EID = 0 ∧ State.reset.powered = true :=
      by decide +kernel
theorem witness_SidebandCommands_2 :
  sF.powered = true ∧ sF.fld R.HOSTP_SB F.HOSTP_SB_EID ≠ 0 ∧ (8 : BitVec 16).toNat < 9 := by decide +kernel
theorem witness_SidebandCommands_3 :
  let s := sF
  s.sbAccess 1 ≠ ccOk ∧ s.sbAccess R.ID_SERIAL = ccOk ∧ s.pairedFace = false ∧ s.holdsIngress = false ∧
    (sE mAon).sbAccess R.TRN_CFG ≠ ccOk ∧ (sE mAon).sbAccess R.HOSTP_SB = ccOk := by decide +kernel
theorem witness_SidebandCommands_4 :
  let s := sF.setSession 63 ⟨5, [], 9, 7⟩
  s.powered = true ∧ s.fld R.HOSTP_SB F.HOSTP_SB_EID ≠ 0 ∧ s.sessions ≠ [] := by decide +kernel
theorem witness_SidebandCommands_5 :
  (4 : BitVec 8).toNat ≤ 7 := by decide +kernel
theorem witness_SidebandCommands_6 :
  sF.mode ≠ mBoot ∧ sF.signReqs.length < 64 ∧ sF.idxNext < 2 ^ 40 ∧ (sE mBoot).mode = mBoot := by decide +kernel
theorem witness_SidebandCommands_7 :
  let s := { sF with debugExpiry := 5, now := 5 * rcTicks }
  s.debugExpiry ≠ 0 ∧ s.debugExpiry ≤ s.uptime := by decide +kernel
theorem witness_SidebandCommands_8 :
  let s := { sF with signReqs := [⟨.report, [1, 2], 0⟩, ⟨.join, [], 0⟩] }
  s.pend.heldIn = [] ∧ s.idxNext < 2 ^ 40 := by decide +kernel

end W10

/-! ### Witnesses (UpdateAndRecovery, PowerLoops) -/

namespace W11

def uH : List Byte := leBytes 0 16 ++ leBytes 64 8
def uS (st : Nat) (u : Option (Nat × Nat)) : State := { (putm (tAt tFull [(R.SEC_UPD_STAT, F.SEC_UPD_STAT_STATE, st)]) 0x10000 uH).setReg R.SEC_UPD_ADDR 0x10000 with update := u }
def rS : State := tAt (tMode mRecovery []) [(R.PEND_STAT, F.PEND_STAT_LINKS, 3)]
def wR (r : Recov) : State := { rS with recov := r }
theorem witness_UpdateAndRecovery_1 :
  let s := uS 0 none
  let g := (s.reg R.SEC_UPD_ADDR).toNat
  s.mainUp = true ∧ g % 4096 = 0 ∧ s.isOwn g = true ∧ s.mappedRange (gaLocal g) 4096 = true ∧
    imgBody (fun i => s.byteAt ((memKey (gaLocal g + i)).getD 0)) = 64 ∧ s.mappedRange (gaLocal g) (4096 + 64) = true :=
        by decide +kernel
theorem witness_UpdateAndRecovery_2 :
  let s := uS 1 (some (0x10000, 4160))
  s.mainUp = true ∧ s.fld R.SEC_UPD_STAT F.SEC_UPD_STAT_STATE = 1 ∧ s.altered = [] ∧ s.held = [] := by decide +kernel
theorem witness_UpdateAndRecovery_3 :
  let s := uS 2 (some (0x10000, 4160))
  s.mainUp = true ∧ s.fld R.SEC_UPD_STAT F.SEC_UPD_STAT_STATE = 2 := by decide +kernel
theorem witness_UpdateAndRecovery_4 :
  rS.recovering = true ∧ tFull.recovering = false ∧ tFull.powered = true ∧ rS.recov.winner = 0 ∧ rS.recov.owner = none :=
      by decide +kernel
theorem witness_UpdateAndRecovery_5 :
  let s := wR { Recov.none_ with owner := some 9 }
  s.recovering = true ∧ s.recov.winner = 0 ∧ s.recov.owner = some 9 ∧ s.now < s.recov.ownerAt + 10000 * msTicks :=
      by decide +kernel
theorem witness_UpdateAndRecovery_6 :
  rS.recovPort 1 = true ∧ rS.recov.pendNext = 0 ∧ (wR { Recov.none_ with pendPort := 2 }).recovPort 0 = false := by decide +kernel
theorem witness_UpdateAndRecovery_7 :
  let s := wR { Recov.none_ with winner := 2, length := 5, pend := [(4, 7)] }
  s.recovering = true ∧ s.recov.winner ≠ 0 ∧ s.recov.owner = none := by decide +kernel
theorem witness_UpdateAndRecovery_8 :
  let s := tAt tFull [(R.SEC_CFG, F.SEC_CFG_SERVE_PEER, 1), (R.PEND_STAT, F.PEND_STAT_LINKS, 2)]
  s.serving = true ∧ s.fld R.SEC_CFG F.SEC_CFG_SERVE_PEER ≠ 0 ∧ s.pendUp 1 = true ∧ s.pendUp 0 = false := by decide +kernel
theorem witness_PowerLoops_1 :
  let s := tEarly
  s.powered = true ∧ s.mode = mEarly := by decide +kernel
theorem witness_PowerLoops_2 :
  let s := (tAt tFull [(R.PWR_DOM_CLOSING, F.PWR_DOM_CLOSING_DOM, 2 ^ 52), (R.PWR_DOM_REQ, F.PWR_DOM_REQ_REQ, 0)])
  s.powered = true ∧ s.bit R.PWR_DOM_CLOSING F.PWR_DOM_CLOSING_DOM 52 = true ∧ s.mode ≠ mDetaching ∧
    s.bit R.PWR_DOM_REQ F.PWR_DOM_REQ_REQ 52 = false ∧ s.bit R.PWR_DOM_CLOSING F.PWR_DOM_CLOSING_DOM 55 = false :=
        by decide +kernel
theorem witness_PowerLoops_3 :
  let s := { tFull with power := { PowerInt.fresh with turningOn := [(55, 0)] } }
  s.mainUp = true ∧ s.power.wantOn = [] := by decide +kernel
theorem witness_PowerLoops_4 :
  tFull.mainUp = true := by decide +kernel
theorem witness_PowerLoops_5 :
  let s := { (tAt tFull [(R.PWR_STAT, F.PWR_STAT_F, 16)]) with power := { PowerInt.fresh with usCount := 10 } }
  s.mainUp = true ∧ 10 ≤ s.power.usCount ∧ s.power.usLow = true := by decide +kernel
theorem witness_PowerLoops_6 :
  let s := tFull
  s.fld R.PWR_THERM F.PWR_THERM_T_STEP ≤ s.fld R.PWR_THERM F.PWR_THERM_T_TRIP ∧
    s.fld R.PWR_THERM F.PWR_THERM_T_STEP < 256 ∧ s.power.dies.length = 4 ∧ s.power.stackTemp.length = 16 ∧
    s.power.stackThrottle.length = 16 ∧ 95 ≤ s.fld R.PWR_THERM F.PWR_THERM_T_TRIP := by decide +kernel
theorem witness_PowerLoops_7 :
  let s := { tFull with power := { PowerInt.fresh with avgMs := List.replicate 10 tFull.cap, msSum := tFull.cap, msCount := 1 } }
  s.mainUp = true ∧ (let ten := ((s.cap :: s.power.avgMs).take 10).sum; 9 * s.cap ≤ ten ∧ ten ≤ 10 * s.cap) := by decide +kernel
theorem witness_PowerLoops_8 :
  let s := { (tAt tFull [(R.ID_UNITS, F.ID_UNITS_DIE_IN_SERVICE, 0)]) with power := { PowerInt.fresh with avgMs := List.replicate 10 5000 } }
  s.mainUp = true ∧ 10 * s.cap < ((0 :: s.power.avgMs).take 10).sum ∧ (List.range 4).all (fun d => !(s.dieIn d)) = true ∧
    s.fld R.PWR_STAT F.PWR_STAT_CAP_HOLD = 0 := by decide +kernel
theorem witness_PowerLoops_9 :
  let s := tFull
  let p := min (s.pProt 3) (s.pSw 3)
  let s := tAt s [(R.DPWR_STAT 3, F.DPWR_STAT_POINT, p)]
  s.pWant 3 = s.point 3 ∧ s.point 3 ≤ s.pProt 3 ∧ (s.loop 3).overStart = 0 ∧ s.effFloor 3 ≤ s.point 3 := by decide +kernel
theorem witness_PowerLoops_10 :
  let s := { tFull with power := { PowerInt.fresh with dies := List.replicate 4 { DieLoop.fresh with overStart := 1 } }, now := 1000 * msTicks }
  s.mainUp = true ∧ (s.loop 3).overStart ≠ 0 ∧ (s.loop 3).overRec + 1000 * msTicks ≤ s.now ∧ s.power.dies.length = 4 :=
      by decide +kernel
theorem witness_PowerLoops_11 :
  let s := { tFull with now := 100000 * rcTicks }
  s.mainUp = true ∧ s.ceIndex ≠ s.uptime / 100000 ∧ tFull.ceIndex = tFull.uptime / 100000 := by decide +kernel

end W11

/-! ### Witnesses (QueueControl) -/

namespace W12

theorem witness_QueueControl_5 :
  let s := { tAt tFull [(R.QSTAT 3, F.QSTAT_STATE, 4)] with cmds := [{ tCmd 3 1 [] with phase := .started }] }
  s.qBlockUp 3 = true ∧ s.qClosing 3 = false ∧ s.qState 3 = qStopped ∧ s.qCmds 3 ≠ [] ∧ tFull.qState 239 = qOff :=
      by decide +kernel

end W12

end Sys2Proof.Tests
end

section
/-!
PROOFS. What the recording of an error leaves alone (R455 to R461), and the two events in which no edge comes: BEAT_COAST (R42)
and BEAT_LOST_ENTRY (R44).
-/

namespace Sys2Proof.Machine

open Sys2Proof

/-! ### What recording an error leaves alone -/

/-- The registers that recording an error may write: the ERR block, the alert and the counts of host events (R402, R403, R457). -/
def IsRecordReg (a : Nat) : Prop :=
  a = R.HOSTP_ALERT ∨ a = R.HOSTP_EVT_CNT ∨ (0x2000000b0000 ≤ a ∧ a < 0x2000000c0000)

/-- `t` is `s` after some recording of errors: only the record registers, the host events, the throttle's count and what was sent
outward may differ. -/
structure RecordFrame (s t : State) : Prop where
  rest : t = { s with regs := t.regs, events := t.events, eventSeq := t.eventSeq, eventLost := t.eventLost,
                      ceIndex := t.ceIndex, ceCount := t.ceCount, out := t.out }
  regs : ∀ a, ¬ IsRecordReg a → t.reg a = s.reg a

namespace RecordFrame

variable {s t u : State}

theorem refl (s : State) : RecordFrame s s := ⟨rfl, fun _ _ => rfl⟩

theorem trans (h : RecordFrame s t) (g : RecordFrame t u) : RecordFrame s u where
  rest := g.rest.trans (congrArg (fun x : State =>
    { x with regs := u.regs, events := u.events, eventSeq := u.eventSeq, eventLost := u.eventLost,
             ceIndex := u.ceIndex, ceCount := u.ceCount, out := u.out }) h.rest)
  regs a ha := (g.regs a ha).trans (h.regs a ha)

theorem tracker (h : RecordFrame s t) : t.tracker = s.tracker := by rw [h.rest]

theorem sameMemory (h : RecordFrame s t) : SameMemory s t := .of_eq (by rw [h.rest]) (by rw [h.rest])

theorem fld (h : RecordFrame s t) {a : Nat} (f : Field) (ha : ¬ IsRecordReg a) : t.fld a f = s.fld a f := by
  unfold State.fld
  rw [h.regs a ha]

theorem beatState (h : RecordFrame s t) : t.beatState = s.beatState := h.fld _ (by unfold IsRecordReg; decide)

theorem ite {c : Prop} [Decidable c] (ht : RecordFrame s t) (hu : RecordFrame s u) : RecordFrame s (if c then t else u) := by
  split
  · exact ht
  · exact hu

theorem thenIf {c : Prop} [Decidable c] (ht : RecordFrame s t) (hu : RecordFrame t u) : RecordFrame s (if c then u else t) :=
  .ite (ht.trans hu) ht

theorem setReg (s : State) {a : Nat} (v : Word) (ha : IsRecordReg a) : RecordFrame s (s.setReg a v) :=
  ⟨rfl, fun b hb => s.reg_setReg_other a b v (fun e => hb (e ▸ ha))⟩

theorem setFld (s : State) {a : Nat} (f : Field) (v : Nat) (ha : IsRecordReg a) : RecordFrame s (s.setFld a f v) :=
  setReg s _ ha

theorem count (s : State) {a : Nat} (f : Field) (n : Nat) (ha : IsRecordReg a) : RecordFrame s (s.count a f n) :=
  setFld s f _ ha

theorem emit (s : State) (o : Out) : RecordFrame s (s.emit o) := ⟨rfl, fun _ _ => rfl⟩

theorem setWords (s : State) {base : Nat → Nat} (bytes : List Byte) (h : ∀ w < 8, IsRecordReg (base w)) :
    RecordFrame s (s.setWords base bytes) :=
  List.foldlRecOn _ _ (refl s) fun _ hb w hw => hb.trans (setReg _ _ (h w (List.mem_range.mp hw)))

end RecordFrame

theorem isRecordReg_evtCnt : IsRecordReg R.HOSTP_EVT_CNT := .inr (.inl rfl)
theorem isRecordReg_errCnt : IsRecordReg R.ERR_CNT := .inr (.inr (by decide))
theorem isRecordReg_errWseq : IsRecordReg R.ERR_WSEQ := .inr (.inr (by decide))
theorem isRecordReg_errStat : IsRecordReg R.ERR_STAT := .inr (.inr (by decide))

theorem isRecordReg_errFatal {w : Nat} (h : w < 8) : IsRecordReg (R.ERR_FATAL w) :=
  .inr (.inr (by unfold R.ERR_FATAL; omega))

/-- The last word of the ring's last slot is the last word of the ERR block. -/
theorem isRecordReg_errRing {n w : Nat} (hn : n < 512) (hw : w < 8) : IsRecordReg (R.ERR_RING n w) :=
  .inr (.inr (by unfold R.ERR_RING; omega))

theorem State.alert_recordFrame (s : State) (i : Nat) : RecordFrame s (s.alert i) :=
  .ite (.refl s) (.setFld s _ _ (.inl rfl))

theorem State.queueEvent_recordFrame (s : State) (kind : Nat) (body : List Byte) : RecordFrame s (s.queueEvent kind body) := by
  have queued (es : List HostEvent) (n l : Nat) :
      RecordFrame s { s with events := es, eventSeq := n, eventLost := l } := ⟨rfl, fun _ _ => rfl⟩
  have counted (u : State) (f : Field) : RecordFrame u (u.count R.HOSTP_EVT_CNT f 1) := .count u f 1 isRecordReg_evtCnt
  unfold State.queueEvent
  split
  · exact ((queued ..).trans (counted _ _)).trans (.emit _ _)
  · exact ((queued ..).trans (counted _ _)).trans (State.alert_recordFrame _ _)

theorem State.hostEvent_recordFrame (s : State) (kind : Nat) (body : List Byte) : RecordFrame s (s.hostEvent kind body) :=
  .ite (s.queueEvent_recordFrame kind body) (.refl s)

theorem State.ringWrite_recordFrame (s : State) (cls : Nat) (bytes : List Byte) : RecordFrame s (s.ringWrite cls bytes) := by
  have slot (u : State) (n : Nat) : RecordFrame u (u.setWords (R.ERR_RING (n % 512)) bytes) :=
    .setWords u _ fun _ hw => isRecordReg_errRing (Nat.mod_lt _ (by decide)) hw
  have counted (u : State) (v : Word) (f : Field) : RecordFrame u ((u.setReg R.ERR_WSEQ v).count R.ERR_CNT f 1) :=
    (RecordFrame.setReg u v isRecordReg_errWseq).trans (.count _ _ _ isRecordReg_errCnt)
  have latched (u : State) : RecordFrame u ((u.setWords R.ERR_FATAL bytes).setFld R.ERR_STAT F.ERR_STAT_FATAL_VALID 1) :=
    (RecordFrame.setWords u bytes fun _ hw => isRecordReg_errFatal hw).trans (.setFld _ _ _ isRecordReg_errStat)
  have overrun := RecordFrame.count s F.ERR_CNT_OVERRUN 1 isRecordReg_errCnt
  exact .thenIf ((overrun.ite (.refl s)).trans ((slot _ _).trans (counted _ _ _))) (latched _)

theorem State.errDeliver_recordFrame (s : State) (cls : Nat) (bytes : List Byte) : RecordFrame s (s.errDeliver cls bytes) := by
  have alerted (u : State) (i : Nat) : RecordFrame u (u.alert i) := u.alert_recordFrame i
  exact .trans (.ite (s.hostEvent_recordFrame 2 bytes) (.refl s)) (.ite (alerted _ 0) (.ite (alerted _ 1) (.refl _)))

theorem State.ceAdmit_recordFrame (s : State) : RecordFrame s s.ceAdmit.2 := by
  have timed (j n : Nat) : RecordFrame s { s with ceIndex := j, ceCount := n } := ⟨rfl, fun _ _ => rfl⟩
  unfold State.ceAdmit
  rw [apply_ite Prod.snd]
  exact .ite (timed _ _) (timed _ _)

/-- Every record, throttled or written, fatal or not, stays within the frame (R455 to R461). -/
theorem State.errRecord_recordFrame (s : State) (r : ErrRec) : RecordFrame s (s.errRecord r) := by
  have written (u : State) (b : List Byte) : RecordFrame u ((u.ringWrite r.cls b).errDeliver r.cls b) :=
    (u.ringWrite_recordFrame r.cls b).trans (State.errDeliver_recordFrame _ _ _)
  unfold State.errRecord
  split
  · dsimp only
    split
    · exact s.ceAdmit_recordFrame.trans (written _ _)
    · exact s.ceAdmit_recordFrame.trans (.count _ _ _ isRecordReg_errCnt)
  · exact written s _

theorem State.coastRecord_recordFrame (s : State) (k : Nat) : RecordFrame s (s.coastRecord k) := s.errRecord_recordFrame _

theorem State.lostRecord_recordFrame (s : State) (k why : Nat) : RecordFrame s (s.lostRecord k why) := s.errRecord_recordFrame _

/-! ### The tracker's state field -/

theorem State.beatState_setBeatState (s : State) {n : Nat} (h : n < 16) : (s.setBeatState n).beatState = n :=
  s.fld_setFld_same _ _ _ (by decide) h

theorem State.setBeatState_fld_other (s : State) (n : Nat) {a : Nat} (f : Field) (h : R.BEAT_STAT ≠ a) :
    (s.setBeatState n).fld a f = s.fld a f := s.fld_setFld_other _ _ _ _ _ h

theorem State.setTracker_fld_other (s : State) (k : Tracker) {a : Nat} (f : Field) (h : R.BEAT_PERIOD ≠ a) :
    (s.setTracker k).fld a f = s.fld a f := State.fld_setReg_other { s with tracker := k } _ _ f _ h

theorem SameMemory.setTracker (s : State) (k : Tracker) : SameMemory s (s.setTracker k) :=
  .of_eq (State.setTracker_mem ..) (State.setTracker_altered ..)

/-! ### BEAT_COAST (R42) -/

/-- The line of a coasted beat: E(k) taken as T(k), P as it was, the position on its way to (k+1):0x0000 from the end of the
window (R42). -/
def State.coastTracker (s : State) : Tracker :=
  let i := s.tracker.t1 + s.beatWindow s.tracker.per
  { s.tracker with t0 := i, pos0 := s.posAt i, t1 := s.tracker.t1 + s.tracker.per, pos1 := (s.tracker.k + 1) * 2 ^ 32,
                   lastE := s.tracker.t1, lastReal := false, coasted := s.tracker.coasted + 1 }

/-- The coasting of a beat before its record. -/
def State.coastUnrecorded (s : State) : State :=
  ((s.count R.BEAT_EVCNT F.BEAT_EVCNT_COASTED 1).setTracker s.coastTracker).setBeatState 3

/-- The record is written on the entry to COAST only (R46), and is all that follows the coasting. -/
theorem State.coast_eq (s : State) :
    s.coast = if s.beatState = 2 then s.coastUnrecorded.coastRecord s.tracker.k else s.coastUnrecorded := rfl

theorem State.coast_recordFrame (s : State) : RecordFrame s.coastUnrecorded s.coast := by
  rw [s.coast_eq]
  exact .ite (s.coastUnrecorded.coastRecord_recordFrame _) (.refl _)

theorem State.coast_tracker (s : State) : s.coast.tracker = s.coastTracker := s.coast_recordFrame.tracker

theorem State.coast_beatState (s : State) : s.coast.beatState = 3 :=
  s.coast_recordFrame.beatState.trans (State.beatState_setBeatState _ (by decide))

theorem State.coastUnrecorded_sameMemory (s : State) : SameMemory s s.coastUnrecorded :=
  ((SameMemory.count s _ _ _).step (SameMemory.setTracker _ s.coastTracker)).step (.setFld _ _ _ _)

theorem State.coast_sameMemory (s : State) : SameMemory s s.coast :=
  s.coastUnrecorded_sameMemory.step s.coast_recordFrame.sameMemory

theorem State.coast_coasted (s : State) :
    s.coast.fld R.BEAT_EVCNT F.BEAT_EVCNT_COASTED = min (s.fld R.BEAT_EVCNT F.BEAT_EVCNT_COASTED + 1) 65535 := by
  rw [s.coast_recordFrame.fld _ (by unfold IsRecordReg; decide), State.coastUnrecorded,
    State.setBeatState_fld_other _ _ _ (by decide), State.setTracker_fld_other _ _ _ (by decide),
    State.fld_count_same _ _ _ _ (by decide)]
  rfl

/-- When BEAT_COAST coasts a beat (R42): the tracker follows, and the beat's window has ended without an edge. -/
def State.CoastDue (s : State) : Prop :=
  (s.beatState = 2 ∨ s.beatState = 3) ∧ s.tracker.coasted < 64 ∧
    s.tracker.t1 + s.beatWindow s.tracker.per ≤ s.hubTime

theorem exec_beatCoast_due {s : State} (hm : s.mainUp = true) (h : s.CoastDue) : exec .beatCoast s = .next s.coast :=
  (State.whenMain_next _ hm).trans (congrArg _ (if_pos h))

theorem exec_beatCoast_not_due {s : State} (hm : s.mainUp = true) (h : ¬ s.CoastDue) : exec .beatCoast s = .next s :=
  (State.whenMain_next _ hm).trans (congrArg _ (if_neg h))

/-! ### BEAT_LOST_ENTRY (R44) -/

/-- The tracker in LOST, before the record: the position held at the end of the last coasted beat (R44). -/
def State.lostUnrecorded (s : State) : State :=
  ({ s with tracker := { s.tracker with pos0 := (s.tracker.k - 1) * 2 ^ 32 + 0xFFFF0000, t0 := s.hubTime, acq := [],
                                        lastReal := false } }).setBeatState 4

/-- The state after the entry to LOST. -/
def State.lostEntry (s : State) : State := s.lostUnrecorded.lostRecord (s.tracker.k - 1) 0

theorem State.lostEntry_recordFrame (s : State) : RecordFrame s.lostUnrecorded s.lostEntry :=
  s.lostUnrecorded.lostRecord_recordFrame _ 0

theorem State.lostEntry_beatState (s : State) : s.lostEntry.beatState = 4 :=
  s.lostEntry_recordFrame.beatState.trans (State.beatState_setBeatState _ (by decide))

theorem State.lostEntry_pos0 (s : State) : s.lostEntry.tracker.pos0 = (s.tracker.k - 1) * 2 ^ 32 + 0xFFFF0000 :=
  congrArg Tracker.pos0 s.lostEntry_recordFrame.tracker

theorem State.lostEntry_sameMemory (s : State) : SameMemory s s.lostEntry :=
  have unrecorded : SameMemory s s.lostUnrecorded := .of_eq rfl rfl
  unrecorded.step s.lostEntry_recordFrame.sameMemory

theorem exec_beatLostEntry_due {s : State} (hm : s.mainUp = true) (h : s.beatState = 3 ∧ 64 ≤ s.tracker.coasted) :
    exec .beatLostEntry s = .next s.lostEntry :=
  (State.whenMain_next _ hm).trans (congrArg _ (if_pos h))

theorem exec_beatLostEntry_not_due {s : State} (hm : s.mainUp = true) (h : ¬ (s.beatState = 3 ∧ 64 ≤ s.tracker.coasted)) :
    exec .beatLostEntry s = .next s :=
  (State.whenMain_next _ hm).trans (congrArg _ (if_neg h))

/-- Settles O21: a due event leads to the state of its lemmas above, one that is not due changes nothing. -/
theorem coastThenLost : Obligations.CoastThenLost := by
  unfold Obligations.CoastThenLost
  refine ⟨fun s hm hst hc hw => ?_, fun s hm hw => ?_, fun s hm hst hc => ?_, fun s hm hc => ?_⟩
  · have due : s.CoastDue := ⟨hst, hc, hw⟩
    refine ⟨s.coast, exec_beatCoast_due hm due, s.coast_beatState, ?_⟩
    rw [s.coast_tracker]
    exact ⟨rfl, rfl, rfl, rfl, rfl, rfl, rfl, s.coast_coasted, s.coast_sameMemory⟩
  · exact exec_beatCoast_not_due hm fun ⟨_, _, hend⟩ => Nat.not_le.mpr hw hend
  · exact ⟨s.lostEntry, exec_beatLostEntry_due hm ⟨hst, hc⟩, s.lostEntry_beatState, s.lostEntry_pos0, s.lostEntry_sameMemory⟩
  · exact exec_beatLostEntry_not_due hm fun ⟨_, hmax⟩ => Nat.not_le.mpr hc hmax

end Sys2Proof.Machine
end

section
/-!
PROOFS. What the integer and bit instructions of a brush compute in one lane: ADD and SUB (R176), CMP, MAX and MIN (R177), the
unsigned MUL (R178), and the bit operations with SEL (R179).
-/

namespace Sys2Proof.Machine

open Sys2Proof

/-! ### Bits of a lane's value -/

theorem bitOf_eq_testBit (n i : Nat) : bitOf n i = n.testBit i := by
  rw [bitOf, Nat.shiftRight_eq_div_pow, Nat.testBit_eq_decide_div_mod_eq]
  exact Bool.beq_eq_decide_eq ..

theorem bitOf_and (a b i : Nat) : bitOf (a &&& b) i = (bitOf a i && bitOf b i) := by
  simp only [bitOf_eq_testBit, Nat.testBit_and]

theorem bitOf_or (a b i : Nat) : bitOf (a ||| b) i = (bitOf a i || bitOf b i) := by
  simp only [bitOf_eq_testBit, Nat.testBit_or]

theorem bitOf_xor (a b i : Nat) : bitOf (a ^^^ b) i = (bitOf a i != bitOf b i) := by
  simp only [bitOf_eq_testBit, Nat.testBit_xor]

/-- NOT of an operand of n bits is the difference to all ones. -/
theorem bitOf_complement {n v i : Nat} (hv : v < 2 ^ n) (hi : i < n) : bitOf (2 ^ n - 1 - v) i = !(bitOf v i) := by
  rw [bitOf_eq_testBit, bitOf_eq_testBit, Nat.sub_sub, Nat.add_comm 1 v, Nat.testBit_two_pow_sub_succ hv, decide_eq_true hi,
    Bool.true_and]

/-! ### Integers of n bits -/

theorem intVal_of_lt {n v : Nat} (uns : Bool) (hv : v < 2 ^ n) : intVal uns n v = if uns then (v : Int) else signedOf v n := by
  rw [intVal, Nat.mod_eq_of_lt hv]

theorem wrapInt_natCast (v w : Nat) : wrapInt v w = v % 2 ^ w := by
  rw [wrapInt, ← Int.natCast_emod, Int.toNat_natCast]

theorem subCarry_eq_addCarry {n b : Nat} (a : Nat) (c : Bool) (hb : b < 2 ^ n) :
    subCarry n a b c = addCarry n a (2 ^ n - 1 - b) c := by
  rw [subCarry, Nat.mod_eq_of_lt hb]

/-- A carry of 1 out of A − B means no borrow (R176). -/
theorem subCarry_carry {n b : Nat} (a : Nat) (hb : b < 2 ^ n) : (subCarry n a b true).2 = decide (b ≤ a) := by
  have noBorrow : 2 ^ n ≤ a + (2 ^ n - 1 - b) + 1 ↔ b ≤ a := by omega
  rw [subCarry_eq_addCarry a true hb]
  exact decide_eq_decide.mpr noBorrow

/-- COND reads the order of two values as the comparison it names (R177). -/
theorem condOf_order (c : Nat) (va vb : Int) : condOf c (decide (va < vb)) (decide (va = vb)) = (match c with
    | 0 => decide (va = vb) | 1 => decide (va ≠ vb) | 2 => decide (va < vb) | 3 => decide (va ≤ vb) | 4 => decide (vb < va)
    | _ => decide (vb ≤ va)) := by
  match c with
  | 0 | 2 => rfl
  | 1 => exact (decide_not ..).symm
  | 3 => exact (Bool.decide_or ..).symm.trans (decide_eq_decide.mpr Int.le_iff_lt_or_eq.symm)
  | 4 =>
    have greater : ¬ va < vb ∧ ¬ va = vb ↔ vb < va := by omega
    rw [condOf, ← decide_not, ← decide_not, ← Bool.decide_and]
    exact decide_eq_decide.mpr greater
  | _ + 5 => exact (decide_not ..).symm.trans (decide_eq_decide.mpr Int.not_lt)

/-! ### The lane functions -/

section Lane

variable {w : Nat} {x : LaneIn}

theorem laneSub_eq (hb : intB w x < 2 ^ slW w) :
    laneSub w x =
      let r := addCarry (slW w) x.a (2 ^ slW w - 1 - intB w x) (!(slCin w) || x.carry)
      { res := { code := r.1 }, carry := some r.2 } := by
  rw [laneSub, subCarry_eq_addCarry _ _ hb]

theorem laneCmp_carry (hb : intB w x < 2 ^ slW w) : (laneCmp w x).carry = some (decide (intB w x ≤ x.a)) :=
  congrArg some (subCarry_carry x.a hb)

/-- With MMODE 0 the new mask is the condition itself (R175, R177). -/
theorem laneCmp_mask (hm : slMmode w = 0) :
    (laneCmp w x).mask = some (condOf (slCond w)
      (decide (intVal (slUns w) (slW w) x.a < intVal (slUns w) (slW w) (intB w x)))
      (decide (intVal (slUns w) (slW w) x.a = intVal (slUns w) (slW w) (intB w x)))) :=
  congrArg some (if_pos hm)

/-- W + WB bits hold the unsigned product whole (R178). -/
theorem laneMul_unsigned (hu : slUns w = true) (ha : x.a < 2 ^ slW w) (hb : x.b < 2 ^ slWb w) :
    (laneMul w x).res.code = x.a * x.b := by
  have fits : x.a * x.b < 2 ^ (slW w + slWb w) := by
    rw [Nat.pow_add]
    exact Nat.mul_lt_mul'' ha hb
  calc (laneMul w x).res.code
      = wrapInt (intVal (slUns w) (slW w) x.a * intVal (slUns w) (slWb w) x.b) (slW w + slWb w) := rfl
    _ = wrapInt ((x.a * x.b : Nat) : Int) (slW w + slWb w) := by
        rw [intVal_of_lt _ ha, intVal_of_lt _ hb, if_pos hu, if_pos hu, Int.natCast_mul]
    _ = x.a * x.b := by rw [wrapInt_natCast, Nat.mod_eq_of_lt fits]

theorem laneAndn_bit {i : Nat} (hb : intB w x < 2 ^ slW w) (hi : i < slW w) :
    bitOf (laneAndn w x).res.code i = (bitOf x.a i && !(bitOf (intB w x) i)) := by
  rw [laneAndn, bitOf_and, Nat.mod_eq_of_lt hb, bitOf_complement hb hi]

end Lane

/-- Settles O45: each clause is the lane function's own lemma, with the operands read as UNS says. -/
theorem sliverIntegers : Obligations.SliverIntegers := by
  unfold Obligations.SliverIntegers
  intro w x _ ha hb hwb n va vb ca cs
  have hva : intVal (slUns w) (slW w) x.a = va := intVal_of_lt _ ha
  have hvb : intVal (slUns w) (slW w) (intB w x) = vb := intVal_of_lt _ hb
  refine ⟨fun _ _ => ⟨rfl, rfl⟩, rfl, rfl, ?sub, ?subCarry, laneCmp_carry hb, fun hm _ => ?cmp, ?max, ?min,
    fun hu => laneMul_unsigned hu ha hwb, fun i hi => ⟨bitOf_and .., bitOf_or .., bitOf_xor .., laneAndn_bit hb hi,
      bitOf_complement ha hi⟩, rfl, rfl⟩
  case sub => rw [laneSub_eq hb]; rfl
  case subCarry => rw [laneSub_eq hb]; rfl
  case cmp =>
    rw [laneCmp_mask hm, hva, hvb]
    exact congrArg some (condOf_order (slCond w) va vb)
  case max => rw [← hva, ← hvb]; rfl
  case min => rw [← hva, ← hvb]; rfl

end Sys2Proof.Machine
end

section
/-!
PROOFS. Training-step support (R349 to R361): settlement and its local form, the loss watch, evaluation slots, the snapshot and
the checkpoint.
-/

namespace Sys2Proof.Machine

open Sys2Proof

/-! ### A command that acts leads to what its meaning is shown to be -/

theorem State.whenMain_eq {s t u : State} (h : s.mainUp = true) (e : t = u) : s.whenMain t = .next u :=
  (State.whenMain_next t h).trans (congrArg _ e)

theorem State.whenServing_eq {s t u : State} (h : s.serving = true) (e : t = u) : s.whenServing t = .next u :=
  (State.whenServing_next t h).trans (congrArg _ e)

/-! ### Reading fields back -/

theorem State.fld_lt (s : State) (a : Nat) (f : Field) : s.fld a f < 2 ^ f.width := f.get_lt _

theorem State.fld_setReg_same (s : State) (a : Nat) (f : Field) (v : Word) : (s.setReg a v).fld a f = f.get v := by
  rw [State.fld, State.reg_setReg_same]

/-- A value too wide for its field is stored modulo the field's range. -/
theorem State.fld_setFld_mod (s : State) (a : Nat) (f : Field) (v : Nat) (h : f.fits) :
    (s.setFld a f v).fld a f = v % 2 ^ f.width :=
  (s.fld_setReg_same a f _).trans (f.get_put _ v h)

/-- The lowest field of a word written as a number that fits it is that number. -/
theorem Field.get_ofNat_low (f : Field) {v : Nat} (h : f.fits) (hlo : f.lo = 0) (hv : v < 2 ^ f.width) :
    f.get (BitVec.ofNat 64 v) = v := by
  rw [Field.get, BitVec.toNat_ofNat, bitsOf_mod64 _ _ _ h, bitsOf, hlo, Nat.shiftRight_zero, Nat.mod_eq_of_lt hv]

/-- A field above the written number is zero. -/
theorem Field.get_ofNat_above (f : Field) {v : Nat} (h : f.fits) (hv : v < 2 ^ f.lo) : f.get (BitVec.ofNat 64 v) = 0 := by
  rw [Field.get, BitVec.toNat_ofNat, bitsOf_mod64 _ _ _ h, bitsOf, Nat.shiftRight_eq_div_pow, Nat.div_eq_of_lt hv, Nat.zero_mod]

theorem SameRegsBut.fld {l : List Nat} {s t : State} (h : SameRegsBut l s t) {a : Nat} (f : Field) (ha : a ∉ l) :
    t.fld a f = s.fld a f := by
  rw [State.fld, h.1 a ha, State.fld]

theorem SameRegsBut.mono {l m : List Nat} {s t : State} (h : SameRegsBut l s t) (hlm : l ⊆ m) : SameRegsBut m s t :=
  ⟨fun a ha => h.1 a fun hl => ha (hlm hl), h.2⟩

theorem SameRegsBut.ite {l : List Nat} {s t u : State} {c : Prop} [Decidable c] (ht : SameRegsBut l s t) (hu : SameRegsBut l s u) :
    SameRegsBut l s (if c then t else u) := by
  split
  · exact ht
  · exact hu

theorem SameRegsBut.held {l : List Nat} (s : State) (captured : List Nat) (closes : List (Nat × Nat × Nat × Bool)) :
    SameRegsBut l s { s with captured := captured, closes := closes } := .of_eq rfl rfl

theorem SameRegsBut.emit {l : List Nat} (s : State) (o : Out) : SameRegsBut l s (s.emit o) := .of_eq rfl rfl

/-! ### The fatal latch of an error record (R459) -/

/-- The registers that telling the host of a record may write. -/
def tellRegs : List Nat := [R.HOSTP_ALERT, R.HOSTP_EVT_CNT]

theorem State.alert_sameRegs (s : State) (i : Nat) : SameRegsBut tellRegs s (s.alert i) :=
  .ite (.refl _ s) (.setFld s _ _ (by simp [tellRegs]))

theorem State.queueEvent_sameRegs (s : State) (kind : Nat) (body : List Byte) :
    SameRegsBut tellRegs s (s.queueEvent kind body) := by
  have queued (es : List HostEvent) (n l : Nat) :
      SameRegsBut tellRegs s { s with events := es, eventSeq := n, eventLost := l } := .of_eq rfl rfl
  have counted (u : State) (f : Field) : SameRegsBut tellRegs u (u.count R.HOSTP_EVT_CNT f 1) :=
    .count u _ _ (by simp [tellRegs])
  unfold State.queueEvent
  split
  · exact ((queued ..).step (counted _ _)).step (.emit _ _)
  · exact ((queued ..).step (counted _ _)).step (State.alert_sameRegs _ _)

theorem State.hostEvent_sameRegs (s : State) (kind : Nat) (body : List Byte) : SameRegsBut tellRegs s (s.hostEvent kind body) :=
  .ite (s.queueEvent_sameRegs kind body) (.refl _ s)

theorem State.errDeliver_sameRegs (s : State) (cls : Nat) (bytes : List Byte) :
    SameRegsBut tellRegs s (s.errDeliver cls bytes) := by
  have alerted (u : State) (i : Nat) : SameRegsBut tellRegs u (u.alert i) := u.alert_sameRegs i
  exact .step (.ite (s.hostEvent_sameRegs 2 bytes) (.refl _ s)) (.ite (alerted _ 0) (.ite (alerted _ 1) (.refl _ _)))

theorem State.ringWrite_latches (s : State) (bytes : List Byte) :
    (s.ringWrite clsFatal bytes).fld R.ERR_STAT F.ERR_STAT_FATAL_VALID = 1 := by
  unfold State.ringWrite
  extract_lets _ _ _ _ u
  split
  · exact State.fld_setFld_same _ _ _ _ (by decide) (by decide)
  next h =>
    have one_bit : u.fld R.ERR_STAT F.ERR_STAT_FATAL_VALID < 2 := u.fld_lt _ F.ERR_STAT_FATAL_VALID
    omega

/-- A fatal record is latched, by itself or by one before it. -/
theorem State.errRecord_fatal_latched (s : State) {r : ErrRec} (h : r.cls = clsFatal) :
    (s.errRecord r).fld R.ERR_STAT F.ERR_STAT_FATAL_VALID = 1 := by
  have delivered : s.errRecord r = (s.ringWrite clsFatal (s.errBytes r)).errDeliver clsFatal (s.errBytes r) := by
    rw [State.errRecord, if_neg (by rw [h]; decide), h]
  rw [delivered, (State.errDeliver_sameRegs _ _ _).fld _ (by decide)]
  exact s.ringWrite_latches _

/-! ### What freeing, holding and counting veto words leaves alone -/

/-- The registers in which the module holds veto words, and their count (R491). -/
def vetoHeldRegs : List Nat := R.TRN_STAT :: (List.range 8).map R.RED_LVETO

theorem lveto_mem_vetoHeldRegs (e : Nat) : R.RED_LVETO (e % 8) ∈ vetoHeldRegs :=
  List.mem_cons_of_mem _ (List.mem_map_of_mem (List.mem_range.mpr (Nat.mod_lt _ (by decide))))

theorem State.countVetoes_sameRegs (s : State) {l : List Nat} (h : R.TRN_STAT ∈ l) : SameRegsBut l s s.countVetoes :=
  .setFld s _ _ h

theorem State.countVetoes_sameMemory (s : State) : SameMemory s s.countVetoes := .setFld s _ _ _

theorem State.freeVeto_sameRegs (s : State) (e : Nat) : SameRegsBut [R.RED_LVETO (e % 8), R.TRN_STAT] s (s.freeVeto e) := by
  unfold State.freeVeto
  split
  · exact (SameRegsBut.setReg s _ (by simp)).step (State.countVetoes_sameRegs _ (by simp))
  · exact .refl _ s

theorem State.holdVeto_sameRegs (s : State) (e bits : Nat) : SameRegsBut vetoHeldRegs s (s.holdVeto e bits) := by
  unfold State.holdVeto
  split
  · exact .refl _ s
  · exact (SameRegsBut.setReg s _ (lveto_mem_vetoHeldRegs e)).step (State.countVetoes_sameRegs _ (List.mem_cons_self ..))

theorem State.holdVeto_sameMemory (s : State) (e bits : Nat) : SameMemory s (s.holdVeto e bits) := by
  unfold State.holdVeto
  split
  · exact .refl s
  · exact (SameMemory.setReg s _ _).step (State.countVetoes_sameMemory _)

/-- What a veto event leaves alone: all registers but the held words, their count and the late count, the count of spikes with
them, and memory (R348). -/
structure VetoFrame (s t : State) : Prop where
  regs : SameRegsBut (R.TRN_CNT :: vetoHeldRegs) s t
  spikes : t.fld R.TRN_CNT F.TRN_CNT_SPIKES = s.fld R.TRN_CNT F.TRN_CNT_SPIKES
  memory : SameMemory s t

namespace VetoFrame

variable {s t u : State}

theorem refl (s : State) : VetoFrame s s := ⟨.refl _ s, rfl, .refl s⟩

theorem trans (h : VetoFrame s t) (g : VetoFrame t u) : VetoFrame s u :=
  ⟨h.regs.step g.regs, g.spikes.trans h.spikes, h.memory.step g.memory⟩

theorem late (s : State) : VetoFrame s (s.count R.TRN_CNT F.TRN_CNT_LATE_VETO 1) :=
  ⟨.count s _ _ (List.mem_cons_self ..), s.fld_setFld_apart _ _ _ _ (by decide) (by decide), .count s _ _ _⟩

theorem held (s : State) (e bits : Nat) : VetoFrame s (s.holdVeto e bits) :=
  ⟨(s.holdVeto_sameRegs e bits).mono (List.subset_cons_self ..), (s.holdVeto_sameRegs e bits).fld _ (by decide),
    s.holdVeto_sameMemory e bits⟩

theorem waiting (s : State) (p : Nat) : VetoFrame s { s with pendingVeto := p } := ⟨.of_eq rfl rfl, rfl, .of_eq rfl rfl⟩

end VetoFrame

theorem State.vetoEvent_frame (s : State) (e bits : Nat) : VetoFrame s (s.vetoEvent e bits) := by
  unfold State.vetoEvent
  dsimp only
  split
  · exact .refl s
  · split
    · exact .late s
    · split
      · exact .held s e bits
      · split
        · exact (VetoFrame.late s).trans (.held _ _ _)
        · exact (VetoFrame.late s).trans (.waiting _ _)

/-! ### Settlement (R351 to R356) -/

theorem State.wakeEpochs_of_no_wait {s : State} (h : ∀ q < 240, (s.qint q).wait = none) : s.wakeEpochs = s :=
  List.foldlRecOn (motive := (· = s)) _ _ rfl fun t ht q hq => by
    rw [ht, h q (List.mem_range.mp hq)]

theorem State.snapSettled_of_none {s : State} (h : s.snap = none) : s.snapSettled = s := by
  rw [State.snapSettled, h]

/-- A snapshot of an epoch that has committed, or has not settled, goes on (R358). -/
theorem State.snapSettled_goes_on {s : State} {n : Snap} (h : s.snap = some n)
    (he : s.epochState n.epoch = .committed ∨ s.epochState n.epoch = .unsettled) : s.snapSettled = s := by
  rw [State.snapSettled, h]
  obtain he | he := he <;> simp only [he]

/-- `t` is `s` after writes of registers, of the captured epochs and of the held CLOSE results only. -/
def SettleFrame (s t : State) : Prop :=
  ∃ regs captured closes, t = { s with regs := regs, captured := captured, closes := closes }

namespace SettleFrame

variable {s t u : State}

theorem refl (s : State) : SettleFrame s s := ⟨_, _, _, rfl⟩

theorem trans (h : SettleFrame s t) (g : SettleFrame t u) : SettleFrame s u := by
  obtain ⟨_, _, _, rfl⟩ := h
  obtain ⟨_, _, _, rfl⟩ := g
  exact ⟨_, _, _, rfl⟩

theorem setReg (s : State) (a : Nat) (v : Word) : SettleFrame s (s.setReg a v) := ⟨_, _, _, rfl⟩

theorem setFld (s : State) (a : Nat) (f : Field) (v : Nat) : SettleFrame s (s.setFld a f v) := setReg s a _

theorem count (s : State) (a : Nat) (f : Field) (n : Nat) : SettleFrame s (s.count a f n) := setFld s a f _

theorem held (s : State) (captured : List Nat) (closes : List (Nat × Nat × Nat × Bool)) :
    SettleFrame s { s with captured := captured, closes := closes } := ⟨_, _, _, rfl⟩

theorem pendingVeto (h : SettleFrame s t) : t.pendingVeto = s.pendingVeto := by
  obtain ⟨_, _, _, rfl⟩ := h
  rfl

theorem snap (h : SettleFrame s t) : t.snap = s.snap := by
  obtain ⟨_, _, _, rfl⟩ := h
  rfl

theorem qint (h : SettleFrame s t) (q : Nat) : t.qint q = s.qint q := by
  obtain ⟨_, _, _, rfl⟩ := h
  rfl

theorem sameMemory (h : SettleFrame s t) : SameMemory s t := by
  obtain ⟨_, _, _, rfl⟩ := h
  exact .of_eq rfl rfl

/-- Where no snapshot runs and no queue waits, the last steps of a settlement change nothing. -/
theorem settled_quiet (h : SettleFrame s t) (hs : s.snap = none) (hq : ∀ q < 240, (s.qint q).wait = none) :
    t.snapSettled.wakeEpochs = t := by
  have noWait : ∀ q < 240, (t.qint q).wait = none := fun q hlt => by
    rw [h.qint]
    exact hq q hlt
  rw [State.snapSettled_of_none (h.snap.trans hs), State.wakeEpochs_of_no_wait noWait]

end SettleFrame

/-- The outcome of epoch e enters TRN_SETTLED and TRN_HIST (R353, step 1). -/
def State.writeOutcome (s : State) (e word : Nat) (commit : Bool) : State :=
  let s := (s.setFld R.TRN_SETTLED F.TRN_SETTLED_EPOCH e).setFld R.TRN_SETTLED F.TRN_SETTLED_LAST_VETO word
  let s := s.setReg R.TRN_HIST (BitVec.ofNat 64 (2 * (s.reg R.TRN_HIST).toNat + b2n commit))
  s.setFld R.TRN_SETTLED F.TRN_SETTLED_HIST_VALID (min 64 (s.fld R.TRN_SETTLED F.TRN_SETTLED_HIST_VALID + 1))

/-- What was held for epoch e goes: its word, its capture and the CLOSE results up to it (R353, step 1). -/
def State.leaveEpoch (s : State) (e : Nat) : State :=
  let s := s.freeVeto e
  { s with captured := s.captured.filter (· != e), closes := s.closes.filter (fun c => decide (e < c.1)) }

/-- Veto bits that waited for an epoch to open go to the one that has (R348). -/
def State.placePendingVeto (s : State) (e : Nat) : State :=
  if s.pendingVeto = 0 then s else { s.holdVeto (e + 8) s.pendingVeto with pendingVeto := 0 }

/-- What a commit of epoch e writes where nothing waits on it: the outcome, what was held for it, the count. -/
def State.commitEpoch (s : State) (e word : Nat) : State :=
  ((s.writeOutcome e word true).leaveEpoch e).count R.TRN_CNT F.TRN_CNT_COMMITTED 1

section Commit

variable {s : State} {e w : Nat}

theorem State.writeOutcome_frame (c : Bool) : SettleFrame s (s.writeOutcome e w c) :=
  (((SettleFrame.setFld s _ _ _).trans (.setFld _ _ _ _)).trans (.setReg _ _ _)).trans (.setFld _ _ _ _)

theorem State.freeVeto_frame : SettleFrame s (s.freeVeto e) := by
  unfold State.freeVeto
  split
  · exact (SettleFrame.setReg s _ _).trans (.setFld _ _ _ _)
  · exact .refl s

theorem State.leaveEpoch_frame : SettleFrame s (s.leaveEpoch e) := State.freeVeto_frame.trans (.held _ _ _)

theorem State.commitEpoch_frame : SettleFrame s (s.commitEpoch e w) :=
  ((State.writeOutcome_frame true).trans State.leaveEpoch_frame).trans (.count _ _ _ _)

/-- The steps of a commit (R353). -/
theorem State.settle_commit : s.settle e w true =
    ((((s.writeOutcome e w true).leaveEpoch e).placePendingVeto e).count R.TRN_CNT F.TRN_CNT_COMMITTED 1).snapSettled.wakeEpochs :=
  rfl

/-- Where no snapshot runs, no queue waits and no veto is pending, a commit is its writes. -/
theorem State.settle_eq_commitEpoch (hs : s.snap = none) (hp : s.pendingVeto = 0) (hq : ∀ q < 240, (s.qint q).wait = none) :
    s.settle e w true = s.commitEpoch e w := by
  have noVeto : ((s.writeOutcome e w true).leaveEpoch e).pendingVeto = 0 :=
    ((State.writeOutcome_frame true).trans State.leaveEpoch_frame).pendingVeto.trans hp
  rw [State.settle_commit, State.placePendingVeto, if_pos noVeto]
  exact State.commitEpoch_frame.settled_quiet hs hq

theorem State.writeOutcome_sameRegs (c : Bool) : SameRegsBut [R.TRN_SETTLED, R.TRN_HIST] s (s.writeOutcome e w c) :=
  (((SameRegsBut.setFld s _ _ (by simp)).step (.setFld _ _ _ (by simp))).step (.setReg _ _ (by simp))).step
    (.setFld _ _ _ (by simp))

theorem State.commitEpoch_sameRegs_outcome :
    SameRegsBut [R.RED_LVETO (e % 8), R.TRN_STAT, R.TRN_CNT] (s.writeOutcome e w true) (s.commitEpoch e w) :=
  (((State.freeVeto_sameRegs _ e).mono (by simp)).step (.held _ _ _)).step (.count _ _ _ (by simp))

theorem State.commitEpoch_sameRegs :
    SameRegsBut [R.TRN_SETTLED, R.TRN_HIST, R.RED_LVETO (e % 8), R.TRN_STAT, R.TRN_CNT] s (s.commitEpoch e w) :=
  ((State.writeOutcome_sameRegs true).mono (by simp)).step (State.commitEpoch_sameRegs_outcome.mono (by simp))

theorem lveto_lt_trnCfg (e : Nat) : R.RED_LVETO (e % 8) < R.TRN_CFG := by
  unfold R.RED_LVETO R.TRN_CFG
  omega

theorem State.commitEpoch_fld {a : Nat} (f : Field) (hc : R.TRN_CFG ≤ a) (ha : a ∉ [R.TRN_STAT, R.TRN_CNT]) :
    (s.commitEpoch e w).fld a f = (s.writeOutcome e w true).fld a f :=
  State.commitEpoch_sameRegs_outcome.fld f
    (List.not_mem_cons_of_ne_of_not_mem (Nat.ne_of_gt (Nat.lt_of_lt_of_le (lveto_lt_trnCfg e) hc)) ha)

theorem State.commitEpoch_settled (he : e < 2 ^ 48) : (s.commitEpoch e w).settled = e := by
  rw [State.settled, State.commitEpoch_fld _ (by decide) (by decide), State.writeOutcome,
    State.fld_setFld_apart _ _ _ _ _ (by decide) (by decide), State.fld_setReg_other _ _ _ _ _ (by decide),
    State.fld_setFld_apart _ _ _ _ _ (by decide) (by decide), State.fld_setFld_same _ _ _ _ (by decide) he]

theorem State.commitEpoch_lastVeto (hw : w < 256) :
    (s.commitEpoch e w).fld R.TRN_SETTLED F.TRN_SETTLED_LAST_VETO = w := by
  rw [State.commitEpoch_fld _ (by decide) (by decide), State.writeOutcome,
    State.fld_setFld_apart _ _ _ _ _ (by decide) (by decide), State.fld_setReg_other _ _ _ _ _ (by decide),
    State.fld_setFld_same _ _ _ _ (by decide) hw]

theorem State.commitEpoch_histValid :
    (s.commitEpoch e w).fld R.TRN_SETTLED F.TRN_SETTLED_HIST_VALID =
      min 64 (s.fld R.TRN_SETTLED F.TRN_SETTLED_HIST_VALID + 1) := by
  have fits (n : Nat) : min 64 n < 2 ^ F.TRN_SETTLED_HIST_VALID.width := Nat.lt_of_le_of_lt (Nat.min_le_left ..) (by decide)
  rw [State.commitEpoch_fld _ (by decide) (by decide), State.writeOutcome, State.fld_setFld_same _ _ _ _ (by decide) (fits _),
    State.fld_setReg_other _ _ _ _ _ (by decide), State.fld_setFld_apart _ _ _ _ _ (by decide) (by decide),
    State.fld_setFld_apart _ _ _ _ _ (by decide) (by decide)]

/-- TRN_HIST shifts up by one, and the commit enters at bit 0. -/
theorem State.commitEpoch_history :
    (s.commitEpoch e w).fld R.TRN_HIST F.TRN_HIST_OUTCOME = (2 * s.fld R.TRN_HIST F.TRN_HIST_OUTCOME + 1) % 2 ^ 64 := by
  have whole (v : Word) : F.TRN_HIST_OUTCOME.get v = v.toNat := Nat.mod_eq_of_lt v.isLt
  rw [State.commitEpoch_fld _ (by decide) (by decide), State.writeOutcome, State.fld_setFld_other _ _ _ _ _ _ (by decide),
    State.fld_setReg_same, State.reg_setFld_other _ _ _ _ _ (by decide), State.reg_setFld_other _ _ _ _ _ (by decide), whole,
    State.fld, whole, BitVec.toNat_ofNat]
  rfl

theorem State.commitEpoch_history_odd : (s.commitEpoch e w).fld R.TRN_HIST F.TRN_HIST_OUTCOME % 2 = 1 := by
  rw [State.commitEpoch_history]
  omega

theorem State.commitEpoch_history_bit {i : Nat} (hi : i < 63) :
    (s.commitEpoch e w).bit R.TRN_HIST F.TRN_HIST_OUTCOME (i + 1) = s.bit R.TRN_HIST F.TRN_HIST_OUTCOME i := by
  rw [State.bit, State.bit, State.commitEpoch_history, bitOf_eq_testBit, bitOf_eq_testBit, Nat.testBit_mod_two_pow,
    decide_eq_true (by omega), Bool.true_and, Nat.testBit_succ, Nat.mul_add_div (by decide), Nat.add_zero]

end Commit

/-- A CLOSE that ended with ERROR_LINK puts the module out of step, with a fatal record (R355). -/
def State.linkLost (s : State) (e : Nat) : State :=
  (s.setFld R.TRN_STAT F.TRN_STAT_OUT_OF_STEP 1).errRecord { cls := clsFatal, code := 0x0507, unit := 0xD8, info0 := e }

theorem State.linkLost_outOfStep (s : State) (e : Nat) : (s.linkLost e).fld R.TRN_STAT F.TRN_STAT_OUT_OF_STEP = 1 :=
  ((State.errRecord_recordFrame _ _).fld _ (by unfold IsRecordReg; decide)).trans
    (State.fld_setFld_same _ _ _ _ (by decide) (by decide))

theorem State.linkLost_fatal (s : State) (e : Nat) : (s.linkLost e).fld R.ERR_STAT F.ERR_STAT_FATAL_VALID = 1 :=
  State.errRecord_fatal_latched _ rfl

theorem exec_settlement_none {s : State} (hs : s.serving = true)
    (hc : s.closes.find? (fun c => c.1 == s.settled + 1) = none) : exec .settlement s = .next s :=
  State.whenServing_eq hs (by simp only [hc])

/-- The held result commits its epoch (R353): DONE or DONE_COUNTS, a veto word of zero, and a module in step. -/
def State.closeCommits (s : State) (st w : Nat) : Bool :=
  (st % 0x40 == stDone || st % 0x40 == stDoneCounts) && w == 0 && !(s.fld R.TRN_STAT F.TRN_STAT_OUT_OF_STEP == 1)

theorem State.closeCommits_iff (s : State) (st w : Nat) : s.closeCommits st w = true ↔
    (st % 0x40 = stDone ∨ st % 0x40 = stDoneCounts) ∧ w = 0 ∧ s.fld R.TRN_STAT F.TRN_STAT_OUT_OF_STEP ≠ 1 := by
  simp [State.closeCommits, and_assoc]

theorem State.closeCommits_of_link (s : State) (w : Nat) : s.closeCommits stLink w = false := rfl

/-- A CLOSE that formed a word settles its epoch with that word. -/
theorem exec_settlement_formed {s : State} {st w : Nat} (hs : s.serving = true)
    (hc : s.closes.find? (fun c => c.1 == s.settled + 1) = some (s.settled + 1, st, w, true)) (hw : w < 256) :
    exec .settlement s = .next ((if st = stLink then s.linkLost (s.settled + 1) else s).settle (s.settled + 1) w
      (s.closeCommits st w)) := by
  have word : (BitVec.ofNat 64 w).toNat % 256 = w := by
    rw [BitVec.toNat_ofNat]
    omega
  refine State.whenServing_eq hs ?_
  simp only [hc, if_true, word]
  rfl

theorem State.settleLocal_refused {s : State} {v : Word}
    (h : s.fld R.TRN_CFG F.TRN_CFG_COMMIT_GROUP ≠ 0 ∨ F.TRN_SETTLE_LOCAL_EPOCH.get v ≠ s.settled + 1) : s.settleLocal v = s :=
  if_neg fun ⟨hg, he⟩ => h.elim (· hg) (· he)

theorem State.settledWrite_refused {s : State} {v : Word} (h : s.fld R.TRN_STAT F.TRN_STAT_PENDING ≠ 0 ∨
    s.cmds.any (fun c => c.gated && !(isCollective c.code) && c.phase == .accepted) = true) : s.settledWrite v = s :=
  if_neg fun ⟨hp, hw⟩ => h.elim (· hp) fun hx => Bool.false_ne_true (hw.symm.trans hx)

/-- The state after an accepted write of TRN_SETTLED: no captures and no held results (R356). -/
def State.settledTo (s : State) (v : Word) : State :=
  { s.setReg R.TRN_SETTLED (BitVec.ofNat 64 (F.TRN_SETTLED_EPOCH.get v)) with captured := [], closes := [] }

theorem State.settledTo_frame (s : State) (v : Word) : SettleFrame s (s.settledTo v) :=
  (SettleFrame.setReg s _ _).trans (.held _ _ _)

theorem State.settledWrite_accepted {s : State} {v : Word} (hp : s.fld R.TRN_STAT F.TRN_STAT_PENDING = 0)
    (hw : s.cmds.any (fun c => c.gated && !(isCollective c.code) && c.phase == .accepted) = false) (hs : s.snap = none)
    (hq : ∀ q < 240, (s.qint q).wait = none) : s.settledWrite v = s.settledTo v :=
  calc s.settledWrite v = (s.settledTo v).snapSettled.wakeEpochs := if_pos ⟨hp, hw⟩
    _ = s.settledTo v := (s.settledTo_frame v).settled_quiet hs hq

theorem State.settledTo_fld (s : State) (v : Word) (f : Field) :
    (s.settledTo v).fld R.TRN_SETTLED f = f.get (BitVec.ofNat 64 (F.TRN_SETTLED_EPOCH.get v)) :=
  State.fld_setReg_same s _ f _

theorem State.settledTo_settled (s : State) (v : Word) : (s.settledTo v).settled = F.TRN_SETTLED_EPOCH.get v :=
  (s.settledTo_fld v _).trans (Field.get_ofNat_low _ (by decide) rfl (Field.get_lt _ v))

theorem State.settledTo_histValid (s : State) (v : Word) : (s.settledTo v).fld R.TRN_SETTLED F.TRN_SETTLED_HIST_VALID = 0 :=
  have low : F.TRN_SETTLED_EPOCH.get v < 2 ^ 56 := Nat.lt_of_lt_of_le (Field.get_lt _ v) (by decide)
  (s.settledTo_fld v _).trans (Field.get_ofNat_above _ (by decide) low)

theorem State.settledTo_lastVeto (s : State) (v : Word) : (s.settledTo v).fld R.TRN_SETTLED F.TRN_SETTLED_LAST_VETO = 0 :=
  (s.settledTo_fld v _).trans (Field.get_ofNat_above _ (by decide) (Field.get_lt _ v))

theorem State.settledTo_sameRegs (s : State) (v : Word) : SameRegsBut [R.TRN_SETTLED] s (s.settledTo v) :=
  (SameRegsBut.setReg s _ (by simp)).step (.held _ _ _)

/-! ### The loss watch (R349, R350) -/

theorem State.lossWrite_dropped {s : State} {v : Word}
    (h : s.lossEpoch (F.TRN_LOSS_EPOCH_LO.get v) = none ∨ s.fld R.TRN_CFG F.TRN_CFG_LW_EN = 0) :
    s.lossWrite v = s.count R.TRN_CNT F.TRN_CNT_LOSS_DROPPED 1 := by
  unfold State.lossWrite
  split
  · rfl
  next heq =>
    have off : s.fld R.TRN_CFG F.TRN_CFG_LW_EN = 0 := h.resolve_left (by rw [heq]; exact Option.some_ne_none _)
    exact if_pos (.inr off)

theorem State.lossWrite_watched {s : State} {v : Word} {e : Nat} (he : s.lossEpoch (F.TRN_LOSS_EPOCH_LO.get v) = some e)
    (hen : s.fld R.TRN_CFG F.TRN_CFG_LW_EN ≠ 0) (hl : s.fld R.TRN_LW_STAT F.TRN_LW_STAT_LAST_EPOCH < e) :
    s.lossWrite v = s.lossWatch (F.TRN_LOSS_LOSS.get v) e := by
  rw [State.lossWrite, he]
  exact if_neg fun h => h.elim (Nat.not_le.mpr hl) hen

/-- The submission's epoch is noted before the loss is judged. -/
def State.lossNoted (s : State) (e : Nat) : State := s.setFld R.TRN_LW_STAT F.TRN_LW_STAT_LAST_EPOCH e

theorem State.lossNoted_lastEpoch (s : State) {e : Nat} (he : e < 2 ^ 48) :
    (s.lossNoted e).fld R.TRN_LW_STAT F.TRN_LW_STAT_LAST_EPOCH = e := s.fld_setFld_same _ _ _ (by decide) he

theorem State.lossNoted_seen (s : State) (e : Nat) :
    (s.lossNoted e).fld R.TRN_LW_STAT F.TRN_LW_STAT_SEEN = s.fld R.TRN_LW_STAT F.TRN_LW_STAT_SEEN :=
  s.fld_setFld_apart _ _ _ _ (by decide) (by decide)

/-- A spike is a veto event of its epoch, and counted. -/
def State.lossSpike (s : State) (e : Nat) : State :=
  ((s.lossNoted e).vetoEvent e vetoSpike).count R.TRN_CNT F.TRN_CNT_SPIKES 1

theorem State.lossWatch_nonfinite (s : State) {x : Nat} (e : Nat) (hx : nonfinite fFp32 x = true) :
    s.lossWatch x e = s.lossSpike e :=
  if_pos (by rw [hx]; rfl)

theorem State.lossSpike_sameRegs (s : State) (e : Nat) :
    SameRegsBut (R.TRN_CNT :: vetoHeldRegs) (s.lossNoted e) (s.lossSpike e) :=
  (State.vetoEvent_frame _ e _).regs.step (.count _ _ _ (List.mem_cons_self ..))

theorem State.lossSpike_mean_dev (s : State) (e : Nat) : (s.lossSpike e).reg R.TRN_LW_STATE = s.reg R.TRN_LW_STATE :=
  ((s.lossSpike_sameRegs e).1 _ (by decide)).trans (s.reg_setFld_other _ _ _ _ (by decide))

theorem State.lossSpike_lastEpoch (s : State) {e : Nat} (he : e < 2 ^ 48) :
    (s.lossSpike e).fld R.TRN_LW_STAT F.TRN_LW_STAT_LAST_EPOCH = e :=
  ((s.lossSpike_sameRegs e).fld _ (by decide)).trans (s.lossNoted_lastEpoch he)

theorem State.lossSpike_seen (s : State) (e : Nat) :
    (s.lossSpike e).fld R.TRN_LW_STAT F.TRN_LW_STAT_SEEN = s.fld R.TRN_LW_STAT F.TRN_LW_STAT_SEEN :=
  ((s.lossSpike_sameRegs e).fld _ (by decide)).trans (s.lossNoted_seen e)

theorem State.lossSpike_spikes (s : State) (e : Nat) :
    (s.lossSpike e).fld R.TRN_CNT F.TRN_CNT_SPIKES = min (s.fld R.TRN_CNT F.TRN_CNT_SPIKES + 1) 255 := by
  rw [State.lossSpike, State.fld_count_same _ _ _ _ (by decide), (State.vetoEvent_frame _ e _).spikes, State.lossNoted,
    State.fld_setFld_other _ _ _ _ _ _ (by decide)]
  rfl

theorem State.lossSpike_sameMemory (s : State) (e : Nat) : SameMemory s (s.lossSpike e) :=
  ((SameMemory.setFld s _ _ _).step (State.vetoEvent_frame _ e _).memory).step (.count _ _ _ _)

/-- The first loss of a watch is its mean. -/
def State.lossFirst (s : State) (x e : Nat) : State :=
  (((s.lossNoted e).setFld R.TRN_LW_STATE F.TRN_LW_STATE_MEAN x).setFld R.TRN_LW_STATE F.TRN_LW_STATE_DEV 0).setFld R.TRN_LW_STAT
    F.TRN_LW_STAT_SEEN 1

theorem State.lossWatch_first {s : State} {x : Nat} (e : Nat) (hx : nonfinite fFp32 x = false)
    (hseen : s.fld R.TRN_LW_STAT F.TRN_LW_STAT_SEEN = 0) (hwarm : s.fld R.TRN_LW_CFG F.TRN_LW_CFG_WARMUP ≠ 0) :
    s.lossWatch x e = s.lossFirst x e := by
  have seen : (s.lossNoted e).fld R.TRN_LW_STAT F.TRN_LW_STAT_SEEN = 0 := (s.lossNoted_seen e).trans hseen
  have warm : (s.lossNoted e).fld R.TRN_LW_CFG F.TRN_LW_CFG_WARMUP ≠ 0 := by
    rwa [State.lossNoted, State.fld_setFld_other _ _ _ _ _ _ (by decide)]
  have unjudged : decide ((s.lossNoted e).fld R.TRN_LW_CFG F.TRN_LW_CFG_WARMUP ≤ 0) = false :=
    decide_eq_false (by omega)
  rw [State.lossNoted] at seen unjudged
  simp only [State.lossWatch, seen, unjudged, hx, Bool.false_and, Bool.or_self, Bool.false_eq_true, if_false, if_true]
  rfl

theorem State.lossFirst_mean (s : State) {x : Nat} (e : Nat) (hx : x < 2 ^ 32) :
    (s.lossFirst x e).fld R.TRN_LW_STATE F.TRN_LW_STATE_MEAN = x := by
  rw [State.lossFirst, State.fld_setFld_other _ _ _ _ _ _ (by decide), State.fld_setFld_apart _ _ _ _ _ (by decide) (by decide),
    State.fld_setFld_same _ _ _ _ (by decide) hx]

theorem State.lossFirst_dev (s : State) (x e : Nat) : (s.lossFirst x e).fld R.TRN_LW_STATE F.TRN_LW_STATE_DEV = 0 := by
  rw [State.lossFirst, State.fld_setFld_other _ _ _ _ _ _ (by decide), State.fld_setFld_same _ _ _ _ (by decide) (by decide)]

theorem State.lossFirst_seen (s : State) (x e : Nat) : (s.lossFirst x e).fld R.TRN_LW_STAT F.TRN_LW_STAT_SEEN = 1 :=
  State.fld_setFld_same _ _ _ _ (by decide) (by decide)

theorem State.lossFirst_lastEpoch (s : State) (x : Nat) {e : Nat} (he : e < 2 ^ 48) :
    (s.lossFirst x e).fld R.TRN_LW_STAT F.TRN_LW_STAT_LAST_EPOCH = e := by
  rw [State.lossFirst, State.fld_setFld_apart _ _ _ _ _ (by decide) (by decide), State.fld_setFld_other _ _ _ _ _ _ (by decide),
    State.fld_setFld_other _ _ _ _ _ _ (by decide), s.lossNoted_lastEpoch he]

theorem State.lossFirst_sameRegs (s : State) (x e : Nat) :
    SameRegsBut [R.TRN_LW_STATE, R.TRN_LW_STAT] s (s.lossFirst x e) :=
  (((SameRegsBut.setFld s _ _ (by simp)).step (.setFld _ _ _ (by simp))).step (.setFld _ _ _ (by simp))).step
    (.setFld _ _ _ (by simp))

theorem State.lossFirst_sameMemory (s : State) (x e : Nat) : SameMemory s (s.lossFirst x e) :=
  (((SameMemory.setFld s _ _ _).step (.setFld _ _ _ _)).step (.setFld _ _ _ _)).step (.setFld _ _ _ _)

/-! ### Evaluation slots (R357) -/

/-- IN_SLOT is written beside the count of refused reads and nothing else. -/
theorem State.setInSlot_effect (s : State) {b : Nat} (hb : b < 2) :
    let t := s.setFld R.TRN_EVAL_STAT F.TRN_EVAL_STAT_IN_SLOT b
    t.fld R.TRN_EVAL_STAT F.TRN_EVAL_STAT_IN_SLOT = b ∧
      t.fld R.TRN_EVAL_STAT F.TRN_EVAL_STAT_REFUSED = s.fld R.TRN_EVAL_STAT F.TRN_EVAL_STAT_REFUSED ∧
      SameRegsBut [R.TRN_EVAL_STAT] s t ∧ SameMemory s t :=
  ⟨s.fld_setFld_same _ _ _ (by decide) hb, s.fld_setFld_apart _ _ _ _ (by decide) (by decide), .setFld s _ _ (by simp),
    .setFld s _ _ _⟩

/-! ### The snapshot (R358 to R360) -/

theorem RecordFrame.snap {s t : State} (h : RecordFrame s t) : t.snap = s.snap := by rw [h.rest]

/-- A snapshot's busy flag falls and its status stands in TRN_SNAP_STAT. -/
def State.snapStatus (s : State) (st : Nat) : State :=
  (s.setFld R.TRN_STAT F.TRN_STAT_SNAP_BUSY 0).setFld R.TRN_SNAP_STAT F.TRN_SNAP_STAT_STATUS st

/-- The host is told of that status. -/
def State.reportSnap (s : State) (st : Nat) (tail : List Byte) : State :=
  (s.snapStatus st).hostEvent 3 (leBytes ((s.snapStatus st).reg R.TRN_SNAP_STAT).toNat 8 ++ tail)

section Report

variable (s : State) {st : Nat} (tail : List Byte)

theorem State.reportSnap_frame : RecordFrame (s.snapStatus st) (s.reportSnap st tail) := State.hostEvent_recordFrame _ _ _

theorem State.reportSnap_status (h : st < 256) :
    (s.reportSnap st tail).fld R.TRN_SNAP_STAT F.TRN_SNAP_STAT_STATUS = st :=
  ((s.reportSnap_frame tail).fld _ (by unfold IsRecordReg; decide)).trans (State.fld_setFld_same _ _ _ _ (by decide) h)

theorem State.reportSnap_idle : (s.reportSnap st tail).fld R.TRN_STAT F.TRN_STAT_SNAP_BUSY = 0 := by
  rw [(s.reportSnap_frame tail).fld _ (by unfold IsRecordReg; decide), State.snapStatus,
    State.fld_setFld_other _ _ _ _ _ _ (by decide), State.fld_setFld_same _ _ _ _ (by decide) (by decide)]

theorem State.reportSnap_snap : (s.reportSnap st tail).snap = s.snap := by
  rw [(s.reportSnap_frame tail).snap, State.snapStatus, State.setFld_snap, State.setFld_snap]

theorem State.reportSnap_sameMemory : SameMemory s (s.reportSnap st tail) :=
  ((SameMemory.setFld s _ _ _).step (.setFld _ _ _ _)).step (s.reportSnap_frame tail).sameMemory

end Report

theorem State.endSnap_of_none {s : State} (h : s.snap = none) (st : Option Nat) : s.endSnap st = s := by
  rw [State.endSnap, h]

theorem State.endSnap_eq_reportSnap {s : State} {n : Snap} (h : s.snap = some n) (st : Nat) :
    s.endSnap (some st) = (State.orphanSigns { s with snap := none } .snapshot).reportSnap st (leBytes n.epoch 8) := by
  rw [State.endSnap, h]
  rfl

/-- A running snapshot that ends is gone, its status stands, and memory is as it was. -/
theorem State.endSnap_effect {s : State} {n : Snap} (h : s.snap = some n) {st : Nat} (hst : st < 256) :
    (s.endSnap (some st)).snap = none ∧ (s.endSnap (some st)).fld R.TRN_SNAP_STAT F.TRN_SNAP_STAT_STATUS = st ∧
      (s.endSnap (some st)).fld R.TRN_STAT F.TRN_STAT_SNAP_BUSY = 0 ∧ SameMemory s (s.endSnap (some st)) := by
  have orphaned : SameMemory s (State.orphanSigns { s with snap := none } .snapshot) := .of_eq rfl rfl
  rw [State.endSnap_eq_reportSnap h]
  exact ⟨State.reportSnap_snap _ _, State.reportSnap_status _ _ hst, State.reportSnap_idle _ _,
    orphaned.step (State.reportSnap_sameMemory _ _)⟩

/-- The state in which a snapshot's descriptor is read. -/
def State.snapBusy (s : State) : State := (s.setReg R.TRN_SNAP_STAT 0).setFld R.TRN_STAT F.TRN_STAT_SNAP_BUSY 1

theorem State.snapBusy_snap (s : State) : s.snapBusy.snap = s.snap := by
  rw [State.snapBusy, State.setFld_snap, State.setReg_snap]

theorem State.snapBusy_sameMemory (s : State) : SameMemory s s.snapBusy := (SameMemory.setReg s _ _).step (.setFld _ _ _ _)

theorem State.readSnap_unaligned {s : State} (h : (s.reg R.TRN_SNAP_ADDR).toNat % 64 ≠ 0) :
    s.readSnap = (.error stAddress, s) :=
  if_neg fun ⟨aligned, _⟩ => h aligned

theorem State.snapStart_busy {s : State} (h : s.fld R.TRN_STAT F.TRN_STAT_SNAP_BUSY = 1) : s.snapStart = s := if_pos h

theorem State.snapStart_unaligned {s : State} (hb : s.fld R.TRN_STAT F.TRN_STAT_SNAP_BUSY ≠ 1)
    (ha : (s.reg R.TRN_SNAP_ADDR).toNat % 64 ≠ 0) :
    s.snapStart = s.snapBusy.reportSnap stAddress (List.replicate 8 0) := by
  have address : s.snapBusy.reg R.TRN_SNAP_ADDR = s.reg R.TRN_SNAP_ADDR := by
    rw [State.snapBusy, State.reg_setFld_other _ _ _ _ _ (by decide), State.reg_setReg_other _ _ _ _ (by decide)]
  have refused : s.snapBusy.readSnap = (.error stAddress, s.snapBusy) := State.readSnap_unaligned (by rwa [address])
  rw [State.snapStart, if_neg hb, ← State.snapBusy]
  simp only [refused]
  rfl

theorem State.snapStart_started {s w : State} {n : Snap} (hb : s.fld R.TRN_STAT F.TRN_STAT_SNAP_BUSY ≠ 1)
    (hr : s.snapBusy.readSnap = (.ok n, w)) (he : w.epochState n.epoch = .committed ∨ w.epochState n.epoch = .unsettled) :
    s.snapStart = { w with snap := some n } := by
  rw [State.snapStart, if_neg hb, ← State.snapBusy]
  simp only [hr]
  exact State.snapSettled_goes_on rfl he

theorem State.snapRegion_uncommitted {s : State} {n : Snap} (h : s.epochState n.epoch ≠ .committed) : s.snapRegion n = s := by
  unfold State.snapRegion
  split
  · rfl
  · exact if_pos (.inr h)

/-- The snapshot after a further region: its bytes, whether they were good, and the time they were read at. -/
def Snap.advance (n : Snap) (b : List Byte) (bad : Bool) (stamp : List Byte) : Snap :=
  { n with done := n.done + 1, read := n.read ++ b, bad := n.bad || bad, stamp := stamp }

/-- TRN_SNAP_STAT tells how far the snapshot has come. -/
def State.snapProgress (s : State) (n : Snap) : State :=
  { (s.setFld R.TRN_SNAP_STAT F.TRN_SNAP_STAT_REGION (n.done - 1)).setFld R.TRN_SNAP_STAT F.TRN_SNAP_STAT_BYTES n.read.length with
    snap := some n }

/-- A region of a committed epoch that no gated command still writes is read and sent; the snapshot goes on to the next. -/
theorem State.snapRegion_advances {s v w : State} {n : Snap} {r : Nat × Nat} {b : List Byte} {bad : Bool}
    (he : s.epochState n.epoch = .committed) (hr : n.regions[n.done]? = some r) (hmore : n.done + 1 < n.regions.length)
    (hfree : s.cmds.any (fun c => c.gated && c.epoch == n.epoch && (s.writeBounds c).any (fun x => rangesMeet r x)) = false)
    (hread : s.readMem snapWho r.1 r.2 = (b, v, bad)) (hsend : v.rdmaSend n.qp (n.va + n.read.length) n.rkey b = (w, true)) :
    s.snapRegion n = w.snapProgress (n.advance b bad v.stamp) := by
  have notLast : ¬ (n.done + 1 = n.regions.length ∧ (n.bad || bad) = false) := fun ⟨last, _⟩ => Nat.ne_of_lt hmore last
  rw [State.snapRegion, hr]
  simp only [hfree, he, hread, State.snapSend, hsend]
  exact if_neg notLast

theorem State.fld_withSnap (s : State) (x : Option Snap) (a : Nat) (f : Field) :
    State.fld { s with snap := x } a f = s.fld a f := rfl

theorem SameMemory.withSnap (s : State) (x : Option Snap) : SameMemory s { s with snap := x } := .of_eq rfl rfl

theorem State.snapProgress_sameMemory (s : State) (n : Snap) : SameMemory s (s.snapProgress n) :=
  ((SameMemory.setFld s _ _ _).step (.setFld _ _ _ _)).step (.withSnap _ _)

theorem State.snapProgress_region (s : State) (n : Snap) :
    (s.snapProgress n).fld R.TRN_SNAP_STAT F.TRN_SNAP_STAT_REGION = (n.done - 1) % 256 := by
  rw [State.snapProgress, State.fld_withSnap, State.fld_setFld_apart _ _ _ _ _ (by decide) (by decide),
    State.fld_setFld_mod _ _ _ _ (by decide)]
  rfl

theorem State.snapProgress_bytes (s : State) (n : Snap) :
    (s.snapProgress n).fld R.TRN_SNAP_STAT F.TRN_SNAP_STAT_BYTES = n.read.length % 2 ^ 41 := by
  rw [State.snapProgress, State.fld_withSnap, State.fld_setFld_mod _ _ _ _ (by decide)]
  rfl

theorem State.snapEnd_unread {s : State} {n : Snap} (h : n.done < n.regions.length) : s.snapEnd n = s := if_pos h

theorem State.snapEnd_bad {s : State} {n : Snap} (hd : n.regions.length ≤ n.done) (hb : n.bad = true) :
    s.snapEnd n = s.endSnap (some stData) := by
  rw [State.snapEnd, if_neg (Nat.not_lt.mpr hd), if_pos (.inl hb)]

theorem State.snapEnd_signed {s w : State} {n : Snap} {ok : Bool} (hd : n.regions.length ≤ n.done) (hb : n.bad = false)
    (hsig : n.signing = 3) (hsend : s.rdmaSend n.qp (n.va + n.total) n.rkey (n.manifest ++ n.sig) = (w, ok)) :
    s.snapEnd n = w.endSnap (some (if ok then stDone else stLink)) := by
  have good : ¬ (n.bad = true ∨ n.signing = 2) := by
    rw [hb, hsig]
    decide
  rw [State.snapEnd, if_neg (Nat.not_lt.mpr hd), if_neg good, if_pos hsig, State.snapSend, hsend]

/-- Nothing of a snapshot acts where none runs. -/
theorem exec_snapshot_none {s : State} (hs : s.serving = true) (h : s.snap = none) :
    exec .snapshotRegion s = .next s ∧ exec .snapshotEnd s = .next s ∧ exec .snapshotAbort s = .next s :=
  ⟨State.whenServing_eq hs (by rw [h]), State.whenServing_eq hs (by rw [h]),
    State.whenServing_eq hs (by rw [State.endSnap_of_none h])⟩

theorem exec_snapshotRegion_some {s t : State} {n : Snap} (hs : s.serving = true) (h : s.snap = some n) (e : s.snapRegion n = t) :
    exec .snapshotRegion s = .next t :=
  State.whenServing_eq hs (by rw [h]; exact e)

theorem exec_snapshotEnd_some {s t : State} {n : Snap} (hs : s.serving = true) (h : s.snap = some n) (e : s.snapEnd n = t) :
    exec .snapshotEnd s = .next t :=
  State.whenServing_eq hs (by rw [h]; exact e)

/-! ### The checkpoint (R361, R377) -/

/-- A checkpoint write that is refused without a trace: of an epoch not settled, before the last one, or not committed. -/
def State.CkptRefused (s : State) (k : Nat) : Prop :=
  s.settled < k ∨ k < s.fld R.TRN_CKPT F.TRN_CKPT_LAST ∨ (k ≠ s.fld R.TRN_CKPT F.TRN_CKPT_LAST ∧ s.epochState k ≠ .committed)

theorem State.not_ckptRefused {s : State} {k : Nat} (h1 : k ≤ s.settled) (h2 : s.fld R.TRN_CKPT F.TRN_CKPT_LAST ≤ k)
    (h3 : k = s.fld R.TRN_CKPT F.TRN_CKPT_LAST ∨ s.epochState k = .committed) : ¬ s.CkptRefused k := by
  rintro (ahead | behind | ⟨new, uncommitted⟩)
  · exact Nat.not_le.mpr ahead h1
  · exact Nat.not_le.mpr behind h2
  · exact h3.elim new uncommitted

theorem State.sendPend_pend (s : State) (type : Nat) (nums : List Nat) (bytes : List Byte) :
    (s.sendPend type nums bytes).pend = s.pend := by
  unfold State.sendPend
  split
  · exact State.emit_pend _ _
  · rfl

theorem State.sendPend_sameRegs (s : State) (type : Nat) (nums : List Nat) (bytes : List Byte) :
    SameRegsBut [] s (s.sendPend type nums bytes) := by
  unfold State.sendPend
  split
  · exact .emit s _
  · exact .refl _ s

theorem State.sendPend_sameMemory (s : State) (type : Nat) (nums : List Nat) (bytes : List Byte) :
    SameMemory s (s.sendPend type nums bytes) := by
  unfold State.sendPend
  split
  · exact .emit s _
  · exact .refl s

/-- The partner is asked to confirm epoch k, and the time is noted (R377). -/
def State.askConfirm (s : State) (k : Nat) : State :=
  (s.updPend (fun p => { p with confirm := some (k, s.now) })).sendPend 0x36 [0, k] []

theorem State.askConfirm_confirm (s : State) (k : Nat) : (s.askConfirm k).pend.confirm = some (k, s.now) :=
  congrArg PendInt.confirm (State.sendPend_pend _ _ _ _)

theorem State.askConfirm_sameRegs (s : State) (k : Nat) : SameRegsBut [] s (s.askConfirm k) :=
  (SameRegsBut.of_eq rfl rfl).step (State.sendPend_sameRegs _ _ _ _)

theorem State.askConfirm_sameMemory (s : State) (k : Nat) : SameMemory s (s.askConfirm k) :=
  (SameMemory.of_eq rfl rfl).step (State.sendPend_sameMemory _ _ _ _)

section Checkpoint

variable {s : State} {v : Word}

theorem State.ckptWrite_refused (h : s.CkptRefused (F.TRN_CKPT_LAST.get v)) : s.ckptWrite v = s := if_pos h

theorem State.ckptWrite_alone (h : ¬ s.CkptRefused (F.TRN_CKPT_LAST.get v)) (hp : s.shadow = false ∨ s.pairState ≠ psPaired) :
    s.ckptWrite v = s.setReg R.TRN_CKPT (BitVec.ofNat 64 (F.TRN_CKPT_LAST.get v)) := by
  have alone : ¬ (s.shadow = true ∧ s.pairState = psPaired) := fun ⟨shadowed, paired⟩ =>
    hp.elim (fun unshadowed => Bool.false_ne_true (unshadowed.symm.trans shadowed)) (· paired)
  exact (if_neg h).trans (if_neg alone)

theorem State.ckptWrite_asks (h : ¬ s.CkptRefused (F.TRN_CKPT_LAST.get v)) (hs : s.shadow = true) (hp : s.pairState = psPaired)
    (hcmds : s.cmds = []) (hc : s.pend.confirm = none) :
    s.ckptWrite v = s.askConfirm (F.TRN_CKPT_LAST.get v) := by
  have idle : ¬ (s.cmds.any (fun c => (c.code == 0x41 || c.code == 0x42) && decide (c.at 24 6 ≤ F.TRN_CKPT_LAST.get v) &&
      c.phase != .finished) = true ∨ s.pend.confirm.isSome = true) := by
    simp [hcmds, hc]
  exact (if_neg h).trans ((if_pos ⟨hs, hp⟩).trans (if_neg idle))

theorem State.ckptWrite_busy (h : ¬ s.CkptRefused (F.TRN_CKPT_LAST.get v)) (hs : s.shadow = true) (hp : s.pairState = psPaired)
    (hc : s.pend.confirm ≠ none) : s.ckptWrite v = s.count R.PEND_CNT F.PEND_CNT_CONFIRM_FAIL 1 :=
  (if_neg h).trans ((if_pos ⟨hs, hp⟩).trans (if_pos (.inr (Option.isSome_iff_ne_none.mpr hc))))

end Checkpoint

/-- Settles O54: each command's equation above gives its next state, and that state's own lemmas give the clause's effect. -/
theorem trainingSteps : Obligations.TrainingSteps := by
  unfold Obligations.TrainingSteps
  refine ⟨fun s hs => ⟨fun noHeld => ?noClose, fun st w held hw => ⟨fun lost => ?linkLost, fun notLost ok hok => ?decided⟩⟩,
    fun e w s he hw hsnap hp hq => ?commit, fun v s hm => ⟨fun h => ?localRefused, fun hg he => ?localSettles⟩,
    fun v s hm => ⟨fun h => ?writeRefused, fun hp hw hsnap hq => ?writeAccepted⟩,
    fun v s hm => ⟨fun h => ?lossDropped, fun e he hlt hen hl => ?lossWatched⟩,
    fun s hm => ⟨fun out => ?outside, fun inside => ?inside, fun inside => ?slotStarts, fun out => ?slotEnds⟩,
    fun s hs => ⟨fun busy => ?busy, fun idle => ⟨fun unaligned => ?unaligned, fun n w hr he => ?started⟩⟩,
    fun s hs noSnap => exec_snapshot_none hs noSnap,
    fun n s hs hn => ⟨fun he => ?uncommitted, fun r b v bad w he hr hmore hfree hread hsend => ?region, fun hd => ?unread,
      fun hd hb => ?badRead, fun hd hb hsig w ok hsend hw => ?signed, ?aborted⟩,
    fun v s hm => ⟨fun h => ?ckptRefused, fun h1 h2 h3 => ?ckptTaken⟩⟩
  case noClose => exact exec_settlement_none hs noHeld
  case linkLost =>
    refine ⟨s.linkLost (s.settled + 1), ?_, State.linkLost_outOfStep .., State.linkLost_fatal ..⟩
    rw [exec_settlement_formed hs held hw, if_pos lost, lost, State.closeCommits_of_link]
  case decided =>
    have decision : s.closeCommits st w = ok := Bool.eq_iff_iff.mpr ((s.closeCommits_iff st w).trans hok.symm)
    rw [exec_settlement_formed hs held hw, if_neg notLost, decision]
  case commit =>
    rw [State.settle_eq_commitEpoch hsnap hp hq]
    exact ⟨State.commitEpoch_settled he, State.commitEpoch_lastVeto hw, State.commitEpoch_history_odd,
      fun i hi => State.commitEpoch_history_bit hi, State.commitEpoch_histValid, State.commitEpoch_sameRegs,
      State.commitEpoch_frame.sameMemory⟩
  case localRefused => exact State.whenMain_eq hm (State.settleLocal_refused h)
  case localSettles => exact State.whenMain_eq hm (if_pos ⟨hg, he⟩)
  case writeRefused => exact State.whenMain_eq hm (State.settledWrite_refused h)
  case writeAccepted =>
    exact ⟨s.settledTo v, State.whenMain_eq hm (State.settledWrite_accepted hp hw hsnap hq), s.settledTo_settled v,
      s.settledTo_histValid v, s.settledTo_lastVeto v, s.settledTo_sameRegs v, (s.settledTo_frame v).sameMemory⟩
  case lossDropped =>
    exact ⟨_, State.whenMain_eq hm (State.lossWrite_dropped h), s.fld_count_same _ _ _ (by decide),
      .count s _ _ (by simp), .count s _ _ _⟩
  case lossWatched =>
    have watched : exec (.lossWatch v) s = .next (s.lossWatch (F.TRN_LOSS_LOSS.get v) e) :=
      State.whenMain_eq hm (State.lossWrite_watched he hen hl)
    refine ⟨watched, fun hx => ⟨s.lossSpike e, ?spike, s.lossSpike_mean_dev e, s.lossSpike_lastEpoch hlt, s.lossSpike_seen e,
        s.lossSpike_spikes e, s.lossSpike_sameMemory e⟩,
      fun hx hseen hwarm => ⟨s.lossFirst (F.TRN_LOSS_LOSS.get v) e, ?first, s.lossFirst_mean e (Field.get_lt _ v),
        s.lossFirst_dev _ e, s.lossFirst_seen _ e, s.lossFirst_lastEpoch _ hlt, s.lossFirst_sameRegs _ e,
        s.lossFirst_sameMemory _ e⟩⟩
    case spike => rw [watched, s.lossWatch_nonfinite e hx]
    case first => rw [watched, State.lossWatch_first e hx hseen hwarm]
  case outside => exact State.whenMain_eq hm (if_neg (Bool.eq_false_iff.mp out))
  case inside => exact State.whenMain_eq hm (if_pos inside)
  case slotStarts => exact ⟨_, State.whenMain_eq hm (if_pos inside), s.setInSlot_effect (by decide)⟩
  case slotEnds => exact ⟨_, State.whenMain_eq hm (if_neg (Bool.eq_false_iff.mp out)), s.setInSlot_effect (by decide)⟩
  case busy => exact State.whenServing_eq hs (State.snapStart_busy busy)
  case unaligned =>
    exact ⟨_, State.whenServing_eq hs (State.snapStart_unaligned idle unaligned), State.reportSnap_status _ _ (by decide),
      State.reportSnap_idle _ _, (State.reportSnap_snap _ _).trans s.snapBusy_snap,
      s.snapBusy_sameMemory.step (State.reportSnap_sameMemory _ _)⟩
  case started => exact State.whenServing_eq hs (State.snapStart_started idle hr he)
  case uncommitted => exact exec_snapshotRegion_some hs hn (State.snapRegion_uncommitted he)
  case region =>
    exact ⟨_, exec_snapshotRegion_some hs hn (State.snapRegion_advances he hr hmore hfree hread hsend), rfl,
      State.snapProgress_region _ _, State.snapProgress_bytes _ _, State.snapProgress_sameMemory _ _⟩
  case unread => exact exec_snapshotEnd_some hs hn (State.snapEnd_unread hd)
  case badRead =>
    exact ⟨_, exec_snapshotEnd_some hs hn (State.snapEnd_bad hd hb), State.endSnap_effect hn (by decide)⟩
  case signed =>
    have fits : (if ok then stDone else stLink) < 256 := by
      split <;> decide
    obtain ⟨gone, status, idle, _⟩ := State.endSnap_effect (hw.trans hn) fits
    exact ⟨_, exec_snapshotEnd_some hs hn (State.snapEnd_signed hd hb hsig hsend), gone, status, idle⟩
  case aborted => exact ⟨_, State.whenServing_next _ hs, State.endSnap_effect hn (by decide)⟩
  case ckptRefused => exact State.whenMain_eq hm (State.ckptWrite_refused h)
  case ckptTaken =>
    have taken := State.not_ckptRefused h1 h2 h3
    have last : (s.setReg R.TRN_CKPT (BitVec.ofNat 64 (F.TRN_CKPT_LAST.get v))).fld R.TRN_CKPT F.TRN_CKPT_LAST =
        F.TRN_CKPT_LAST.get v :=
      (s.fld_setReg_same _ _ _).trans (Field.get_ofNat_low _ (by decide) rfl (Field.get_lt _ v))
    exact ⟨fun alone => ⟨_, State.whenMain_eq hm (State.ckptWrite_alone taken alone), last, .setReg s _ (by simp),
        .setReg s _ _⟩,
      fun shadowed paired hcmds hc => ⟨_, State.whenMain_eq hm (State.ckptWrite_asks taken shadowed paired hcmds hc),
        s.askConfirm_confirm _, s.askConfirm_sameRegs _, s.askConfirm_sameMemory _⟩,
      fun shadowed paired hc => ⟨_, State.whenMain_eq hm (State.ckptWrite_busy taken shadowed paired hc),
        s.fld_count_same _ _ _ (by decide), State.count_pend .., .count s _ _ (by simp), .count s _ _ _⟩⟩

end Sys2Proof.Machine
end

section
/-!
PROOFS. CanonicalKept and EveryCommandEnds: one lemma per operation of the model says what it keeps, of the canonical form of
memory and banks and of the queue of commands; the lemmas compose as the operations do.
-/

namespace Sys2Proof.Machine

open Sys2Proof

/-! ### What every operation keeps: the canonical form, and the queue of the commands that wait -/

/-- Where the memory of `s` is canonical, the list `m` is. -/
def MemKept (s : State) (m : List Host.Cell) : Prop := Memory.wf s.mem = true → Memory.wf m = true

/-- Where the register bank of `s` is canonical, the bank `r` is. -/
def RegsKept (s : State) (r : Sparse Word) : Prop := sparseWf coldOf s.regs = true → sparseWf coldOf r = true

/-- Where the staged bank of `s` is canonical, the bank `r` is. -/
def StagedKept (s : State) (r : Sparse Word) : Prop := sparseWf coldOf s.staged = true → sparseWf coldOf r = true

/-- The queue of the commands that wait is that of `s`. -/
def PendingKept (s : State) (l : List Instr) : Prop := l = s.pending

/-- `t` keeps what `s` has of the canonical form, and its queue of the commands that wait. Relative to a first state `s`, so
that the lemmas chain: what an operation makes of a state that keeps `s` keeps `s` again. -/
structure Kept (s t : State) : Prop where
  mem : MemKept s t.mem
  regs : RegsKept s t.regs
  staged : StagedKept s t.staged
  pending : PendingKept s t.pending

section
variable {s₀ s t u : State}

theorem Kept.refl : Kept s s := ⟨id, id, id, rfl⟩

/-- A change of other fields than memory, the two banks and the queue of commands. -/
theorem Kept.upd {powered mainGood strapValid strapNode strapSlot lidPins sbStrap now hubAc altered ceSeen held tracker queues
    cmds semWaiters lockWaiters arbs applies ceIndex ceCount lfsr power events eventSeq eventLost draws out
    lifeLimit members links fabric creditHolds heldSignals lent imageUp resetHolds warmRun captured pendingVeto
    engResets snap banks accs gates probs replayIds rings slivers brushRuns latches lentSince nmaUpdates groups
    colls redRx redTx retracted stepDigests closes qps sessions bells keys sensors egSent replayBuf pldmTid signReqs
    challenge debugExpiry flash incLimit update recov pend}
    (h : Kept s₀ s) :
    Kept s₀ ⟨s.pending, powered, mainGood, strapValid, strapNode, strapSlot, lidPins, sbStrap, now, hubAc, s.regs,
      s.staged, s.mem, altered, ceSeen, held, tracker, queues, cmds, semWaiters, lockWaiters, arbs, applies,
      ceIndex, ceCount, lfsr, power, events, eventSeq, eventLost, draws, out, lifeLimit, members, links, fabric,
      creditHolds, heldSignals, lent, imageUp, resetHolds, warmRun, captured, pendingVeto, engResets, snap, banks,
      accs, gates, probs, replayIds, rings, slivers, brushRuns, latches, lentSince, nmaUpdates, groups, colls,
      redRx, redTx, retracted, stepDigests, closes, qps, sessions, bells, keys, sensors, egSent, replayBuf, pldmTid,
      signReqs, challenge, debugExpiry, flash, incLimit, update, recov, pend⟩ :=
  ⟨h.mem, h.regs, h.staged, h.pending⟩

theorem Kept.ite {c : Prop} {i : Decidable c} (ht : Kept s₀ t) (hu : Kept s₀ u) :
    Kept s₀ (if c then t else u) := by
  split
  · exact ht
  · exact hu

theorem Kept.thenIf {c : Prop} {i : Decidable c} (h : Kept s₀ s) (ht : Kept s₀ s → Kept s₀ t) :
    Kept s₀ (if c then t else s) :=
  .ite (ht h) h

theorem Kept.elseIf {c : Prop} {i : Decidable c} (h : Kept s₀ s) (ht : Kept s₀ s → Kept s₀ t) :
    Kept s₀ (if c then s else t) :=
  .ite h (ht h)

section Pairs

variable {α β : Type} {a : α} {b : β}

theorem Kept.ite_fst {c : Prop} {i : Decidable c} {p q : State × α} (hp : Kept s₀ p.1) (hq : Kept s₀ q.1) :
    Kept s₀ (if c then p else q).1 := by
  split
  · exact hp
  · exact hq

theorem Kept.ite_snd {c : Prop} {i : Decidable c} {p q : α × State} (hp : Kept s₀ p.2) (hq : Kept s₀ q.2) :
    Kept s₀ (if c then p else q).2 := by
  split
  · exact hp
  · exact hq

theorem Kept.ite_mid {c : Prop} {i : Decidable c} {p q : α × State × β} (hp : Kept s₀ p.2.1) (hq : Kept s₀ q.2.1) :
    Kept s₀ (if c then p else q).2.1 := by
  split
  · exact hp
  · exact hq

theorem Kept.of_fst {p : State × α} (h : Kept s₀ p.1) (e : p = (t, a)) : Kept s₀ t := by
  subst e
  exact h

theorem Kept.of_snd {p : α × State} (h : Kept s₀ p.2) (e : p = (a, t)) : Kept s₀ t := by
  subst e
  exact h

theorem Kept.of_mid {p : α × State × β} (h : Kept s₀ p.2.1) (e : p = (a, t, b)) : Kept s₀ t := by
  subst e
  exact h

end Pairs

theorem Kept.foldl {α : Type} {g : State → α → State} {l : List α} (h : Kept s₀ s)
    (hg : ∀ t x, Kept s₀ t → Kept s₀ (g t x)) : Kept s₀ (l.foldl g s) := by
  induction l generalizing s with
  | nil => exact h
  | cons x r ih => exact ih (hg s x h)

theorem Kept.foldl_fst {α β : Type} {g : State × β → α → State × β} {l : List α} {p : State × β} (h : Kept s₀ p.1)
    (hg : ∀ p x, Kept s₀ p.1 → Kept s₀ (g p x).1) : Kept s₀ (l.foldl g p).1 := by
  induction l generalizing p with
  | nil => exact h
  | cons x r ih => exact ih (hg p x h)

theorem Kept.foldl_snd {α β : Type} {g : β × State → α → β × State} {l : List α} {p : β × State} (h : Kept s₀ p.2)
    (hg : ∀ p x, Kept s₀ p.2 → Kept s₀ (g p x).2) : Kept s₀ (l.foldl g p).2 := by
  induction l generalizing p with
  | nil => exact h
  | cons x r ih => exact ih (hg p x h)

end

/-- The outcome is a next state that keeps `s`. -/
def Res.Keeps (s : State) (r : Res) : Prop := ∃ t, r = .next t ∧ Kept s t

section
variable {s₀ s t : State}

theorem Res.Keeps.next (h : Kept s₀ t) : Res.Keeps s₀ (.next t) := ⟨t, rfl, h⟩

theorem Res.Keeps.ite {c : Prop} [Decidable c] {p q : Res} (hp : p.Keeps s₀) (hq : q.Keeps s₀) :
    Res.Keeps s₀ (if c then p else q) := by
  split
  · exact hp
  · exact hq

theorem Kept.alive (h : Kept s₀ s) (ht : Kept s₀ t) : (s.alive t).Keeps s₀ := .ite (.next ht) (.next h)

theorem Kept.whenMain (h : Kept s₀ s) (ht : Kept s₀ t) : (s.whenMain t).Keeps s₀ := .ite (.next ht) (.next h)

theorem Kept.whenServing (h : Kept s₀ s) (ht : Kept s₀ t) : (s.whenServing t).Keeps s₀ := .ite (.next ht) (.next h)
end

/-! #### The canonical form of lists, and lists that are made anew -/

section
variable {s : State} {m : List Host.Cell} {r : Sparse Word}

theorem MemKept.foldl {α : Type} {g : List Host.Cell → α → List Host.Cell} {l : List α} (h : MemKept s m)
    (hg : ∀ n x, MemKept s n → MemKept s (g n x)) : MemKept s (l.foldl g m) := by
  induction l generalizing m with
  | nil => exact h
  | cons x r ih => exact ih (hg m x h)

theorem MemKept.memSet (h : MemKept s m) (k : Nat) (b : Byte) : MemKept s (memSet m k b) := fun w => wf_memSet m k b (h w)

theorem MemKept.filter (h : MemKept s m) (f : Host.Cell → Bool) : MemKept s (m.filter f) := fun w => wf_memFilter m f (h w)

theorem MemKept.nil : MemKept s [] := fun _ => rfl

theorem RegsKept.sparseSet (h : RegsKept s r) (a : Nat) (v : Word) : RegsKept s (sparseSet r a v (coldOf a)) := fun w =>
  sparseWf_set a v (h w)

theorem StagedKept.sparseSet (h : StagedKept s r) (a : Nat) (v : Word) : StagedKept s (sparseSet r a v (coldOf a)) :=
  fun w =>
  sparseWf_set a v (h w)

theorem RegsKept.filter (h : RegsKept s r) (f : Nat × Word → Bool) : RegsKept s (r.filter f) :=
  fun w => sparseWf_filter f (h w)

theorem StagedKept.filter (h : StagedKept s r) (f : Nat × Word → Bool) : StagedKept s (r.filter f) := fun w =>
  sparseWf_filter f (h w)

theorem StagedKept.nil : StagedKept s [] := fun _ => rfl

theorem mem_key_of_mem_mapRegs {f : Nat → Word → Word} {p : Nat × Word} (h : p ∈ mapRegs f r) : ∃ q ∈ r, q.1 = p.1 := by
  obtain ⟨q, hq, e⟩ := List.mem_map.mp (List.mem_filter.mp h).1
  exact ⟨q, hq, by rw [← e]⟩

theorem sparseWf_mapRegs (f : Nat → Word → Word) (h : sparseWf coldOf r = true) : sparseWf coldOf (mapRegs f r) = true := by
  induction r with
  | nil => rfl
  | cons q r ih =>
    obtain ⟨k, w⟩ := q
    obtain ⟨_, hlt, hr⟩ := sparseWf_cons.mp h
    have rest := ih hr
    rw [mapRegs, List.map_cons, List.filter_cons]
    split
    · rename_i hv
      refine sparseWf_cons.mpr ⟨bne_iff_ne.mp hv, fun p hp => ?_, rest⟩
      obtain ⟨q, hq, e⟩ := mem_key_of_mem_mapRegs hp
      exact e ▸ hlt q hq
    · exact rest

theorem sparseWf_joinBank (ws : List (BitVec 64 × BitVec 64)) (h : sparseWf coldOf r = true) :
    sparseWf coldOf (joinBank r ws) = true :=
  List.foldlRecOn (motive :=
  fun m => sparseWf coldOf m = true) ws _ (sparseWf_filter _ h) fun _ hm _ _ => sparseWf_set _ _ hm

theorem RegsKept.mapRegs (h : RegsKept s r) (f : Nat → Word → Word) : RegsKept s (mapRegs f r) :=
  fun w => sparseWf_mapRegs f (h w)

theorem RegsKept.joinBank (h : RegsKept s r) (ws : List (BitVec 64 × BitVec 64)) : RegsKept s (joinBank r ws) := fun w =>
  sparseWf_joinBank ws (h w)

theorem StagedKept.joinBank (h : StagedKept s r) (ws : List (BitVec 64 × BitVec 64)) : StagedKept s (joinBank r ws) :=
  fun w =>
  sparseWf_joinBank ws (h w)

theorem RegsKept.resetRegs : RegsKept s resetRegs := fun _ => by decide

theorem Kept.mk_fst {α : Type} {s₀ t : State} {a : α} (h : Kept s₀ t) : Kept s₀ (t, a).1 := h

end

/-- Stated of the function, not of its value: the kernel would reduce the pair's component first. -/
theorem State.bindWrite_eq : State.bindWrite = fun s d n v =>
    ((s.setReg (R.RAND_BIND d n) ((s.reg (R.RAND_BIND d n) &&& 0x400) ||| (v &&& 0x3FF))).aliasCheck 0xFF d n).1 := rfl

/-! ### The lemma of each operation, in the order of the model -/

section
variable {s₀ s : State} (h : Kept s₀ s)
include h

/-! #### The operations on registers, memory and marks -/

theorem Kept.setReg {a v} : Kept s₀ (s.setReg a v) := ⟨h.mem, h.regs.sparseSet _ _, h.staged, h.pending⟩

theorem Kept.setStaged {a v} : Kept s₀ (s.setStaged a v) := ⟨h.mem, h.regs, h.staged.sparseSet _ _, h.pending⟩

theorem Kept.setFld {a f v} : Kept s₀ (s.setFld a f v) := h.setReg

theorem Kept.count {a f n} : Kept s₀ (s.count a f n) := h.setFld

theorem Kept.countWrap {a f n} : Kept s₀ (s.countWrap a f n) := h.setFld

theorem Kept.setBit {a f i b} : Kept s₀ (s.setBit a f i b) := h.setFld

theorem Kept.coldReg {a} : Kept s₀ (s.coldReg a) := h.setReg

theorem Kept.emit {o} : Kept s₀ (s.emit o) := h.upd

theorem Kept.served {f : State → State} (hf : ∀ t, Kept s₀ t → Kept s₀ (f t)) : Kept s₀ (s.served f) :=
  .ite (hf _ h) (hf _ h.setReg).setReg

theorem Kept.poke {kb} : Kept s₀ (s.poke kb) :=
  ⟨h.mem.foldl fun _ _ hm => hm.memSet _ _, h.regs, h.staged, h.pending⟩

theorem Kept.alert {i} : Kept s₀ (s.alert i) := .ite h h.setBit

theorem Kept.countLate {late} : Kept s₀ (s.countLate late) := .ite h.count h

theorem Kept.queueEvent {kind body} : Kept s₀ (s.queueEvent kind body) := .ite h.upd.count.emit h.upd.count.alert

theorem Kept.hostEvent {kind body} : Kept s₀ (s.hostEvent kind body) := .ite h.queueEvent h

theorem Kept.setWords {base bytes} : Kept s₀ (s.setWords base bytes) := h.foldl fun _ _ h₁ => h₁.setReg

theorem Kept.ringWrite {cls bytes} : Kept s₀ (s.ringWrite cls bytes) :=
  (Kept.ite h.count h).setWords.setReg.count.thenIf fun h₁ => h₁.setWords.setFld

theorem Kept.ceAdmit : Kept s₀ (s.ceAdmit).2 := .ite_snd h.upd h.upd

theorem Kept.errDeliver {cls bytes} : Kept s₀ (s.errDeliver cls bytes) :=
  .ite (Kept.ite h.hostEvent h).alert ((Kept.ite h.hostEvent h).thenIf fun h₁ => h₁.alert)

theorem Kept.errRecord {r} : Kept s₀ (s.errRecord r) :=
  .ite (.ite h.ceAdmit.ringWrite.errDeliver h.ceAdmit.count) h.ringWrite.errDeliver

theorem Kept.writeBackHeld {hit} : Kept s₀ (s.writeBackHeld hit) := .ite h h.upd

theorem Kept.corrected {u} : Kept s₀ (s.corrected u) := .ite (h.count.elseIf fun h₁ => h₁.upd.errRecord) h.count

theorem Kept.uncorrectable {w u} : Kept s₀ (s.uncorrectable w u) := .ite h.count.setFld.errRecord h.errRecord

theorem Kept.repair {u} : Kept s₀ (s.repair u) := h.upd

theorem Kept.decodeUnit {tell : State → State} {u} (htell : ∀ t, Kept s₀ t → Kept s₀ (tell t)) :
    Kept s₀ (s.decodeUnit tell u).1 := by
  have sound {t : State} (ht : Kept s₀ t) : Kept s₀ ((t.repair u).corrected u) := ht.repair.corrected
  unfold State.decodeUnit
  generalize (if isHbm u = true then (2, 4) else (1, 2) : Nat × Nat) = codes
  exact .ite_fst (sound h) (.ite_fst (htell _ h) (.ite_fst (htell _ h.upd) (.ite_fst h.upd (sound h.upd.poke))))

theorem Kept.readUnit {w u} : Kept s₀ (s.readUnit w u).1 := h.decodeUnit (fun _ h₁ => h₁.uncorrectable)

theorem Kept.readKeys {w keys} : Kept s₀ (s.readKeys w keys).1 :=
  .foldl_fst (.mk_fst h.writeBackHeld) fun p _ hp => .ite_fst (q := p) hp.readUnit hp

theorem Kept.writeKeys {kb} : Kept s₀ (s.writeKeys kb).1 := by
  dsimp only [State.writeKeys]
  refine Kept.poke (Kept.foldl_fst (.mk_fst h.writeBackHeld) fun p u hp => .ite_fst (.ite_fst hp.repair ?_) (q := p) hp)
  exact .ite_fst hp.repair.corrected (.mk_fst (.ite hp.count hp))

theorem Kept.readMem {w a n} : Kept s₀ (s.readMem w a n).2.1 := h.readKeys

theorem Kept.writeMem {a bs} : Kept s₀ (s.writeMem a bs).1 := h.writeKeys

theorem Kept.draw : Kept s₀ (s.draw).2 := h.upd

/-! #### The links -/

theorem Kept.setLink {p l} : Kept s₀ (s.setLink p l) := h.upd

theorem Kept.spendCredit {p vc len} : Kept s₀ (s.spendCredit p vc len) := h.setLink

theorem Kept.egress {p r} : Kept s₀ (s.egress p r) := h.spendCredit.setLink.emit

/-! #### The beat -/

theorem Kept.setTracker {t} : Kept s₀ (s.setTracker t) := h.upd.setReg

theorem Kept.setBeatState {st} : Kept s₀ (s.setBeatState st) := h.setFld

theorem Kept.repos {old new} : Kept s₀ (s.repos old new) := .ite h.countWrap h

theorem Kept.follow {m} : Kept s₀ (s.follow m) := by
  dsimp only [State.follow]
  split
  · exact h
  · exact h.upd.setFld.setReg

theorem Kept.coastRecord {k} : Kept s₀ (s.coastRecord k) := h.errRecord

theorem Kept.lostRecord {k why} : Kept s₀ (s.lostRecord k why) := h.errRecord

theorem Kept.enterSearch : Kept s₀ (s.enterSearch) := h.upd.setBeatState.setFld

theorem Kept.enterIdle : Kept s₀ (s.enterIdle) := h.upd.setBeatState.setFld

theorem Kept.enterGenerator : Kept s₀ (s.enterGenerator) := h.repos.setTracker.setBeatState.setFld.setFld.setReg

theorem Kept.sourceApplied {old} : Kept s₀ (s.sourceApplied old) :=
  .ite h (.ite h.enterIdle (.ite h.enterGenerator h.enterSearch))

theorem Kept.acquire {e num} : Kept s₀ (s.acquire e num) := by
  dsimp only [State.acquire]
  split
  · exact (Kept.ite h.count h).upd
  · exact (Kept.ite h.count h).repos.setTracker.setBeatState.setFld

theorem Kept.acceptEdge {e skip} : Kept s₀ (s.acceptEdge e skip) := (Kept.ite h.count h).setFld.setTracker.setBeatState

theorem Kept.spurious : Kept s₀ (s.spurious) := h.count

theorem Kept.trackerEdge {e num} : Kept s₀ (s.trackerEdge e num) := by
  dsimp only [State.trackerEdge]
  refine .ite h.acquire (.ite ?_ (.ite (.ite h.acceptEdge h.spurious) h))
  split
  · exact .ite h.acceptEdge h.spurious
  · exact .ite (.ite h.acceptEdge h.spurious) (.ite (.ite h.count.acceptEdge h.spurious) h.upd.setBeatState.lostRecord)

theorem Kept.pertDraw {k} : Kept s₀ (s.pertDraw k).2 := h.upd

theorem Kept.jitter {e} : Kept s₀ (s.jitter e).2 := .ite_snd (.ite_snd h.pertDraw.count h.pertDraw) h

theorem Kept.execBeatEdge : (execBeatEdge s).Keeps s₀ := by
  dsimp only [Machine.execBeatEdge]
  refine h.whenMain (.ite ?_ h)
  split
  · exact h.jitter
  · exact h.jitter.trackerEdge

theorem Kept.coast : Kept s₀ (s.coast) := h.count.setTracker.setBeatState.thenIf fun h₁ => h₁.coastRecord

theorem Kept.execBeatCoast : (execBeatCoast s).Keeps s₀ := h.whenMain (.ite h.coast h)

theorem Kept.execBeatLostEntry : (execBeatLostEntry s).Keeps s₀ := h.whenMain (.ite h.upd.setBeatState.lostRecord h)

theorem Kept.execMasterTakeover : (execMasterTakeover s).Keeps s₀ :=
  h.whenMain (.ite h.upd.setBeatState.setFld.setFld.setReg h)

theorem Kept.sendTokens {k corr} : Kept s₀ (s.sendTokens k corr) := h.foldl fun _ _ h₁ => .ite h₁.egress h₁

theorem Kept.execGeneratorBoundary : (execGeneratorBoundary s).Keeps s₀ :=
  h.whenMain (.ite (h.setTracker.thenIf fun h₁ => h₁.sendTokens) h)

theorem Kept.resync : Kept s₀ (s.resync) := h.enterSearch

theorem Kept.execResync : (execResync s).Keeps s₀ := h.whenMain h.resync

theorem Kept.rescale {o n} : Kept s₀ (s.rescale o n) := h.setTracker

theorem Kept.execLifetimeMinute : (execLifetimeMinute s).Keeps s₀ := h.alive (.ite (Kept.ite h.upd h).setFld h)

theorem Kept.readBeatPos : Kept s₀ (s.readBeatPos).2 := h.setReg

/-! #### Palettes and random streams -/

theorem Kept.setScale {d p e x} : Kept s₀ (s.setScale d p e x) := h.setFld

theorem Kept.countInto {t d p c f r} : Kept s₀ (s.countInto t d p c f r).1 :=
  .ite_fst h (((Kept.ite h.count h).thenIf fun h₁ => h₁.count).thenIf fun h₁ => h₁.count)

theorem Kept.setStale {d p b} : Kept s₀ (s.setStale d p b) := h.setBit

theorem Kept.markStale {d t} : Kept s₀ (s.markStale d t) := .ite h (h.foldl fun _ _ h₁ => .ite h₁.setStale h₁)

theorem Kept.sketchChannel {d p f c amax} : Kept s₀ (s.sketchChannel d p f c amax) :=
  .ite h.count (Kept.ite h h.count).setScale

theorem Kept.sketch {d p f amax} : Kept s₀ (s.sketch d p f amax) :=
  ((h.foldl fun _ _ h₁ => h₁.sketchChannel).foldl fun _ _ h₁ => h₁.setStale).count

theorem Kept.aliasBits : Kept s₀ (s.aliasBits) :=
  (h.foldl fun _ _ h₁ => .ite h₁ h₁.setFld).foldl fun _ _ h₁ => h₁.setFld

theorem Kept.aliasCheck {unit d n} : Kept s₀ (s.aliasCheck unit d n).1 :=
  .ite_fst h.aliasBits (h.foldl fun _ _ h₁ => h₁.count.errRecord).aliasBits

theorem Kept.keyWrite {d n hi v} : Kept s₀ (s.keyWrite d n hi v) := .ite h h.setReg.aliasCheck

theorem Kept.streamWrite {d n v} : Kept s₀ (s.streamWrite d n v) := .ite h h.setReg.aliasCheck

theorem Kept.bindWrite {d n v} : Kept s₀ (s.bindWrite d n v) := by
  rw [State.bindWrite_eq]
  exact h.setReg.aliasCheck

theorem Kept.bindEntry {unit d n consumer valid shared lo hi sid} : Kept s₀
    (s.bindEntry unit d n consumer valid shared lo hi sid).1 :=
  h.setReg.setReg.setReg.setReg.aliasCheck

theorem Kept.execPalStaleWrite {d v} : (execPalStaleWrite d v s).Keeps s₀ := h.alive (.ite h.setReg h)

theorem Kept.execRandKeyWrite {d n hi v} : (execRandKeyWrite d n hi v s).Keeps s₀ := h.alive (.ite h.keyWrite h)

theorem Kept.execRandStreamWrite {d n v} : (execRandStreamWrite d n v s).Keeps s₀ := h.alive (.ite h.streamWrite h)

theorem Kept.execRandBindWrite {d n v} : (execRandBindWrite d n v s).Keeps s₀ := h.alive (.ite h.bindWrite h)

/-! #### The packets of the fabric -/

theorem Kept.sendRaw {r} : Kept s₀ (s.sendRaw r) := by
  dsimp only [State.sendRaw]
  split
  · exact h.egress
  · exact .ite h.upd h

theorem Kept.releaseWaiting : Kept s₀ (s.releaseWaiting) := by
  dsimp only [State.releaseWaiting]
  refine h.upd.foldl fun _ _ h₁ => .ite h₁ ?_
  split
  · exact h₁.egress
  · exact h₁.upd

theorem Kept.takeSeq {dst vc} : Kept s₀ (s.takeSeq dst vc).2 := h.upd

theorem Kept.sendPkt {dst vc type addr body} : Kept s₀ (s.sendPkt dst vc type addr body).2 := h.takeSeq.sendRaw

theorem Kept.sendReq {dst vc type addr body o} : Kept s₀ (s.sendReq dst vc type addr body o).2 :=
  (Kept.ite_snd h.takeSeq h.sendPkt).upd

theorem Kept.respond {h' type err addr body} : Kept s₀ (s.respond h' type err addr body) := h.upd.sendRaw

theorem Kept.dropReq {r} : Kept s₀ (s.dropReq r) := h.upd

/-! #### The queues -/

theorem Kept.setQint {q i} : Kept s₀ (s.setQint q i) := h.upd

theorem Kept.updQ {q f} : Kept s₀ (s.updQ q f) := h.setQint

theorem Kept.setQState {q st on} : Kept s₀ (s.setQState q st on) := h.setFld.setFld

theorem Kept.setSreg {q i v} : Kept s₀ (s.setSreg q i v) := .ite h h.setReg

theorem Kept.setPred {q i b} : Kept s₀ (s.setPred q i b) := .ite h h.setBit

theorem Kept.setPc {q pc} : Kept s₀ (s.setPc q pc) := h.setReg

theorem Kept.finishInstr {q cost pc} : Kept s₀ (s.finishInstr q cost pc) := h.updQ.setPc.setQState

theorem Kept.finishWait {q} : Kept s₀ (s.finishWait q) := h.finishInstr

theorem Kept.finishWaitRd {q rd v} : Kept s₀ (s.finishWaitRd q rd v) := h.setSreg.finishWait

theorem Kept.waitOn {q on w} : Kept s₀ (s.waitOn q on w) := h.updQ.setQState

theorem Kept.reissue {q} : Kept s₀ (s.reissue q) := h.updQ.setQState

theorem Kept.reserveSlot {q} : Kept s₀ (s.reserveSlot q).2 := h.setFld

theorem Kept.writeRec {q i r} : Kept s₀ (s.writeRec q i r) := .ite h.writeMem h.count

theorem Kept.queueFault {q status word} : Kept s₀ (s.queueFault q status word) :=
  h.updQ.setQState.setFld.errRecord.thenIf fun h₁ => h₁.reserveSlot.writeRec

theorem Kept.reportSt {q} : Kept s₀ (s.reportSt q) := by
  dsimp only [State.reportSt]
  split
  · exact h
  · exact h.updQ.setPc.queueFault

theorem Kept.fetch {q g al n} : Kept s₀ (s.fetch q g al n).2 := .ite_snd h.readMem h

theorem Kept.endList {q status} : Kept s₀ (s.endList q status) :=
  (Kept.ite (h.writeRec.thenIf fun h₁ => h₁.hostEvent) h).setQint.setFld.setFld.setQState

theorem Kept.settleOff {q} : Kept s₀ (s.settleOff q) := .ite h.setQint.setReg h

/-! #### Arbiters, semaphores, locks and applies -/

theorem Kept.setSem {store ix v} : Kept s₀ (s.setSem store ix v) := h.setFld

theorem Kept.grantConsuming {store ix l} : Kept s₀ (s.grantConsuming store ix l) := by
  induction l generalizing s with
  | nil => exact h
  | cons w r ih =>
    unfold State.grantConsuming
    exact .ite (.ite (ih h.setSem.upd.finishWait) h) (ih h)

theorem Kept.grantNocons {store ix l} : Kept s₀ (s.grantNocons store ix l) := by
  induction l generalizing s with
  | nil => exact h
  | cons w r ih =>
    unfold State.grantNocons
    exact .ite (ih h.upd.finishWait) (ih h)

theorem Kept.semGrant {store ix} : Kept s₀ (s.semGrant store ix) := h.grantConsuming.grantNocons

theorem Kept.semAdd {store ix n} : Kept s₀ (s.semAdd store ix n) := (Kept.ite h h.count).setSem.semGrant

theorem Kept.semSignal {id} : Kept s₀ (s.semSignal id) := .ite h.upd h.semAdd

theorem Kept.semWrite {pl w v} : Kept s₀ (s.semWrite pl w v) := h.setReg.semGrant.semGrant

theorem Kept.leaveSems {q} : Kept s₀ (s.leaveSems q) := h.upd

theorem Kept.setLock {store ix o} : Kept s₀ (s.setLock store ix o) := h.setReg.setReg

theorem Kept.lockAnswer {w status} : Kept s₀ (s.lockAnswer w status) := by
  dsimp only [State.lockAnswer]
  refine .ite ?_ (.ite h h.respond)
  split
  · exact h.finishWaitRd
  · exact h

theorem Kept.lockGrant {store ix} : Kept s₀ (s.lockGrant store ix) := by
  dsimp only [State.lockGrant]
  split
  · exact h
  · exact (Kept.ite h h.count).upd.setLock.lockAnswer

theorem Kept.lockApply {store ix w v} : Kept s₀ (s.lockApply store ix w v) := by
  dsimp only [State.lockApply]
  split
  · exact (Kept.ite h.count h).setLock
  · exact h.count
  · exact h.upd
  · exact h

theorem Kept.lockRelease {store ix o} : Kept s₀ (s.lockRelease store ix o).2 := .ite_snd h.setLock.lockGrant h

theorem Kept.lockReply {mute err h' status} : Kept s₀ (s.lockReply mute err h' status) := .ite h h.respond

theorem Kept.lockDecide {mute h' kind st ix o} : Kept s₀ (s.lockDecide mute h' kind st ix o) := by
  dsimp only [State.lockDecide]
  refine .ite ?_ (.ite ?_ h.upd.lockRelease.lockReply)
  · split
    · exact h.lockApply.lockReply
    · exact h.lockApply.lockReply
    · exact h.lockApply.lockReply
    · exact h.lockApply.lockReply
  · split
    next e =>
      exact (h.lockRelease.of_snd e).lockReply
    next e =>
      exact (h.lockRelease.of_snd e).lockReply

theorem Kept.lockOpRx {mute h' body} : Kept s₀ (s.lockOpRx mute h' body) :=
  h.lockReply.elseIf fun h₁ => .ite h.lockReply (.ite h₁ (.ite h.upd h.lockDecide))

theorem Kept.lockOpsGo : Kept s₀ (s.lockOpsGo) := h.upd.foldl fun _ _ h₁ => h₁.lockOpRx

theorem Kept.leaveLocks {q} : Kept s₀ (s.leaveLocks q) := h.upd

theorem Kept.lockReexamine {store} : Kept s₀ (s.lockReexamine store) := h.foldl fun _ _ h₁ => .ite h₁.lockGrant h₁

theorem Kept.lockOwnWrite {pl ix v} : Kept s₀ (s.lockOwnWrite pl ix v) := .ite h.setLock.lockGrant h

theorem Kept.setArb {k a} : Kept s₀ (s.setArb k a) := h.upd

theorem Kept.arbCycle {pl r u asks} : Kept s₀ (s.arbCycle pl r u asks) := by
  unfold State.arbCycle
  extract_lets key a here live hid rs a₁ a₂
  split
  next t b e =>
    have ht : Kept s₀ t := by
      refine .of_fst ?_ e
      split
      · exact .ite_fst h (.ite_fst h.count (.ite_fst h h))
      · exact h
    split
    · exact ht.setArb
    · split
      · exact ht.setArb
      · exact .ite (.setArb (.ite ht.count ht)) ht.count.setArb

theorem Kept.execArbGrant {pl r u asks} : (execArbGrant pl r u asks s).Keeps s₀ := h.whenMain (.ite h.arbCycle h)

theorem Kept.execArbWindowReset {pl r u} : (execArbWindowReset pl r u s).Keeps s₀ := h.whenMain (.ite h.setArb h)

theorem Kept.execArbCutoff {pl r u} : (execArbCutoff pl r u s).Keeps s₀ := by
  dsimp only [Machine.execArbCutoff]
  refine h.whenMain ?_
  split
  · exact h
  · exact .ite h.setArb.setBit.setFld.count.errRecord h

theorem Kept.arbCutClear {pl mask} : Kept s₀ (s.arbCutClear pl mask) := h.setFld

theorem Kept.applyBlock {b} : Kept s₀ (s.applyBlock b) :=
  h.foldl fun _ _ h₁ => .ite h₁ (h₁.foldl fun _ _ h₂ => h₂.setReg)

theorem Kept.applyRequest {slot atBeat hub die fromBeat} : Kept s₀ (s.applyRequest slot atBeat hub die fromBeat) :=
  .ite h.count h.upd

theorem Kept.applyCancel {slot fromBeat} : Kept s₀ (s.applyCancel slot fromBeat) := h.upd

theorem Kept.applyEffect {slot r} : Kept s₀ (s.applyEffect slot r) := by
  dsimp only [State.applyEffect]
  exact (h.upd.foldl fun _ _ h₁ => .ite h₁.applyBlock h₁.count).count.sourceApplied

/-! #### Commands in flight -/

theorem Kept.countVetoes : Kept s₀ (s.countVetoes) := h.setFld

theorem Kept.holdVeto {e bits} : Kept s₀ (s.holdVeto e bits) := .ite h h.setReg.countVetoes

theorem Kept.freeVeto {e} : Kept s₀ (s.freeVeto e) := .ite h.setReg.countVetoes h

theorem Kept.vetoEvent {e bits} : Kept s₀ (s.vetoEvent e bits) := by
  dsimp only [State.vetoEvent]
  refine .ite h (h.count.elseIf fun h₁ => .ite h.holdVeto ?_)
  split
  · exact h₁.holdVeto
  · exact h₁.upd

theorem Kept.updCmd {q n f} : Kept s₀ (s.updCmd q n f) := h.upd

theorem Kept.putCmd {c} : Kept s₀ (s.putCmd c) := h.updCmd

theorem Kept.finish {c status res0 res1 due} : Kept s₀ (s.finish c status res0 res1 due) := h.updCmd

theorem Kept.fail {c status} : Kept s₀ (s.fail c status) := h.finish

/-! #### The pair -/

theorem Kept.setPairState {x} : Kept s₀ (s.setPairState x) := h.setFld

theorem Kept.sendPend {type nums bytes} : Kept s₀ (s.sendPend type nums bytes) := by
  dsimp only [State.sendPend]
  split
  · exact h.emit
  · exact h

theorem Kept.updPend {f} : Kept s₀ (s.updPend f) := h.upd

theorem Kept.pairChange {f : State → State} (hf : ∀ t, Kept s₀ t → Kept s₀ (f t)) : Kept s₀ (s.pairChange f) :=
  (hf _ h).elseIf fun h₁ => h₁.hostEvent.alert

theorem Kept.faultHandover : Kept s₀ (s.faultHandover) :=
  .ite (.ite (h.sendPend.count.pairChange (fun _ h₁ => h₁.setPairState.setFld.setFld))
    (h.pairChange (fun _ h₁ => h₁.setPairState))) h

/-! #### Tensors and streams -/

theorem Kept.capture {c a b} : Kept s₀ (s.capture c a b) := h.updCmd

theorem Kept.readDesc {c a al n} : Kept s₀ (s.readDesc c a al n).2 := by
  dsimp only [State.readDesc]
  split
  · exact h
  · exact .ite_snd (.ite_snd h.readMem h.readMem.capture) h

theorem Kept.readTd {c a} : Kept s₀ (s.readTd c a).2 := h.readDesc

theorem Kept.countRefused : Kept s₀ (s.countRefused) := h.countWrap

theorem Kept.guardWrite {a n} : Kept s₀ (s.guardWrite a n).2 := .ite_snd h.countRefused h

theorem Kept.starting {q n code} {body : State → Cmd → State} (hbody : ∀ t a, Kept s₀ t → Kept s₀ (body t a)) : Kept s₀
    (s.starting q n code body) := by
  dsimp only [State.starting]
  split
  · exact h
  · exact (Kept.ite h.countRefused h).fail
  · exact .ite (h.updCmd.served (fun _ h₁ => hbody _ _ h₁)) (hbody _ _ h.updCmd)

theorem Kept.gather {c rs} : Kept s₀ (s.gather c rs).1 := .ite_fst h (h.foldl fun _ _ h₁ => h₁.sendReq).updCmd

theorem Kept.writeBits {ws} : Kept s₀ (s.writeBits ws).1 := by
  unfold State.writeBits
  exact .ite_fst ⟨h.mem.foldl fun _ _ hm => hm.memSet _ _, h.regs, h.staged, h.pending⟩ h.writeKeys

theorem Kept.sendWrites {c ws} : Kept s₀ (s.sendWrites c ws).1 := h.foldl fun _ _ h₁ => h₁.sendReq

theorem Kept.finishWrites {c ws status res0 res1 due} : Kept s₀ (s.finishWrites c ws status res0 res1 due) :=
  h.writeBits.sendWrites.finish.updCmd

/-! #### The canvases -/

theorem Kept.updProb {d c p f} : Kept s₀ (s.updProb d c p f) := h.upd

theorem Kept.setBankRow {d c p b k r} : Kept s₀ (s.setBankRow d c p b k r) := h.upd

theorem Kept.swapBanks {d c p} : Kept s₀ (s.swapBanks d c p) := h.foldl fun _ _ h₁ => .ite h₁ h₁.setBankRow.setBankRow

theorem Kept.setAccRow {d c p e r} : Kept s₀ (s.setAccRow d c p e r) := h.upd

theorem Kept.clearCanvas {d c} : Kept s₀ (s.clearCanvas d c) := h.upd

theorem Kept.setGate {d g x} : Kept s₀ (s.setGate d g x) := h.upd.setFld

theorem Kept.primeWrite {c t mask late manifest} : Kept s₀ (s.primeWrite c t mask late manifest) :=
  .ite (h.readKeys.foldl fun _ _ h₁ => h₁.setBankRow.thenIf fun h₂ => h₂.setBankRow).updProb.finish
    (h.readKeys.foldl fun _ _ h₁ => h₁.setBankRow.thenIf fun h₂ => h₂.setBankRow).updProb.finishWrites

theorem Kept.tryClose {d g} : Kept s₀ (s.tryClose d g) := by
  dsimp only [State.tryClose]
  split
  · exact h
  · split
    · exact h.setGate
    · split
      · exact h
      · split
        · exact ((h.countLate.foldl fun _ _ h₁ => h₁.setReg).setGate.thenIf fun h₁ => h₁.sendPend).primeWrite
        · exact ((h.countLate.foldl fun _ _ h₁ => h₁.setReg).setGate.thenIf fun h₁ => h₁.sendPend).fail

theorem Kept.gateOwn {d g} : Kept s₀ (s.gateOwn d g) := h.setGate.tryClose

theorem Kept.armGate {c} : Kept s₀ (s.armGate c) := h.setGate.tryClose

theorem Kept.primeBody {c} : Kept s₀ (s.primeBody c) := by
  dsimp only [State.primeBody]
  refine .ite h.fail ?_
  split
  next e =>
    exact (h.readTd.of_snd e).fail
  next e =>
    refine .ite (h.readTd.of_snd e).fail ?_
    split
    · exact (h.readTd.of_snd e).fail
    · exact .ite (h.readTd.of_snd e).fail (.ite (Kept.ite_fst (h.readTd.of_snd e) (h.readTd.of_snd e).gather)
        (.ite (Kept.ite_fst (h.readTd.of_snd e) (h.readTd.of_snd e).gather).armGate
        (Kept.ite_fst (h.readTd.of_snd e) (h.readTd.of_snd e).gather).primeWrite))

theorem Kept.canvasStart {q n code} {body : State → Cmd → State} (hbody : ∀ t a, Kept s₀ t → Kept s₀ (body t a)) : Kept
    s₀ (s.canvasStart q n code body) := by
  dsimp only [State.canvasStart]
  split
  · exact h
  · exact .ite (h.starting (fun _ _ h₁ => hbody _ _ h₁.upd)) h

theorem Kept.execPrime {q n} : (execPrime q n s).Keeps s₀ := h.whenServing (h.canvasStart (fun _ _ h₁ => h₁.primeBody))

theorem Kept.streamRow {c t cells j e clear} : Kept s₀ (s.streamRow c t cells j e clear) := h.setAccRow

theorem Kept.countRows {c n} : Kept s₀ (s.countRows c n) := h.countWrap

theorem Kept.streamBegin {c reads} : Kept s₀ (s.streamBegin c reads) :=
  h.updProb.thenIf fun h₁ => (Kept.ite h₁ h₁.swapBanks).updProb

theorem Kept.streamPlain {c t} : Kept s₀ (s.streamPlain c t) :=
  ((h.streamBegin.readKeys.foldl fun _ _ h₁ => h₁.streamRow).thenIf fun h₁ => h₁.updProb).countRows.count.finish

theorem Kept.drainSketch {c f t els} : Kept s₀ (s.drainSketch c f t els) := h.sketch

theorem Kept.drainPut {c f t x r a} : Kept s₀ (s.drainPut c f t x r a).1 :=
  (((((Kept.ite h.count h).thenIf fun h₁ => h₁.count).thenIf fun h₁ => h₁.count).thenIf fun h₁ => h₁.count).thenIf fun
    h₁ => h₁.count).countInto

theorem Kept.drainRows {c f t es clear tally} : Kept s₀ (s.drainRows c f t es clear tally).1 :=
  (Kept.ite ((Kept.ite_fst (.ite h.drainSketch h) (.foldl_fst (.ite h.drainSketch h) fun _ _ h₁ => h₁.drainPut)).foldl
    fun _ _ h₁ => h₁.setAccRow) (Kept.ite_fst (.ite h.drainSketch h)
    (.foldl_fst (.ite h.drainSketch h) fun _ _ h₁ => h₁.drainPut))).thenIf fun h₁ => h₁.vetoEvent.count

theorem Kept.drainBody {c} : Kept s₀ (s.drainBody c) := by
  dsimp only [State.drainBody]
  refine .ite h.fail ?_
  split
  next e =>
    exact (h.readTd.of_snd e).fail
  next e =>
    refine .ite (h.readTd.of_snd e).fail ?_
    split
    · exact (h.readTd.of_snd e).fail
    · exact .ite (h.readTd.of_snd e).gather
        (Kept.ite (h.readTd.of_snd e).gather.drainRows.updProb (h.readTd.of_snd e).gather.drainRows).updCmd.finishWrites

theorem Kept.execDrain {q n} : (execDrain q n s).Keeps s₀ := h.whenServing (h.canvasStart (fun _ _ h₁ => h₁.drainBody))

theorem Kept.ringRow {c t g when_} : Kept s₀ (s.ringRow c t g when_).1 := h.readKeys.streamRow.countRows

theorem Kept.ringRows {c t g t0 n} : Kept s₀ (s.ringRows c t g t0 n).1 := by
  induction n generalizing s g t0 with
  | zero => exact h
  | succ n ih =>
    dsimp only [State.ringRows]
    exact ih h.ringRow

theorem Kept.streamRing {c t} : Kept s₀ (s.streamRing c t) := by
  dsimp only [State.streamRing]
  split
  next e =>
    exact (h.readDesc.of_snd e).fail
  next e =>
    split
    next e₁ =>
      exact ((h.readDesc.of_snd e).readTd.of_snd e₁).fail
    next e₁ =>
      refine .ite ((h.readDesc.of_snd e).readTd.of_snd e₁).fail ?_
      split
      · exact ((h.readDesc.of_snd e).readTd.of_snd e₁).fail
      · exact ((h.readDesc.of_snd e).readTd.of_snd e₁).streamBegin.ringRows.upd

theorem Kept.streamBody {c} : Kept s₀ (s.streamBody c) := by
  dsimp only [State.streamBody]
  refine .ite h.fail ?_
  split
  next e =>
    exact (h.readTd.of_snd e).fail
  next e =>
    refine .ite (h.readTd.of_snd e).fail ?_
    split
    · exact (h.readTd.of_snd e).fail
    · exact .ite (Kept.ite_fst (h.readTd.of_snd e) (h.readTd.of_snd e).gather)
        (.ite (Kept.ite_fst (h.readTd.of_snd e) (h.readTd.of_snd e).gather).streamRing
        (Kept.ite_fst (h.readTd.of_snd e) (h.readTd.of_snd e).gather).streamPlain)

theorem Kept.execStream {q n} : (execStream q n s).Keeps s₀ :=
  h.whenServing (h.canvasStart (fun _ _ h₁ => h₁.streamBody))

theorem Kept.putRing {g} : Kept s₀ (s.putRing g) := h.upd

theorem Kept.dropRing {q n} : Kept s₀ (s.dropRing q n) := h.upd

theorem Kept.ringDrain {c g j} : Kept s₀ (s.ringDrain c g j) := by
  dsimp only [State.ringDrain]
  split
  · exact .ite (Kept.ite_fst h.drainRows.writeBits.sendWrites.updCmd.ringRow
      h.drainRows.writeBits.sendWrites.updCmd).dropRing.finish
      (Kept.ite_fst h.drainRows.writeBits.sendWrites.updCmd.ringRow h.drainRows.writeBits.sendWrites.updCmd).putRing
  · exact h.fail

theorem Kept.execRingEntryDrain {q n} : (execRingEntryDrain q n s).Keeps s₀ := by
  dsimp only [Machine.execRingEntryDrain]
  refine h.whenServing ?_
  split
  · split
    · exact .ite h.ringDrain h
    · exact h
  · exact h

theorem Kept.packCanvas {d c mode} : Kept s₀ (s.packCanvas d c mode) := h.setFld.setFld.clearCanvas

theorem Kept.packBody {c} : Kept s₀ (s.packBody c) :=
  .ite h.fail (.ite h.fail (h.packCanvas.thenIf fun h₁ => h₁.packCanvas).finish)

theorem Kept.execPack {q n} : (execPack q n s).Keeps s₀ := h.whenServing (h.canvasStart (fun _ _ h₁ => h₁.packBody))

theorem Kept.gatePost {d g slot tag} : Kept s₀ (s.gatePost d g slot tag) := .ite h.count h.setGate.tryClose

theorem Kept.execGatePost {d g slot tag} : (execGatePost d g slot tag s).Keeps s₀ := h.whenMain (.ite h.gatePost h)

theorem Kept.execGateClose {d g} : (execGateClose d g s).Keeps s₀ := h.whenServing (.ite h.tryClose h)

theorem Kept.loseCanvas {d c} : Kept s₀ (s.loseCanvas d c) :=
  (h.setBit.foldl fun _ _ h₁ => h₁.dropRing.fail).foldl fun _ _ h₁ => h₁.setGate

theorem Kept.replay {d guest host} : Kept s₀ (s.replay d guest host) :=
  .ite (h.foldl fun _ _ h₁ => h₁.updProb).count.errRecord h.count

theorem Kept.retire {d c why} : Kept s₀ (s.retire d c why) :=
  .ite h (.ite (h.setBit.elseIf fun h₁ => h₁.setFld.setBit.setBit).errRecord.loseCanvas.loseCanvas.faultHandover
    (h.setBit.elseIf fun h₁ => h₁.setFld.setBit.setBit).errRecord.replay)

theorem Kept.execCanvasRetirement {d c kind} : (execCanvasRetirement d c kind s).Keeps s₀ :=
  h.whenMain (.ite (.ite h.count (Kept.ite h.count (.ite h.count h)).retire) h)

theorem Kept.retireWrite {d mask} : Kept s₀ (s.retireWrite d mask) := h.foldl fun _ _ h₁ => .ite h₁.retire h₁

theorem Kept.execCanvasRetireWrite {d mask} : (execCanvasRetireWrite d mask s).Keeps s₀ :=
  h.whenMain (.ite h.retireWrite h)

theorem Kept.freezeCanvas {d phys f} : Kept s₀ (s.freezeCanvas d phys f) := h.upd.count

theorem Kept.ddbgRead {d} : Kept s₀ (s.ddbgRead d).2 := .ite_snd h h.setReg.freezeCanvas

theorem Kept.execDdbgAccVRead {d} : (execDdbgAccVRead d s).Keeps s₀ := h.whenMain (.ite h.ddbgRead.emit h)

theorem Kept.ddbgStn {d} : Kept s₀ (s.ddbgStn d).2 :=
  .ite_snd h (.ite_snd (.ite_snd h h) (.ite_snd h (.ite_snd (.ite_snd h.draw h) (.ite_snd h h))))

theorem Kept.clearDieCanvases {d} : Kept s₀ (s.clearDieCanvases d) := (h.foldl fun _ _ h₁ => h₁.clearCanvas).upd

/-! #### Memory and its updates -/

theorem Kept.writeBackIn {st p} : Kept s₀ (s.writeBackIn st p) := h.upd

theorem Kept.writeBackCmd {q n} : Kept s₀ (s.writeBackCmd q n) := h.foldl fun _ _ h₁ => h₁.writeBackIn

theorem Kept.hold {st u q n} : Kept s₀ (s.hold st u q n) := by
  dsimp only [State.hold]
  split
  · exact h.upd
  · exact h.upd.writeBackIn

theorem Kept.updateFails {u status} : Kept s₀ (s.updateFails u status) := by
  dsimp only [State.updateFails]
  split
  · exact h.upd.elseIf fun h₁ => h₁.finish.updCmd
  · exact h.upd

theorem Kept.updateDone {st u r} : Kept s₀ (s.updateDone st u r) := by
  dsimp only [State.updateDone]
  split
  · exact h.countWrap.count.count.putCmd.thenIf fun h₁ => h₁.updCmd
  · exact h.countWrap.count.count

theorem Kept.nmaStep {st u} : Kept s₀ (s.nmaStep st u) :=
  .ite (Kept.ite_fst h.upd (.ite_fst h.upd.repair.corrected (.ite_fst h.upd.count h.upd.readUnit))).updateFails
    (.ite (Kept.ite_fst h.upd (.ite_fst h.upd.repair.corrected (.ite_fst h.upd.count h.upd.readUnit))).updateFails
    (((Kept.ite_fst h.upd (.ite_fst h.upd.repair.corrected (.ite_fst h.upd.count h.upd.readUnit))).poke.thenIf fun h₁ =>
    h₁.countWrap).thenIf fun h₁ => h₁.hold).updateDone)

theorem Kept.execNmaUpdate {st} : (execNmaUpdate st s).Keeps s₀ := by
  dsimp only [Machine.execNmaUpdate]
  refine h.whenServing ?_
  split
  · exact h
  · exact .ite h.nmaStep h

theorem Kept.nmaCfgWrite {st v} : Kept s₀ (s.nmaCfgWrite st v) := h.setReg.thenIf fun h₁ => h₁.writeBackIn

theorem Kept.execNmaCfgWrite {st v} : (execNmaCfgWrite st v s).Keeps s₀ := h.alive (.ite h.nmaCfgWrite h)

theorem Kept.scrubBad {st u} : Kept s₀ (s.scrubBad st u) := h.count.setFld.errRecord

theorem Kept.scrubSector {st u} : Kept s₀ (s.scrubSector st u) := .ite h (h.decodeUnit (fun _ h₁ => h₁.scrubBad))

theorem Kept.execPatrolScrub {st} : (execPatrolScrub st s).Keeps s₀ :=
  h.whenMain (.ite (h.writeBackHeld.scrubSector.setFld.setFld.thenIf fun h₁ => h₁.countWrap.upd) h)

theorem Kept.execHbmRefresh {_st _pc} : (execHbmRefresh _st _pc s).Keeps s₀ := .next h

/-! #### The sliver cores -/

theorem Kept.setBrush {k r} : Kept s₀ (s.setBrush k r) := h.upd

theorem Kept.delBrush {k} : Kept s₀ (s.delBrush k) := h.upd

theorem Kept.setLatch {k l} : Kept s₀ (s.setLatch k l) := h.upd

theorem Kept.updSliver {q n f} : Kept s₀ (s.updSliver q n f) := h.upd

theorem Kept.sliverDone {q n} : Kept s₀ (s.sliverDone q n) := by
  dsimp only [State.sliverDone]
  refine .ite h ?_
  split
  · exact h.upd.finish
  · exact h

theorem Kept.brushStop {d b r status row} : Kept s₀ (s.brushStop d b r status row) :=
  (Kept.ite h.setReg h).updSliver.delBrush.sliverDone

theorem Kept.brushTime {d b r t} : Kept s₀ (s.brushTime d b r t).1 := h.countWrap.updSliver

theorem Kept.brushNext {c t} : Kept s₀ (s.brushNext c t) := h.brushTime.setBrush

theorem Kept.brushIssue {d b op check} {body : SlCtx → State → State} (hbody : ∀ a t, Kept s₀ t → Kept s₀ (body a t)) :
    Kept s₀ (s.brushIssue d b op check body) := by
  dsimp only [State.brushIssue]
  refine .ite h ?_
  split
  · exact h
  split
  · exact h
  refine .ite h.brushStop (.ite h.readMem.brushStop (.ite h.readMem.brushStop (.ite h ?_)))
  split
  · exact h.readMem.brushStop
  · exact hbody _ _ h.readMem

theorem Kept.brushEvents {c e} : Kept s₀ (s.brushEvents c e) := h.count.count.count.thenIf fun h₁ => h₁.updSliver

theorem Kept.brushPals {c pals} : Kept s₀ (s.brushPals c pals) := by
  dsimp only [State.brushPals]
  refine h.foldl fun _ _ h₁ => .ite ?_ h₁
  split
  · exact h₁.countInto.updCmd.updSliver
  · exact h₁

theorem Kept.rowErrors {c l} : Kept s₀ (s.rowErrors c l).1 := by
  refine .foldl_fst h fun p _ hp => .ite_fst (p := p) hp (.ite_fst (p := p) hp ?_)
  exact .ite_fst hp.readUnit (.ite_fst hp.repair hp)

theorem Kept.brushRetire {c bad t stall skipped} : Kept s₀ (s.brushRetire c bad t stall skipped) := by
  dsimp only [State.brushRetire]
  split
  · exact (h.countWrap.elseIf fun h₁ => h₁.count).brushNext
  · exact (h.countWrap.elseIf fun h₁ => h₁.count).brushTime.brushStop

theorem Kept.runLanes {c fn} : Kept s₀ (s.runLanes c fn) := h.rowErrors.poke.setLatch.brushEvents.brushPals.brushRetire

theorem Kept.slvLane {d b op fn} : (s.slvLane d b op fn).Keeps s₀ :=
  h.whenServing (h.brushIssue (fun _ _ h₁ => h₁.runLanes))

theorem Kept.runReduce {c} : Kept s₀ (s.runReduce c) := by
  unfold State.runReduce
  exact h.rowErrors.poke.brushEvents.brushRetire

theorem Kept.sliverStart {c} : Kept s₀ (s.sliverStart c) :=
  .ite h.finish (.ite h.fail (h.upd.updCmd.foldl fun _ _ h₁ => h₁.setBrush.setLatch))

theorem Kept.execSliverRun {q n} : (execSliverRun q n s).Keeps s₀ := by
  dsimp only [Machine.execSliverRun]
  refine h.whenServing ?_
  split
  · exact h
  · exact .ite h (h.starting (fun _ _ h₁ => h₁.sliverStart))

theorem Kept.execLendGrant {d b} : (execLendGrant d b s).Keeps s₀ := by
  dsimp only [Machine.execLendGrant]
  refine h.whenServing (.ite h ?_)
  split
  · exact h.upd
  · exact .ite h.setBrush.upd.count h

theorem Kept.lendEnd {d b} : Kept s₀ (s.lendEnd d b) := by
  dsimp only [State.lendEnd]
  split
  · exact h.upd.count
  · exact h.upd.count.setBrush

theorem Kept.execSlvNop {d b} : (execSlvNop d b s).Keeps s₀ := h.whenServing (h.brushIssue (fun _ _ h₁ => h₁.brushNext))

theorem Kept.execSlvEnd {d b} : (execSlvEnd d b s).Keeps s₀ :=
  h.whenServing (h.brushIssue (fun _ _ h₁ => h₁.brushTime.delBrush.sliverDone))

theorem Kept.execSlvRep {d b} : (execSlvRep d b s).Keeps s₀ :=
  h.whenServing (h.brushIssue (fun _ _ h₁ => h₁.brushTime.setBrush))

theorem Kept.execSetrb {d b} : (execSetrb d b s).Keeps s₀ := h.whenServing (h.brushIssue (fun _ _ h₁ => h₁.brushNext))

theorem Kept.execMset {d b} : (execMset d b s).Keeps s₀ := h.slvLane

theorem Kept.execMnot {d b} : (execMnot d b s).Keeps s₀ := h.slvLane

theorem Kept.execMld {d b} : (execMld d b s).Keeps s₀ := h.slvLane

theorem Kept.execMst {d b} : (execMst d b s).Keeps s₀ := h.slvLane

theorem Kept.execSlvAdd {d b} : (execSlvAdd d b s).Keeps s₀ := h.slvLane

theorem Kept.execSlvSub {d b} : (execSlvSub d b s).Keeps s₀ := h.slvLane

theorem Kept.execSlvCmp {d b} : (execSlvCmp d b s).Keeps s₀ := h.slvLane

theorem Kept.execSlvMax {d b} : (execSlvMax d b s).Keeps s₀ := h.slvLane

theorem Kept.execSlvMin {d b} : (execSlvMin d b s).Keeps s₀ := h.slvLane

theorem Kept.execSlvMul {d b} : (execSlvMul d b s).Keeps s₀ := h.slvLane

theorem Kept.execSlvAnd {d b} : (execSlvAnd d b s).Keeps s₀ := h.slvLane

theorem Kept.execSlvOr {d b} : (execSlvOr d b s).Keeps s₀ := h.slvLane

theorem Kept.execSlvXor {d b} : (execSlvXor d b s).Keeps s₀ := h.slvLane

theorem Kept.execSlvAndn {d b} : (execSlvAndn d b s).Keeps s₀ := h.slvLane

theorem Kept.execSlvNot {d b} : (execSlvNot d b s).Keeps s₀ := h.slvLane

theorem Kept.execSlvMov {d b} : (execSlvMov d b s).Keeps s₀ := h.slvLane

theorem Kept.execSlvSel {d b} : (execSlvSel d b s).Keeps s₀ := h.slvLane

theorem Kept.execSlvConst {d b} : (execSlvConst d b s).Keeps s₀ := h.slvLane

theorem Kept.execSlvShl {d b} : (execSlvShl d b s).Keeps s₀ := h.slvLane

theorem Kept.execSlvShr {d b} : (execSlvShr d b s).Keeps s₀ := h.slvLane

theorem Kept.execLmul {d b} : (execLmul d b s).Keeps s₀ := h.slvLane

theorem Kept.execLadd {d b} : (execLadd d b s).Keeps s₀ := h.slvLane

theorem Kept.execLmax {d b} : (execLmax d b s).Keeps s₀ := h.slvLane

theorem Kept.execLmin {d b} : (execLmin d b s).Keeps s₀ := h.slvLane

theorem Kept.execFadd {d b} : (execFadd d b s).Keeps s₀ := h.slvLane

theorem Kept.execFsub {d b} : (execFsub d b s).Keeps s₀ := h.slvLane

theorem Kept.execFmul {d b} : (execFmul d b s).Keeps s₀ := h.slvLane

theorem Kept.execFdiv {d b} : (execFdiv d b s).Keeps s₀ := h.slvLane

theorem Kept.execFsqrt {d b} : (execFsqrt d b s).Keeps s₀ := h.slvLane

theorem Kept.execFmax {d b} : (execFmax d b s).Keeps s₀ := h.slvLane

theorem Kept.execFmin {d b} : (execFmin d b s).Keeps s₀ := h.slvLane

theorem Kept.execFcmp {d b} : (execFcmp d b s).Keeps s₀ := h.slvLane

theorem Kept.execSlvCvt {d b} : (execSlvCvt d b s).Keeps s₀ := h.whenServing (h.brushIssue (fun _ _ h₁ => h₁.runLanes))

theorem Kept.execAccadd {d b} : (execAccadd d b s).Keeps s₀ := h.slvLane

theorem Kept.execRmask {d b} : (execRmask d b s).Keeps s₀ := h.slvLane

theorem Kept.execSlvReduce {d b} : (execSlvReduce d b s).Keeps s₀ :=
  h.whenServing (h.brushIssue (fun _ _ h₁ => h₁.runReduce))

/-! #### The collectives -/

theorem Kept.setGroup {v g} : Kept s₀ (s.setGroup v g) := h.upd

theorem Kept.showGroup {v status g} : Kept s₀ (s.showGroup v status g) := by
  dsimp only [State.showGroup]
  split
  · exact h.setFld.setFld.setFld.setFld.setFld.setFld
  · exact h.setFld.setFld.setFld.setFld.setFld.setFld

theorem Kept.bindGroup {v status g} : Kept s₀ (s.bindGroup v status g) := h.setGroup.upd.showGroup.setBit

theorem Kept.readGroup {a} : Kept s₀ (s.readGroup a).2 := .ite_snd (.ite_snd h.readMem h.readMem.readMem) h

theorem Kept.register {v} : Kept s₀ (s.register v) := by
  dsimp only [State.register]
  refine .ite h.setFld ?_
  split
  next e =>
    exact (h.readGroup.of_snd e).bindGroup
  next e =>
    exact .ite (h.readGroup.of_snd e).bindGroup (h.readGroup.of_snd e).bindGroup

theorem Kept.execGroupRegister {v} : (execGroupRegister v s).Keeps s₀ := h.whenMain h.register

theorem Kept.unregister {v} : Kept s₀ (s.unregister v) := .ite h.setFld h.bindGroup

theorem Kept.execGroupUnregister {v} : (execGroupUnregister v s).Keeps s₀ := h.whenMain h.unregister

theorem Kept.sendAll {dst vc l} : Kept s₀ (s.sendAll dst vc l).2 := by
  induction l generalizing s with
  | nil => exact h
  | cons x r ih => exact ih h.sendPkt

theorem Kept.sendSegTo {c g role level seg veto els dst} : Kept s₀ (s.sendSegTo c g role level seg veto els dst).1 := by
  unfold State.sendSegTo
  exact .ite_fst h h.sendAll.upd

theorem Kept.sendOp {c g op i v} : Kept s₀ (s.sendOp c g op i v).1 :=
  .foldl_fst h fun _ _ h₁ => .ite_fst h₁ (.foldl_fst h₁ fun _ _ h₂ => h₂.sendSegTo)

theorem Kept.putColl {c} : Kept s₀ (s.putColl c) := h.upd

theorem Kept.ackSeg {h' cseq seg} : Kept s₀ (s.ackSeg h' cseq seg) := h.respond

theorem Kept.fillCodes {l} : Kept s₀ (s.fillCodes l).2 := by
  induction l generalizing s with
  | nil => exact h
  | cons x r ih =>
    cases x with
    | none => exact ih h.draw
    | some v => exact ih h

theorem Kept.badContrib {c status code rank} : Kept s₀ (s.badContrib c status code rank) := h.setReg.errRecord

theorem Kept.mismatch {c rank} : Kept s₀ (s.mismatch c rank).1 := by
  unfold State.mismatch
  exact .ite_fst h (.mk_fst h.count.badContrib.vetoEvent)

theorem Kept.adopt {c g op from_ i x} : Kept s₀ (s.adopt c g op from_ i x).1 :=
  (Kept.ite_snd (Kept.ite_fst (Kept.ite h h.ackSeg).upd (Kept.ite h h.ackSeg).upd.mismatch)
    (Kept.ite_fst (Kept.ite h h.ackSeg).upd (Kept.ite h h.ackSeg).upd.mismatch).fillCodes)

theorem Kept.adoptOp {c g op from_} : Kept s₀ (s.adoptOp c g op from_).1 := by
  dsimp only [State.adoptOp]
  split
  · exact h
  · refine .foldl_fst h fun _ _ h₁ => .ite_fst h₁ ?_
    split
    · exact h₁.adopt
    · exact h₁

theorem Kept.forward {c g} : Kept s₀ (s.forward c g).1 := .foldl_fst h fun _ _ h₁ => .ite_fst h₁ h₁.sendOp

theorem Kept.writeOut {c g op i v} : Kept s₀ (s.writeOut c g op i v).1 := by
  dsimp only [State.writeOut]
  refine .ite (.vetoEvent (.count ?_)) (.count ?_)
  · split
    · exact h.writeBits.sendWrites.updCmd
    · exact h.writeBits
  · split
    · exact h.writeBits.sendWrites.updCmd
    · exact h.writeBits

theorem Kept.writeOuts {c g} : Kept s₀ (s.writeOuts c g).1 := by
  dsimp only [State.writeOuts]
  refine .ite_fst h (.foldl_fst h fun _ _ h₁ => .foldl_fst h₁ fun _ _ h₂ => ?_)
  split
  · exact .ite_fst h₂ h₂.writeOut
  · exact h₂

theorem Kept.dropSegs {f} : Kept s₀ (s.dropSegs f) := (h.foldl fun _ _ h₁ => .ite h₁ h₁.ackSeg).upd

theorem Kept.leaveColl {c status} : Kept s₀ (s.leaveColl c status) := by
  dsimp only [State.leaveColl]
  split
  · exact h.upd.dropSegs.finish
  · exact h.upd.dropSegs

theorem Kept.endColl {c} : Kept s₀ (s.endColl c) := ((Kept.ite h h.holdVeto).thenIf fun h₁ => h₁.setReg).leaveColl

theorem Kept.tidySegs {c g} : Kept s₀ (s.tidySegs c g) := (h.foldl fun _ _ h₁ => h₁.ackSeg).upd.count.upd

theorem Kept.pump {q n} : Kept s₀ (s.pump q n) := by
  dsimp only [State.pump]
  split
  · exact h
  · split
    · exact h
    · exact (Kept.foldl_fst h fun _ _ h₁ => h₁.adoptOp).forward.writeOuts.putColl.tidySegs.thenIf fun h₁ => h₁.endColl

theorem Kept.substitute {c g op r} : Kept s₀ (s.substitute c g op r).1 := by
  dsimp only [State.substitute]
  refine .ite_fst h (.ite_fst (.foldl_fst (.mk_fst h.count) fun p _ hp => ?_) (.mk_fst h.count.badContrib.vetoEvent))
  split
  · exact .ite_fst hp.adopt (q := p) hp
  · exact hp

theorem Kept.substitutePoint {q n ranks} : Kept s₀ (s.substitutePoint q n ranks) := by
  dsimp only [State.substitutePoint]
  split
  · exact h
  · split
    · exact h
    · exact (Kept.foldl_fst h fun _ _ h₁ => .ite_fst h₁.substitute h₁).putColl.pump

theorem Kept.execSubstitutionPoint {q n rank} : (execSubstitutionPoint q n rank s).Keeps s₀ :=
  h.whenServing h.substitutePoint

theorem Kept.collTds {c l} : Kept s₀ (s.collTds c l).2 := by
  induction l generalizing s with
  | nil => exact h
  | cons a r ih =>
    unfold State.collTds
    refine .ite_snd ?_ ?_
    · split
      next e => exact (ih h).of_snd e
      · exact ih h
    · split
      next e => exact h.readDesc.of_snd e
      next e =>
        have hs := h.readDesc.of_snd e
        split
        next e => exact (ih hs).of_snd e
        · exact ih hs

theorem Kept.loadSrc {c t} : Kept s₀ (s.loadSrc c t).2.1 := h.readKeys

theorem Kept.loadSrcs {c l} : Kept s₀ (s.loadSrcs c l).2.1 := by
  induction l generalizing s with
  | nil => exact h
  | cons x r ih =>
    cases x with
    | none => exact ih h
    | some t => exact ih h.loadSrc

theorem Kept.capture_ {c} : Kept s₀ (s.capture_ c) := .ite h.upd h

theorem Kept.runColl {cmd v g srcs dst dstB gext split cseq} : Kept s₀
    (s.runColl cmd v g srcs dst dstB gext split cseq) := by
  dsimp only [State.runColl]
  refine .ite h.loadSrcs.fail (.ite (.substitutePoint (.pump (.upd ?_))) (.pump (.upd ?_)))
  · split
    · exact ((h.loadSrcs.countLate.elseIf fun h₁ => h₁.holdVeto).elseIf fun h₁ => h₁.vetoEvent).capture_.gather
    · exact ((h.loadSrcs.countLate.elseIf fun h₁ => h₁.holdVeto).elseIf fun h₁ => h₁.vetoEvent).capture_
  · split
    · exact ((h.loadSrcs.countLate.elseIf fun h₁ => h₁.holdVeto).elseIf fun h₁ => h₁.vetoEvent).capture_.gather
    · exact ((h.loadSrcs.countLate.elseIf fun h₁ => h₁.holdVeto).elseIf fun h₁ => h₁.vetoEvent).capture_

theorem Kept.advanceCseq {v g e} : Kept s₀ (s.advanceCseq v g e) := h.setGroup

theorem Kept.collBody {c} : Kept s₀ (s.collBody c) := by
  unfold State.collBody
  extract_lets slot grp t
  have ht : Kept s₀ t := by
    dsimp only [t]
    generalize slot = v, grp = g
    split
    · exact h.advanceCseq
    · exact h
  refine .ite ht.fail ?_
  split
  next e => exact (ht.collTds.of_snd e).fail
  next e =>
    have hu := ht.collTds.of_snd e
    extract_lets srcs dst
    split
    · exact .ite hu.finish hu.fail
    · generalize slot = v, grp = g
      split
      · exact hu.runColl
      · exact hu.fail

theorem Kept.collStart {q n code close} : Kept s₀ (s.collStart q n code close) :=
  .ite h (h.starting (fun _ _ h₁ => h₁.collBody))

theorem Kept.execReduceScatter {q n} : (execReduceScatter q n s).Keeps s₀ := by
  dsimp only [Machine.execReduceScatter]
  refine h.whenServing ?_
  split
  · exact h.collStart
  · exact h

theorem Kept.execAllGather {q n} : (execAllGather q n s).Keeps s₀ := by
  dsimp only [Machine.execAllGather]
  refine h.whenServing ?_
  split
  · exact h.collStart
  · exact h

theorem Kept.execAllReduce {q n} : (execAllReduce q n s).Keeps s₀ := h.whenServing h.collStart

theorem Kept.execBroadcast {q n} : (execBroadcast q n s).Keeps s₀ := by
  dsimp only [Machine.execBroadcast]
  refine h.whenServing ?_
  split
  · exact h.collStart
  · exact h

theorem Kept.execCloseReduce {q n} : (execCloseReduce q n s).Keeps s₀ := h.whenServing h.collStart

theorem Kept.nearCheck {f ovfInf x y} : Kept s₀ (s.nearCheck f ovfInf x y) :=
  h.writeMem.foldl fun _ _ h₁ => h₁.countWrap.count.count

theorem Kept.judgeCheck {c g own other} : Kept s₀ (s.judgeCheck c g own other).1 := by
  dsimp only [State.judgeCheck]
  exact .ite_fst h.count (.mk_fst h.count.count.badContrib.vetoEvent)

theorem Kept.stepCheck {c g key a b out ovfInf} : Kept s₀ (s.stepCheck c g key a b out ovfInf).1 := by
  dsimp only [State.stepCheck]
  split
  · refine .ite_fst h (.ite_fst (.ite_fst ?_ h.count) (.ite_fst h.count h.nearCheck.count))
    split
    · exact h.sendPend.upd.judgeCheck
    · exact h.sendPend
  · exact h

theorem Kept.runStep {c g d i a b} : Kept s₀ (s.runStep c g d i a b) := h.stepCheck.putColl.pump

theorem Kept.execReduceStep {q n} : (execReduceStep q n s).Keeps s₀ := by
  dsimp only [Machine.execReduceStep]
  refine h.whenServing ?_
  split
  · exact h
  · split
    · exact h
    · split
      · exact h
      · split
        · refine .ite h.runStep ?_
          split
          · exact h
          · exact h.lendEnd.runStep
        · exact h

theorem Kept.stepDigestRx {ckey key dg} : Kept s₀ (s.stepDigestRx ckey key dg) := by
  dsimp only [State.stepDigestRx]
  split
  · split
    · exact h.judgeCheck.putColl.pump
    · exact h
  · exact h.upd

theorem Kept.dropChecks : Kept s₀ (s.dropChecks) := h.upd.foldl fun _ _ h₁ => .ite h₁ h₁.count.putColl.pump

theorem Kept.pumpOf {slot cseq} : Kept s₀ (s.pumpOf slot cseq) := by
  dsimp only [State.pumpOf]
  split
  · exact h.pump
  · exact h

theorem Kept.redHdrRx {h' b} : Kept s₀ (s.redHdrRx h' b) := by
  dsimp only [State.redHdrRx]
  split
  · exact h
  · split
    · exact h
    · exact .ite h (h.ackSeg.elseIf fun h₁ => .ite (Kept.ite h.count h).ackSeg
        ((Kept.ite h₁ h).thenIf fun h₂ => h₂.count).upd.pumpOf)

theorem Kept.redDataRx {h' b} : Kept s₀ (s.redDataRx h' b) := by
  dsimp only [State.redDataRx]
  split
  · exact .ite h (.ite h.upd.count.ackSeg h.upd.pumpOf)
  · exact h

theorem Kept.redAckRx {h'} : Kept s₀ (s.redAckRx h') := h.upd

theorem Kept.holdsEnd : Kept s₀ (s.holdsEnd) := (h.upd.foldl fun _ _ h₁ => h₁.ackSeg).foldl fun _ _ h₁ => h₁.pumpOf

theorem Kept.execContribHoldEnd : (execContribHoldEnd s).Keeps s₀ := h.whenServing h.holdsEnd

theorem Kept.retractHere {e} : Kept s₀ (s.retractHere e) :=
  h.upd.dropSegs.foldl fun _ _ h₁ => .ite (.ite h₁.leaveColl h₁.leaveColl) h₁

theorem Kept.retractAll {e word} : Kept s₀ (s.retractAll e word) := by
  dsimp only [State.retractAll]
  refine .retractHere (h.foldl fun _ _ h₁ => ?_)
  split
  · exact h₁
  · exact .ite (h₁.foldl fun _ _ h₂ => h₂.sendReq.count.errRecord) h₁

theorem Kept.retractRx {h' b} : Kept s₀ (s.retractRx h' b) :=
  (Kept.ite h.errRecord h.holdVeto.retractHere.errRecord.count).respond

theorem Kept.vetoSet {v} : Kept s₀ (s.vetoSet v) := .ite h h.vetoEvent

theorem Kept.execRedVetoSetWrite {v} : (execRedVetoSetWrite v s).Keeps s₀ := h.whenMain h.vetoSet

/-! #### Held entries -/

theorem Kept.execWaitbRelease {q} : (execWaitbRelease q s).Keeps s₀ := by
  dsimp only [Machine.execWaitbRelease]
  refine .next ?_
  split
  · exact .ite h.finishWaitRd h
  · exact h

theorem Kept.releaseWaits : Kept s₀ (s.releaseWaits).2 := by
  dsimp only [State.releaseWaits]
  refine .foldl_snd h fun _ _ h₁ => ?_
  split
  · exact h₁.finishWaitRd
  · exact h₁

theorem Kept.releaseApplies : Kept s₀ (s.releaseApplies).2 := h.upd

theorem Kept.releaseGates : Kept s₀ (s.releaseGates).2 := .foldl_snd h fun _ _ h₁ => .ite_snd h₁ h₁.setGate.tryClose

theorem Kept.releaseColls : Kept s₀ (s.releaseColls).2 := h.upd.foldl fun _ _ h₁ => h₁.substitutePoint

theorem Kept.releaseHeld : Kept s₀ (s.releaseHeld) := by
  dsimp only [State.releaseHeld]
  exact .ite h h.releaseWaits.releaseApplies.releaseGates.releaseColls.count

theorem Kept.execReleaseHeld : (execReleaseHeld s).Keeps s₀ := h.whenMain h.releaseHeld

/-! #### Queue control -/

theorem Kept.sendLock {q m store ix kind o} : Kept s₀ (s.sendLock q m store ix kind o).2 := h.sendReq

theorem Kept.abandonReqs {hit} : Kept s₀ (s.abandonReqs hit) := h.upd

theorem Kept.abandonWait {q} : Kept s₀ (s.abandonWait q) := by
  dsimp only [State.abandonWait]
  split
  · exact h.leaveSems.updQ
  · exact (h.leaveLocks.abandonReqs.foldl fun _ _ h₁ => h₁.sendLock).updQ
  · exact h.abandonReqs.updQ
  · exact h
  · exact h.updQ

theorem Kept.doorbell {q tail} : Kept s₀ (s.doorbell q tail) :=
  .ite h (.ite (h.setFld.thenIf fun h₁ => h₁.setQState) h.count)

theorem Kept.execQtailDoorbell {q v} : (execQtailDoorbell q v s).Keeps s₀ := .next (.ite h.doorbell h)

theorem Kept.qEnable {q} : Kept s₀ (s.qEnable q) :=
  .ite ((h.foldl fun _ _ h₁ => h₁.setReg).foldl fun _ _ h₁ => h₁.setReg).setFld.setFld.setQState h

theorem Kept.qDisable {q} : Kept s₀ (s.qDisable q) := .ite h.updQ.setQState.settleOff h

theorem Kept.qStop {q} : Kept s₀ (s.qStop q) := .ite h.abandonWait.setQState h

theorem Kept.qResume {q} : Kept s₀ (s.qResume q) := by
  dsimp only [State.qResume]
  refine .ite ?_ h
  split
  · exact h.setFld.setQState
  · exact h.setFld.setQState

theorem Kept.qSkip {q} : Kept s₀ (s.qSkip q) := .ite h.endList h

theorem Kept.qctl {q v} : Kept s₀ (s.qctl q v) :=
  .ite h.qEnable (.ite h.qDisable (.ite h.qStop (.ite h.qResume (.ite h.qSkip h))))

theorem Kept.execQueueEnable {q} : (execQueueEnable q s).Keeps s₀ := .next (.ite h.qEnable h)

theorem Kept.execQueueDisable {q} : (execQueueDisable q s).Keeps s₀ := .next (.ite h.qDisable h)

theorem Kept.execQueueStop {q} : (execQueueStop q s).Keeps s₀ := .next (.ite h.qStop h)

theorem Kept.execQueueResume {q} : (execQueueResume q s).Keeps s₀ := .next (.ite h.qResume h)

theorem Kept.execQueueSkip {q} : (execQueueSkip q s).Keeps s₀ := .next (.ite h.qSkip h)

theorem Kept.enterList {q head slot b} : Kept s₀ (s.enterList q head slot b) := h.updQ.setPc

theorem Kept.takeEntry {q} : Kept s₀ (s.takeEntry q) := by
  dsimp only [State.takeEntry]
  split
  next e =>
    exact (h.fetch.of_snd e).setPc.queueFault
  next e =>
    exact .ite (h.fetch.of_snd e).updQ.setPc.queueFault
        (.ite (.ite (h.fetch.of_snd e).waitOn
        (.ite (h.fetch.of_snd e).updQ.setPc.queueFault (h.fetch.of_snd e).reserveSlot.enterList))
        (h.fetch.of_snd e).enterList)

theorem Kept.execRingEntryTake {q} : (execRingEntryTake q s).Keeps s₀ := .next (.ite h.takeEntry h)

theorem Kept.cheadWrite {q v} : Kept s₀ (s.cheadWrite q v) := .ite h (h.setFld.thenIf fun h₁ => h₁.reissue)

theorem Kept.execCheadWrite {q v} : (execCheadWrite q v s).Keeps s₀ := .next (.ite h.cheadWrite h)

/-! #### The host port -/

theorem Kept.leaveLockstep : Kept s₀ (s.leaveLockstep) := h.pairChange (fun _ h₁ => h₁.setPairState)

theorem Kept.hostOut {o} : Kept s₀ (s.hostOut o) :=
  .ite (.ite h.upd.leaveLockstep h.upd.upd) (h.upd.elseIf fun h₁ => h₁.emit)

theorem Kept.setQp {n x} : Kept s₀ (s.setQp n x) := h.upd

theorem Kept.rdmaSend {n va rkey bytes} : Kept s₀ (s.rdmaSend n va rkey bytes).1 := .ite_fst h h.setQp.hostOut

theorem Kept.askSign {r} : Kept s₀ (s.askSign r).1 := .ite_fst h.count h.upd

theorem Kept.orphanSigns {o} : Kept s₀ (s.orphanSigns o) := h.upd

theorem Kept.signNext {body} : Kept s₀ (s.signNext body).1 := (Kept.ite h.setFld h).setFld

/-! #### Attestation -/

theorem Kept.setMeas {i b} : Kept s₀ (s.setMeas i b) := h.foldl fun _ _ h₁ => h₁.setReg

theorem Kept.extend {i d} : Kept s₀ (s.extend i d) := h.setMeas

theorem Kept.measureState : Kept s₀ (s.measureState) := h.extend

theorem Kept.measureBoot : Kept s₀ (s.measureBoot) := h.extend

/-! #### Power and temperature -/

theorem Kept.updPower {f} : Kept s₀ (s.updPower f) := h.upd

theorem Kept.setLoop {d l} : Kept s₀ (s.setLoop d l) := h.updPower

theorem Kept.execLimiterSample {w} : (execLimiterSample w s).Keeps s₀ :=
  h.whenMain (h.setFld.thenIf fun h₁ => h₁.setFld).updPower

theorem Kept.execLimiterRelease : (execLimiterRelease s).Keeps s₀ :=
  h.whenMain (.ite h ((Kept.ite h h.count).thenIf fun h₁ => h₁.setFld).updPower)

theorem Kept.overrideRecord {d} : Kept s₀ (s.overrideRecord d) := (h.errRecord.thenIf fun h₁ => h₁.sendPend).setLoop

theorem Kept.overrideEval {d} : Kept s₀ (s.overrideEval d) :=
  .ite h.setLoop.setFld.count (.ite h.overrideRecord.setLoop.setFld h)

theorem Kept.acRescale {d o n} : Kept s₀ (s.acRescale d o n) := h.upd

theorem Kept.setPoint {d new} : Kept s₀ (s.setPoint d new) :=
  h.setFld.setFld.acRescale.elseIf fun h₁ => h₁.acRescale.rescale

theorem Kept.clockEval {d} : Kept s₀ (s.clockEval d) := (Kept.ite h h.setPoint.setLoop).overrideEval

theorem Kept.execClockPointChange {d} : (execClockPointChange d s).Keeps s₀ := h.whenMain h.clockEval

theorem Kept.applyTake {slot r} : Kept s₀ (s.applyTake slot r) := h.applyEffect.foldl fun _ _ h₁ => .ite h₁.clockEval h₁

theorem Kept.execStagedApplyEffect {slot} : (execStagedApplyEffect slot s).Keeps s₀ := by
  dsimp only [Machine.execStagedApplyEffect]
  refine h.whenMain ?_
  split
  · exact h
  · exact .ite h.applyTake h

theorem Kept.execOverrideRecord {d} : (execOverrideRecord d s).Keeps s₀ := h.whenMain (.ite h.overrideRecord h)

theorem Kept.stepDown {d cap} : Kept s₀ (s.stepDown d cap) := .ite h h.setLoop.count

theorem Kept.stepUp {d cap} : Kept s₀ (s.stepUp d cap) := h.setLoop

theorem Kept.capDown : Kept s₀ (s.capDown) :=
  .ite (.ite h h.setFld.updPower) ((h.foldl fun _ _ h₁ => h₁.stepDown).updPower.foldl fun _ _ h₁ => h₁.clockEval)

theorem Kept.capUp : Kept s₀ (s.capUp) := by
  dsimp only [State.capUp]
  split
  · exact h
  · exact .ite h.updPower.setFld (h.updPower.foldl fun _ _ h₁ => .ite h₁.stepUp.clockEval h₁)

theorem Kept.execCapLoop : (execCapLoop s).Keeps s₀ :=
  h.whenMain (.ite h.updPower.setFld.capDown (.ite (.ite h.updPower.setFld.updPower h.updPower.setFld.capUp)
    h.updPower.setFld.updPower))

theorem Kept.thermalDie {d t} : Kept s₀ (s.thermalDie d t) :=
  .ite (h.setLoop.setFld.setLoop.thenIf fun h₁ => h₁.stepDown.clockEval)
    (.ite (h.setLoop.setFld.setLoop.thenIf fun h₁ => h₁.stepUp.clockEval) h.setLoop.setFld.setLoop)

theorem Kept.thermalStack {st t} : Kept s₀ (s.thermalStack st t) := h.updPower

theorem Kept.execTripClear : (execTripClear s).Keeps s₀ := h.alive h.setFld

/-! #### Training support -/

theorem Kept.wakeEpochs : Kept s₀ (s.wakeEpochs) := by
  dsimp only [State.wakeEpochs]
  refine h.foldl fun _ _ h₁ => ?_
  split
  · exact .ite h₁.finishWaitRd h₁
  · exact .ite h₁.reissue h₁
  · exact h₁

theorem Kept.endSnap {status} : Kept s₀ (s.endSnap status) := by
  dsimp only [State.endSnap]
  split
  · exact h
  · split
    · exact h.upd.orphanSigns.setFld
    · exact h.upd.orphanSigns.setFld.setFld.hostEvent

theorem Kept.snapSettled : Kept s₀ (s.snapSettled) := by
  dsimp only [State.snapSettled]
  split
  · exact h
  · split
    · exact h.endSnap
    · exact h.endSnap
    · exact h

theorem Kept.settle {e word commit} : Kept s₀ (s.settle e word commit) :=
  (Kept.ite (h.setFld.setFld.setReg.setFld.freeVeto.upd.elseIf fun h₁ => h₁.holdVeto.upd).count
    (h.setFld.setFld.setReg.setFld.freeVeto.upd.elseIf fun h₁ =>
    h₁.holdVeto.upd).retractAll.errRecord.count).snapSettled.wakeEpochs

theorem Kept.holdClose {c} : Kept s₀ (s.holdClose c) := .ite (.ite h h.upd) h

theorem Kept.execSettlement : (execSettlement s).Keeps s₀ := by
  dsimp only [Machine.execSettlement]
  refine h.whenServing ?_
  split
  · exact h
  · exact (Kept.ite (Kept.ite_snd h h.draw).setFld.errRecord (Kept.ite_snd h h.draw)).settle

theorem Kept.settleLocal {v} : Kept s₀ (s.settleLocal v) := .ite h.settle h

theorem Kept.execTrnSettleLocal {v} : (execTrnSettleLocal v s).Keeps s₀ := h.whenMain h.settleLocal

theorem Kept.settledWrite {v} : Kept s₀ (s.settledWrite v) := .ite h.setReg.upd.snapSettled.wakeEpochs h

theorem Kept.execTrnSettledWrite {v} : (execTrnSettledWrite v s).Keeps s₀ := h.whenMain h.settledWrite

theorem Kept.execOutOfStepClear : (execOutOfStepClear s).Keeps s₀ := h.whenMain h.setFld

theorem Kept.lossWatch {x e} : Kept s₀ (s.lossWatch x e) := by
  unfold State.lossWatch
  exact .ite h.setFld.vetoEvent.count h.setFld.setFld.setFld.setFld

theorem Kept.lossWrite {v} : Kept s₀ (s.lossWrite v) := by
  dsimp only [State.lossWrite]
  split
  · exact h.count
  · exact .ite h.count h.lossWatch

theorem Kept.execLossWatch {v} : (execLossWatch v s).Keeps s₀ := h.whenMain h.lossWrite

theorem Kept.lwStateWrite {v} : Kept s₀ (s.lwStateWrite v) := .ite h.setReg.setFld h

theorem Kept.execLwStateWrite {v} : (execLwStateWrite v s).Keeps s₀ := h.whenMain h.lwStateWrite

theorem Kept.execEvalSlotStart : (execEvalSlotStart s).Keeps s₀ := h.whenMain (.ite h.setFld h)

theorem Kept.execEvalSlotEnd : (execEvalSlotEnd s).Keeps s₀ := h.whenMain (.ite h h.setFld)

theorem Kept.readSnap : Kept s₀ (s.readSnap).2 :=
  .ite_snd (.ite_snd h.readMem (.ite_snd h.readMem
    (.ite_snd h.readMem (.ite_snd h.readMem.readMem
    (.ite_snd h.readMem.readMem (.ite_snd h.readMem.readMem h.readMem.readMem)))))) h

theorem Kept.snapStart : Kept s₀ (s.snapStart) := by
  dsimp only [State.snapStart]
  refine .ite h ?_
  split
  next e =>
    exact (h.setReg.setFld.readSnap.of_snd e).upd.snapSettled
  next e =>
    exact (h.setReg.setFld.readSnap.of_snd e).setFld.setFld.hostEvent

theorem Kept.execSnapshotStart : (execSnapshotStart s).Keeps s₀ := h.whenServing h.snapStart

theorem Kept.snapSend {n off bytes} : Kept s₀ (s.snapSend n off bytes).1 := h.rdmaSend

theorem Kept.snapRegion {n} : Kept s₀ (s.snapRegion n) := by
  dsimp only [State.snapRegion]
  split
  · exact h
  · exact .ite h (.ite h.readMem.snapSend.setFld.setFld.upd.endSnap
      (h.readMem.snapSend.setFld.setFld.upd.thenIf fun h₁ => h₁.askSign.upd))

theorem Kept.execSnapshotRegion : (execSnapshotRegion s).Keeps s₀ := by
  dsimp only [Machine.execSnapshotRegion]
  refine h.whenServing ?_
  split
  · exact h
  · exact h.snapRegion

theorem Kept.snapEnd {n} : Kept s₀ (s.snapEnd n) := .ite h (.ite h.endSnap (.ite h.snapSend.endSnap h))

theorem Kept.execSnapshotEnd : (execSnapshotEnd s).Keeps s₀ := by
  dsimp only [Machine.execSnapshotEnd]
  refine h.whenServing ?_
  split
  · exact h
  · exact h.snapEnd

theorem Kept.execSnapshotAbort : (execSnapshotAbort s).Keeps s₀ := h.whenServing h.endSnap

/-! #### The pendant -/

theorem Kept.sendBulk {kind nums bytes} : Kept s₀ (s.sendBulk kind nums bytes) := h.sendPend

theorem Kept.sendGranule {g to_} : Kept s₀ (s.sendGranule g to_) := h.sendBulk

theorem Kept.resumeQueues : Kept s₀ (s.resumeQueues) := by
  dsimp only [State.resumeQueues]
  refine h.foldl fun _ _ h₁ => ?_
  split
  · exact .ite h₁.reissue h₁
  · exact h₁

theorem Kept.pairTidy : Kept s₀ (s.pairTidy) := by
  dsimp only [State.pairTidy]
  refine .ite h (.ite (.resumeQueues (.updPend (.dropChecks (.updPend (h.foldl fun _ _ h₁ => ?_)))))
      (.dropChecks (.updPend (h.foldl fun _ _ h₁ => ?_))))
  · split
    · exact h₁.fail
    · exact h₁
  · split
    · exact h₁.fail
    · exact h₁

theorem Kept.soloNow : Kept s₀ (s.soloNow) := (h.pairChange (fun _ h₁ => h₁.setPairState)).pairTidy

theorem Kept.brokenNow : Kept s₀ (s.brokenNow) := (h.pairChange (fun _ h₁ => h₁.setPairState)).pairTidy

theorem Kept.advertise : Kept s₀ (s.advertise) := (Kept.ite h h.emit).thenIf fun h₁ => h₁.emit

theorem Kept.unfollow : Kept s₀ (s.unfollow) := h.foldl fun _ _ h₁ => h₁.foldl fun _ _ h₂ => h₂.setFld.gateOwn

theorem Kept.reissueHeld : Kept s₀ (s.reissueHeld) := h.upd.foldl fun _ _ h₁ => h₁.sendRaw

theorem Kept.takeover : Kept s₀ (s.takeover) :=
  ((h.pairChange (fun _ h₁ => h₁.setPairState.setFld)).setFld.unfollow.upd.foldl fun _ _ h₁ =>
    h₁.emit).reissueHeld.advertise.updPend.count.pairTidy

theorem Kept.execNeighborAdvertRepeat : (execNeighborAdvertRepeat s).Keeps s₀ := h.whenMain (.ite h h.updPend.advertise)

theorem Kept.partnerLost {why} : Kept s₀ (s.partnerLost why) := by
  dsimp only [State.partnerLost]
  generalize e : State.errRecord _ _ = told
  have ht : Kept s₀ told := by
    subst e
    exact h.count.errRecord
  exact .ite (.ite ht.updPend.takeover ht.updPend.soloNow) ht.updPend.updPend.soloNow

theorem Kept.partnerSplit : Kept s₀ (s.partnerSplit) :=
  .ite h.count.errRecord.updPend.brokenNow h.count.errRecord.updPend.soloNow

theorem Kept.probeStart : Kept s₀ (s.probeStart) := .ite h.updPend.sendReq h

theorem Kept.execPartnerSilence : (execPartnerSilence s).Keeps s₀ := h.whenMain h.probeStart

theorem Kept.joinFailed {code} : Kept s₀ (s.joinFailed code) :=
  (h.setFld.errRecord.updPend.orphanSigns.pairChange (fun _ h₁ => h₁.setPairState)).pairTidy

theorem Kept.joinAbandon : Kept s₀ (s.joinAbandon) :=
  .ite (h.updPend.orphanSigns.pairChange (fun _ h₁ => h₁.setPairState)).pairTidy h

theorem Kept.joinRefuse {code} : Kept s₀ (s.joinRefuse code) := h.sendBulk.joinFailed

theorem Kept.sendInfo : Kept s₀ (s.sendInfo) := h.draw.draw.draw.draw.updPend.sendBulk

theorem Kept.joinGoOn : Kept s₀ (s.joinGoOn) := by
  dsimp only [State.joinGoOn]
  split
  · exact h
  · exact .ite h (.ite h.setReg.joinRefuse (.ite h.setReg.askSign h.setReg.askSign.joinRefuse))

theorem Kept.joinWrite : Kept s₀ (s.joinWrite) :=
  .ite h (.ite h.updPend.setFld.joinFailed
    (h.updPend.setFld.updPend.pairChange (fun _ h₁ => h₁.setPairState)).sendInfo.joinGoOn)

theorem Kept.execPairJoin : (execPairJoin s).Keeps s₀ := h.whenServing h.joinWrite

theorem Kept.joinBulk : Kept s₀ (s.joinBulk) :=
  ((h.sendBulk.foldl fun _ _ h₁ => h₁.sendBulk).foldl fun _ _ h₁ => h₁.sendGranule).updPend.setReg

theorem Kept.pairNow : Kept s₀ (s.pairNow) := by
  dsimp only [State.pairNow]
  exact (Kept.ite (h.foldl fun _ _ h₁ => h₁.foldl fun _ _ h₂ => h₂.setFld.setGate)
      h).setReg.setFld.updPend.upd.pairChange
    fun _ h₁ => h₁.setPairState

theorem Kept.joinPassed : Kept s₀ (s.joinPassed) := by
  dsimp only [State.joinPassed]
  split
  · exact h
  · exact .ite ((h.pairChange (fun _ h₁ => h₁.setPairState.setFld)).updPend.thenIf fun h₁ => h₁.joinBulk)
      h.setFld.pairNow

theorem Kept.joinSigned {body sig} : Kept s₀ (s.joinSigned body sig) := .ite h.sendBulk h

theorem Kept.joinTry : Kept s₀ (s.joinTry) := .ite h.joinPassed h

theorem Kept.quiesceQueue {q} : Kept s₀ (s.quiesceQueue q) := by
  dsimp only [State.quiesceQueue]
  split
  · exact h.leaveSems.leaveLocks.updQ
  · exact h

theorem Kept.joinQuiesce : Kept s₀ (s.joinQuiesce) :=
  .ite h (.ite (h.foldl fun _ _ h₁ => h₁.sendGranule).setReg.setFld.updPend
    (h.updPend.elseIf fun h₁ => ((h₁.foldl fun _ _ h₂ => h₂.sendGranule).foldl fun _ _ h₂ =>
    h₂.quiesceQueue).sendBulk.updPend))

theorem Kept.execJoinQuiesce : (execJoinQuiesce s).Keeps s₀ := h.whenServing h.joinQuiesce

theorem Kept.joinItem {i} : Kept s₀ (s.joinItem i) := by
  dsimp only [State.joinItem]
  split
  · exact h.setQint
  · exact h.upd
  · exact h.bindGroup
  · exact h.setGate
  · exact h.upd
  · exact h.upd
  · exact h.upd
  · exact h.upd
  · exact h

theorem Kept.joinBlocks {regs staged items} : Kept s₀ (s.joinBlocks regs staged items) := by
  unfold State.joinBlocks
  refine .ite h (.updPend (.foldl ?_ fun _ _ h₁ => h₁.joinItem))
  exact ⟨h.mem, h.regs.joinBank _, h.staged.joinBank _, h.pending⟩

theorem Kept.copyWrite {a b} : Kept s₀ (s.copyWrite a b) := by
  dsimp only [State.copyWrite]
  split
  · exact h
  · exact .ite h.writeMem h

theorem Kept.mergeEnd : Kept s₀ (s.mergeEnd) :=
  .ite h ((h.foldl fun _ _ h₁ => h₁.copyWrite).updPend.thenIf fun h₁ => h₁.setFld)

theorem Kept.execShadowMergeComplete : (execShadowMergeComplete s).Keeps s₀ := h.whenMain h.mergeEnd

theorem Kept.confirmRx {k} : Kept s₀ (s.confirmRx k) :=
  .ite h (h.mergeEnd.thenIf fun h₁ => h₁.setFld.setFld).updPend.sendPend

theorem Kept.execPendConfirm {k} : (execPendConfirm k s).Keeps s₀ := h.whenMain h.confirmRx

theorem Kept.confirmAck {k} : Kept s₀ (s.confirmAck k) := by
  dsimp only [State.confirmAck]
  split
  · exact .ite h.updPend.setReg h
  · exact h

theorem Kept.execConfirmAck {k} : (execConfirmAck k s).Keeps s₀ := h.whenMain h.confirmAck

theorem Kept.execConfirmTimeout : (execConfirmTimeout s).Keeps s₀ := by
  dsimp only [Machine.execConfirmTimeout]
  refine h.whenMain ?_
  split
  · exact .ite h.updPend.count h
  · exact h

theorem Kept.ckptWrite {v} : Kept s₀ (s.ckptWrite v) := .ite h (.ite (.ite h.count h.updPend.sendPend) h.setReg)

theorem Kept.execCkptConfirm {v} : (execCkptConfirm v s).Keeps s₀ := h.whenMain h.ckptWrite

theorem Kept.restoreWrite : Kept s₀ (s.restoreWrite) := by
  dsimp only [State.restoreWrite]
  split
  · exact h.setFld
  · exact .ite h.setFld (h.mergeEnd.sendBulk.foldl fun _ _ h₁ => h₁.sendGranule)

theorem Kept.execPairRestore : (execPairRestore s).Keeps s₀ := h.whenMain h.restoreWrite

theorem Kept.forgetWrite : Kept s₀ (s.forgetWrite) := h.updPend.setFld

theorem Kept.execPairForget : (execPairForget s).Keeps s₀ := h.whenMain h.forgetWrite

theorem Kept.enterMode {m} : Kept s₀ (s.enterMode m) :=
  .ite h (h.setFld.upd.thenIf fun h₁ => h₁.measureState).hostEvent.alert

theorem Kept.sendHeartbeat : Kept s₀ (s.sendHeartbeat) := h.foldl fun _ _ h₁ => .ite h₁.emit h₁

theorem Kept.execHeartbeatTimer : (execHeartbeatTimer s).Keeps s₀ := h.whenMain h.sendHeartbeat

theorem Kept.closeDomains {m} : Kept s₀ (s.closeDomains m) := by
  dsimp only [State.closeDomains]
  exact h.setFld.setFld.writeBackHeld

theorem Kept.detachStage : Kept s₀ (s.detachStage) := by
  dsimp only [State.detachStage]
  refine .ite ?_ h
  split
  · exact h.closeDomains
  · exact h

theorem Kept.detachStep : Kept s₀ (s.detachStep) :=
  .ite (Kept.ite h.sendPend.count h).sendHeartbeat.updPend.detachStage h

theorem Kept.detachWrite : Kept s₀ (s.detachWrite) :=
  .ite h (h.updPend.pairChange (fun _ h₁ => h₁.setPairState)).enterMode.pairTidy.detachStep

theorem Kept.execPairDetach : (execPairDetach s).Keeps s₀ := h.whenMain h.detachWrite

theorem Kept.execDetachComplete : (execDetachComplete s).Keeps s₀ := h.whenMain (.ite h.enterMode h)

theorem Kept.compareDone {c own other} : Kept s₀ (s.compareDone c own other) :=
  .ite h.count.finish (.ite h.count.count.errRecord.finish.brokenNow h.count.count.errRecord.finish.soloNow)

theorem Kept.compareBody {c bytes} : Kept s₀ (s.compareBody c bytes) := by
  dsimp only [State.compareBody]
  split
  · exact h.sendPend.updPend.compareDone
  · exact h.sendPend.updPend

theorem Kept.pendSend {c a bytes} : Kept s₀ (s.pendSend c a bytes) :=
  .ite (.ite h.compareBody h.sendBulk.finish) (.ite h.sendBulk.updPend.finish h.sendBulk.sendBulk.finish)

theorem Kept.pendBody {c} : Kept s₀ (s.pendBody c) := by
  dsimp only [State.pendBody]
  refine .ite h.fail ?_
  split
  next e =>
    exact (h.readTd.of_snd e).fail
  next e =>
    exact (h.readTd.of_snd e).fail.elseIf fun h₂ => .ite (h.readTd.of_snd e).fail
        ((h.readTd.of_snd e).fail.elseIf fun h₃ => .ite h₂
        (.ite h₃ (.ite (h.readTd.of_snd e).fail
        (.ite (h.readTd.of_snd e).readMem.fail (h.readTd.of_snd e).readMem.pendSend))))

theorem Kept.execPendDelta {q n} : (execPendDelta q n s).Keeps s₀ :=
  h.whenServing (h.starting (fun _ _ h₁ => h₁.pendBody))

theorem Kept.execResyncTransfer {q n} : (execResyncTransfer q n s).Keeps s₀ :=
  h.whenServing (h.starting (fun _ _ h₁ => h₁.pendBody))

theorem Kept.digestRx {k dg} : Kept s₀ (s.digestRx k dg) := by
  dsimp only [State.digestRx]
  refine .ite h ?_
  split
  · exact h.stepDigestRx
  · split
    · split
      · exact h.updPend.compareDone
      · exact h.updPend
    · exact h.updPend

theorem Kept.execDigestTimeout {q n} : (execDigestTimeout q n s).Keeps s₀ := by
  dsimp only [Machine.execDigestTimeout]
  refine h.whenMain ?_
  split
  · refine .ite h ?_
    split
    · exact h.updPend.count.fail
    · exact h.updPend.count
  · exact h

theorem Kept.manifestRx {d g n b} : Kept s₀ (s.manifestRx d g n b) := .ite h.setGate.tryClose h

theorem Kept.execPendManifest {d g n body} : (execPendManifest d g n body s).Keeps s₀ := h.whenServing h.manifestRx

theorem Kept.dataRx {a b} : Kept s₀ (s.dataRx a b) := .ite h.poke (.ite h.writeMem h)

theorem Kept.zeroRx {a n} : Kept s₀ (s.zeroRx a n) := by
  unfold State.zeroRx
  exact .ite ⟨h.mem.filter _, h.regs, h.staged, h.pending⟩ h

theorem Kept.infoRx {p incarn} : Kept s₀ (s.infoRx p incarn) := by
  dsimp only [State.infoRx]
  exact h.updPend.setReg.joinGoOn

theorem Kept.reportRx {endorse body sig} : Kept s₀ (s.reportRx endorse body sig) := by
  dsimp only [State.reportRx]
  split
  · exact h
  · exact .ite h (.ite h.joinRefuse h.updPend.joinTry)

theorem Kept.bulkRx {l} : Kept s₀ (s.bulkRx l) := by
  dsimp only [State.bulkRx]
  split
  · exact h.infoRx
  · exact h.reportRx
  · exact .ite h.joinFailed h
  · exact h.dataRx
  · exact h.zeroRx
  · exact .ite h.updPend h
  · exact .ite h.setFld.setFld.updPend.copyWrite h
  · exact .ite h.updPend h
  · exact h.joinBlocks
  · exact .ite h.ringWrite h

/-! #### Resets -/

theorem Kept.coldBlocks {bs} : Kept s₀ (s.coldBlocks bs) :=
  ⟨h.mem, h.regs.mapRegs (fun a v => if inBlocks bs a then warmValue a v else v), h.staged.filter _, h.pending⟩

theorem Kept.loseBlocks {bs} : Kept s₀ (s.loseBlocks bs) := by
  unfold State.loseBlocks
  exact ⟨h.mem, h.regs.filter _, h.staged.filter _, h.pending⟩

theorem Kept.bumpQueue {q} : Kept s₀ (s.bumpQueue q) := h.countWrap

theorem Kept.debugEnd : Kept s₀ (s.debugEnd) := h.setFld.upd.loseBlocks

theorem Kept.bootRom : Kept s₀ (s.bootRom) := (h.foldl fun _ _ h₁ => h₁.setMeas).measureBoot.upd

theorem Kept.updateCut : Kept s₀ (s.updateCut) := .ite h.upd h.upd

theorem Kept.bumpIncarn : Kept s₀ (s.bumpIncarn) := (Kept.ite h.upd h).setReg

theorem Kept.warmInternals : Kept s₀ (s.warmInternals) := by
  have hb := h.writeBackHeld (hit := fun _ => true)
  exact ⟨hb.mem.filter _, hb.regs, .nil, hb.pending⟩

theorem Kept.warmRegs : Kept s₀ (s.warmRegs) := by
  have mapped : Kept s₀ { s with regs := mapRegs warmValue s.regs } := ⟨h.mem, h.regs.mapRegs _, h.staged, h.pending⟩
  exact mapped.setFld.setFld.setReg.setReg.loseBlocks

theorem Kept.warmReset {cause} : Kept s₀ (s.warmReset cause) :=
  (((h.updateCut.warmInternals.warmRegs.thenIf fun h₁ => h₁.loseBlocks).thenIf fun h₁ => h₁.count).bumpIncarn.foldl fun
    _ _ h₁ => h₁.bumpQueue).setFld

theorem Kept.warmBoot {cause} : Kept s₀ (s.warmBoot cause) := h.warmReset.bootRom.enterMode.upd

theorem Kept.mainLost : Kept s₀ (s.mainLost) := h.warmReset.enterMode

theorem Kept.rstResult {kind result} : Kept s₀ (s.rstResult kind result) := h.setFld.setFld

theorem Kept.rstWarm : Kept s₀ (s.rstWarm) := .ite h.rstResult (.ite h.warmBoot h.rstResult)

theorem Kept.execWarmReset : (execWarmReset s).Keeps s₀ := h.alive h.rstWarm

theorem Kept.resetQueue {q e} : Kept s₀ (s.resetQueue q e) := by
  unfold State.resetQueue
  extract_lets t u gone v mine w x
  have hu : Kept s₀ u := h.abandonWait.abandonReqs
  have hw : Kept s₀ w := ⟨hu.mem, hu.regs.filter _, hu.staged, hu.pending⟩
  exact .ite hw.bumpQueue hw.bumpQueue.updQ.setQState

theorem Kept.resetUsers {e} : Kept s₀ (s.resetUsers e) := h.foldl fun _ _ h₁ => h₁.resetQueue

theorem Kept.rstQueue {q} : Kept s₀ (s.rstQueue q) :=
  h.rstResult.elseIf fun h₁ => .ite h.rstResult (.ite h₁ h.count.resetQueue.faultHandover.rstResult)

theorem Kept.execQueueReset {q} : (execQueueReset q s).Keeps s₀ := h.alive h.rstQueue

theorem Kept.forceColls {d} : Kept s₀ (s.forceColls d) := h.foldl fun _ _ h₁ => (Kept.ite h₁ h₁.holdVeto).leaveColl

theorem Kept.clearBrushes {d} : Kept s₀ (s.clearBrushes d) := h.upd

theorem Kept.startDieReset {d} : Kept s₀ (s.startDieReset d) :=
  (((h.upd.clearDieCanvases.foldl fun _ _ h₁ => h₁.resetQueue).foldl fun _ _ h₁ =>
    h₁.abandonWait.abandonReqs).clearBrushes.upd.coldBlocks.foldl fun _ _ h₁ => h₁.bumpQueue).setBit

theorem Kept.rstDie {d force} : Kept s₀ (s.rstDie d force) :=
  h.rstResult.elseIf fun h₁ => .ite h.rstResult
    (.ite h₁ (.ite ((Kept.ite h h.count.faultHandover).rstResult.thenIf fun h₂ => h₂.forceColls).startDieReset
    ((Kept.ite h h.count.faultHandover).rstResult.thenIf fun h₂ => h₂.forceColls).upd))

theorem Kept.execDieReset {d force} : (execDieReset d force s).Keeps s₀ := h.alive h.rstDie

theorem Kept.startEngineReset {kind d cv} : Kept s₀ (s.startEngineReset kind d cv) :=
  .ite (h.foldl fun _ _ h₁ => h₁.upd.clearCanvas.resetUsers)
    (.ite h.upd.resetUsers.clearBrushes.coldBlocks
    (.ite h.upd.resetUsers.coldBlocks (.ite (h.foldl fun _ _ h₁ => h₁.lendEnd).upd.resetUsers.coldBlocks.countVetoes
    h.upd.resetUsers)))

theorem Kept.rstEngineReq {kind d cv force} : Kept s₀ (s.rstEngineReq kind d cv force) :=
  .ite h (h.rstResult.elseIf fun h₁ => .ite h.rstResult
    (.ite h₁ (.ite ((Kept.ite h h.count.faultHandover).rstResult.thenIf fun h₂ => h₂.forceColls).upd
    ((Kept.ite h h.count.faultHandover).rstResult.thenIf fun h₂ => h₂.forceColls).startEngineReset)))

theorem Kept.execEngineReset {kind d cv force} : (execEngineReset kind d cv force s).Keeps s₀ := h.alive h.rstEngineReq

theorem Kept.releaseHolds : Kept s₀ (s.releaseHolds) :=
  h.foldl fun _ _ h₁ => .ite (.ite h₁.startDieReset h₁.startEngineReset) h₁

theorem Kept.rstWrite {v} : Kept s₀ (s.rstWrite v) :=
  .ite h.rstWarm (.ite h.rstDie (.ite h.rstEngineReq (.ite (.ite h.rstQueue h) h)))

theorem Kept.rstDone {kind} : Kept s₀ (s.rstDone kind) := .ite h.setFld h

theorem Kept.settleQueue {q} : Kept s₀ (s.settleQueue q) := h.settleOff.thenIf fun h₁ => h₁.rstDone

theorem Kept.execDieResetComplete {d} : (execDieResetComplete d s).Keeps s₀ :=
  h.whenMain (.ite (h.setBit.rstDone.upd.foldl fun _ _ h₁ => h₁.semAdd).lockOpsGo.resumeQueues h)

theorem Kept.execEngineResetComplete {e} : (execEngineResetComplete e s).Keeps s₀ :=
  h.whenMain (.ite (h.upd.thenIf fun h₁ => h₁.rstDone) h)

theorem Kept.execAuxPowerGood {valid node slot lid sbMode} :
    (Machine.execAuxPowerGood valid node slot lid sbMode s).Keeps s₀ := by
  unfold Machine.execAuxPowerGood
  refine .next (.ite h (.alert (.setReg (.setFld (.setFld (.setFld (.setReg (.setReg (.setFld (.setReg (.foldl ?_
    fun _ _ h₁ => h₁.setReg)))))))))))
  exact ⟨.nil, .resetRegs, .nil, h.pending⟩

theorem Kept.execAuxPowerLost : (execAuxPowerLost s).Keeps s₀ := .next (.ite h.updateCut.upd h)

theorem Kept.execMainPowerGood : (execMainPowerGood s).Keeps s₀ :=
  h.alive (.ite (h.upd.warmInternals.warmRegs.thenIf fun h₁ => h₁.upd).bootRom.enterMode (.ite h.upd h))

theorem Kept.execMainPowerLoss : (execMainPowerLoss s).Keeps s₀ := h.alive (.ite h.mainLost.upd h.upd)

theorem Kept.execRefclkLoss : (execRefclkLoss s).Keeps s₀ := h.alive (.ite h.mainLost.upd h)

theorem Kept.raiseDomains {m} : Kept s₀ (s.raiseDomains m) := h.setFld

theorem Kept.hostTrain : Kept s₀ (s.hostTrain) := h.setFld.setFld.setFld

theorem Kept.execImageChecksComplete {flashErr} : (execImageChecksComplete flashErr s).Keeps s₀ :=
  h.alive (.ite (.ite h.setFld.extend.setReg.setFld.upd h.setFld.setFld.enterMode.raiseDomains.hostTrain) h)

theorem Kept.execEarlyEntry {d0} : (execEarlyEntry d0 s).Keeps s₀ :=
  h.alive (.ite h.setFld.raiseDomains.hostTrain.enterMode h)

theorem Kept.finishBringup {dies stks pcFail} : Kept s₀ (s.finishBringup dies stks pcFail) :=
  ((h.setFld.setFld.foldl fun _ _ h₁ => h₁.setFld.setFld.setReg).raiseDomains.enterMode.foldl fun _ _ h₁ =>
    h₁.clockEval).hostTrain

theorem Kept.execBringupComplete {dies stks pcFail} : (execBringupComplete dies stks pcFail s).Keeps s₀ :=
  h.alive (.ite h.finishBringup h)

theorem Kept.execBringupTimeout {dies stks pcFail} : (execBringupTimeout dies stks pcFail s).Keeps s₀ :=
  h.alive (.ite h.joinAbandon.finishBringup h)

/-! #### Security -/

theorem Kept.sbReply {cmd code b} : Kept s₀ (s.sbReply cmd code b) := h.emit

theorem Kept.sideband (ht : Kept s₀ t) : (s.sideband t).Keeps s₀ := .ite (.next ht) (.next h)

theorem Kept.execGetReport {nonce} : (execGetReport nonce s).Keeps s₀ :=
  h.sideband (.ite h.sbReply (.ite h.sbReply (.ite h.askSign h.askSign.sbReply)))

theorem Kept.execGetEndorsement : (execGetEndorsement s).Keeps s₀ := h.sideband h.sbReply

theorem Kept.execSbExtend {i dg} : (execSbExtend i dg s).Keeps s₀ := h.sideband (.ite h.extend.sbReply h.sbReply)

theorem Kept.execGetMeas : (execGetMeas s).Keeps s₀ := h.sideband h.sbReply

theorem Kept.svnCommit : Kept s₀ (s.svnCommit) := .ite h.setFld h

theorem Kept.execSbSvnCommit : (execSbSvnCommit s).Keeps s₀ := h.sideband h.svnCommit.sbReply

theorem Kept.execSvnCommit : (execSvnCommit s).Keeps s₀ := h.whenMain h.svnCommit

theorem Kept.execDebugChallenge : (execDebugChallenge s).Keeps s₀ := h.sideband h.upd.sbReply

theorem Kept.execDebugUnlock {t} : (execDebugUnlock t s).Keeps s₀ :=
  h.sideband (.ite h.upd.extend.setFld.setFld.upd.errRecord.sbReply h.upd.sbReply)

theorem Kept.execDebugLock : (execDebugLock s).Keeps s₀ := h.sideband h.debugEnd.sbReply

theorem Kept.execSecCtlDebugLock : (execSecCtlDebugLock s).Keeps s₀ := h.whenMain h.debugEnd

theorem Kept.execDebugExpiry : (execDebugExpiry s).Keeps s₀ := h.alive (.ite h.debugEnd h)

theorem Kept.updDone {status reason} : Kept s₀ (s.updDone status reason) := h.upd.setFld.setFld.setFld

theorem Kept.updStart : Kept s₀ (s.updStart) := .ite h (h.setReg.updDone.elseIf fun h₁ => .ite h₁ h.setReg.upd.setFld)

theorem Kept.execUpdStart : (execUpdStart s).Keeps s₀ := h.whenMain h.updStart

theorem Kept.updAbort : Kept s₀ (s.updAbort) := .ite h.updDone h

theorem Kept.execUpdAbort : (execUpdAbort s).Keeps s₀ := h.whenMain h.updAbort

theorem Kept.execUpdateVerifyComplete : (execUpdateVerifyComplete s).Keeps s₀ := by
  dsimp only [Machine.execUpdateVerifyComplete]
  refine h.whenMain ?_
  split
  · exact h
  · exact .ite h (.ite h.readMem.setFld h.readMem.updDone)

theorem Kept.program {get n ok} : Kept s₀ (s.program get n ok) := .ite h.upd h.draw.draw.upd

theorem Kept.execUpdateComplete {ok} : (execUpdateComplete ok s).Keeps s₀ := by
  dsimp only [Machine.execUpdateComplete]
  refine h.whenMain ?_
  split
  · exact h
  · exact .ite h h.program.setFld.updDone

theorem Kept.secCtl {v} : Kept s₀ (s.secCtl v) :=
  (((Kept.ite h.svnCommit h).thenIf fun h₁ => h₁.debugEnd).thenIf fun h₁ => h₁.updStart).thenIf fun h₁ => h₁.updAbort

theorem Kept.updRecov {f} : Kept s₀ (s.updRecov f) := h.upd

theorem Kept.recovSend {src b} : Kept s₀ (s.recovSend src b) := h.emit

theorem Kept.recovQuery {src} : Kept s₀ (s.recovQuery src) := .ite h.recovSend h

theorem Kept.execRecovQuery {src} : (execRecovQuery src s).Keeps s₀ := h.alive h.recovQuery

theorem Kept.recovData {src off b} : Kept s₀ (s.recovData src off b) := by
  dsimp only [State.recovData]
  refine .ite h ?_
  split
  · exact .ite h.updRecov.recovSend h
  · exact h.updRecov.recovSend

theorem Kept.execRecovData {src off b} : (execRecovData src off b s).Keeps s₀ := h.alive h.recovData

theorem Kept.recovStatus {src status reason} : Kept s₀ (s.recovStatus src status reason) := h.recovSend

theorem Kept.recovCommit {src n} : Kept s₀ (s.recovCommit src n) := .ite h (.ite h.updRecov h.updRecov.recovStatus)

theorem Kept.execRecovCommit {src n} : (execRecovCommit src n s).Keeps s₀ := h.alive h.recovCommit

theorem Kept.execRecovSessionTimeout : (execRecovSessionTimeout s).Keeps s₀ := h.alive (.ite h.updRecov h)

theorem Kept.execRecoveryProgrammed {ok} : (execRecoveryProgrammed ok s).Keeps s₀ := by
  dsimp only [Machine.execRecoveryProgrammed]
  refine h.alive (.ite h (.ite (.warmBoot (.setFld (h.program.thenIf fun h₁ => ?_)))
      (.upd (h.program.thenIf fun h₁ => ?_))))
  · split
    · exact h₁.recovStatus
    · exact h₁
  · split
    · exact h₁.recovStatus
    · exact h₁

theorem Kept.execRecovReqTimer : (execRecovReqTimer s).Keeps s₀ :=
  h.alive (.ite h (h.foldl fun _ _ h₁ => .ite h₁.emit h₁))

theorem Kept.execPendRecovReq {p off} : (execPendRecovReq p off s).Keeps s₀ :=
  h.whenServing (.ite h (h.foldl fun _ _ h₁ => h₁.emit).emit)

theorem Kept.execPendRecovData {p off b} : (execPendRecovData p off b s).Keeps s₀ := h.alive (.ite h.updRecov h)

theorem Kept.execRecovEnd {p total} : (execRecovEnd p total s).Keeps s₀ := by
  dsimp only [Machine.execRecovEnd]
  refine h.alive (.ite h (.ite ?_ h.updRecov))
  split
  · exact h.updRecov.recovStatus
  · exact h.updRecov

/-! #### The host port, its queue pairs and messages -/

theorem Kept.execHostLinkUp : (execHostLinkUp s).Keeps s₀ := h.whenMain (.ite h.setFld.setFld.setFld h)

theorem Kept.execHostLinkDown : (execHostLinkDown s).Keeps s₀ := h.whenMain (.ite h.hostTrain.faultHandover h)

theorem Kept.setSession {i x} : Kept s₀ (s.setSession i x) := h.upd

theorem Kept.tctSend {session key seq type payload} : Kept s₀ (s.tctSend session key seq type payload) :=
  .ite h h.hostOut

theorem Kept.tctRespond {session key seq type status data} : Kept s₀ (s.tctRespond session key seq type status data) :=
  h.setSession.tctSend

theorem Kept.dropBells {n} : Kept s₀ (s.dropBells n) := h.upd.foldl fun _ _ h₁ => h₁.tctRespond

theorem Kept.qpReset {n} : Kept s₀ (s.qpReset n) := h.setQp.dropBells

theorem Kept.qpLoad {n} : Kept s₀ (s.qpLoad n) :=
  .ite (Kept.ite h h.qpReset).setFld
    (.ite (Kept.ite h h.qpReset).setFld
    (.ite (Kept.ite h h.qpReset).readMem.setFld
    (.ite (Kept.ite h h.qpReset).readMem.setFld (Kept.ite h h.qpReset).readMem.setQp.setFld)))

theorem Kept.qpctlWrite {v} : Kept s₀ (s.qpctlWrite v) :=
  .ite h.setFld.setFld.qpLoad (h.setFld.setFld.thenIf fun h₁ => h₁.qpReset.setFld)

theorem Kept.execQpLoad {qp} : (execQpLoad qp s).Keeps s₀ := h.whenMain (.ite h.qpctlWrite h)

theorem Kept.execQpReset {qp} : (execQpReset qp s).Keeps s₀ := h.whenMain (.ite h.qpctlWrite h)

theorem Kept.ring {session key seq addr value} : Kept s₀ (s.ring session key seq addr value) := by
  dsimp only [State.ring]
  split
  · exact .ite h.doorbell.tctRespond h.tctRespond
  · exact h.tctRespond

theorem Kept.releaseBells : Kept s₀ (s.releaseBells) := h.foldl fun _ _ h₁ => .ite h₁.upd.ring h₁

theorem Kept.execDoorbellRelease : (execDoorbellRelease s).Keeps s₀ := h.whenMain h.releaseBells

theorem Kept.bellRx {session key seq p} : Kept s₀ (s.bellRx session key seq p) := by
  dsimp only [State.bellRx]
  split
  · exact h.tctRespond
  · exact .ite h.tctRespond (h.ring.elseIf fun h₁ => .ite h.tctRespond (.ite h.tctRespond (.ite h₁ h.upd)))

theorem Kept.cePacket {n ce} : Kept s₀ (s.cePacket n ce) := .ite h.setQp.hostOut h

theorem Kept.nak {n psn why} : Kept s₀ (s.nak n psn why) := (Kept.ite h.count (.ite h.count h)).hostOut

theorem Kept.ackTo {n k o} : Kept s₀ (s.ackTo n k o) := h.setQp.hostOut.releaseBells

theorem Kept.inOrder {n psn ce} {f : State → State} (hf : ∀ t, Kept s₀ t → Kept s₀ (f t)) : Kept s₀
    (s.inOrder n psn ce f) :=
  .ite h (.ite h (.ite (hf _ h.cePacket) (.ite h.cePacket.hostOut h.cePacket.nak)))

theorem Kept.regionOk {rkey va len access} : Kept s₀ (s.regionOk rkey va len access).1 := .ite_fst h h.readMem

theorem Kept.rdmaWriteRx {n psn rkey va data ce} : Kept s₀ (s.rdmaWriteRx n psn rkey va data ce) :=
  h.inOrder (fun _ h₁ => .ite h₁.nak
    (.ite (Kept.ite_snd h₁.regionOk.guardWrite h₁.regionOk).nak
    (Kept.ite_snd h₁.regionOk.guardWrite h₁.regionOk).writeMem.ackTo))

theorem Kept.rdmaReadRx {n psn rkey va len ce} : Kept s₀ (s.rdmaReadRx n psn rkey va len ce) :=
  h.inOrder (fun _ h₁ => .ite h₁.nak (.ite (.ite h₁.regionOk.readMem.nak h₁.regionOk.readMem.ackTo) h₁.regionOk.nak))

theorem Kept.sendRx {n psn data ce} : Kept s₀ (s.sendRx n psn data ce) :=
  h.inOrder (fun _ h₁ => .ite h₁.nak
    (.ite h₁.nak (.ite h₁.readMem.nak
    (.ite h₁.readMem.nak (.ite h₁.readMem.guardWrite.nak h₁.readMem.writeMem.writeMem.writeMem.setQp.ackTo)))))

theorem Kept.goBack {n} : Kept s₀ (s.goBack n) :=
  .ite h (.ite h.setQp.dropBells (h.setQp.foldl fun _ _ h₁ => h₁.count.hostOut))

theorem Kept.roceAck {n psn nak} : Kept s₀ (s.roceAck n psn nak) :=
  .ite h ((Kept.ite h.setQp h).thenIf fun h₁ => h₁.goBack)

theorem Kept.execRoceRetransmitTimeout {qp} : (execRoceRetransmitTimeout qp s).Keeps s₀ := h.whenMain (.ite h.goBack h)

theorem Kept.cnpRx {n} : Kept s₀ (s.cnpRx n) := h.count.elseIf fun h₁ => .ite h₁.setQp h₁.setQp

theorem Kept.execRoceRateRecover {qp} : (execRoceRateRecover qp s).Keeps s₀ := h.whenMain (.ite h.setQp h)

theorem Kept.neighborRx {t} : Kept s₀ (s.neighborRx t) := .ite h.hostOut h

theorem Kept.arpRx {t} : Kept s₀ (s.arpRx t) := .ite h.hostOut h

theorem Kept.lostEvent : Kept s₀ (s.lostEvent) := .ite h.upd.hostEvent h

theorem Kept.eventAck {n} : Kept s₀ (s.eventAck n) := h.upd.lostEvent

theorem Kept.execEventResend : (execEventResend s).Keeps s₀ := h.whenMain (.ite h (h.foldl fun _ _ h₁ => h₁.count.emit))

theorem Kept.alertWrite {v} : Kept s₀ (s.alertWrite v) := h.setFld.setFld

theorem Kept.execHostpAlertWrite {v} : (execHostpAlertWrite v s).Keeps s₀ := h.alive h.alertWrite

theorem Kept.dropSessions {k} : Kept s₀ (s.dropSessions k) := h.upd

theorem Kept.execKeyLoad {slot flags key} : (execKeyLoad slot flags key s).Keeps s₀ :=
  h.sideband (.ite h.sbReply h.upd.setBit.setBit.dropSessions.sbReply)

theorem Kept.execKeyClear {slot} : (execKeyClear slot s).Keeps s₀ :=
  h.sideband (.ite h.sbReply h.upd.setBit.setBit.dropSessions.sbReply)

theorem Kept.execGetInfo : (execGetInfo s).Keeps s₀ := h.sideband h.sbReply

theorem Kept.mctpReply {type cmd code b} : Kept s₀ (s.mctpReply type cmd code b) := h.emit

theorem Kept.execMctpControl {cmd data} : (execMctpControl cmd data s).Keeps s₀ :=
  h.alive (.ite (h.mctpReply.elseIf fun h₁ => .ite h₁ h.setFld.mctpReply)
    (.ite h.mctpReply (.ite h.mctpReply (.ite h.mctpReply h.mctpReply))))

theorem Kept.execPldmType0 {cmd data} : (execPldmType0 cmd data s).Keeps s₀ :=
  h.sideband (.ite (.ite h.mctpReply h.upd.mctpReply)
    (.ite h.mctpReply (.ite h.mctpReply
    (.ite h.mctpReply (.ite (.ite h.mctpReply (.ite h.mctpReply h.mctpReply)) h.mctpReply)))))

theorem Kept.execPldmType2 {cmd sensor} : (execPldmType2 cmd sensor s).Keeps s₀ :=
  h.sideband (.ite h.mctpReply (.ite h.mctpReply (.ite h.mctpReply (.ite h.mctpReply h.mctpReply))))

theorem Kept.execSensorRefresh {mv win wmod hub} : (execSensorRefresh mv win wmod hub s).Keeps s₀ := h.alive h.upd

/-! #### Perturbation -/

theorem Kept.execCeInterval : (execCeInterval s).Keeps s₀ := h.whenMain (.ite h h.upd)

theorem Kept.clearFatal : Kept s₀ (s.clearFatal) := h.setFld

theorem Kept.execClearFatal : (execClearFatal s).Keeps s₀ := h.whenMain h.clearFatal

theorem Kept.pertCtl {v} : Kept s₀ (s.pertCtl v) := .ite h h.upd.setFld

theorem Kept.execPertCtlWrite {v} : (execPertCtlWrite v s).Keeps s₀ := h.whenMain h.pertCtl

theorem Kept.eccAlter {u p} : Kept s₀ (s.eccAlter u p) := h.writeBackHeld.upd.count

theorem Kept.eccArm {v} : Kept s₀ (s.eccArm v) := by
  dsimp only [State.eccArm]
  refine .ite h (h.setFld.elseIf fun h₁ => ?_)
  split
  · exact h₁.count
  · exact .ite h₁.count (.ite h₁.eccAlter h₁)

theorem Kept.execPertEccArm {v} : (execPertEccArm v s).Keeps s₀ := h.whenMain h.eccArm

theorem Kept.sendCredit {p vc n} : Kept s₀ (s.sendCredit p vc n) := h.emit

theorem Kept.returnCredit {p vc n} : Kept s₀ (s.returnCredit p vc n) := .ite h.upd h.sendCredit

theorem Kept.execCreditHoldEnd : (execCreditHoldEnd s).Keeps s₀ := h.whenMain (h.upd.foldl fun _ _ h₁ => h₁.sendCredit)

/-! #### The ports -/

theorem Kept.sendVc0 {p type body} : Kept s₀ (s.sendVc0 p type body) := h.egress

theorem Kept.floodVc0 {but type body} : Kept s₀ (s.floodVc0 but type body) := h.foldl fun _ _ h₁ => .ite h₁.sendVc0 h₁

theorem Kept.electLearn {x} : Kept s₀ (s.electLearn x) := .ite h.upd.floodVc0 h

theorem Kept.electSelf : Kept s₀ (s.electSelf) := .ite h.electLearn h

theorem Kept.excludeModule {kept serial} : Kept s₀ (s.excludeModule kept serial) := .ite h h.upd.errRecord

theorem Kept.assign {serial straps shown} : Kept s₀ (s.assign serial straps shown) := by
  dsimp only [State.assign]
  refine .ite h (.ite h.upd ?_)
  split
  · split
    · exact h.upd
    · exact .ite h.excludeModule h.excludeModule.upd
  · split
    · exact h.upd
    · exact h.excludeModule

theorem Kept.takeAddress {a excluded} : Kept s₀ (s.takeAddress a excluded) := by
  dsimp only [State.takeAddress]
  split
  · exact h.setFld.setFld.setFld
  · exact .ite h.setFld.setFld.setFld h

theorem Kept.setMembers {ms epoch} : Kept s₀ (s.setMembers ms epoch) :=
  h.upd.setFld.setFld.elseIf fun h₁ => h₁.foldl fun _ _ h₂ => h₂.lockReexamine

theorem Kept.sendMember : Kept s₀ (s.sendMember) := h.floodVc0

theorem Kept.coordRoutes : Kept s₀ (s.coordRoutes) := by
  dsimp only [State.coordRoutes]
  refine (h.foldl fun _ _ h₁ => h₁.setReg).foldl fun _ _ h₁ => ?_
  split
  · exact h₁
  · exact h₁.sendVc0

theorem Kept.memberRefresh : Kept s₀ (s.memberRefresh) := by
  dsimp only [State.memberRefresh]
  refine .ite h (.ite (.setReg (.takeAddress (h.assign.foldl fun _ _ h₁ => ?_)))
      (.coordRoutes (.setMembers (.setReg (.takeAddress (h.assign.foldl fun _ _ h₁ => ?_))))))
  · split
    · exact h₁.assign
    · exact h₁
  · split
    · exact h₁.assign
    · exact h₁

theorem Kept.becomeCoord : Kept s₀ (s.becomeCoord) := h.setFld.setFld.setFld.setReg.upd.memberRefresh.sendMember

theorem Kept.execCoordSettle : (execCoordSettle s).Keeps s₀ := h.whenMain (.ite h.becomeCoord h)

theorem Kept.execMemberTimer : (execMemberTimer s).Keeps s₀ := h.whenMain (.ite h.sendMember h)

theorem Kept.execDeputyTakeover : (execDeputyTakeover s).Keeps s₀ := h.whenMain (.ite h.becomeCoord h)

theorem Kept.execElectRx {p serial} : (execElectRx p serial s).Keeps s₀ := h.whenMain (.ite h.electSelf.electLearn h)

theorem Kept.memberRx {p seq coord deputy epoch ms excl} : Kept s₀ (s.memberRx p seq coord deputy epoch ms excl) :=
  .ite h (h.setFld.setFld.setFld.setReg.setReg.upd.setMembers.takeAddress.thenIf fun h₁ => h₁.foldl fun _ _ h₂ => .ite
    h₂.egress h₂)

theorem Kept.execMemberRx {p seq coord deputy epoch ms excl} : (execMemberRx p seq coord deputy epoch ms excl s).Keeps
    s₀ :=
  h.whenMain (.ite h.memberRx h)

theorem Kept.reroute {p} : Kept s₀ (s.reroute p).1 := .foldl_fst h fun _ _ h₁ => h₁.setReg

theorem Kept.portDown {p} : Kept s₀ (s.portDown p) :=
  .ite (.ite h ((h.setReg.count.setLink.orphanSigns.reroute.count.errRecord.releaseWaiting.foldl fun _ _ h₁ =>
    h₁.sendRaw).elseIf fun h₁ => h₁.emit).memberRefresh) h.setBit.setLink

theorem Kept.execPortDown {p lostLock} : (execPortDown p lostLock s).Keeps s₀ := h.whenMain (.ite h.portDown h)

theorem Kept.applyTable {es} : Kept s₀ (s.applyTable es) := by
  dsimp only [State.applyTable]
  exact (((h.foldl fun _ _ h₁ => h₁.setReg).foldl fun _ _ h₁ => .ite h₁.setReg h₁).foldl
    fun _ _ h₁ => .ite h₁ h₁.reroute).releaseWaiting.memberRefresh

theorem Kept.routeRx {epoch i total first es} : Kept s₀ (s.routeRx epoch i total first es) :=
  .ite h (.ite h.upd.applyTable h.upd)

theorem Kept.execRouteRx {p epoch i total first es} : (execRouteRx p epoch i total first es s).Keeps s₀ :=
  h.whenMain (.ite h.routeRx h)

theorem Kept.execVc15Escape : (execVc15Escape s).Keeps s₀ := h.whenMain h.upd.releaseWaiting

theorem Kept.execPacketForward {h' type body} : (execPacketForward h' type body s).Keeps s₀ :=
  h.whenMain (.ite h.count (.ite h (.ite h.count h.sendRaw)))

theorem Kept.linkUp {p v3 credits} : Kept s₀ (s.linkUp p v3 credits) :=
  .ite (.ite h h.setReg.setLink.sendVc0.electSelf) (.ite h h.setBit.setLink)

theorem Kept.execLinkUp {p v3 credits} : (execLinkUp p v3 credits s).Keeps s₀ := h.whenMain h.linkUp

theorem Kept.execLaneFault {p good} : (execLaneFault p good s).Keeps s₀ :=
  h.whenMain (.ite (.ite h (.ite h.portDown (.ite h.setFld.errRecord h)))
    (.ite h (.ite h.portDown (.ite h.setLink.errRecord h))))

theorem Kept.execLinkFrameRx {p lseq lack cvc cn crcOk legal corrected uncorrected vc len} :
    (execLinkFrameRx p lseq lack cvc cn crcOk legal corrected uncorrected vc len s).Keeps s₀ :=
  h.whenMain (.ite h (((Kept.ite h.count h).thenIf fun h₁ => (Kept.ite h.count h).count).elseIf fun h₁ => .ite
    (.ite ((Kept.ite h.count h).thenIf fun h₂ => (Kept.ite h.count h).count).count
    ((Kept.ite h.count h).thenIf fun h₂ => (Kept.ite h.count h).count))
    (.ite (.ite ((Kept.ite h.count h).thenIf fun h₂ => (Kept.ite h.count h).count).count
    ((Kept.ite h.count h).thenIf fun h₂ => (Kept.ite h.count h).count))
    (((Kept.ite h.count h).thenIf fun h₂ => (Kept.ite h.count h).count).setLink.thenIf fun h₂ =>
    h₂.returnCredit).releaseWaiting)))

theorem Kept.execLinkRetry {p} : (execLinkRetry p s).Keeps s₀ := by
  dsimp only [Machine.execLinkRetry]
  refine h.whenMain ?_
  split
  · exact h
  · exact (Kept.ite h.count h).foldl fun _ _ h₁ => h₁.emit

theorem Kept.execHelloTimer : (execHelloTimer s).Keeps s₀ :=
  h.whenMain (h.electSelf.foldl fun _ _ h₁ => .ite h₁.sendVc0 h₁)

theorem Kept.portReady {p} : Kept s₀ (s.portReady p) :=
  (h.setFld.elseIf fun h₁ => h₁.sendVc0).memberRefresh.releaseWaiting

theorem Kept.drawNonce : Kept s₀ (s.drawNonce).2 := h.draw.draw.draw.draw

theorem Kept.helloPeer {p b} : Kept s₀ (s.helloPeer p b) := h.setReg.setReg.foldl fun _ _ h₁ => h₁.setReg

theorem Kept.helloRx {p b} : Kept s₀ (s.helloRx p b) :=
  .ite (.ite ((h.helloPeer.setLink.thenIf fun h₁ => h₁.electSelf.electLearn).setLink.foldl fun _ _ h₁ =>
    h₁.sendVc0).drawNonce.setFld.setLink.sendVc0
    ((h.helloPeer.setLink.thenIf fun h₁ => h₁.electSelf.electLearn).setLink.foldl fun _ _ h₁ => h₁.sendVc0).portReady)
    (h.helloPeer.setLink.thenIf fun h₁ => h₁.electSelf.electLearn).memberRefresh

theorem Kept.execHelloRx {p b} : (execHelloRx p b s).Keeps s₀ := h.whenMain (.ite (.ite h.helloRx h) (.ite h.setLink h))

theorem Kept.execEchoReq {p turn} : (execEchoReq p turn s).Keeps s₀ := h.whenMain (.ite h.sendVc0 h)

theorem Kept.execEchoResp {p rtt turn} : (execEchoResp p rtt turn s).Keeps s₀ :=
  h.whenMain (.ite h (h.setLink.thenIf fun h₁ => h₁.setFld))

theorem Kept.execAdmitChal {p nonce} : (execAdmitChal p nonce s).Keeps s₀ := h.whenMain (.ite h.askSign h)

theorem Kept.admitRefuse {p why} : Kept s₀ (s.admitRefuse p why) := h.setLink.setFld.errRecord

theorem Kept.execAdmitResp {p i b} : (execAdmitResp p i b s).Keeps s₀ :=
  h.whenMain (.ite h (.ite (.ite h.admitRefuse h.setLink.portReady) h.setLink))

theorem Kept.execAdmitTimeout {p} : (execAdmitTimeout p s).Keeps s₀ := h.whenMain (.ite h.admitRefuse h)

theorem Kept.mqWrite {v} : Kept s₀ (s.mqWrite v) := h.setFld.setReg.setReg.setReg

theorem Kept.execRyfMqAddrWrite {v} : (execRyfMqAddrWrite v s).Keeps s₀ := h.whenMain h.mqWrite

/-! #### The power domains -/

theorem Kept.startDomains : Kept s₀ (s.startDomains) := h.foldl fun _ _ h₁ => .ite h₁ h₁.updPower

theorem Kept.wantDomain {k} : Kept s₀ (s.wantDomain k) := .ite h h.updPower.startDomains

theorem Kept.domReqWrite {v} : Kept s₀ (s.domReqWrite v) :=
  h.foldl fun _ _ h₁ => .ite h₁ (.ite h₁.count
    (.ite (h₁.setBit.thenIf fun h₂ => h₂.wantDomain) h₁.setBit.updPower.closeDomains.startDomains))

theorem Kept.execPwrDomReqWrite {v} : (execPwrDomReqWrite v s).Keeps s₀ := h.alive h.domReqWrite

theorem Kept.loseQuad {d q} : Kept s₀ (s.loseQuad d q) := h.foldl fun _ _ h₁ => .ite h₁.clearCanvas.setFld.setFld h₁

theorem Kept.loseQuarter {d q} : Kept s₀ (s.loseQuarter d q) := by
  unfold State.loseQuarter
  refine .foldl ?_ fun _ _ h₁ => h₁.coldReg.coldReg.coldReg.coldReg.setBit
  exact ⟨h.mem.filter _, h.regs, h.staged, h.pending⟩

theorem Kept.loseControl {d} : Kept s₀ (s.loseControl d) :=
  (h.foldl fun _ _ h₁ => h₁.abandonWait.abandonReqs).clearDieCanvases.clearBrushes.upd.setPoint.loseBlocks.foldl fun _ _
    h₁ => h₁.setReg.bumpQueue

theorem Kept.loseDomain {k} : Kept s₀ (s.loseDomain k) := by
  dsimp only [State.loseDomain]
  refine .ite (.ite h.loseQuad (.ite h.loseQuarter h.loseControl)) (.ite (.coldBlocks ?_) (.ite h.upd.coldBlocks
    (.ite h.portDown.portDown (h.foldl fun _ _ h₁ => h₁.portDown))))
  exact ⟨h.mem.filter _, h.regs, h.staged, h.pending⟩

theorem Kept.execDomainOff {k} : (execDomainOff k s).Keeps s₀ :=
  h.alive (.ite (.ite h.loseDomain.setBit.setBit.setFld.detachStage
    (h.loseDomain.setBit.setBit.setFld.thenIf fun h₁ => h₁.wantDomain)) h)

theorem Kept.execDomainOnReady {k} : (execDomainOnReady k s).Keeps s₀ :=
  h.whenMain (.ite (Kept.ite h.updPower.setBit.setFld.setFld
    (h.updPower.setBit.thenIf fun h₁ => h₁.hostTrain)).startDomains h)

theorem Kept.thermalTrip {sub t} : Kept s₀ (s.thermalTrip sub t) := h.errRecord.setFld.mainLost.setFld

theorem Kept.execThermalSample {dies stks} : (execThermalSample dies stks s).Keeps s₀ := by
  dsimp only [Machine.execThermalSample]
  refine h.whenMain ?_
  split
  · exact ((h.foldl fun _ _ h₁ => h₁.thermalStack).foldl fun _ _ h₁ => h₁.thermalDie).thermalTrip
  · split
    · exact ((h.foldl fun _ _ h₁ => h₁.thermalStack).foldl fun _ _ h₁ => h₁.thermalDie).thermalTrip
    · exact (h.foldl fun _ _ h₁ => h₁.thermalStack).foldl fun _ _ h₁ => h₁.thermalDie

theorem Kept.execPseudoChannelFail {st pc} : (execPseudoChannelFail st pc s).Keeps s₀ :=
  h.whenMain (.ite h ((h.setBit.setFld.setBit.errRecord.foldl fun _ _ h₁ => h₁.updateFails).upd.thenIf fun h₁ =>
    h₁.enterMode).faultHandover)

/-! #### Register writes -/

theorem Kept.plainWrite {b off a v} : Kept s₀ (s.plainWrite b off a v) := by
  dsimp only [State.plainWrite]
  split
  · exact h
  · refine h.setReg.elseIf fun h₁ => ?_
    split
    · exact h₁.count
    · exact h₁.setStaged

theorem Kept.beatCtl {v} : Kept s₀ (s.beatCtl v) :=
  .ite h.applyRequest (.ite h.applyRequest (.ite h.resync (.ite h.releaseHeld h)))

theorem Kept.applyWrite {pl v} : Kept s₀ (s.applyWrite pl v) := by
  unfold State.applyWrite
  generalize (if pl = 0 then _ else _ : Nat × Nat × Nat) = request
  exact .ite h.applyRequest (.ite h.applyRequest (.ite h.applyCancel h))

theorem Kept.lockBlockWrite {b pl off a v} : Kept s₀ (s.lockBlockWrite b pl off a v) :=
  .ite h.arbCutClear (.ite h.applyWrite (.ite h.lockOwnWrite (.ite (.ite h.semWrite h) h.plainWrite)))

theorem Kept.cpWrite {b q0 off a v} : Kept s₀ (s.cpWrite b q0 off a v) :=
  .ite (.ite h.doorbell (.ite h.qctl (.ite h.cheadWrite (.ite (.ite h.plainWrite h) h)))) (.ite (.ite h.plainWrite h) h)

theorem Kept.canvWrite {b d off a v} : Kept s₀ (s.canvWrite b d off a v) :=
  .ite h.retireWrite (.ite h.gatePost (h.plainWrite.thenIf fun h₁ => h₁.foldl fun _ _ h₂ => .ite h₂.gateOwn h₂))

theorem Kept.randWrite {b d off a v} : Kept s₀ (s.randWrite b d off a v) :=
  .ite (.ite h.keyWrite (.ite h.keyWrite (.ite h.streamWrite h.bindWrite))) h.plainWrite

theorem Kept.ryfWrite {b page off a v} : Kept s₀ (s.ryfWrite b page off a v) :=
  .ite h.mqWrite (h.plainWrite.thenIf fun h₁ => .ite (.ite h₁.portDown h₁.setFld) (.ite h₁.setFld h₁))

theorem Kept.redWrite {b off a v} : Kept s₀ (s.redWrite b off a v) :=
  .ite (.ite h.plainWrite h) (.ite h.vetoSet (.ite (.ite h.register h.unregister) h.plainWrite))

theorem Kept.trnWrite {b off a v} : Kept s₀ (s.trnWrite b off a v) :=
  .ite h.settledWrite (.ite h.lossWrite
    (.ite h.lwStateWrite (.ite h.settleLocal (.ite ((Kept.ite h.snapStart h).thenIf fun h₁ => h₁.endSnap)
    (.ite h.ckptWrite h.plainWrite)))))

theorem Kept.pendWrite {b off a v} : Kept s₀ (s.pendWrite b off a v) :=
  .ite ((((Kept.ite h.joinWrite h).thenIf fun h₁ => h₁.detachWrite).thenIf fun h₁ => h₁.restoreWrite).thenIf fun h₁ =>
    h₁.forgetWrite) (h.plainWrite.thenIf fun h₁ => .ite h₁ h)

theorem Kept.pertWrite {b off a v} : Kept s₀ (s.pertWrite b off a v) :=
  .ite h (.ite h.pertCtl (.ite h.eccArm h.plainWrite))

theorem Kept.regStore {b off a v} : Kept s₀ (s.regStore b off a v) := by
  dsimp only [State.regStore]
  split
  · exact .ite h.rstWrite h.plainWrite
  · exact .ite h.secCtl h.plainWrite
  · exact .ite h.beatCtl h.plainWrite
  · exact .ite h.domReqWrite h.plainWrite
  · exact .ite h.qpctlWrite (.ite h.alertWrite h.plainWrite)
  · exact h.ryfWrite
  · exact h.pendWrite
  · exact h.redWrite
  · exact .ite (.ite h.plainWrite h) (.ite (.ite h.clearFatal h) h.plainWrite)
  · exact h.pertWrite
  · exact h.lockBlockWrite
  · exact h.cpWrite
  · exact h.trnWrite
  · exact h.canvWrite
  · exact h.plainWrite
  · exact h.plainWrite
  · exact h.plainWrite
  · exact h.cpWrite
  · exact h.plainWrite
  · exact h.lockBlockWrite
  · exact .ite h.plainWrite h
  · exact h.randWrite
  · exact .ite h.nmaCfgWrite h.plainWrite

theorem Kept.movStat {d} : Kept s₀ (s.movStat d).2 := .ite_snd h.draw h

theorem Kept.regLoad {b off a} : Kept s₀ (s.regLoad b off a).2 := by
  dsimp only [State.regLoad]
  split
  · refine .ite_snd h.readBeatPos (.ite_snd h ?_)
    split
    · exact h
    · exact .ite h h.setReg
  · refine .ite_snd h (.ite_snd h (.ite_snd (.ite_snd ?_ h) ?_))
    · split
      · exact h
      · exact .ite h h.setReg
    · split
      · exact h
      · exact .ite h h.setReg
  · refine .ite_snd h (.ite_snd h (.ite_snd (.ite_snd ?_ h) ?_))
    · split
      · exact h
      · exact .ite h h.setReg
    · split
      · exact h
      · exact .ite h h.setReg
  · refine .ite_snd h ?_
    split
    · exact h
    · exact .ite h h.setReg
  · refine .ite_snd h ?_
    split
    · exact h
    · exact .ite h h.setReg
  · refine .ite_snd h ?_
    split
    · exact h
    · exact .ite h h.setReg
  · refine .ite_snd h ?_
    split
    · exact h
    · exact .ite h h.setReg
  · refine .ite_snd h.movStat ?_
    split
    · exact h
    · exact .ite h h.setReg
  · refine .ite_snd h (.ite_snd h (.ite_snd h.ddbgRead (.ite_snd h.ddbgStn ?_)))
    split
    · exact h
    · exact .ite h h.setReg
  · refine .ite_snd h ?_
    split
    · exact h
    · exact .ite h h.setReg
  · refine .ite_snd h ?_
    split
    · exact h
    · exact .ite h h.setReg
  · refine .ite_snd ?_ h
    split
    · exact h
    · exact .ite h h.setReg
  · split
    · exact h
    · exact .ite h h.setReg
  · split
    · exact h
    · exact .ite h h.setReg
  · split
    · exact h
    · exact .ite h h.setReg
  · split
    · exact h
    · exact .ite h h.setReg
  · split
    · exact h
    · exact .ite h h.setReg
  · split
    · exact h
    · exact .ite h h.setReg
  · split
    · exact h
    · exact .ite h h.setReg
  · split
    · exact h
    · exact .ite h h.setReg
  · split
    · exact h
    · exact .ite h h.setReg
  · split
    · exact h
    · exact .ite h h.setReg
  · split
    · exact h
    · exact .ite h h.setReg

theorem Kept.regRead {a} : Kept s₀ (s.regRead a).2 := by
  dsimp only [State.regRead]
  refine .ite_snd h ?_
  split
  · exact h
  · exact .ite_snd h.regLoad h

theorem Kept.regWrite {p a v} : Kept s₀ (s.regWrite p a v).2 := by
  dsimp only [State.regWrite]
  refine .ite_snd h ?_
  split
  · exact h
  · exact .ite_snd h.regStore h

theorem Kept.accessRead {a} : Kept s₀ (s.accessRead a) := by
  dsimp only [State.accessRead]
  split
  next e =>
    exact (h.regRead.of_snd e).emit
  next e =>
    exact (h.regRead.of_snd e).emit

theorem Kept.accessWrite {p a v} : Kept s₀ (s.accessWrite p a v) := by
  dsimp only [State.accessWrite]
  split
  next e =>
    exact h.regWrite.of_snd e
  next e =>
    exact (h.regWrite.of_snd e).emit

theorem Kept.execRegisterWrite {p addr value} : (execRegisterWrite p addr value s).Keeps s₀ := h.alive h.accessWrite

theorem Kept.execBeatPosRead : (execBeatPosRead s).Keeps s₀ := h.alive h.accessRead

theorem Kept.execBeatApply : (execBeatApply s).Keeps s₀ := h.whenMain h.beatCtl

theorem Kept.execBeatApplyAtBeat : (execBeatApplyAtBeat s).Keeps s₀ := h.whenMain h.beatCtl

theorem Kept.execLockApplyNow {hub die} : (execLockApplyNow hub die s).Keeps s₀ := h.whenMain h.applyRequest

theorem Kept.execLockApplyAtBeat {hub die} : (execLockApplyAtBeat hub die s).Keeps s₀ := h.whenMain h.applyRequest

theorem Kept.execLockApplyCancel : (execLockApplyCancel s).Keeps s₀ := h.whenMain h.applyCancel

theorem Kept.execDlockApplyNow {d mask} : (execDlockApplyNow d mask s).Keeps s₀ := h.whenMain (.ite h.applyRequest h)

theorem Kept.execDlockApplyAtBeat {d mask} : (execDlockApplyAtBeat d mask s).Keeps s₀ :=
  h.whenMain (.ite h.applyRequest h)

theorem Kept.execDlockApplyCancel {d} : (execDlockApplyCancel d s).Keeps s₀ := h.whenMain (.ite h.applyCancel h)

theorem Kept.execArbCutWrite {pl v} : (execArbCutWrite pl v s).Keeps s₀ := h.whenMain (.ite h.arbCutClear h)

theorem Kept.execSemWrite {pl w v} : (execSemWrite pl w v s).Keeps s₀ := h.whenMain (.ite h.semWrite h)

theorem Kept.execLockOwnWrite {pl i v} : (execLockOwnWrite pl i v s).Keeps s₀ := h.whenMain (.ite h.lockOwnWrite h)

theorem Kept.execLockReexamine {store} : (execLockReexamine store s).Keeps s₀ := h.whenMain (.ite h.lockReexamine h)

/-! #### The easels -/

theorem Kept.issue {q op} {body : Nat → State → State} (hbody : ∀ a t, Kept s₀ t → Kept s₀ (body a t)) : Kept s₀
    (s.issue q op body) := by
  dsimp only [State.issue]
  refine .ite h (.ite h.reportSt ?_)
  split
  next e =>
    exact (h.fetch.of_snd e).queueFault
  next e =>
    exact .ite h ((h.fetch.of_snd e).queueFault.elseIf fun h₂ => .ite h₂
        (.ite (h.fetch.of_snd e).finishInstr (hbody _ _ (h.fetch.of_snd e))))

theorem Kept.next {q} : Kept s₀ (s.next q) := h.finishWait

theorem Kept.nextRd {q w v} : Kept s₀ (s.nextRd q w v) := h.setSreg.next

theorem Kept.alu {q op f} : (s.alu q op f).Keeps s₀ := .next (h.issue (fun _ _ h₁ => h₁.nextRd))

theorem Kept.execQNop {q} : (execQNop q s).Keeps s₀ := .next (h.issue (fun _ _ h₁ => h₁.next))

theorem Kept.execQEnd {q} : (execQEnd q s).Keeps s₀ := .next (h.issue (fun _ _ h₁ => h₁.updQ.endList))

theorem Kept.execQAdd {q} : (execQAdd q s).Keeps s₀ := h.alu

theorem Kept.execQSub {q} : (execQSub q s).Keeps s₀ := h.alu

theorem Kept.execQAnd {q} : (execQAnd q s).Keeps s₀ := h.alu

theorem Kept.execQOr {q} : (execQOr q s).Keeps s₀ := h.alu

theorem Kept.execQXor {q} : (execQXor q s).Keeps s₀ := h.alu

theorem Kept.execQShl {q} : (execQShl q s).Keeps s₀ := h.alu

theorem Kept.execQShr {q} : (execQShr q s).Keeps s₀ := h.alu

theorem Kept.execQSar {q} : (execQSar q s).Keeps s₀ := h.alu

theorem Kept.execQMul {q} : (execQMul q s).Keeps s₀ := h.alu

theorem Kept.execQMovi {q} : (execQMovi q s).Keeps s₀ := .next (h.issue (fun _ _ h₁ => h₁.nextRd))

theorem Kept.execQMovhi {q} : (execQMovhi q s).Keeps s₀ := .next (h.issue (fun _ _ h₁ => h₁.nextRd))

theorem Kept.execQSetp {q} : (execQSetp q s).Keeps s₀ := .next (h.issue (fun _ _ h₁ => h₁.setPred.next))

theorem Kept.execQPlog {q} : (execQPlog q s).Keeps s₀ := .next (h.issue (fun _ _ h₁ => h₁.setPred.next))

theorem Kept.execQBr {q} : (execQBr q s).Keeps s₀ := .next (h.issue (fun _ _ h₁ => h₁.finishInstr))

theorem Kept.execQJr {q} : (execQJr q s).Keeps s₀ := .next (h.issue (fun _ _ h₁ => h₁.finishInstr))

theorem Kept.unlessAhead {q inside} {f : State → State} (hf : ∀ t, Kept s₀ t → Kept s₀ (f t)) : Kept s₀
    (s.unlessAhead q inside f) :=
  .ite h.waitOn (hf _ h)

theorem Kept.loadFault {q st w} : Kept s₀ (s.loadFault q st w) := (Kept.ite h.vetoEvent h).queueFault

theorem Kept.ld {q w} : Kept s₀ (s.ld q w) := by
  dsimp only [State.ld]
  refine h.queueFault.elseIf fun h₁ => .ite (.ite (.ite h₁ ?_) (.ite (.ite h.readMem.loadFault h.readMem.nextRd) h₁))
      (.ite (.ite h₁ (Kept.ite_snd h.sendReq h.sendReq).waitOn) h₁)
  split
  next e₁ =>
    exact (h.regRead.of_snd e₁).nextRd
  next e₁ =>
    exact (h.regRead.of_snd e₁).queueFault

theorem Kept.execQLd {q} : (execQLd q s).Keeps s₀ := .next (h.issue (fun _ _ h₁ => h₁.ld))

theorem Kept.stSent {q k} : Kept s₀ (s.stSent q k) := h.updQ

theorem Kept.bcastOut {r but} : Kept s₀ (s.bcastOut r but) := h.foldl fun _ _ h₁ => .ite h₁.egress h₁

theorem Kept.bcastSt {q a v} : Kept s₀ (s.bcastSt q a v) :=
  (h.takeSeq.regWrite.upd.elseIf fun h₁ => h₁.bcastOut).upd.elseIf fun h₁ => h₁.stSent

theorem Kept.storeMem {q w a n v} : Kept s₀ (s.storeMem q w a n v) := by
  dsimp only [State.storeMem]
  refine .ite h.countRefused.queueFault (.ite h.queueFault ?_)
  split
  next e =>
    exact (h.writeMem.of_fst e).queueFault
  next e =>
    exact (h.writeMem.of_fst e).next

theorem Kept.st {q w} : Kept s₀ (s.st q w) := by
  dsimp only [State.st]
  refine h.queueFault.elseIf fun h₁ => .ite (.ite ?_ (.ite (h.unlessAhead (fun _ h₂ => h₂.storeMem)) h₁))
      (.ite (.ite h₁ (h.unlessAhead (fun _ h₂ => h₂.sendReq.stSent.next)))
      (.ite (h.unlessAhead (fun _ h₂ => h₂.bcastSt.next)) h₁))
  split
  · exact .ite h₁ (h.unlessAhead (fun _ h₂ => h₂.regWrite.next))
  · exact h₁

theorem Kept.execQSt {q} : (execQSt q s).Keeps s₀ := .next (h.issue (fun _ _ h₁ => h₁.st))

theorem Kept.loadDone {q err body} : Kept s₀ (s.loadDone q err body) := by
  dsimp only [State.loadDone]
  split
  · split
    · exact h.finishWaitRd
    · exact h.loadFault
  · exact h

theorem Kept.stOutcome {q k pc bad} : Kept s₀ (s.stOutcome q k pc bad) := h.updQ

theorem Kept.onSemaphore {q w} {f : Nat → Nat → State → State} (hf : ∀ a b t, Kept s₀ t → Kept s₀ (f a b t)) : Kept s₀
    (s.onSemaphore q w f) :=
  .ite h.queueFault (.ite h.queueFault (h.unlessAhead (fun _ h₁ => .ite h₁.waitOn (hf _ _ _ h₁))))

theorem Kept.semWait {q w} : Kept s₀ (s.semWait q w) :=
  .ite h.queueFault (.ite (h.unlessAhead (fun _ h₁ => h₁.next))
    (h.onSemaphore (fun _ _ _ h₁ => h₁.waitOn.upd.semGrant)))

theorem Kept.execQSemwait {q} : (execQSemwait q s).Keeps s₀ := .next (h.issue (fun _ _ h₁ => h₁.semWait))

theorem Kept.execSemwaitGrant {store ix} : (execSemwaitGrant store ix s).Keeps s₀ := h.whenMain (.ite h.semGrant h)

theorem Kept.afterStores {q} {f : State → State} (hf : ∀ t, Kept s₀ t → Kept s₀ (f t)) : Kept s₀ (s.afterStores q f) :=
  .ite (hf _ h) h.waitOn

theorem Kept.semPost {q w n} : Kept s₀ (s.semPost q w n) :=
  h.onSemaphore (fun _ _ _ h₁ => h₁.afterStores (fun _ h₂ => h₂.semAdd.next))

theorem Kept.execQSemsig {q} : (execQSemsig q s).Keeps s₀ := .next (h.issue (fun _ _ h₁ => h₁.semPost))

theorem Kept.execQSemadd {q} : (execQSemadd q s).Keeps s₀ := .next (h.issue (fun _ _ h₁ => h₁.semPost))

theorem Kept.waitb {q w} : Kept s₀ (s.waitb q w) := .ite h.nextRd (.ite h.countLate.nextRd h.waitOn)

theorem Kept.execQWaitb {q} : (execQWaitb q s).Keeps s₀ := .next (h.issue (fun _ _ h₁ => h₁.waitb))

theorem Kept.waite {q w} : Kept s₀ (s.waite q w) := .ite h.nextRd (.ite h.nextRd h.waitOn)

theorem Kept.execQWaite {q} : (execQWaite q s).Keeps s₀ := .next (h.issue (fun _ _ h₁ => h₁.waite))

theorem Kept.onLockHandle {q w} {here : Nat → Nat → State → State} {there : Nat → Nat → Nat → State → State}
    (hhere : ∀ a b t, Kept s₀ t → Kept s₀ (here a b t)) (hthere : ∀ a b c t, Kept s₀ t → Kept s₀ (there a b c t)) : Kept
    s₀ (s.onLockHandle q w here there) :=
  .ite h.queueFault (.ite (.ite h.queueFault (h.unlessAhead (fun _ h₁ => .ite h₁.waitOn (hhere _ _ _ h₁))))
    (h.unlessAhead (fun _ h₁ => hthere _ _ _ _ h₁)))

theorem Kept.lock {q w} : Kept s₀ (s.lock q w) := by
  dsimp only [State.lock]
  refine h.onLockHandle (fun _ _ _ h₁ => ?_) (fun _ _ _ _ h₁ => h₁.sendLock.waitOn)
  split
  · exact h₁.queueFault
  · exact h₁.lockApply.nextRd
  · exact h₁.lockApply.nextRd
  · exact h₁.lockApply.waitOn

theorem Kept.execQLock {q} : (execQLock q s).Keeps s₀ := .next (h.issue (fun _ _ h₁ => h₁.lock))

theorem Kept.unlock {q w} : Kept s₀ (s.unlock q w) := by
  dsimp only [State.unlock]
  refine h.onLockHandle (fun _ _ _ h₁ => h₁.afterStores (fun _ h₂ => ?_))
      (fun _ _ _ _ h₁ => h₁.afterStores (fun _ h₂ => h₂.sendLock.waitOn))
  split
  next e₂ =>
    exact (h₂.lockRelease.of_snd e₂).next
  next e₂ =>
    exact (h₂.lockRelease.of_snd e₂).queueFault

theorem Kept.execQUnlock {q} : (execQUnlock q s).Keeps s₀ := .next (h.issue (fun _ _ h₁ => h₁.unlock))

theorem Kept.execQFence {q} : (execQFence q s).Keeps s₀ := .next (h.issue (fun _ _ h₁ => .ite h₁.next h₁.waitOn))

theorem Kept.execFenceComplete {q} : (execFenceComplete q s).Keeps s₀ := by
  dsimp only [Machine.execFenceComplete]
  refine .next (.ite ?_ h)
  split
  · exact .ite (.ite h.reportSt h.next) h
  · exact .ite h.reissue h
  · exact h

theorem Kept.execQRdtime {q} : (execQRdtime q s).Keeps s₀ := .next (h.issue (fun _ _ h₁ => h₁.nextRd))

theorem Kept.execQEpoch {q} : (execQEpoch q s).Keeps s₀ :=
  .next (h.issue (fun _ _ h₁ => .ite h₁.queueFault (.ite h₁.waitOn h₁.setFld.next)))

theorem Kept.rbind {q w} : Kept s₀ (s.rbind q w) := by
  unfold State.rbind
  extract_lets g d
  refine .ite h.queueFault (h.unlessAhead fun t h₁ => ?_)
  split
  next bytes u bad e =>
    have hu : Kept s₀ u := h₁.readMem.of_mid e
    refine .ite hu.queueFault (.ite hu.queueFault ?_)
    extract_lets c
    split
    next e => exact (hu.bindEntry.of_fst e).nextRd

theorem Kept.execQRbind {q} : (execQRbind q s).Keeps s₀ := .next (h.issue (fun _ _ h₁ => h₁.rbind))

/-! #### Commands and their completion -/

theorem Kept.aheadDst {c e t} (ha : s.aheadDst c = some (e, t)) : Kept s₀ t := by
  dsimp only [State.aheadDst] at ha
  repeat' split at ha
  all_goals cases ha
  · exact h
  · exact h
  next e => exact h.readDesc.of_snd e
  next e => exact h.readDesc.of_snd e

theorem Kept.mayRunAhead {c} : Kept s₀ (s.mayRunAhead c).2 := by
  unfold State.mayRunAhead
  refine .ite_snd h (.ite_snd h ?_)
  split
  · exact h
  next e => exact h.aheadDst e
  next e =>
    have hs := h.aheadDst e
    split
    next e => exact hs.readTd.of_snd e
    next e => exact hs.readTd.of_snd e

theorem Kept.complete {c} : Kept s₀ (s.complete c) :=
  (((((h.writeBackCmd.markStale.elseIf fun h₁ => h₁.writeRec).upd.thenIf fun h₁ => h₁.semSignal).elseIf fun h₁ => .ite
    h₁.count (.ite h₁.count h₁)).thenIf fun h₁ =>
    (((h.writeBackCmd.markStale.elseIf fun h₂ => h₂.writeRec).upd.thenIf fun h₂ => h₂.semSignal).elseIf fun h₂ => .ite
    h₂.count (.ite h₂.count h₂)).vetoEvent.faultHandover).holdClose.thenIf fun h₁ => .ite
    h₁.abandonWait.setQState.setFld (.ite h₁.setFld h₁)).settleQueue.releaseHolds.detachStep

theorem Kept.execCommandCompletion {q n} : (execCommandCompletion q n s).Keeps s₀ := by
  dsimp only [Machine.execCommandCompletion]
  refine h.whenServing ?_
  split
  · exact .ite h.complete h
  · exact h

theorem Kept.accept {q w c ends} : Kept s₀ (s.accept q w c ends) := by
  dsimp only [State.accept]
  refine .ite h.waitOn (.ite h.queueFault ?_)
  split
  · exact (Kept.ite_snd h.reserveSlot h).setReg.finishInstr.complete
  · exact (Kept.ite_snd h.reserveSlot h).setReg.finishInstr.upd

theorem Kept.dispatch {q w} : Kept s₀ (s.dispatch q w) := by
  dsimp only [State.dispatch]
  split
  next e =>
    exact (h.fetch.of_snd e).queueFault
  next e =>
    refine .ite (h.fetch.of_snd e).queueFault ?_
    split
    · exact (h.fetch.of_snd e).accept
    · exact .ite (Kept.ite_snd (h.fetch.of_snd e).upd.mayRunAhead (h.fetch.of_snd e).upd).upd.waitOn
        (.ite (Kept.ite_snd (h.fetch.of_snd e).upd.mayRunAhead (h.fetch.of_snd e).upd).upd.waitOn
        (Kept.ite_snd (h.fetch.of_snd e).upd.mayRunAhead (h.fetch.of_snd e).upd).upd.accept)

theorem Kept.execQDispatch {q} : (execQDispatch q s).Keeps s₀ := .next (h.issue (fun _ _ h₁ => h₁.dispatch))

theorem Kept.execEngineBufferFree {q} : (execEngineBufferFree q s).Keeps s₀ :=
  .next (.ite (h.reissue.issue (fun _ _ h₁ => h₁.dispatch)) h)

/-! #### Counter reads -/

theorem Kept.execBeatEvcntRead : (execBeatEvcntRead s).Keeps s₀ := h.alive h.accessRead

theorem Kept.execPalSkcntRead {d} : (execPalSkcntRead d s).Keeps s₀ := h.alive h.accessRead

theorem Kept.execPalCntRead {d p w} : (execPalCntRead d p w s).Keeps s₀ := h.alive h.accessRead

theorem Kept.execCanvGateDupRead {d} : (execCanvGateDupRead d s).Keeps s₀ := h.alive h.accessRead

theorem Kept.execCanvHealthRead {d} : (execCanvHealthRead d s).Keeps s₀ := h.alive h.accessRead

theorem Kept.execCanvFrzRead {d c} : (execCanvFrzRead d c s).Keeps s₀ := h.alive h.accessRead

theorem Kept.execCanvDrcntRead {d c} : (execCanvDrcntRead d c s).Keeps s₀ := h.alive h.accessRead

theorem Kept.execSlvBevRead {d b} : (execSlvBevRead d b s).Keeps s₀ := h.alive h.accessRead

theorem Kept.execSlvBstallRead {d b} : (execSlvBstallRead d b s).Keeps s₀ := h.alive h.accessRead

theorem Kept.execQerrRead {q} : (execQerrRead q s).Keeps s₀ := h.alive h.accessRead

theorem Kept.execArbStatRead {pl} : (execArbStatRead pl s).Keeps s₀ := h.alive h.accessRead

theorem Kept.execApplyCntRead {pl} : (execApplyCntRead pl s).Keeps s₀ := h.alive h.accessRead

theorem Kept.execSemCntRead {pl} : (execSemCntRead pl s).Keeps s₀ := h.alive h.accessRead

theorem Kept.execLockCntRead {pl} : (execLockCntRead pl s).Keeps s₀ := h.alive h.accessRead

theorem Kept.execNmaCeCntRead {st} : (execNmaCeCntRead st s).Keeps s₀ := h.alive h.accessRead

theorem Kept.execNmaUeCntRead {st} : (execNmaUeCntRead st s).Keeps s₀ := h.alive h.accessRead

theorem Kept.execNmaEvRead {st} : (execNmaEvRead st s).Keeps s₀ := h.alive h.accessRead

theorem Kept.execMovOobRead {d} : (execMovOobRead d s).Keeps s₀ := h.alive h.accessRead

theorem Kept.execMovEvRead {d} : (execMovEvRead d s).Keeps s₀ := h.alive h.accessRead

theorem Kept.execRyfCntRead : (execRyfCntRead s).Keeps s₀ := h.alive h.accessRead

theorem Kept.execRyfPortFecRead {p} : (execRyfPortFecRead p s).Keeps s₀ := h.alive h.accessRead

theorem Kept.execRyfPortLinkcntRead {p} : (execRyfPortLinkcntRead p s).Keeps s₀ := h.alive h.accessRead

theorem Kept.execRedCntRead : (execRedCntRead s).Keeps s₀ := h.alive h.accessRead

theorem Kept.execRedNfRead : (execRedNfRead s).Keeps s₀ := h.alive h.accessRead

theorem Kept.execRedChkRead : (execRedChkRead s).Keeps s₀ := h.alive h.accessRead

theorem Kept.execTrnNfRead : (execTrnNfRead s).Keeps s₀ := h.alive h.accessRead

theorem Kept.execTrnCntRead : (execTrnCntRead s).Keeps s₀ := h.alive h.accessRead

theorem Kept.execPendCmpRead : (execPendCmpRead s).Keeps s₀ := h.alive h.accessRead

theorem Kept.execPendCntRead : (execPendCntRead s).Keeps s₀ := h.alive h.accessRead

theorem Kept.execHostpTctCntRead : (execHostpTctCntRead s).Keeps s₀ := h.alive h.accessRead

theorem Kept.execHostpRoceCntRead : (execHostpRoceCntRead s).Keeps s₀ := h.alive h.accessRead

theorem Kept.execHostpEvtCntRead : (execHostpEvtCntRead s).Keeps s₀ := h.alive h.accessRead

theorem Kept.execHostpRxdropRead : (execHostpRxdropRead s).Keeps s₀ := h.alive h.accessRead

theorem Kept.execSecSigcntRead : (execSecSigcntRead s).Keeps s₀ := h.alive h.accessRead

theorem Kept.execRstCntRead : (execRstCntRead s).Keeps s₀ := h.alive h.accessRead

theorem Kept.execPwrCntRead : (execPwrCntRead s).Keeps s₀ := h.alive h.accessRead

theorem Kept.execErrCntRead : (execErrCntRead s).Keeps s₀ := h.alive h.accessRead

theorem Kept.execErrSramRead : (execErrSramRead s).Keeps s₀ := h.alive h.accessRead

theorem Kept.execPertCntRead : (execPertCntRead s).Keeps s₀ := h.alive h.accessRead

/-! #### What the host sends -/

theorem Kept.tctAct {m} : Kept s₀ (s.tctAct m) := by
  dsimp only [State.tctAct]
  refine .ite h.count.tctRespond (.ite ?_
      (.ite ?_ (.ite (.ite h.tctRespond (.ite h.tctRespond (.ite h.readMem.tctRespond h.readMem.tctRespond)))
      (.ite (.ite h.tctRespond ?_) (.ite h.bellRx (.ite h.setSession.eventAck h))))))
  · split
    next e =>
      exact (h.regRead.of_snd e).tctRespond
    next e =>
      exact (h.regRead.of_snd e).tctRespond
  · split
    next e =>
      exact (h.regWrite.of_snd e).tctRespond
    next e =>
      exact (h.regWrite.of_snd e).tctRespond
  · split
    next e =>
      exact (h.guardWrite.of_snd e).tctRespond
    next e =>
      split
      next e₁ =>
        exact ((h.guardWrite.of_snd e).writeMem.of_fst e₁).tctRespond
      next e₁ =>
        exact ((h.guardWrite.of_snd e).writeMem.of_fst e₁).tctRespond

theorem Kept.tctExec {m} : Kept s₀ (s.tctExec m) := by
  dsimp only [State.tctExec]
  refine .ite h.setSession.tctAct ?_
  split
  · exact h
  · exact h.tctSend
  · exact h
  · exact h.count

theorem Kept.tctCheck {src d} : Kept s₀ (s.tctCheck src d).2 :=
  .ite_snd h.count (.ite_snd h.count (.ite_snd h.count.emit h))

theorem Kept.frameAct {l} : Kept s₀ (s.frameAct l) := by
  dsimp only [State.frameAct]
  split
  · exact h.rdmaWriteRx
  · exact h.rdmaReadRx
  · exact h.sendRx
  · exact h.roceAck
  · exact h.cnpRx
  · exact h.neighborRx
  · exact h.arpRx
  · exact h.hostOut
  · exact h
  · exact h
  · exact h

theorem Kept.recoveryRx {src b} : Kept s₀ (s.recoveryRx src b) :=
  .ite h.recovQuery (.ite h.recovData (.ite h.recovCommit h))

/-! #### The moves -/

theorem Kept.moveFault {c status which} : Kept s₀ (s.moveFault c status which) := h.setReg

theorem Kept.moveFail {c status which} : Kept s₀ (s.moveFail c status which) := h.moveFault.fail

theorem Kept.moveTds {c} : Kept s₀ (s.moveTds c).2 := by
  unfold State.moveTds
  extract_lets none_ rd
  have read {use lo w} {t : State} (ht : Kept s₀ t) : Kept s₀ (rd use lo w t).2 := by
    dsimp only [rd]
    split
    · split
      next e => exact ht.readTd.of_snd e
      next e => exact ht.readTd.of_snd e
    · exact ht
  clear_value rd
  dsimp only
  split
  · exact read h
  split
  · exact read (read h)
  split
  · exact read (read (read h))
  · exact read (read (read h))

theorem Kept.moveBytes {c rd wr} : Kept s₀ (s.moveBytes c rd wr) := h.countWrap.countWrap

theorem Kept.stopPoint {n} : Kept s₀ (s.stopPoint n).2 := h.draw

theorem Kept.moveRead {c els} : Kept s₀ (s.moveRead c els).1 := by
  dsimp only [State.moveRead]
  have read {w l} : Kept s₀ (if s.altered = [] ∧ s.held = [] then (s, false) else s.readKeys w l).1 := .ite_fst h
      h.readKeys
  exact .ite_fst (read.stopPoint (n := els.length)) (.mk_fst read)

theorem Kept.moveEnd {c m els stop counted res1 rdBytes wh} : Kept s₀
    (s.moveEnd c m els stop counted res1 rdBytes wh) := by
  dsimp only [State.moveEnd]
  split
  · split
    · exact .ite h.moveBytes.finishWrites.moveFault h.moveBytes.finishWrites
    · exact h.moveBytes.finishWrites
  · exact h.moveBytes.moveFault.finishWrites

theorem Kept.moveCopyWork {c m f} : Kept s₀ (s.moveCopyWork c m f) := by
  dsimp only [State.moveCopyWork]
  exact .ite h.gather (.ite h.gather.moveRead.moveFail h.gather.moveRead.moveEnd)

theorem Kept.moveFillWork {c m} : Kept s₀ (s.moveFillWork c m) := .ite h.gather h.gather.moveEnd

theorem Kept.convertOne {c m a i code r} : Kept s₀ (s.convertOne c m a i code r).1 := h.countInto

theorem Kept.convertSketch {c m codes} : Kept s₀ (s.convertSketch c m codes) := h.sketch

theorem Kept.moveConvertWork {c m} : Kept s₀ (s.moveConvertWork c m) := by
  dsimp only [State.moveConvertWork]
  have read {els} : Kept s₀ ((s.gather c (coalesce (dedupNat (m.dst.all.flatMap m.src.bytesOf)) ++ s.sharedBytes
      m.dst)).1.moveRead c els).1 := h.gather.moveRead
  refine .ite h.gather (.ite read.moveFail
      (.moveEnd (.updCmd (.count (.count
      (.count (.foldl_fst (.mk_fst (.ite read.convertSketch read)) fun _ _ h₁ => h₁.convertOne)))))))

theorem Kept.sendUpdates {c m els stop oob wh} : Kept s₀ (s.sendUpdates c m els stop oob wh) :=
  .ite (Kept.ite h.moveFault h).finish (Kept.ite h.moveFault h).upd.updCmd

theorem Kept.moveIndexed {c m} : Kept s₀ (s.moveIndexed c m) := by
  have stopped {b : Bool} {n : Nat} {o} {t : State} (ht : Kept s₀ t) :
      Kept s₀ (if b then ((some (t.stopPoint n).1, (t.stopPoint n).2) : Option Nat × State) else (o, t)).2 := by
    split
    · exact ht.stopPoint (n := n)
    · exact ht
  unfold State.moveIndexed
  split
  next t _ e =>
  have ht := h.gather.of_fst e
  refine .ite ht ?_
  extract_lets
  split
  next u _ e =>
  have hu : Kept s₀ u := .of_fst (.ite_fst ht ht.readKeys) e
  extract_lets
  split
  next v _ e =>
  have hv := hu.moveRead.of_fst e
  split
  next w e =>
  have hw : Kept s₀ w := .of_snd (stopped hv) e
  extract_lets
  split
  extract_lets y
  have hy : Kept s₀ y := hw.count.countWrap.countWrap
  exact .ite hy.moveBytes.sendUpdates hy.moveEnd.updCmd

theorem Kept.moveBody {c} : Kept s₀ (s.moveBody c) := by
  dsimp only [State.moveBody]
  split
  next e =>
    exact (h.moveTds.of_snd e).moveFail
  next e =>
    split
    · exact .ite (h.moveTds.of_snd e).finish (h.moveTds.of_snd e).moveFail
    · split
      · exact (h.moveTds.of_snd e).moveCopyWork
      · exact (h.moveTds.of_snd e).moveCopyWork
      · exact (h.moveTds.of_snd e).moveConvertWork
      · exact (h.moveTds.of_snd e).moveCopyWork
      · exact (h.moveTds.of_snd e).moveFillWork
      · exact (h.moveTds.of_snd e).moveIndexed

theorem Kept.execMoveCopy {q n} : (execMoveCopy q n s).Keeps s₀ :=
  h.whenServing (h.starting (fun _ _ h₁ => h₁.moveBody))

theorem Kept.execMoveTranspose {q n} : (execMoveTranspose q n s).Keeps s₀ :=
  h.whenServing (h.starting (fun _ _ h₁ => h₁.moveBody))

theorem Kept.execMoveConvert {q n} : (execMoveConvert q n s).Keeps s₀ :=
  h.whenServing (h.starting (fun _ _ h₁ => h₁.moveBody))

theorem Kept.execCornerTurn {q n} : (execCornerTurn q n s).Keeps s₀ :=
  h.whenServing (h.starting (fun _ _ h₁ => h₁.moveBody))

theorem Kept.execMoveFill {q n} : (execMoveFill q n s).Keeps s₀ :=
  h.whenServing (h.starting (fun _ _ h₁ => h₁.moveBody))

theorem Kept.execMoveGather {q n} : (execMoveGather q n s).Keeps s₀ :=
  h.whenServing (h.starting (fun _ _ h₁ => h₁.moveBody))

theorem Kept.execMoveScatter {q n} : (execMoveScatter q n s).Keeps s₀ :=
  h.whenServing (h.starting (fun _ _ h₁ => h₁.moveBody))

theorem Kept.execScatterAcc {q n} : (execScatterAcc q n s).Keeps s₀ :=
  h.whenServing (h.starting (fun _ _ h₁ => h₁.moveBody))

/-! #### Requests of other modules -/

theorem Kept.resumeCmd {q n} : Kept s₀ (s.resumeCmd q n) := by
  dsimp only [State.resumeCmd]
  split
  · exact h
  · exact .ite h.pump (.ite h (.ite h.fail (.ite h.primeBody (.ite h.streamBody (.ite h.drainBody h.moveBody)))))

theorem Kept.cmdAnswer {r q n bad body} : Kept s₀ (s.cmdAnswer r q n bad body) := by
  dsimp only [State.cmdAnswer]
  split
  · exact h
  · refine .ite (.resumeCmd (.updCmd ?_)) (.updCmd ?_)
    · split
      · exact h
      · exact (Kept.ite h.moveFault h).updCmd
    · split
      · exact h
      · exact (Kept.ite h.moveFault h).updCmd

theorem Kept.unlockDone {q st} : Kept s₀ (s.unlockDone q st) := by
  dsimp only [State.unlockDone]
  split
  · exact .ite (h.finishWait.thenIf fun h₁ => h₁.setQState) h.queueFault
  · exact h

theorem Kept.lockDone {q refused st} : Kept s₀ (s.lockDone q refused st) := by
  dsimp only [State.lockDone]
  split
  · exact .ite h.queueFault h.finishWaitRd
  · exact h

theorem Kept.lockLink {bad} : Kept s₀ (s.lockLink bad) := .ite h.count h

theorem Kept.answered {r bad body} : Kept s₀ (s.answered r bad body) := by
  dsimp only [State.answered]
  split
  · exact h.dropReq.loadDone
  · exact h.dropReq.stOutcome
  · exact h.dropReq.upd.stOutcome
  · exact h.dropReq.lockLink.lockDone
  · exact h.dropReq.lockLink.unlockDone
  · exact h.dropReq
  · exact h.dropReq.cmdAnswer
  · exact h.dropReq.elseIf fun h₁ => h₁.updPend

theorem Kept.readReqRx {h' body} : Kept s₀ (s.readReqRx h' body) :=
  h.respond.elseIf fun h₁ => .ite h.respond (.ite h.respond (.ite h.respond (.ite h.readMem.respond h.readMem.respond)))

theorem Kept.writeRx {mute h' body} : Kept s₀ (s.writeRx mute h' body) := by
  dsimp only [State.writeRx]
  refine (Kept.ite h (.ite h.respond h.respond)).elseIf fun h₁ => .ite (.ite h (.ite h.respond h.respond))
      (.ite (.ite h (.ite h.respond h.respond)) ?_)
  split
  next e₁ =>
    exact .ite (h.guardWrite.of_snd e₁) (.ite (h.guardWrite.of_snd e₁).respond (h.guardWrite.of_snd e₁).respond)
  next e₁ =>
    split
    next e₂ =>
      exact .ite ((h.guardWrite.of_snd e₁).writeMem.of_fst e₂)
          (.ite ((h.guardWrite.of_snd e₁).writeMem.of_fst e₂).respond
          ((h.guardWrite.of_snd e₁).writeMem.of_fst e₂).respond)
    next e₂ =>
      exact .ite ((h.guardWrite.of_snd e₁).writeMem.of_fst e₂)
          (.ite ((h.guardWrite.of_snd e₁).writeMem.of_fst e₂).respond
          ((h.guardWrite.of_snd e₁).writeMem.of_fst e₂).respond)

theorem Kept.regRdRx {h'} : Kept s₀ (s.regRdRx h') := by
  dsimp only [State.regRdRx]
  refine .ite h.respond ?_
  split
  next e =>
    exact (h.regRead.of_snd e).respond
  next e =>
    exact (h.regRead.of_snd e).respond

theorem Kept.regWrRx {mute h' body} : Kept s₀ (s.regWrRx mute h' body) :=
  .ite (.ite h (.ite h.respond h.respond)) (.ite h.regWrite (.ite h.regWrite.respond h.regWrite.respond))

theorem Kept.bcastAct {h' body} : Kept s₀ (s.bcastAct h' body) := by
  dsimp only [State.bcastAct]
  refine .ite h.respond ?_
  split
  next e =>
    exact (h.regWrite.of_snd e).respond
  next e =>
    exact (h.regWrite.of_snd e).respond

theorem Kept.requestAct {mute h' type body} : Kept s₀ (s.requestAct mute h' type body) :=
  .ite h.writeRx (.ite h.regWrRx (.ite h.lockOpRx (.ite h (.ite h.readReqRx (.ite h.regRdRx h)))))

/-! #### Ingress of the pair -/

theorem Kept.sbWriteAct {mute a v} : Kept s₀ (s.sbWriteAct mute a v) := .ite h.regWrite h.regWrite.sbReply

theorem Kept.actItem {mute l} : Kept s₀ (s.actItem mute l) := by
  dsimp only [State.actItem]
  split
  · exact h.frameAct
  · exact h.tctExec
  · exact h.sbWriteAct
  · exact h.requestAct
  · split
    · exact h.answered
    · exact h

theorem Kept.sendIngress {x} : Kept s₀ (s.sendIngress x) := by
  dsimp only [State.sendIngress]
  exact h.sendPend.setFld.updPend

theorem Kept.ingress {x} : Kept s₀ (s.ingress x) := .ite h.sendIngress (.ite h.updPend h.actItem)

theorem Kept.actHeld {mute upTo} : Kept s₀ (s.actHeld mute upTo) := h.updPend.foldl fun _ _ h₁ => h₁.updPend.actItem

theorem Kept.ingressAck {n} : Kept s₀ (s.ingressAck n) := .ite h.setFld.actHeld h

theorem Kept.execIngressAck {n} : (execIngressAck n s).Keeps s₀ := h.whenServing h.ingressAck

theorem Kept.ingressPump {k} : Kept s₀ (s.ingressPump k) := by
  induction k generalizing s with
  | zero => exact h
  | succ k ih =>
    unfold State.ingressPump
    refine .ite ?_ h
    split
    · exact .ite (ih h.updPend.actItem) h
    · exact h

theorem Kept.ingressGo : Kept s₀ (s.ingressGo) := h.ingressPump

theorem Kept.ingressRx {n x} : Kept s₀ (s.ingressRx n x) := .ite (Kept.ite h h.updPend).sendPend.ingressGo h

theorem Kept.execPendIngress {n x} : (execPendIngress n x s).Keeps s₀ := h.whenServing h.ingressRx

theorem Kept.afterPair {back} : Kept s₀ (s.afterPair back) := .ite h (.ite h.updPend h.actHeld.updPend)

theorem Kept.pairRow {f : State → State} (hf : ∀ t, Kept s₀ t → Kept s₀ (f t)) : Kept s₀ (s.pairRow f) :=
  (hf _ h).afterPair

theorem Kept.execJoinResume : (execJoinResume s).Keeps s₀ :=
  h.whenServing (.ite (h.pairNow.resumeQueues.foldl fun _ _ h₁ => h₁.ingress) h)

theorem Kept.execPendReplicate {q n} : (execPendReplicate q n s).Keeps s₀ :=
  h.whenServing (h.pairRow (fun _ h₁ => h₁.starting (fun _ _ h₂ => h₂.pendBody)))

theorem Kept.execPendBulk {b} : (execPendBulk b s).Keeps s₀ := h.whenMain (h.pairRow (fun _ h₁ => h₁.bulkRx))

theorem Kept.execPendDigest {k dg} : (execPendDigest k dg s).Keeps s₀ :=
  h.whenServing (h.pairRow (fun _ h₁ => h₁.digestRx))

theorem Kept.execHandoverRx : (execHandoverRx s).Keeps s₀ :=
  h.whenServing (.ite (h.pairRow (fun _ h₁ => h₁.takeover)) h)

theorem Kept.heartbeat {st incarn egSent} : Kept s₀ (s.heartbeat st incarn egSent) :=
  .ite h.updPend (.ite h.partnerLost
    (.ite (.ite (h.updPend.thenIf fun h₁ => h₁.upd).takeover (h.updPend.thenIf fun h₁ => h₁.upd).soloNow)
    ((h.updPend.thenIf fun h₁ => h₁.upd).thenIf fun h₁ => h₁.soloNow)))

theorem Kept.execHeartbeatRx {p st incarn egSent} : (execHeartbeatRx p st incarn egSent s).Keeps s₀ :=
  h.whenMain (.ite (h.pairRow (fun _ h₁ => h₁.heartbeat)) h)

theorem Kept.probeOutcome : Kept s₀ (s.probeOutcome) := by
  dsimp only [State.probeOutcome]
  refine .ite h (.ite h.partnerLost ?_)
  split
  · exact .ite h.partnerSplit h.partnerLost
  · exact .ite h.partnerLost h

theorem Kept.execProbeResult : (execProbeResult s).Keeps s₀ := h.whenMain (h.pairRow (fun _ h₁ => h₁.probeOutcome))

/-! #### Traffic of the fabric -/

theorem Kept.deliver {r} : Kept s₀ (s.deliver r) :=
  .ite (.ite h.respond (.ite h.respond h))
    (.ite h.redHdrRx (.ite h.redDataRx (.ite h.retractRx (.ite h.bcastAct (.ite h.ingress h.requestAct)))))

theorem Kept.answerAgain {h' x} : Kept s₀ (s.answerAgain h' x) := h.sendRaw

theorem Kept.setExpected {key n} : Kept s₀ (s.setExpected key n) := h.upd

theorem Kept.drainFlow {key k} : Kept s₀ (s.drainFlow key k) := by
  induction k generalizing s with
  | zero => exact h
  | succ k ih =>
    unfold State.drainFlow
    split
    · exact h
    · exact ih h.upd.setExpected.deliver

theorem Kept.skipGap {key} : Kept s₀ (s.skipGap key) := by
  dsimp only [State.skipGap]
  split
  · exact h
  · exact h.setExpected.drainFlow

theorem Kept.giveUpGaps : Kept s₀ (s.giveUpGaps) := h.foldl fun _ _ h₁ => h₁.skipGap

theorem Kept.inFlow {r} : Kept s₀ (s.inFlow r) := by
  dsimp only [State.inFlow]
  split
  · exact h.answerAgain
  · exact .ite h.deliver (.ite h.giveUpGaps.setExpected.deliver.drainFlow
      (h.giveUpGaps.elseIf fun h₁ => .ite h₁ h₁.upd))

theorem Kept.packetRx {h' type} {f : State → State} (hf : ∀ t, Kept s₀ t → Kept s₀ (f t)) : Kept s₀
    (s.packetRx h' type f) :=
  .ite h.count (.ite h (hf _ h))

theorem Kept.requestRx {h' type body} : Kept s₀ (s.requestRx h' type body) := h.packetRx (fun _ h₁ => h₁.inFlow)

theorem Kept.replyRx {r bad body} : Kept s₀ (s.replyRx r bad body) := by
  dsimp only [State.replyRx]
  refine .ite h.dropReq ?_
  split
  · exact .ite (.ite h h.ingress) h.answered
  · exact h.answered

theorem Kept.responseRx {h' type body} : Kept s₀ (s.responseRx h' type body) := by
  dsimp only [State.responseRx]
  refine h.packetRx (fun _ h₁ => ?_)
  split
  · exact h₁
  · exact .ite h₁ (.ite h₁.upd h₁.replyRx)

theorem Kept.execFabricWrite {h' body} : (execFabricWrite h' body s).Keeps s₀ := h.whenServing h.requestRx

theorem Kept.execReadReq {h' body} : (execReadReq h' body s).Keeps s₀ := h.whenServing h.requestRx

theorem Kept.execFabricRegRd {h'} : (execFabricRegRd h' s).Keeps s₀ := h.whenServing h.requestRx

theorem Kept.execLockOp {h' k w} : (execLockOp h' k w s).Keeps s₀ := h.whenServing h.requestRx

theorem Kept.execReadResp {h' body} : (execReadResp h' body s).Keeps s₀ := h.whenServing h.responseRx

theorem Kept.execWriteAck {h' body} : (execWriteAck h' body s).Keeps s₀ := h.whenServing h.responseRx

theorem Kept.execLockResp {h' status} : (execLockResp h' status s).Keeps s₀ := h.whenServing h.responseRx

theorem Kept.execRedHdr {h' body} : (execRedHdr h' body s).Keeps s₀ := h.whenServing h.requestRx

theorem Kept.execRedData {h' body} : (execRedData h' body s).Keeps s₀ := h.whenServing h.requestRx

theorem Kept.execRetractRx {h' body} : (execRetractRx h' body s).Keeps s₀ := h.whenServing h.requestRx

theorem Kept.execRetractAck {h' body} : (execRetractAck h' body s).Keeps s₀ := h.whenServing h.responseRx

theorem Kept.redFailed {q n} : Kept s₀ (s.redFailed q n) := by
  dsimp only [State.redFailed]
  split
  · exact h.putColl.pump
  · exact h

theorem Kept.execRedAck {h' body} : (execRedAck h' body s).Keeps s₀ := by
  dsimp only [Machine.execRedAck]
  refine h.whenServing (h.packetRx (fun _ h₁ => ?_))
  split
  · exact h₁.redAckRx.redFailed
  · exact h₁.redAckRx

theorem Kept.noteFlood {k n} : Kept s₀ (s.noteFlood k n) := h.upd

theorem Kept.bcastRx {p h' body} : Kept s₀ (s.bcastRx p h' body) :=
  .ite h.count (.ite h (.ite (Kept.ite h.noteFlood.count h.noteFlood.bcastOut).respond
    (Kept.ite h.noteFlood.count h.noteFlood.bcastOut).inFlow))

theorem Kept.execFabricRegWr {p h' body} : (execFabricRegWr p h' body s).Keeps s₀ :=
  h.whenServing (.ite h.bcastRx h.requestRx)

theorem Kept.linkEnd {r} : Kept s₀ (s.linkEnd r) := h.count.replyRx

theorem Kept.resend {r} : Kept s₀ (s.resend r) := by
  dsimp only [State.resend]
  split
  · exact h.upd.count.bcastOut
  · exact h.upd.count.sendRaw

theorem Kept.reqTimeout {r} : Kept s₀ (s.reqTimeout r) :=
  .ite h (.ite h (.ite (.ite h h.linkEnd) (.ite h (.ite h.linkEnd h.resend))))

theorem Kept.redTimeout {x} : Kept s₀ (s.redTimeout x) :=
  .ite h (.ite h.upd.count.redFailed (h.upd.count.foldl fun _ _ h₁ => h₁.sendRaw))

theorem Kept.execE2eTimeout : (execE2eTimeout s).Keeps s₀ :=
  h.whenMain ((h.foldl fun _ _ h₁ => h₁.reqTimeout).foldl fun _ _ h₁ => h₁.redTimeout).giveUpGaps

theorem Kept.execLdResponse {q err body} : (execLdResponse q err body s).Keeps s₀ := by
  dsimp only [Machine.execLdResponse]
  refine h.whenMain ?_
  split
  · exact h.replyRx
  · exact h

theorem Kept.execStRemoteOutcome {q k status} : (execStRemoteOutcome q k status s).Keeps s₀ := by
  dsimp only [Machine.execStRemoteOutcome]
  refine h.whenMain ?_
  split
  · exact h.replyRx
  · exact h

theorem Kept.tokenEdge {e num rank serial} : Kept s₀ (s.tokenEdge e num rank serial) :=
  .ite h (.ite (.ite h.setBeatState.setFld.upd.follow.trackerEdge h) (.ite h (Kept.ite h h.upd.follow).trackerEdge))

theorem Kept.tokenRx {p h' res b} : Kept s₀ (s.tokenRx p h' res b) := by
  dsimp only [State.tokenRx]
  refine .ite h.count (.ite h ((Kept.ite h.noteFlood.count h.noteFlood.bcastOut).elseIf fun h₁ => ?_))
  split
  · exact h₁.jitter.tokenEdge
  · exact h₁.jitter

theorem Kept.execBeatToken {p h' res body} : (execBeatToken p h' res body s).Keeps s₀ := h.whenMain h.tokenRx

/-! #### The rows of the host -/

theorem Kept.frameRx {size fcsOk tag f} : Kept s₀ (s.frameRx size fcsOk tag f) := by
  dsimp only [State.frameRx]
  refine .ite h.count (.ite h.count (.ite h.count (.ite h.count (.ite h.count ?_))))
  split
  · split
    next e =>
      exact (h.tctCheck.of_snd e).ingress
    next e =>
      exact h.tctCheck.of_snd e
  · exact h
  · exact h.ingress

theorem Kept.frameRecovery {size fcsOk tag f} : Kept s₀ (s.frameRecovery size fcsOk tag f) := by
  dsimp only [State.frameRecovery]
  refine .ite h ?_
  split
  · exact h.recoveryRx
  · exact h.neighborRx
  · exact h.frameAct
  · exact h

theorem Kept.execHostFrameRx {size fcsOk tag f} : (execHostFrameRx size fcsOk tag f s).Keeps s₀ :=
  h.alive (.ite h (.ite h.frameRx (.ite h.frameRecovery h)))

theorem Kept.roceRow {f} : Kept s₀ (s.roceRow f) := .ite h (.ite h.count h.ingress)

theorem Kept.execRdmaWrite {qp psn rkey va data ce} : (execRdmaWrite qp psn rkey va data ce s).Keeps s₀ :=
  h.whenServing h.roceRow

theorem Kept.execRdmaRead {qp psn rkey va len ce} : (execRdmaRead qp psn rkey va len ce s).Keeps s₀ :=
  h.whenServing h.roceRow

theorem Kept.execRdmaSend {qp psn data ce} : (execRdmaSend qp psn data ce s).Keeps s₀ := h.whenServing h.roceRow

theorem Kept.execRoceAckRx {qp psn nak} : (execRoceAckRx qp psn nak s).Keeps s₀ := h.whenServing h.roceRow

theorem Kept.execCnpRx {qp} : (execCnpRx qp s).Keeps s₀ := h.whenServing h.roceRow

theorem Kept.tctRow {m t payload} : Kept s₀ (s.tctRow m t payload) := .ite h (.ite h.count (.ite h.count h.ingress))

theorem Kept.execTctRegRd {m addr} : (execTctRegRd m addr s).Keeps s₀ := h.whenServing h.tctRow

theorem Kept.execTctRegWr {m addr value} : (execTctRegWr m addr value s).Keeps s₀ := h.whenServing h.tctRow

theorem Kept.execMemRd {m addr len} : (execMemRd m addr len s).Keeps s₀ := h.whenServing h.tctRow

theorem Kept.execMemWr {m addr data} : (execMemWr m addr data s).Keeps s₀ := h.whenServing h.tctRow

theorem Kept.execTctDoorbell {m addr value qpn psn} : (execTctDoorbell m addr value qpn psn s).Keeps s₀ :=
  h.whenServing h.tctRow

theorem Kept.execEventAck {m n} : (execEventAck m n s).Keeps s₀ := h.whenServing h.tctRow

theorem Kept.execSbRegRd {addr} : (execSbRegRd addr s).Keeps s₀ := by
  dsimp only [Machine.execSbRegRd]
  refine h.sideband (.ite h.sbReply ?_)
  split
  next e =>
    exact (h.regRead.of_snd e).sbReply
  next e =>
    exact (h.regRead.of_snd e).sbReply

theorem Kept.execSbRegWr {addr value} : (execSbRegWr addr value s).Keeps s₀ := h.sideband (.ite h.sbReply h.ingress)

theorem Kept.signRefuse {o} : Kept s₀ (s.signRefuse o) := by
  dsimp only [State.signRefuse]
  split
  · exact h.count.sbReply
  · exact h.count
  · exact h.count.upd
  · exact h.count.joinRefuse
  · exact h.count

theorem Kept.signOut {o body sig} : Kept s₀ (s.signOut o body sig) := by
  dsimp only [State.signOut]
  split
  · exact h.count.sbReply
  · exact h.count.foldl fun _ _ h₁ => h₁.sendVc0
  · exact h.count.upd
  · exact h.count.joinSigned.joinTry
  · exact h

theorem Kept.signHead : Kept s₀ (s.signHead) := by
  dsimp only [State.signHead]
  split
  · exact h
  · exact .ite h.upd.signRefuse h.upd.signNext.signOut

theorem Kept.execIdentitySign : (execIdentitySign s).Keeps s₀ := h.alive (h.pairRow (fun _ h₁ => h₁.signHead))

/-! #### The passing of time -/

theorem Kept.freezeTick {d t} : Kept s₀ (s.freezeTick d t) :=
  .ite h (h.foldl fun _ _ h₁ => .ite h₁.freezeCanvas (.ite h₁.freezeCanvas h₁))

theorem Kept.dieTick {d n} : Kept s₀ (s.dieTick d n) := .ite h (.ite h.upd h.upd.freezeTick)

theorem Kept.tick : Kept s₀ (s.tick) := .ite h (h.upd.foldl fun _ _ h₁ => h₁.dieTick).ingressGo

/-! #### The commands -/

theorem Kept.exec : ∀ c, Res.Keeps s₀ (Machine.exec c s)
  | .auxPowerGood .. => h.execAuxPowerGood
  | .auxPowerLost => h.execAuxPowerLost
  | .mainPowerGood => h.execMainPowerGood
  | .mainPowerLoss => h.execMainPowerLoss
  | .refclkLoss => h.execRefclkLoss
  | .earlyEntry .. => h.execEarlyEntry
  | .bringupComplete .. => h.execBringupComplete
  | .bringupTimeout .. => h.execBringupTimeout
  | .warmReset => h.execWarmReset
  | .dieReset .. => h.execDieReset
  | .dieResetComplete .. => h.execDieResetComplete
  | .engineReset .. => h.execEngineReset
  | .queueReset .. => h.execQueueReset
  | .beatEdge => h.execBeatEdge
  | .beatCoast => h.execBeatCoast
  | .beatLostEntry => h.execBeatLostEntry
  | .masterTakeover => h.execMasterTakeover
  | .generatorBoundary => h.execGeneratorBoundary
  | .resync => h.execResync
  | .releaseHeld => h.execReleaseHeld
  | .beatApply => h.execBeatApply
  | .beatApplyAtBeat => h.execBeatApplyAtBeat
  | .stagedApplyEffect .. => h.execStagedApplyEffect
  | .waitbRelease .. => h.execWaitbRelease
  | .lifetimeMinute => h.execLifetimeMinute
  | .beatPosRead => h.execBeatPosRead
  | .registerWrite .. => h.execRegisterWrite
  | .palStaleWrite .. => h.execPalStaleWrite
  | .randKeyWrite .. => h.execRandKeyWrite
  | .randStreamWrite .. => h.execRandStreamWrite
  | .randBindWrite .. => h.execRandBindWrite
  | .prime .. => h.execPrime
  | .stream .. => h.execStream
  | .drain .. => h.execDrain
  | .pack .. => h.execPack
  | .ringEntryDrain .. => h.execRingEntryDrain
  | .gatePost .. => h.execGatePost
  | .gateClose .. => h.execGateClose
  | .canvasRetirement .. => h.execCanvasRetirement
  | .canvasRetireWrite .. => h.execCanvasRetireWrite
  | .ddbgAccVRead .. => h.execDdbgAccVRead
  | .sliverRun .. => h.execSliverRun
  | .lendGrant .. => h.execLendGrant
  | .slvNop .. => h.execSlvNop
  | .slvEnd .. => h.execSlvEnd
  | .slvRep .. => h.execSlvRep
  | .setrb .. => h.execSetrb
  | .mset .. => h.execMset
  | .mnot .. => h.execMnot
  | .mld .. => h.execMld
  | .mst .. => h.execMst
  | .slvAdd .. => h.execSlvAdd
  | .slvSub .. => h.execSlvSub
  | .slvCmp .. => h.execSlvCmp
  | .slvMax .. => h.execSlvMax
  | .slvMin .. => h.execSlvMin
  | .slvMul .. => h.execSlvMul
  | .slvAnd .. => h.execSlvAnd
  | .slvOr .. => h.execSlvOr
  | .slvXor .. => h.execSlvXor
  | .slvAndn .. => h.execSlvAndn
  | .slvNot .. => h.execSlvNot
  | .slvMov .. => h.execSlvMov
  | .slvSel .. => h.execSlvSel
  | .slvConst .. => h.execSlvConst
  | .slvShl .. => h.execSlvShl
  | .slvShr .. => h.execSlvShr
  | .lmul .. => h.execLmul
  | .ladd .. => h.execLadd
  | .lmax .. => h.execLmax
  | .lmin .. => h.execLmin
  | .fadd .. => h.execFadd
  | .fsub .. => h.execFsub
  | .fmul .. => h.execFmul
  | .fdiv .. => h.execFdiv
  | .fsqrt .. => h.execFsqrt
  | .fmax .. => h.execFmax
  | .fmin .. => h.execFmin
  | .fcmp .. => h.execFcmp
  | .slvCvt .. => h.execSlvCvt
  | .accadd .. => h.execAccadd
  | .rmask .. => h.execRmask
  | .slvReduce .. => h.execSlvReduce
  | .qtailDoorbell .. => h.execQtailDoorbell
  | .queueEnable .. => h.execQueueEnable
  | .queueDisable .. => h.execQueueDisable
  | .queueStop .. => h.execQueueStop
  | .queueResume .. => h.execQueueResume
  | .queueSkip .. => h.execQueueSkip
  | .ringEntryTake .. => h.execRingEntryTake
  | .cheadWrite .. => h.execCheadWrite
  | .qNop .. => h.execQNop
  | .qEnd .. => h.execQEnd
  | .qAdd .. => h.execQAdd
  | .qSub .. => h.execQSub
  | .qAnd .. => h.execQAnd
  | .qOr .. => h.execQOr
  | .qXor .. => h.execQXor
  | .qShl .. => h.execQShl
  | .qShr .. => h.execQShr
  | .qSar .. => h.execQSar
  | .qMul .. => h.execQMul
  | .qMovi .. => h.execQMovi
  | .qMovhi .. => h.execQMovhi
  | .qSetp .. => h.execQSetp
  | .qPlog .. => h.execQPlog
  | .qLd .. => h.execQLd
  | .ldResponse .. => h.execLdResponse
  | .qSt .. => h.execQSt
  | .stRemoteOutcome .. => h.execStRemoteOutcome
  | .qBr .. => h.execQBr
  | .qJr .. => h.execQJr
  | .qSemwait .. => h.execQSemwait
  | .semwaitGrant .. => h.execSemwaitGrant
  | .qSemsig .. => h.execQSemsig
  | .qSemadd .. => h.execQSemadd
  | .qWaitb .. => h.execQWaitb
  | .qWaite .. => h.execQWaite
  | .qLock .. => h.execQLock
  | .qUnlock .. => h.execQUnlock
  | .qFence .. => h.execQFence
  | .fenceComplete .. => h.execFenceComplete
  | .qRdtime .. => h.execQRdtime
  | .qEpoch .. => h.execQEpoch
  | .qRbind .. => h.execQRbind
  | .qDispatch .. => h.execQDispatch
  | .engineBufferFree .. => h.execEngineBufferFree
  | .commandCompletion .. => h.execCommandCompletion
  | .arbGrant .. => h.execArbGrant
  | .arbWindowReset .. => h.execArbWindowReset
  | .arbCutoff .. => h.execArbCutoff
  | .arbCutWrite .. => h.execArbCutWrite
  | .semWrite .. => h.execSemWrite
  | .lockOwnWrite .. => h.execLockOwnWrite
  | .lockReexamine .. => h.execLockReexamine
  | .lockApplyNow .. => h.execLockApplyNow
  | .lockApplyAtBeat .. => h.execLockApplyAtBeat
  | .lockApplyCancel => h.execLockApplyCancel
  | .dlockApplyNow .. => h.execDlockApplyNow
  | .dlockApplyAtBeat .. => h.execDlockApplyAtBeat
  | .dlockApplyCancel .. => h.execDlockApplyCancel
  | .patrolScrub .. => h.execPatrolScrub
  | .hbmRefresh i j => h.execHbmRefresh (_st := i) (_pc := j)
  | .pseudoChannelFail .. => h.execPseudoChannelFail
  | .nmaUpdate .. => h.execNmaUpdate
  | .nmaCfgWrite .. => h.execNmaCfgWrite
  | .moveCopy .. => h.execMoveCopy
  | .moveTranspose .. => h.execMoveTranspose
  | .moveConvert .. => h.execMoveConvert
  | .cornerTurn .. => h.execCornerTurn
  | .moveFill .. => h.execMoveFill
  | .moveGather .. => h.execMoveGather
  | .moveScatter .. => h.execMoveScatter
  | .scatterAcc .. => h.execScatterAcc
  | .linkUp .. => h.execLinkUp
  | .laneFault .. => h.execLaneFault
  | .linkFrameRx .. => h.execLinkFrameRx
  | .linkRetry .. => h.execLinkRetry
  | .helloTimer => h.execHelloTimer
  | .helloRx .. => h.execHelloRx
  | .portDown .. => h.execPortDown
  | .echoReq .. => h.execEchoReq
  | .echoResp .. => h.execEchoResp
  | .admitChal .. => h.execAdmitChal
  | .admitResp .. => h.execAdmitResp
  | .electRx .. => h.execElectRx
  | .coordSettle => h.execCoordSettle
  | .memberTimer => h.execMemberTimer
  | .memberRx .. => h.execMemberRx
  | .deputyTakeover => h.execDeputyTakeover
  | .routeRx .. => h.execRouteRx
  | .packetForward .. => h.execPacketForward
  | .vc15Escape => h.execVc15Escape
  | .fabricWrite .. => h.execFabricWrite
  | .readReq .. => h.execReadReq
  | .readResp .. => h.execReadResp
  | .writeAck .. => h.execWriteAck
  | .fabricRegRd .. => h.execFabricRegRd
  | .fabricRegWr .. => h.execFabricRegWr
  | .lockOp .. => h.execLockOp
  | .lockResp .. => h.execLockResp
  | .e2eTimeout => h.execE2eTimeout
  | .beatToken .. => h.execBeatToken
  | .ryfMqAddrWrite .. => h.execRyfMqAddrWrite
  | .groupRegister .. => h.execGroupRegister
  | .groupUnregister .. => h.execGroupUnregister
  | .reduceScatter .. => h.execReduceScatter
  | .allGather .. => h.execAllGather
  | .allReduce .. => h.execAllReduce
  | .broadcast .. => h.execBroadcast
  | .closeReduce .. => h.execCloseReduce
  | .redHdr .. => h.execRedHdr
  | .redData .. => h.execRedData
  | .redAck _ b => h.execRedAck (body := b)
  | .reduceStep .. => h.execReduceStep
  | .substitutionPoint .. => h.execSubstitutionPoint
  | .retractRx .. => h.execRetractRx
  | .retractAck .. => h.execRetractAck
  | .redVetoSetWrite .. => h.execRedVetoSetWrite
  | .settlement => h.execSettlement
  | .trnSettleLocal .. => h.execTrnSettleLocal
  | .trnSettledWrite .. => h.execTrnSettledWrite
  | .lossWatch .. => h.execLossWatch
  | .lwStateWrite .. => h.execLwStateWrite
  | .outOfStepClear => h.execOutOfStepClear
  | .evalSlotStart => h.execEvalSlotStart
  | .evalSlotEnd => h.execEvalSlotEnd
  | .snapshotStart => h.execSnapshotStart
  | .snapshotRegion => h.execSnapshotRegion
  | .snapshotEnd => h.execSnapshotEnd
  | .snapshotAbort => h.execSnapshotAbort
  | .ckptConfirm .. => h.execCkptConfirm
  | .heartbeatTimer => h.execHeartbeatTimer
  | .heartbeatRx .. => h.execHeartbeatRx
  | .partnerSilence => h.execPartnerSilence
  | .probeResult => h.execProbeResult
  | .neighborAdvertRepeat => h.execNeighborAdvertRepeat
  | .pendIngress .. => h.execPendIngress
  | .ingressAck .. => h.execIngressAck
  | .pendManifest .. => h.execPendManifest
  | .pendDigest .. => h.execPendDigest
  | .digestTimeout .. => h.execDigestTimeout
  | .pendBulk .. => h.execPendBulk
  | .pendConfirm .. => h.execPendConfirm
  | .confirmAck .. => h.execConfirmAck
  | .confirmTimeout => h.execConfirmTimeout
  | .handoverRx => h.execHandoverRx
  | .pendRecovReq .. => h.execPendRecovReq
  | .pendRecovData .. => h.execPendRecovData
  | .recovEnd .. => h.execRecovEnd
  | .recovReqTimer => h.execRecovReqTimer
  | .pairJoin => h.execPairJoin
  | .joinQuiesce => h.execJoinQuiesce
  | .joinResume => h.execJoinResume
  | .pairDetach => h.execPairDetach
  | .detachComplete => h.execDetachComplete
  | .pairRestore => h.execPairRestore
  | .pairForget => h.execPairForget
  | .pendReplicate .. => h.execPendReplicate
  | .pendDelta .. => h.execPendDelta
  | .resyncTransfer .. => h.execResyncTransfer
  | .hostLinkUp => h.execHostLinkUp
  | .hostFrameRx .. => h.execHostFrameRx
  | .rdmaWrite .. => h.execRdmaWrite
  | .rdmaRead .. => h.execRdmaRead
  | .rdmaSend .. => h.execRdmaSend
  | .roceAckRx .. => h.execRoceAckRx
  | .cnpRx .. => h.execCnpRx
  | .roceRetransmitTimeout .. => h.execRoceRetransmitTimeout
  | .roceRateRecover .. => h.execRoceRateRecover
  | .qpLoad .. => h.execQpLoad
  | .qpReset .. => h.execQpReset
  | .tctRegRd .. => h.execTctRegRd
  | .tctRegWr .. => h.execTctRegWr
  | .memRd .. => h.execMemRd
  | .memWr .. => h.execMemWr
  | .tctDoorbell .. => h.execTctDoorbell
  | .doorbellRelease => h.execDoorbellRelease
  | .eventAck .. => h.execEventAck
  | .eventResend => h.execEventResend
  | .hostpAlertWrite .. => h.execHostpAlertWrite
  | .mctpControl .. => h.execMctpControl
  | .pldmType0 .. => h.execPldmType0
  | .pldmType2 .. => h.execPldmType2
  | .sensorRefresh .. => h.execSensorRefresh
  | .getInfo => h.execGetInfo
  | .sbRegRd .. => h.execSbRegRd
  | .sbRegWr .. => h.execSbRegWr
  | .keyLoad .. => h.execKeyLoad
  | .keyClear .. => h.execKeyClear
  | .getReport .. => h.execGetReport
  | .getEndorsement => h.execGetEndorsement
  | .debugChallenge => h.execDebugChallenge
  | .debugUnlock .. => h.execDebugUnlock
  | .debugLock => h.execDebugLock
  | .sbExtend .. => h.execSbExtend
  | .sbSvnCommit => h.execSbSvnCommit
  | .getMeas => h.execGetMeas
  | .svnCommit => h.execSvnCommit
  | .secCtlDebugLock => h.execSecCtlDebugLock
  | .updStart => h.execUpdStart
  | .updAbort => h.execUpdAbort
  | .updateComplete .. => h.execUpdateComplete
  | .recovQuery .. => h.execRecovQuery
  | .recovData .. => h.execRecovData
  | .recovCommit .. => h.execRecovCommit
  | .recovSessionTimeout => h.execRecovSessionTimeout
  | .recoveryProgrammed .. => h.execRecoveryProgrammed
  | .identitySign => h.execIdentitySign
  | .debugExpiry => h.execDebugExpiry
  | .pwrDomReqWrite .. => h.execPwrDomReqWrite
  | .domainOff .. => h.execDomainOff
  | .domainOnReady .. => h.execDomainOnReady
  | .limiterSample .. => h.execLimiterSample
  | .limiterRelease => h.execLimiterRelease
  | .thermalSample .. => h.execThermalSample
  | .capLoop => h.execCapLoop
  | .clockPointChange .. => h.execClockPointChange
  | .overrideRecord .. => h.execOverrideRecord
  | .tripClear => h.execTripClear
  | .ceInterval => h.execCeInterval
  | .clearFatal => h.execClearFatal
  | .pertCtlWrite .. => h.execPertCtlWrite
  | .pertEccArm .. => h.execPertEccArm
  | .creditHoldEnd => h.execCreditHoldEnd
  | .contribHoldEnd => h.execContribHoldEnd
  | .beatEvcntRead => h.execBeatEvcntRead
  | .palSkcntRead .. => h.execPalSkcntRead
  | .palCntRead .. => h.execPalCntRead
  | .canvGateDupRead .. => h.execCanvGateDupRead
  | .canvHealthRead .. => h.execCanvHealthRead
  | .canvFrzRead .. => h.execCanvFrzRead
  | .canvDrcntRead .. => h.execCanvDrcntRead
  | .slvBevRead .. => h.execSlvBevRead
  | .slvBstallRead .. => h.execSlvBstallRead
  | .qerrRead .. => h.execQerrRead
  | .arbStatRead .. => h.execArbStatRead
  | .applyCntRead .. => h.execApplyCntRead
  | .semCntRead .. => h.execSemCntRead
  | .lockCntRead .. => h.execLockCntRead
  | .nmaCeCntRead .. => h.execNmaCeCntRead
  | .nmaUeCntRead .. => h.execNmaUeCntRead
  | .nmaEvRead .. => h.execNmaEvRead
  | .movOobRead .. => h.execMovOobRead
  | .movEvRead .. => h.execMovEvRead
  | .ryfCntRead => h.execRyfCntRead
  | .ryfPortFecRead .. => h.execRyfPortFecRead
  | .ryfPortLinkcntRead .. => h.execRyfPortLinkcntRead
  | .redCntRead => h.execRedCntRead
  | .redNfRead => h.execRedNfRead
  | .redChkRead => h.execRedChkRead
  | .trnNfRead => h.execTrnNfRead
  | .trnCntRead => h.execTrnCntRead
  | .pendCmpRead => h.execPendCmpRead
  | .pendCntRead => h.execPendCntRead
  | .hostpTctCntRead => h.execHostpTctCntRead
  | .hostpRoceCntRead => h.execHostpRoceCntRead
  | .hostpEvtCntRead => h.execHostpEvtCntRead
  | .hostpRxdropRead => h.execHostpRxdropRead
  | .secSigcntRead => h.execSecSigcntRead
  | .rstCntRead => h.execRstCntRead
  | .pwrCntRead => h.execPwrCntRead
  | .errCntRead => h.execErrCntRead
  | .errSramRead => h.execErrSramRead
  | .pertCntRead => h.execPertCntRead
  | .hostLinkDown => h.execHostLinkDown
  | .admitTimeout .. => h.execAdmitTimeout
  | .imageChecksComplete .. => h.execImageChecksComplete
  | .updateVerifyComplete => h.execUpdateVerifyComplete
  | .engineResetComplete .. => h.execEngineResetComplete
  | .shadowMergeComplete => h.execShadowMergeComplete

end

theorem Kept.canonical {s t : State} (h : Kept s t) (w : Canonical s) : Canonical t :=
  ⟨h.mem w.mem, h.regs w.regs, h.staged w.staged⟩

/-- The commands of the queue are no part of the canonical form. -/
theorem Canonical.setPending {s : State} (w : Canonical s) (l : List Instr) : Canonical { s with pending := l } :=
  ⟨w.mem, w.regs, w.staged⟩

theorem exec_keeps (c : Instr) (s : State) : ∃ t, exec c s = .next t ∧ Kept s t := Kept.refl.exec c

theorem step_keeps {s t : State} (w : Canonical s) (e : step s = .next t) : Canonical t := by
  unfold step at e
  split at e
  · cases e
    exact Kept.refl.tick.canonical w
  · next c rest _ =>
    obtain ⟨u, hu, kept⟩ := exec_keeps c { s with pending := rest }
    cases hu.symm.trans e
    exact kept.canonical (w.setPending rest)

/-- Settles O4: one lemma per operation says that it keeps the canonical form. -/
theorem canonicalKept : Obligations.CanonicalKept := fun _ _ => step_keeps

/-- Settles O3: every arm of `exec` ends in a next state that keeps the queue of commands. -/
theorem everyCommandEnds : Obligations.EveryCommandEnds := fun c s =>
  let ⟨t, e, kept⟩ := exec_keeps c s
  ⟨t, e, kept.pending⟩

end Sys2Proof.Machine
end

section
/-!
PROOFS. OffNothingActs: every command but AUX_POWER_GOOD stands under a guard that does not hold in OFF.
-/

namespace Sys2Proof.Machine

open Sys2Proof

section
variable (s : State) {t : State} (off : s.powered = false)
include off

theorem State.mainUp_off : s.mainUp = false := by rw [State.mainUp, off, Bool.false_and]

theorem State.serving_off : s.serving = false := by rw [State.serving, off, Bool.false_and]

theorem State.easelUp_off {q : Nat} : s.easelUp q = false := by rw [State.easelUp, s.serving_off off, Bool.false_and]

theorem State.blockUp_off (b : Block) : s.blockUp b = false := by
  cases b <;> simp [State.blockUp, s.mainUp_off off, off]

theorem State.qBlockUp_off {q : Nat} : s.qBlockUp q = false := s.blockUp_off off _

theorem State.alive_off : s.alive t = .next s := if_neg (by simp [off])

theorem State.whenMain_off : s.whenMain t = .next s := if_neg (by simp [s.mainUp_off off])

theorem State.whenServing_off : s.whenServing t = .next s := if_neg (by simp [s.serving_off off])

theorem State.sideband_off : s.sideband t = .next s := if_neg (by simp [off])

theorem State.issue_off {q op : Nat} {body : Nat → State → State} : s.issue q op body = s :=
  if_pos (by simp [State.issuing, s.easelUp_off off])

theorem State.execWaitbRelease_off {q : Fin 240} : execWaitbRelease q s = .next s := by
  unfold execWaitbRelease
  split
  · rw [s.easelUp_off off]
    rfl
  · rfl

/-- Each command by the guard under which its row acts. -/
theorem exec_off : ∀ c : Instr, (∀ valid node slot lid sb, c ≠ .auxPowerGood valid node slot lid sb) → exec c s = .next s
  | .auxPowerGood .. => fun other => absurd rfl (other _ _ _ _ _)
  | .mainPowerGood | .mainPowerLoss | .refclkLoss | .earlyEntry .. | .bringupComplete .. | .bringupTimeout ..
  | .warmReset | .dieReset .. | .engineReset .. | .queueReset .. | .lifetimeMinute | .beatPosRead | .registerWrite ..
  | .palStaleWrite .. | .randKeyWrite .. | .randStreamWrite .. | .randBindWrite .. | .nmaCfgWrite ..
  | .pendRecovData .. | .recovEnd .. | .recovReqTimer | .hostFrameRx .. | .hostpAlertWrite .. | .mctpControl ..
  | .sensorRefresh .. | .recovQuery .. | .recovData .. | .recovCommit .. | .recovSessionTimeout
  | .recoveryProgrammed .. | .identitySign | .debugExpiry | .pwrDomReqWrite .. | .domainOff .. | .tripClear
  | .beatEvcntRead | .palSkcntRead .. | .palCntRead .. | .canvGateDupRead .. | .canvHealthRead .. | .canvFrzRead ..
  | .canvDrcntRead .. | .slvBevRead .. | .slvBstallRead .. | .qerrRead .. | .arbStatRead .. | .applyCntRead ..
  | .semCntRead .. | .lockCntRead .. | .nmaCeCntRead .. | .nmaUeCntRead .. | .nmaEvRead .. | .movOobRead ..
  | .movEvRead .. | .ryfCntRead | .ryfPortFecRead .. | .ryfPortLinkcntRead .. | .redCntRead | .redNfRead | .redChkRead
  | .trnNfRead | .trnCntRead | .pendCmpRead | .pendCntRead | .hostpTctCntRead | .hostpRoceCntRead | .hostpEvtCntRead
  | .hostpRxdropRead | .secSigcntRead | .rstCntRead | .pwrCntRead | .errCntRead | .errSramRead | .pertCntRead
  | .imageChecksComplete .. => fun _ => s.alive_off off
  | .dieResetComplete .. | .beatEdge | .beatCoast | .beatLostEntry | .masterTakeover | .generatorBoundary | .resync
  | .releaseHeld | .beatApply | .beatApplyAtBeat | .stagedApplyEffect .. | .gatePost .. | .canvasRetirement ..
  | .canvasRetireWrite .. | .ddbgAccVRead .. | .ldResponse .. | .stRemoteOutcome .. | .semwaitGrant .. | .arbGrant ..
  | .arbWindowReset .. | .arbCutoff .. | .arbCutWrite .. | .semWrite .. | .lockOwnWrite .. | .lockReexamine ..
  | .lockApplyNow .. | .lockApplyAtBeat .. | .lockApplyCancel | .dlockApplyNow .. | .dlockApplyAtBeat ..
  | .dlockApplyCancel .. | .patrolScrub .. | .pseudoChannelFail .. | .linkUp .. | .laneFault .. | .linkFrameRx ..
  | .linkRetry .. | .helloTimer | .helloRx .. | .portDown .. | .echoReq .. | .echoResp .. | .admitChal ..
  | .admitResp .. | .electRx .. | .coordSettle | .memberTimer | .memberRx .. | .deputyTakeover | .routeRx ..
  | .packetForward .. | .vc15Escape | .e2eTimeout | .beatToken .. | .ryfMqAddrWrite .. | .groupRegister ..
  | .groupUnregister .. | .redVetoSetWrite .. | .trnSettleLocal .. | .trnSettledWrite .. | .lossWatch ..
  | .lwStateWrite .. | .outOfStepClear | .evalSlotStart | .evalSlotEnd | .ckptConfirm .. | .heartbeatTimer
  | .heartbeatRx .. | .partnerSilence | .probeResult | .neighborAdvertRepeat | .digestTimeout .. | .pendBulk ..
  | .pendConfirm .. | .confirmAck .. | .confirmTimeout | .pairDetach | .detachComplete | .pairRestore | .pairForget
  | .hostLinkUp | .roceRetransmitTimeout .. | .roceRateRecover .. | .qpLoad .. | .qpReset .. | .doorbellRelease
  | .eventResend | .svnCommit | .secCtlDebugLock | .updStart | .updAbort | .updateComplete .. | .domainOnReady ..
  | .limiterSample .. | .limiterRelease | .thermalSample .. | .capLoop | .clockPointChange .. | .overrideRecord ..
  | .ceInterval | .clearFatal | .pertCtlWrite .. | .pertEccArm .. | .creditHoldEnd | .hostLinkDown | .admitTimeout ..
  | .updateVerifyComplete | .engineResetComplete .. | .shadowMergeComplete => fun _ => s.whenMain_off off
  | .prime .. | .stream .. | .drain .. | .pack .. | .ringEntryDrain .. | .gateClose .. | .sliverRun .. | .lendGrant ..
  | .slvNop .. | .slvEnd .. | .slvRep .. | .setrb .. | .mset .. | .mnot .. | .mld .. | .mst .. | .slvAdd ..
  | .slvSub .. | .slvCmp .. | .slvMax .. | .slvMin .. | .slvMul .. | .slvAnd .. | .slvOr .. | .slvXor .. | .slvAndn ..
  | .slvNot .. | .slvMov .. | .slvSel .. | .slvConst .. | .slvShl .. | .slvShr .. | .lmul .. | .ladd .. | .lmax ..
  | .lmin .. | .fadd .. | .fsub .. | .fmul .. | .fdiv .. | .fsqrt .. | .fmax .. | .fmin .. | .fcmp .. | .slvCvt ..
  | .accadd .. | .rmask .. | .slvReduce .. | .commandCompletion .. | .nmaUpdate .. | .moveCopy .. | .moveTranspose ..
  | .moveConvert .. | .cornerTurn .. | .moveFill .. | .moveGather .. | .moveScatter .. | .scatterAcc ..
  | .fabricWrite .. | .readReq .. | .readResp .. | .writeAck .. | .fabricRegRd .. | .fabricRegWr .. | .lockOp ..
  | .lockResp .. | .reduceScatter .. | .allGather .. | .allReduce .. | .broadcast .. | .closeReduce .. | .redHdr ..
  | .redData .. | .redAck .. | .reduceStep .. | .substitutionPoint .. | .retractRx .. | .retractAck .. | .settlement
  | .snapshotStart | .snapshotRegion | .snapshotEnd | .snapshotAbort | .pendIngress .. | .ingressAck ..
  | .pendManifest .. | .pendDigest .. | .handoverRx | .pendRecovReq .. | .pairJoin | .joinQuiesce | .joinResume
  | .pendReplicate .. | .pendDelta .. | .resyncTransfer .. | .rdmaWrite .. | .rdmaRead .. | .rdmaSend ..
  | .roceAckRx .. | .cnpRx .. | .tctRegRd .. | .tctRegWr .. | .memRd .. | .memWr .. | .tctDoorbell .. | .eventAck ..
  | .contribHoldEnd => fun _ => s.whenServing_off off
  | .pldmType0 .. | .pldmType2 .. | .getInfo | .sbRegRd .. | .sbRegWr .. | .keyLoad .. | .keyClear .. | .getReport ..
  | .getEndorsement | .debugChallenge | .debugUnlock .. | .debugLock | .sbExtend .. | .sbSvnCommit | .getMeas => fun _ =>
      s.sideband_off off
  | .qNop .. | .qEnd .. | .qAdd .. | .qSub .. | .qAnd .. | .qOr .. | .qXor .. | .qShl .. | .qShr .. | .qSar ..
  | .qMul .. | .qMovi .. | .qMovhi .. | .qSetp .. | .qPlog .. | .qLd .. | .qSt .. | .qBr .. | .qJr .. | .qSemwait ..
  | .qSemsig .. | .qSemadd .. | .qWaitb .. | .qWaite .. | .qLock .. | .qUnlock .. | .qFence .. | .qRdtime ..
  | .qEpoch .. | .qRbind .. | .qDispatch .. => fun _ => congrArg Host.Outcome.next (s.issue_off off)
  | .qtailDoorbell .. | .queueEnable .. | .queueDisable .. | .queueStop .. | .queueResume .. | .queueSkip ..
  | .cheadWrite .. => fun _ => congrArg Host.Outcome.next (if_neg (by simp [s.qBlockUp_off off]))
  | .ringEntryTake .. | .fenceComplete .. | .engineBufferFree .. => fun _ =>
      congrArg Host.Outcome.next (if_neg (by simp [State.issuing, s.easelUp_off off]))
  | .waitbRelease .. => fun _ => s.execWaitbRelease_off off
  | .auxPowerLost => fun _ => congrArg Host.Outcome.next (if_neg (by simp [off]))
  | .hbmRefresh .. => fun _ => rfl

end

/-- Settles O2: each command stands under a guard that does not hold in OFF. -/
theorem offNothingActs : Obligations.OffNothingActs := fun c s off => exec_off s off c

end Sys2Proof.Machine
end

section
/-!
PROOFS. CounterReadClears: no counter's register is one whose read is computed, so its read is the map's own.
-/

namespace Sys2Proof.Machine

open Sys2Proof

/-! ### A word of PAL_CNT in the map -/

theorem RegPat.not_covers {p : RegPat} {off : Nat} (hs : 0 < p.stride) (past : p.base + p.stride * p.count ≤ off) :
    p.covers off = false := by
  have : p.count ≤ (off - p.base) / p.stride := (Nat.le_div_iff_mul_le hs).mpr (by rw [Nat.mul_comm]; omega)
  simp [RegPat.covers, Nat.not_lt.mpr this]

theorem find_rows_pal {off : Nat} (past : 0x4000 ≤ off) (top : off < 0x10000) (aligned : off % 8 = 0) :
    rows_pal.find? (fun p => p.covers off) = rows_pal[5]? := by
  have front : (rows_pal.take 5).find? (fun p => p.covers off) = none := List.find?_eq_none.mpr fun p hp => by
    have h : ∀ p ∈ rows_pal.take 5, 0 < p.stride ∧ p.base + p.stride * p.count ≤ 0x4000 := by decide
    rw [RegPat.not_covers (h p hp).1 (Nat.le_trans (h p hp).2 past)]
    decide
  have last : rows_pal[5].covers off = true := by
    have : (off - 0x4000) % 8 = 0 := by omega
    have : (off - 0x4000) / 8 < 6144 := by omega
    simp [RegPat.covers, rows_pal, *]
  have rows : rows_pal = rows_pal.take 5 ++ [rows_pal[5]] := rfl
  conv =>
    lhs
    rw [rows, List.find?_append, front, List.find?_singleton, if_pos last]
  rfl

theorem blockOf_pal (d : Fin 4) {off : Nat} (h : off < 0x10000) : blockOf (dieBlk d.val 0x10000 + off) = some (.pal d, off) := by
  have hd := d.isLt
  have o : dieBlk d.val 0x10000 + off - regWindow = (0x101 + 16 * d.val) * 0x10000 + off := by unfold dieBlk regWindow; omega
  have b : ((0x101 + 16 * d.val) * 0x10000 + off) / 0x10000 = 0x101 + 16 * d.val := by omega
  have r : ((0x101 + 16 * d.val) * 0x10000 + off) % 0x10000 = off := by omega
  have die : (0x101 + 16 * d.val - 0x100) / 16 = d.val := by omega
  have page : (0x101 + 16 * d.val) % 16 = 1 := by omega
  simp only [blockOf, o, b, r, die, page]
  rw [if_neg (by unfold dieBlk regWindow; omega)]
  simp (disch := omega) [if_neg, if_pos]

/-- The offsets of a block that `regLoad` reads from the map: not one of the computed views. -/
def readsPlain : Block → Nat → Bool
  | .beat, off => off != 0x18 && off != 0x60
  | .cpd _, off => off != 0 && off != 8 && !(0x4000 ≤ off && off < 0x7000)
  | .cpq, off => off != 0 && off != 8 && !(0x4000 ≤ off && off < 0x7000)
  | .lock, off => off != 0x30
  | .dlock _, off => off != 0x30
  | .canv _, off => off != 0
  | .slv _, off => off != 8
  | .mov _, off => off != 0
  | .ddbg _, _ => false
  | .red, off => off != 0x18
  | .pend, off => off != 0x10
  | _, _ => true

/-- An aligned address of a register that is read from the map and has read-to-clear bits. -/
def isCounter (a : Nat) : Bool :=
  a % 8 == 0 && (blockOf a).any (fun p => readsPlain p.1 p.2) && (rowOf a).any (fun r => r.rc != 0)

theorem State.regLoad_plain {s : State} {b : Block} {off a : Nat} {r : RegRow} (plain : readsPlain b off = true)
    (open_ : b = .pert → s.pertOpen = true) (hr : rowOf a = some r) :
    s.regLoad b off a = ((s.reg a &&& ~~~ r.wo).toNat, if r.rc = 0 then s else s.setReg a (s.reg a &&& ~~~ r.rc)) := by
  cases b <;> simp_all [State.regLoad, readsPlain]
  all_goals intros; omega

/-- A word of PAL_CNT lies in the last run of the map of its palette's block. -/
theorem isCounter_palCnt (d : Fin 4) (p : Fin 16) (w : Fin 128) : isCounter (R.PAL_CNT d.val p.val w.val) = true := by
  have hp := p.isLt
  have hw := w.isLt
  generalize e : 0x4000 + 0x400 * p.val + 8 * w.val = off
  have at_ : R.PAL_CNT d.val p.val w.val = dieBlk d.val 0x10000 + off := by
    unfold R.PAL_CNT
    omega
  have past : 0x4000 ≤ off := by omega
  have top : off < 0x10000 := by omega
  have aligned : off % 8 = 0 := by omega
  have row : rowOf (dieBlk d.val 0x10000 + off) = rows_pal[5]?.map RegPat.row := by
    rw [rowOf, blockOf_pal d top]
    exact congrArg (Option.map RegPat.row) (find_rows_pal past top aligned)
  have al : (dieBlk d.val 0x10000 + off) % 8 = 0 := by unfold dieBlk; omega
  rw [at_, isCounter, row, blockOf_pal d top, al]
  rfl

/-! ### The rows that read a counter -/

theorem isCounter_of_counterOf {c : Instr} {a : Nat} (h : counterOf c = some a) : isCounter a = true := by
  cases c
  all_goals cases h
  case palCntRead.refl d p w => exact isCounter_palCnt d p w
  case palSkcntRead.refl d | canvGateDupRead.refl d | canvHealthRead.refl d | movOobRead.refl d | movEvRead.refl d =>
    revert d
    decide +kernel
  case canvFrzRead.refl d c | canvDrcntRead.refl d c =>
    revert d c
    decide +kernel
  case slvBevRead.refl d b | slvBstallRead.refl d b =>
    revert d b
    decide +kernel
  case qerrRead.refl n | arbStatRead.refl n | applyCntRead.refl n | semCntRead.refl n | lockCntRead.refl n | nmaCeCntRead.refl n |
      nmaUeCntRead.refl n | nmaEvRead.refl n | ryfPortFecRead.refl n | ryfPortLinkcntRead.refl n =>
    revert n
    decide +kernel
  all_goals decide +kernel

theorem exec_counterRead {c : Instr} {a : Nat} (s : State) (h : counterOf c = some a) : exec c s = s.alive (s.accessRead a) := by
  cases c
  all_goals cases h
  all_goals rfl

theorem State.accessRead_counter {s : State} {a off : Nat} {b : Block} {r : RegRow} (counts : isCounter a = true)
    (hb : blockOf a = some (b, off)) (hr : rowOf a = some r) (up : s.regUp b a = true) (open_ : b = .pert → s.pertOpen = true) :
    s.accessRead a =
      (s.setReg a (s.reg a &&& ~~~ r.rc)).emit { kind := .value, nums := [a, (s.reg a &&& ~~~ r.wo).toNat], bytes := [] } := by
  simp only [isCounter, hb, hr, Option.any_some, Bool.and_eq_true, beq_iff_eq, bne_iff_ne] at counts
  obtain ⟨⟨aligned, plain⟩, clears⟩ := counts
  simp only [State.accessRead, State.regRead, hb, up, State.regLoad_plain plain open_ hr, if_neg clears, aligned, ne_eq,
    not_true_eq_false, if_false, if_true]

/-- Settles O7: the register of each counter's row is read from the map, and has read-to-clear bits. -/
theorem counterReadClears : Obligations.CounterReadClears := by
  unfold Obligations.CounterReadClears
  refine ⟨fun c a h => ?_, fun c a off b r s h powered hb hr up open_ => ?_⟩
  · obtain ⟨r, hr, clears⟩ := (Option.any_eq_true _ _).mp (Bool.and_eq_true_iff.mp (isCounter_of_counterOf h)).2
    exact ⟨r, hr, bne_iff_ne.mp clears⟩
  · have counts := isCounter_of_counterOf h
    refine ⟨_, by rw [exec_counterRead s h, State.alive_next _ powered, State.accessRead_counter counts hb hr up open_], rfl, ?_, ?_, ?_⟩
    · exact State.reg_setReg_same ..
    · exact (SameRegsBut.setReg s _ (List.mem_singleton_self a)).step (.emit _ _)
    · exact (SameMemory.setReg s _ _).step (.emit _ _)

end Sys2Proof.Machine
end

section
/-!
PROOFS. StepRunsFront, CanonicalReset, ResetValues, RegisterWriteRefused, RegisterWritePlain, ClearingWrites and ConfigWrites:
the queue of commands, the state after reset, and what a write of a register does.
-/

namespace Sys2Proof.Machine

open Sys2Proof

/-- Settles O1: by the definition of `step`. -/
theorem stepRunsFront : Obligations.StepRunsFront := fun _ _ _ => rfl

/-- Settles O5: the two lists of registers and the memory of the reset state, read off. -/
theorem canonicalReset : Obligations.CanonicalReset := ⟨by decide, by decide, by decide⟩

theorem State.reset_reg {a : Nat} (hi : a ≠ R.ID_PART) (hh : a ≠ R.HOSTP_SB) : State.reset.reg a = coldOf a :=
  sparseGet_of_absent resetRegs a _ fun p hp => by
    rcases List.mem_cons.mp hp with rfl | hp
    · exact hi.symm
    · rw [List.mem_singleton.mp hp]
      exact hh.symm

/-- Settles O6: the reset bank lists two registers, ID_PART and HOSTP_SB. -/
theorem resetValues : Obligations.ResetValues := ⟨fun _ => State.reset_reg, fun _ => rfl, rfl, rfl⟩

/-! ### Which writes are refused, and which take the common path -/

theorem State.regWrite_refused {s : State} {p : RegPath} {a : Nat} {v : Word}
    (h : a % 8 ≠ 0 ∨ ∀ b off, blockOf a = some (b, off) → s.regUp b a = false ∨ pathBars p b a = true) :
    s.regWrite p a v = (false, s) := by
  unfold State.regWrite
  split
  · rfl
  · next aligned =>
    split
    · rfl
    · next b off hb =>
      rcases (h.resolve_left aligned) b off hb with down | barred
      · simp [down]
      · simp [barred]

theorem State.regWrite_stored {s : State} {p : RegPath} {a off : Nat} {b : Block} {v : Word} (aligned : a % 8 = 0)
    (hb : blockOf a = some (b, off)) (up : s.regUp b a = true) (free : pathBars p b a = false) :
    s.regWrite p a v = (true, s.regStore b off a v) := by
  simp [State.regWrite, aligned, hb, up, free]

theorem exec_registerWrite_stored {s : State} {p : RegPath} {a v : BitVec 64} {b : Block} {off : Nat} (powered : s.powered = true)
    (aligned : a.toNat % 8 = 0) (hb : blockOf a.toNat = some (b, off)) (up : s.regUp b a.toNat = true)
    (free : pathBars p b a.toNat = false) : exec (.registerWrite p a v) s = .next (s.regStore b off a.toNat v) := by
  refine (State.alive_next _ powered).trans (congrArg Host.Outcome.next ?_)
  rw [State.accessWrite, State.regWrite_stored aligned hb up free]

/-- Settles O8: a refused write answers the access error. -/
theorem registerWriteRefused : Obligations.RegisterWriteRefused := fun p a v s powered h => by
  refine (State.alive_next _ powered).trans (congrArg Host.Outcome.next ?_)
  rw [State.accessWrite, State.regWrite_refused h]
  rfl

/-- A block whose registers are open to every path, and whose reserved encodings are all allowed. -/
def plainBlock (b : Block) (off : Nat) : Prop := (b = .hubId ∧ off ≠ 0x100) ∨ (∃ d, b = .pal d) ∨ ∃ d, b = .mov d

theorem pathBars_plainBlock {p : RegPath} {b : Block} {a off : Nat} (hb : blockOf a = some (b, off)) (plain : plainBlock b off) :
    pathBars p b a = false := by
  have other {x : Nat} (hx : (blockOf x).any (fun p => p.1 == .hostp) = true) : a ≠ x := by
    rintro rfl
    rw [hb] at hx
    rcases plain with ⟨rfl, _⟩ | ⟨d, rfl⟩ | ⟨d, rfl⟩ <;> cases hx
  have notSec : b ≠ .sec := by rcases plain with ⟨rfl, _⟩ | ⟨d, rfl⟩ | ⟨d, rfl⟩ <;> simp
  simp [pathBars, notSec, other (x := R.HOSTP_KEYSTAT) (by decide), other (x := R.HOSTP_SB) (by decide)]

theorem State.regStore_plainBlock {s : State} {b : Block} {a off : Nat} {v : Word} (plain : plainBlock b off) :
    s.regStore b off a v = s.plainWrite b off a v := by
  rcases plain with ⟨rfl, h⟩ | ⟨d, rfl⟩ | ⟨d, rfl⟩
  · exact if_neg h
  · rfl
  · rfl

theorem legalize_plainBlock {b : Block} {off : Nat} {old v : Word} (plain : plainBlock b off) : legalize b off old v = v := by
  rcases plain with ⟨rfl, _⟩ | ⟨d, rfl⟩ | ⟨d, rfl⟩ <;> rfl

/-- What a write with value `v` makes of the active value `old` of a register with map row `r` (R6). -/
def writtenActive (r : RegRow) (old v : Word) : Word := (((old &&& ~~~ r.rw) ||| (v &&& r.rw)) &&& ~~~ (v &&& r.w1c)) ||| (v &&& r.w1s)

theorem State.plainWrite_eq {s : State} {b : Block} {a off : Nat} {v : Word} {r : RegRow} (plain : plainBlock b off)
    (hr : rowOf a = some r) (free : s.namedBy b = none) :
    s.plainWrite b off a v = if r.st = 0 then s.setReg a (writtenActive r (s.reg a) v)
      else (s.setReg a (writtenActive r (s.reg a) v)).setStaged a ((s.stagedReg a &&& ~~~ r.st) ||| (v &&& r.st)) := by
  have named : (s.setReg a (writtenActive r (s.reg a) v)).namedBy b = none := free
  simp only [State.plainWrite, hr, legalize_plainBlock plain]
  rw [← writtenActive, named]
  rfl

theorem State.stagedReg_setStaged_same (s : State) (a : Nat) (v : Word) : (s.setStaged a v).stagedReg a = v :=
  sparseGet_set_same ..

theorem State.stagedReg_setStaged_other (s : State) {a b : Nat} (v : Word) (h : a ≠ b) :
    (s.setStaged a v).stagedReg b = s.stagedReg b := sparseGet_set_other _ h ..

/-- Settles O9: the blocks named here have no reserved encoding, and a pending apply that does not name the block leaves the
staged bank open. -/
theorem registerWritePlain : Obligations.RegisterWritePlain := fun p a v b off r s powered aligned hb hr up plain free => by
  refine ⟨_, exec_registerWrite_stored powered aligned hb up (pathBars_plainBlock hb plain), ?_⟩
  rw [State.regStore_plainBlock plain, State.plainWrite_eq plain hr free]
  split
  · next h =>
    have other {x} (hx : x ≠ a.toNat) := s.reg_setReg_other a.toNat x (writtenActive r (s.reg a.toNat) v) hx.symm
    refine ⟨s.reg_setReg_same .., ?_, fun x hx => ⟨other hx, rfl⟩, .setReg s _ _⟩
    rw [h]
    show s.stagedReg a.toNat = (s.stagedReg a.toNat &&& ~~~0#64) ||| (v &&& 0#64)
    rw [BitVec.not_zero, BitVec.and_allOnes, BitVec.and_zero, BitVec.or_zero]
  · refine ⟨s.reg_setReg_same .., State.stagedReg_setStaged_same .., fun x hx => ⟨?_, ?_⟩, .of_eq rfl rfl⟩
    · exact s.reg_setReg_other _ _ _ hx.symm
    · exact State.stagedReg_setStaged_other _ _ hx.symm

/-! ### Clearing by writing -/

theorem testBit_sub_and (n m i : Nat) : (n - (n &&& m)).testBit i = (n.testBit i && !(m.testBit i)) := by
  have le : n &&& m ≤ n := Nat.and_le_left
  have low : (n &&& m) % 2 = 1 ↔ n % 2 = 1 ∧ m % 2 = 1 := Nat.and_mod_two_eq_one
  induction i generalizing n m with
  | zero =>
    simp only [Nat.testBit_zero, ← decide_not, ← Bool.decide_and, decide_eq_decide]
    omega
  | succ i ih =>
    have half : (n - (n &&& m)) / 2 = n / 2 - (n / 2 &&& m / 2) := by
      rw [← Nat.and_div_two]
      omega
    rw [Nat.testBit_succ, Nat.testBit_succ, Nat.testBit_succ, half, ih _ _ Nat.and_le_left Nat.and_mod_two_eq_one]

theorem bitOf_sub_and (n m i : Nat) : bitOf (n - (n &&& m)) i = (bitOf n i && !(bitOf m i)) := by
  rw [bitOf_eq_testBit, bitOf_eq_testBit, bitOf_eq_testBit, testBit_sub_and]

theorem palStaleWrite_spec (d : Fin 4) (v : Word) (s : State) (powered : s.powered = true) (up : s.blockUp (.pal d) = true) :
    exec (.palStaleWrite d v) s = .next (s.setReg (R.PAL_STALE d.val) (s.reg (R.PAL_STALE d.val) &&& ~~~ v)) :=
  (State.alive_next _ powered).trans (congrArg Host.Outcome.next (if_pos up))

theorem arbCutWrite_spec (pl : Fin 5) (v : BitVec 64) (s : State) (up : s.mainUp = true) (place : s.placeUp pl = true) :
    exec (.arbCutWrite pl v) s = .next (s.arbCutClear pl.val v.toNat) :=
  (State.whenMain_next _ up).trans (congrArg Host.Outcome.next (if_pos place))

theorem State.alertWrite_mask (s : State) (v : Word) :
    (s.alertWrite v).fld R.HOSTP_ALERT F.HOSTP_ALERT_MASK = F.HOSTP_ALERT_MASK.get v := by
  rw [State.alertWrite, State.fld_setFld_apart _ _ _ _ _ (by decide) (by decide),
    State.fld_setFld_same _ _ _ _ (by decide) (Field.get_lt _ _)]

theorem State.alertWrite_status (s : State) (v : Word) :
    (s.alertWrite v).fld R.HOSTP_ALERT F.HOSTP_ALERT_STATUS = s.fld R.HOSTP_ALERT F.HOSTP_ALERT_STATUS -
      (s.fld R.HOSTP_ALERT F.HOSTP_ALERT_STATUS &&& F.HOSTP_ALERT_STATUS.get v) :=
  State.fld_setFld_same _ _ _ _ (by decide) (Nat.lt_of_le_of_lt (Nat.sub_le ..) (Field.get_lt _ _))

/-- Settles O10: each row is one write of one register. -/
theorem clearingWrites : Obligations.ClearingWrites := by
  unfold Obligations.ClearingWrites
  refine ⟨fun d v s powered up => ?_, fun pl v s up place => ?_, fun v s powered => ?_, fun s powered => ?_, fun s up => ?_,
    fun s up => ?_⟩
  · exact ⟨_, palStaleWrite_spec d v s powered up, s.reg_setReg_same .., .setReg s _ (by simp), .setReg s _ _⟩
  · refine ⟨_, arbCutWrite_spec pl v s up place, ?_, .setFld s _ _ (by simp), .setFld s _ _ _⟩
    exact s.fld_setFld_same _ _ _ (by simp [Field.fits, F.ARB_CUT_WHO]) (Nat.lt_of_le_of_lt Nat.and_le_left (Field.get_lt _ _))
  · refine ⟨_, State.alive_next _ powered, s.alertWrite_mask v, fun i => ?_,
      (SameRegsBut.setFld s _ _ (by simp)).step (.setFld _ _ _ (by simp)), (SameMemory.setFld s _ _ _).step (.setFld _ _ _ _)⟩
    rw [State.alertWrite_status, bitOf_sub_and]
  · exact ⟨_, State.alive_next _ powered, s.fld_setFld_same _ _ _ (by decide) (by decide),
      s.fld_setFld_apart _ _ _ _ (by decide) (by decide), .setFld s _ _ (by simp), .setFld s _ _ _⟩
  · exact ⟨_, State.whenMain_next _ up, s.fld_setFld_same _ _ _ (by decide) (by decide), .setFld s _ _ (by simp), .setFld s _ _ _⟩
  · exact ⟨_, State.whenMain_next _ up, s.fld_setFld_same _ _ _ (by decide) (by decide),
      s.fld_setFld_apart _ _ _ _ (by decide) (by decide), .setFld s _ _ (by simp), .setFld s _ _ _⟩

/-! ### Registers of configuration -/

theorem Field.get_and (f : Field) (v m : Word) : f.get (v &&& m) = f.get v &&& f.get m := by
  refine Nat.eq_of_testBit_eq fun i => ?_
  simp only [Field.get, BitVec.toNat_and, Nat.testBit_and, bitsOf_testBit]
  cases decide (i < f.width) <;> rfl

theorem State.nmaCfgWrite_reg (s : State) (st : Nat) (v : Word) : (s.nmaCfgWrite st v).reg (R.NMA_CFG st) = v &&& 0x100FF := by
  dsimp only [State.nmaCfgWrite]
  split
  · exact s.reg_setReg_same ..
  · exact s.reg_setReg_same ..

theorem SameRegsBut.nmaCfgWrite (s : State) (st : Nat) (v : Word) : SameRegsBut [R.NMA_CFG st] s (s.nmaCfgWrite st v) :=
  have written : SameRegsBut [R.NMA_CFG st] s (s.setReg (R.NMA_CFG st) (v &&& 0x100FF)) := .setReg s _ (by simp)
  .ite (written.step (.of_eq rfl rfl)) written

theorem State.nmaCfgWrite_held (s : State) (st : Nat) (v : Word) (off : F.NMA_CFG_NOCOMBINE.get v = 1) :
    sparseGet (s.nmaCfgWrite st v).held st [] = [] := by
  have bit : (s.setReg (R.NMA_CFG st) (v &&& 0x100FF)).fld (R.NMA_CFG st) F.NMA_CFG_NOCOMBINE = 1 := by
    rw [State.fld, State.reg_setReg_same, Field.get_and, off]
    decide
  rw [State.nmaCfgWrite, if_pos bit, State.writeBackIn, sparseGet_set_same]
  simp

theorem State.fld_withLfsr (s : State) (l : List Word) (a : Nat) (f : Field) : ({ s with lfsr := l } : State).fld a f = s.fld a f := rfl

theorem State.pertCtl_closed {s : State} (h : s.pertOpen = false) (v : Nat) : s.pertCtl v = s := if_pos h

theorem State.eccArm_closed {s : State} (h : s.pertOpen = false) (v : Word) : s.eccArm v = s := if_pos h

theorem State.eccArm_unarmed {s : State} (h : s.pertOpen = true) {v : Word} (arm : F.PERT_ECC_CTL_ARM.get v = 0) :
    s.eccArm v = s.setFld R.PERT_ECC_CTL F.PERT_ECC_CTL_XOR (F.PERT_ECC_CTL_XOR.get v) := by
  rw [State.eccArm, if_neg (by simp [h]), if_pos (.inl arm)]

theorem State.pertCtl_frame {s : State} (h : s.pertOpen = true) (v : Nat) :
    (s.pertCtl v).fld R.PERT_CTL F.PERT_CTL_ENABLE = v % 128 ∧ SameRegsBut [R.PERT_CTL] s (s.pertCtl v) ∧
      SameMemory s (s.pertCtl v) := by
  rw [State.pertCtl, if_neg (by simp [h])]
  exact ⟨State.fld_setFld_same _ _ _ _ (by decide) (Nat.mod_lt _ (by decide)),
    (SameRegsBut.of_eq rfl rfl).step (.setFld _ _ _ (by simp)), (SameMemory.of_eq rfl rfl).step (.setFld _ _ _ _)⟩

/-- Settles O12: each row writes the fields that are its own. -/
theorem configWrites : Obligations.ConfigWrites := by
  unfold Obligations.ConfigWrites
  refine ⟨fun st v s powered up => ?_, fun v s up => ⟨fun closed => ?_, fun opened => ⟨?_, fun arm => ?_⟩⟩, fun v s up => ⟨fun on => ?_, fun off => ?_⟩⟩
  · exact ⟨_, (State.alive_next _ powered).trans (congrArg Host.Outcome.next (if_pos up)), s.nmaCfgWrite_reg .., .nmaCfgWrite ..,
      s.nmaCfgWrite_held _ _⟩
  · exact ⟨(State.whenMain_next _ up).trans (by rw [State.pertCtl_closed closed]),
      (State.whenMain_next _ up).trans (by rw [State.eccArm_closed closed])⟩
  · exact ⟨_, State.whenMain_next _ up, State.pertCtl_frame opened _⟩
  · refine ⟨_, (State.whenMain_next _ up).trans (by rw [State.eccArm_unarmed opened arm]), ?_, .setFld s _ _ (by simp), .setFld s _ _ _⟩
    exact s.fld_setFld_same _ _ _ (by decide) (Field.get_lt _ _)
  · exact (State.whenMain_next _ up).trans (congrArg Host.Outcome.next (if_neg on))
  · refine ⟨_, (State.whenMain_next _ up).trans (congrArg Host.Outcome.next (if_pos off)), ?_, ?_, ?_, ?_⟩
    · rw [State.reg_setFld_other _ _ _ _ _ (by decide), State.reg_setReg_same]
    · exact State.fld_setFld_same _ _ _ _ (by decide) (by decide)
    · exact (SameRegsBut.setReg s _ (by simp)).step (.setFld _ _ _ (by simp))
    · exact (SameMemory.setReg s _ _).step (.setFld _ _ _ _)

end Sys2Proof.Machine
end

section
/-!
PROOFS. The easels: what the operations on a queue's state do, the issue of a word, and the instructions without a wait of their own.
-/

namespace Sys2Proof.Machine

open Sys2Proof

/-! ### The registers of a queue -/

section Registers
variable (q i j : Nat)

@[simp] theorem qpc_ne_qstat : R.QPC q ≠ R.QSTAT q := by simp only [R.QPC, R.QSTAT]; omega

@[simp] theorem qstat_ne_qpc : R.QSTAT q ≠ R.QPC q := (qpc_ne_qstat q).symm

@[simp] theorem qsreg_ne_qpc : R.QSREG q i ≠ R.QPC q := by simp only [R.QSREG, R.QPC]; omega

@[simp] theorem qsreg_ne_qstat : R.QSREG q i ≠ R.QSTAT q := by simp only [R.QSREG, R.QSTAT]; omega

@[simp] theorem qpred_ne_qpc : R.QPRED q ≠ R.QPC q := by simp only [R.QPRED, R.QPC]; omega

@[simp] theorem qpred_ne_qstat : R.QPRED q ≠ R.QSTAT q := by simp only [R.QPRED, R.QSTAT]; omega

@[simp] theorem qepoch_ne_qpc : R.QEPOCH q ≠ R.QPC q := by simp only [R.QEPOCH, R.QPC]; omega

@[simp] theorem qepoch_ne_qstat : R.QEPOCH q ≠ R.QSTAT q := by simp only [R.QEPOCH, R.QSTAT]; omega

@[simp] theorem qsreg_inj : R.QSREG q i = R.QSREG q j ↔ i = j := by simp only [R.QSREG]; omega

theorem qsreg_ne_qpred {i : Nat} (h : i ≠ 0) : R.QSREG q i ≠ R.QPRED q := by simp only [R.QSREG, R.QPRED]; omega

end Registers

/-! ### One bit of a word put -/

theorem putBits_one_lt {n i w : Nat} (v : Nat) (hn : n < 2 ^ w) (hi : i < w) : putBits n i 1 v < 2 ^ w := by
  refine Nat.lt_pow_two_of_testBit _ fun j hj => ?_
  rw [putBits_testBit, if_neg (by omega)]
  exact Nat.testBit_lt_two_pow (Nat.lt_of_lt_of_le hn (Nat.pow_le_pow_right (by decide) hj))

theorem bitOf_putBits_one (n i r : Nat) (b : Bool) : bitOf (putBits n i 1 (b2n b)) r = if r = i then b else bitOf n r := by
  rw [bitOf_eq_testBit, bitOf_eq_testBit, putBits_testBit]
  by_cases h : r = i
  · subst h
    rw [if_pos (by omega), if_pos rfl, Nat.sub_self]
    cases b <;> rfl
  · rw [if_neg (by omega), if_neg h]

/-! ### The state of a queue -/

section Frames
variable {s : State} {q : Nat} {l : List Nat}

theorem SameRegsBut.updQ {f : QueueInt → QueueInt} : SameRegsBut l s (s.updQ q f) := .of_eq rfl rfl

theorem SameMemory.updQ {f : QueueInt → QueueInt} : SameMemory s (s.updQ q f) := .of_eq rfl rfl

theorem SameRegsBut.setQState {st on : Nat} (h : R.QSTAT q ∈ l) : SameRegsBut l s (s.setQState q st on) :=
  .step (.setFld _ _ _ h) (.setFld _ _ _ h)

theorem SameMemory.setQState {st on : Nat} : SameMemory s (s.setQState q st on) := .of_eq rfl rfl

theorem SameRegsBut.setSreg {v i : Nat} (h : i ≠ 0 → R.QSREG q i ∈ l) : SameRegsBut l s (s.setSreg q i v) := by
  unfold State.setSreg
  split
  · exact .refl ..
  · exact .setReg _ _ (h ‹_›)

theorem SameMemory.setSreg {i v : Nat} : SameMemory s (s.setSreg q i v) := by
  unfold State.setSreg
  split <;> exact .of_eq rfl rfl

theorem SameRegsBut.setPred {i : Nat} {b : Bool} (h : R.QPRED q ∈ l) : SameRegsBut l s (s.setPred q i b) := by
  unfold State.setPred
  split
  · exact .refl ..
  · exact .setFld _ _ _ h

theorem SameMemory.setPred {i : Nat} {b : Bool} : SameMemory s (s.setPred q i b) := by
  unfold State.setPred
  split <;> exact .of_eq rfl rfl

theorem SameRegsBut.finishInstr {cost pc : Nat} (hp : R.QPC q ∈ l) (hs : R.QSTAT q ∈ l) :
    SameRegsBut l s (s.finishInstr q cost pc) :=
  .step (.updQ (f := fun i => { i with issued := i.issued + cost, wait := none })) (.step (.setReg _ _ hp) (.setQState hs))

theorem SameMemory.finishInstr {cost pc : Nat} : SameMemory s (s.finishInstr q cost pc) := .of_eq rfl rfl

theorem SameRegsBut.next (hp : R.QPC q ∈ l) (hs : R.QSTAT q ∈ l) : SameRegsBut l s (s.next q) := .finishInstr hp hs

theorem SameMemory.next : SameMemory s (s.next q) := .finishInstr

theorem SameRegsBut.waitOn {on : Nat} {w : WaitOn} (h : R.QSTAT q ∈ l) : SameRegsBut l s (s.waitOn q on w) :=
  .step (.updQ (f := fun i => { i with wait := some w })) (.setQState h)

theorem SameMemory.waitOn {on : Nat} {w : WaitOn} : SameMemory s (s.waitOn q on w) := .of_eq rfl rfl

end Frames

section Queue
variable (s : State) (q : Nat)

@[simp] theorem State.qint_setQint_same (i : QueueInt) : (s.setQint q i).qint q = i := sparseGet_set_same _ _ _ _

@[simp] theorem State.qint_updQ_same (f : QueueInt → QueueInt) : (s.updQ q f).qint q = f (s.qint q) := s.qint_setQint_same q _

theorem State.qint_updQ_other {p : Nat} (f : QueueInt → QueueInt) (h : q ≠ p) : (s.updQ q f).qint p = s.qint p :=
  sparseGet_set_other _ h _ _ _

@[simp] theorem State.qint_setFld (a : Nat) (f : Field) (v : Nat) : (s.setFld a f v).qint q = s.qint q := rfl

@[simp] theorem State.qint_setReg (a : Nat) (v : Word) : (s.setReg a v).qint q = s.qint q := rfl

@[simp] theorem State.qint_setQState (p st on : Nat) : (s.setQState p st on).qint q = s.qint q := rfl

@[simp] theorem State.qint_setSreg (p i v : Nat) : (s.setSreg p i v).qint q = s.qint q := by
  unfold State.setSreg
  split <;> rfl

@[simp] theorem State.qint_setPred (p i : Nat) (b : Bool) : (s.setPred p i b).qint q = s.qint q := by
  unfold State.setPred
  split <;> rfl

@[simp] theorem State.reg_updQ (f : QueueInt → QueueInt) (a : Nat) : (s.updQ q f).reg a = s.reg a := rfl

@[simp] theorem State.fld_updQ (f : QueueInt → QueueInt) (a : Nat) (g : Field) : (s.updQ q f).fld a g = s.fld a g := rfl

theorem State.reg_setQState_other (st on : Nat) {a : Nat} (h : a ≠ R.QSTAT q) : (s.setQState q st on).reg a = s.reg a := by
  rw [State.setQState, State.reg_setFld_other _ _ _ _ _ h.symm, State.reg_setFld_other _ _ _ _ _ h.symm]

theorem State.qState_setQState (on : Nat) {st : Nat} (h : st < 16) : (s.setQState q st on).qState q = st := by
  rw [State.qState, State.setQState, State.fld_setFld_apart _ _ _ _ _ (by decide) (by decide),
    State.fld_setFld_same _ _ _ _ (by decide) h]

theorem State.waitOn_setQState (st : Nat) {on : Nat} (h : on < 16) :
    (s.setQState q st on).fld (R.QSTAT q) F.QSTAT_WAIT_ON = on :=
  State.fld_setFld_same _ _ _ _ (by decide) h

@[simp] theorem State.qpc_updQ (p : Nat) (f : QueueInt → QueueInt) : (s.updQ p f).qpc q = s.qpc q := rfl

@[simp] theorem State.sreg_updQ (p i : Nat) (f : QueueInt → QueueInt) : (s.updQ p f).sreg q i = s.sreg q i := rfl

@[simp] theorem State.qpc_setQState (st on : Nat) : (s.setQState q st on).qpc q = s.qpc q := by
  rw [State.qpc, s.reg_setQState_other q st on (qpc_ne_qstat q), State.qpc]

@[simp] theorem State.sreg_setQState (st on i : Nat) : (s.setQState q st on).sreg q i = s.sreg q i := by
  rw [State.sreg, State.sreg, s.reg_setQState_other q st on (qsreg_ne_qstat q i)]

@[simp] theorem State.pred_setQState (st on i : Nat) : (s.setQState q st on).pred q i = s.pred q i := by
  rw [State.pred, State.pred, State.fld, s.reg_setQState_other q st on (qpred_ne_qstat q), State.fld]

@[simp] theorem State.sreg_setPc (pc i : Nat) : (s.setPc q pc).sreg q i = s.sreg q i := by
  rw [State.sreg, State.sreg, State.setPc, State.reg_setReg_other _ _ _ _ (qsreg_ne_qpc q i).symm]

@[simp] theorem State.pred_setPc (pc i : Nat) : (s.setPc q pc).pred q i = s.pred q i := by
  rw [State.pred, State.pred, State.setPc, State.fld_setReg_other _ _ _ _ _ (qpred_ne_qpc q).symm]

theorem State.qpc_setPc (pc : Nat) : (s.setPc q pc).qpc q = pc % 2 ^ 64 := by
  rw [State.qpc, State.setPc, State.reg_setReg_same, BitVec.toNat_ofNat]

/-- A scalar register after a write of one: register 0 takes none (R199). -/
theorem State.sreg_setSreg (i v r : Nat) : (s.setSreg q i v).sreg q r = if r = i ∧ r ≠ 0 then v % 2 ^ 64 else s.sreg q r := by
  rw [State.setSreg]
  by_cases hi : i = 0
  · rw [if_pos hi, if_neg (by omega)]
  rw [if_neg hi]
  by_cases hr : r = i
  · subst hr
    rw [if_pos ⟨rfl, hi⟩, State.sreg, if_neg hi, State.reg_setReg_same, BitVec.toNat_ofNat]
  · rw [if_neg (by omega), State.sreg, State.sreg, State.reg_setReg_other _ _ _ _ (by simpa using Ne.symm hr)]

/-- A predicate after a write of one: predicate 0 takes none (R199). -/
theorem State.pred_setPred {i r : Nat} (b : Bool) (hi : i < 8) (hr : r < 8) :
    (s.setPred q i b).pred q r = if r = i ∧ r ≠ 0 then b else s.pred q r := by
  rw [State.setPred]
  by_cases h0 : i = 0
  · rw [if_pos h0, if_neg (by omega)]
  rw [if_neg h0]
  by_cases hr0 : r = 0
  · subst hr0
    rw [if_neg (by omega)]
    rfl
  have hp : s.fld (R.QPRED q) F.QPRED_P < 2 ^ 8 := Field.get_lt _ _
  rw [State.pred, State.pred, if_neg hr0, if_neg hr0, State.setBit,
    State.fld_setFld_same _ _ _ _ (by decide) (putBits_one_lt _ hp hi), bitOf_putBits_one]
  by_cases hri : r = i
  · simp [hri, h0]
  · simp [hri]

@[simp] theorem State.qpc_setSreg (i v : Nat) : (s.setSreg q i v).qpc q = s.qpc q :=
  congrArg BitVec.toNat ((SameRegsBut.setSreg (l := [R.QSREG q i]) fun _ => .head _).1 _ (by
    simp only [List.mem_singleton]
    exact (qsreg_ne_qpc q i).symm))

@[simp] theorem State.qpc_setPred (i : Nat) (b : Bool) : (s.setPred q i b).qpc q = s.qpc q :=
  congrArg BitVec.toNat ((SameRegsBut.setPred (l := [R.QPRED q]) (.head _)).1 _ (by
    simp only [List.mem_singleton]
    exact (qpred_ne_qpc q).symm))

end Queue

/-! ### Completion of an instruction, and its wait -/

section Finish
variable (s : State) (q cost pc : Nat)

theorem State.qpc_finishInstr : (s.finishInstr q cost pc).qpc q = pc % 2 ^ 64 := by
  rw [State.finishInstr, State.qpc_setQState, State.qpc_setPc]

theorem State.qState_finishInstr : (s.finishInstr q cost pc).qState q = qRun := State.qState_setQState _ _ _ (by decide)

theorem State.qint_finishInstr :
    (s.finishInstr q cost pc).qint q = { s.qint q with issued := (s.qint q).issued + cost, wait := none } := by
  rw [State.finishInstr, State.qint_setQState, State.setPc, State.qint_setReg, State.qint_updQ_same]

@[simp] theorem State.sreg_finishInstr (i : Nat) : (s.finishInstr q cost pc).sreg q i = s.sreg q i := by
  rw [State.finishInstr, State.sreg_setQState, State.sreg_setPc, State.sreg_updQ]

@[simp] theorem State.pred_finishInstr (i : Nat) : (s.finishInstr q cost pc).pred q i = s.pred q i := by
  rw [State.finishInstr, State.pred_setQState, State.pred_setPc]
  rfl

/-- `next` completes a one-word instruction of a queue whose word count it finds. -/
theorem State.next_done : EaselDone s (s.next q) q :=
  ⟨by rw [State.next, State.finishWait, State.qpc_finishInstr, Nat.mod_mod], s.qState_finishInstr q _ _,
    congrArg QueueInt.issued (s.qint_finishInstr q _ _), congrArg QueueInt.wait (s.qint_finishInstr q _ _)⟩

@[simp] theorem State.sreg_next (i : Nat) : (s.next q).sreg q i = s.sreg q i := s.sreg_finishInstr ..

@[simp] theorem State.pred_next (i : Nat) : (s.next q).pred q i = s.pred q i := s.pred_finishInstr ..

variable {s q} in
/-- Completion is measured from any state of the same PC and word count. -/
theorem EaselDone.of {t : State} (h : EaselDone s t q) {u : State} (hp : s.qpc q = u.qpc q)
    (hi : (s.qint q).issued = (u.qint q).issued) : EaselDone u t q := by
  obtain ⟨hpc, hst, hn, hw⟩ := h
  exact ⟨hpc.trans (by rw [hp]), hst, hn.trans (by rw [hi]), hw⟩

theorem State.setSreg_next_done (i v : Nat) : EaselDone s ((s.setSreg q i v).next q) q :=
  ((s.setSreg q i v).next_done q).of (by simp) (by simp)

theorem State.setPred_next_done (i : Nat) (b : Bool) : EaselDone s ((s.setPred q i b).next q) q :=
  ((s.setPred q i b).next_done q).of (by simp) (by simp)

/-- A word written to a scalar register, then the next word. -/
theorem State.setSreg_next_wrote (i : Nat) {v : Nat} (hv : v < 2 ^ 64) : EaselWrote s ((s.setSreg q i v).next q) q i v := by
  refine ⟨s.setSreg_next_done q i v, fun r _ => ?_, ?_, .step .setSreg .next⟩
  · rw [State.sreg_next, State.sreg_setSreg, Nat.mod_eq_of_lt hv]
  · refine .step (.setSreg fun h => ?_) (.next ?_ ?_)
    · simp [h]
    all_goals split <;> simp

theorem State.nextRd_wrote (w : Nat) {v : Nat} (hv : v < 2 ^ 64) : EaselWrote s (s.nextRd q w v) q (cwRd w) v :=
  s.setSreg_next_wrote q _ hv

/-- A predicate written, then the next word: memory and every other register are as before. -/
theorem State.setPred_next_wrote {i : Nat} (b : Bool) (hi : i < 8) :
    EaselDone s ((s.setPred q i b).next q) q ∧ SameMemory s ((s.setPred q i b).next q) ∧
      SameRegsBut [R.QPRED q, R.QPC q, R.QSTAT q] s ((s.setPred q i b).next q) ∧
      ∀ r < 8, ((s.setPred q i b).next q).pred q r = if r = i ∧ r ≠ 0 then b else s.pred q r :=
  ⟨s.setPred_next_done q i b, .step .setPred .next, .step (.setPred (by simp)) (.next (by simp) (by simp)),
    fun r hr => by rw [State.pred_next, State.pred_setPred _ _ _ hi hr]⟩

/-- What a wait leaves: the queue waits on its cause, PC and registers are as before. -/
theorem State.waitOn_waits {on : Nat} (w : WaitOn) (h : on < 16) : EaselWaits s (s.waitOn q on w) q on :=
  ⟨State.qState_setQState _ _ _ (by decide), State.waitOn_setQState _ _ _ h, by rw [State.waitOn]; simp,
    fun r _ => by rw [State.waitOn]; simp⟩

theorem State.qint_waitOn (on : Nat) (w : WaitOn) : (s.waitOn q on w).qint q = { s.qint q with wait := some w } := by
  rw [State.waitOn]
  simp

end Finish

/-! ### Issue (R198 to R201) -/

theorem cwKnown_of_cwOk {w : Nat} (h : cwOk w = true) : cwKnown (cwOp w) = true := by
  simp only [cwOk, Bool.and_eq_true] at h
  exact h.1.1

section Issue
variable {s u : State} {q w op : Nat} {body : Nat → State → State}

/-- The queue stands at a word: the outcome is that of its fetch. -/
theorem State.issue_of_running (hi : s.issuing q = true) (hr : s.qState q = qRun) (hl : (s.qint q).inList = true)
    (hf : (s.qint q).stFault = none) :
    s.issue q op body = match s.fetch q (s.qpc q) 8 8 with
      | (.error st, t) => t.queueFault q st 0
      | (.ok b, t) =>
        if cwKnown (cwOp (ofLe b)) && cwOp (ofLe b) != op then s
        else if cwOk (ofLe b) = false then t.queueFault q stDescriptor (ofLe b)
        else if (t.qint q).maxw ≠ 0 ∧ (t.qint q).maxw < (t.qint q).issued + cwCost (ofLe b) then
          t.queueFault q stDescriptor (ofLe b)
        else if t.pred q (cwPs (ofLe b)) == cwPn (ofLe b) then
          t.finishInstr q (cwCost (ofLe b)) ((t.qpc q + 8 * cwCost (ofLe b)) % 2 ^ 64)
        else body (ofLe b) t := by
  unfold State.issue
  rw [if_neg (by simp [hi, hr, hl]), if_neg (by simp [hf])] <;> rfl

theorem EaselFetched.issue (h : EaselFetched s q w u) (hop : cwOp w = op) :
    s.issue q op body = if u.pred q (cwPs w) == cwPn w then u.finishInstr q (cwCost w) ((u.qpc q + 8 * cwCost w) % 2 ^ 64)
      else body w u := by
  obtain ⟨hi, hr, hl, hf, ⟨b, hb, rfl⟩, hok, hroom⟩ := h
  rw [State.issue_of_running hi hr hl hf, hb]
  dsimp only
  rw [if_neg (by simp [hop]), if_neg (by simp [hok]), if_neg (by omega)]

/-- A word that is ready runs its body. -/
theorem EaselReady.issue (h : EaselReady s q w u) (hop : cwOp w = op) : s.issue q op body = body w u := by
  rw [h.1.issue hop, if_neg (by simpa using h.2)]

/-- A word that its predicate bars is passed over. -/
theorem EaselFetched.issue_barred (h : EaselFetched s q w u) (hop : cwOp w = op) (hp : u.pred q (cwPs w) = cwPn w) :
    s.issue q op body = u.finishInstr q (cwCost w) ((u.qpc q + 8 * cwCost w) % 2 ^ 64) := by
  rw [h.issue hop, if_pos (by simpa using hp)]

end Issue

/-! ### Operand arithmetic -/

theorem State.sreg_lt (s : State) (q i : Nat) : s.sreg q i < 2 ^ 64 := by
  unfold State.sreg
  split
  · decide
  · exact BitVec.isLt _

theorem wrapInt_lt (v : Int) (w : Nat) : wrapInt v w < 2 ^ w := by
  have h2 : (0 : Int) < ((2 ^ w : Nat) : Int) := by exact_mod_cast Nat.two_pow_pos w
  have := Int.emod_lt_of_pos v h2
  have := Int.emod_nonneg v (Int.ne_of_gt h2)
  rw [wrapInt]
  omega

theorem State.opB_lt (s : State) (q w : Nat) : s.opB q w < 2 ^ 64 := by
  unfold State.opB
  split
  · exact wrapInt_lt ..
  · exact s.sreg_lt ..

theorem sub_mod_eq_wrapInt {a b : Nat} (hb : b < 2 ^ 64) : (a + 2 ^ 64 - b) % 2 ^ 64 = wrapInt ((a : Int) - b) 64 := by
  rw [wrapInt]
  omega

/-- An arithmetic row that is ready writes its result. -/
theorem EaselReady.alu {s u : State} {q w op : Nat} {f : Nat → Nat → Nat} {v : Nat} {r : Res} (h : EaselReady s q w u)
    (hop : cwOp w = op) (hr : r = s.alu q op f) (hv : f (u.sreg q (cwRa w)) (u.opB q w) % 2 ^ 64 = v) :
    ∃ t, r = .next t ∧ EaselWrote u t q (cwRd w) v := by
  subst hr hv
  exact ⟨_, congrArg Host.Outcome.next (h.issue hop), u.nextRd_wrote q w (Nat.mod_lt _ (Nat.two_pow_pos 64))⟩

/-- Settles O29. -/
theorem easelArithmetic : Obligations.EaselArithmetic := by
  intro q w s u h a b
  have ha : a < 2 ^ 64 := u.sreg_lt ..
  have hb : b < 2 ^ 64 := u.opB_lt ..
  refine ⟨fun hop => h.alu hop (f := fun a b => a + b) rfl rfl, fun hop => h.alu hop (f := fun a b => a + 2 ^ 64 - b) rfl ?_,
    fun hop => h.alu hop (f := fun a b => a &&& b) rfl ?_, fun hop => h.alu hop (f := fun a b => a ||| b) rfl ?_,
    fun hop => h.alu hop (f := fun a b => a ^^^ b) rfl ?_, fun hop => h.alu hop (f := fun a b => a <<< (b % 64)) rfl ?_,
    fun hop => h.alu hop (f := fun a b => a >>> (b % 64)) rfl ?_,
    fun hop => h.alu hop (f := fun a b => wrapInt (signedOf a 64 / 2 ^ (b % 64)) 64) rfl ?_,
    fun hop => h.alu hop (f := fun a b => a * b) rfl rfl⟩
  · exact sub_mod_eq_wrapInt hb
  · exact Nat.mod_eq_of_lt (Nat.and_lt_two_pow _ hb)
  · exact Nat.mod_eq_of_lt (Nat.or_lt_two_pow ha hb)
  · exact Nat.mod_eq_of_lt (Nat.xor_lt_two_pow ha hb)
  · exact congrArg (· % 2 ^ 64) (Nat.shiftLeft_eq ..)
  · exact (Nat.mod_eq_of_lt (Nat.lt_of_le_of_lt (Nat.shiftRight_le ..) ha)).trans (Nat.shiftRight_eq_div_pow ..)
  · exact Nat.mod_eq_of_lt (wrapInt_lt ..)

end Sys2Proof.Machine
end

section
/-!
PROOFS. The easels: words barred and words that fault, moves, predicates and control flow.
-/

namespace Sys2Proof.Machine

open Sys2Proof

/-! ### The rows that issue a word -/

/-- Every row of the table issues its word through `issue`. -/
theorem exec_easelOp {c : Instr} {q op : Nat} (h : easelOp c = some (q, op)) :
    ∃ body, ∀ s, exec c s = .next (s.issue q op body) := by
  cases c
  all_goals cases h
  all_goals exact ⟨_, fun _ => rfl⟩

/-- Settles O27: the fetch, the table and MAXW let the word pass, and its predicate ends it there. -/
theorem predicatedOff : Obligations.PredicatedOff := by
  intro c q op w s u hc h hop hp
  obtain ⟨body, hb⟩ := exec_easelOp hc
  refine ⟨_, (hb s).trans (congrArg Host.Outcome.next (h.issue_barred hop hp)), ?_, u.qState_finishInstr q _ _,
    congrArg QueueInt.issued (u.qint_finishInstr q _ _), .finishInstr (by simp) (by simp), .finishInstr⟩
  rw [State.qpc_finishInstr, Nat.mod_mod]

/-- Settles O28. -/
theorem fetchFaults : Obligations.FetchFaults := by
  intro c q op s u hc hi hr hl hf
  obtain ⟨body, hb⟩ := exec_easelOp hc
  have hiss : s.issue q op body = _ := State.issue_of_running hi hr hl hf
  refine ⟨fun st hst => ?_, fun b hfb hrow hok => ?_⟩
  · rw [hb, hiss, hst]
  · rw [hb, hiss, hfb]
    dsimp only
    have hpass : (cwKnown (cwOp (ofLe b)) && cwOp (ofLe b) != op) = false := by
      rcases hrow with h | h <;> simp [h]
    rw [if_neg (by simp [hpass]), if_pos hok]

/-! ### What each row runs, once its word is ready -/

section Ready
variable {s u : State} {q : Fin 240} {w : Nat} (h : EaselReady s q.val w u)
include h

theorem EaselReady.execQNop (hop : cwOp w = 0x00) : exec (.qNop q) s = .next (u.next q.val) :=
  congrArg Host.Outcome.next (h.issue hop)

theorem EaselReady.execQEnd (hop : cwOp w = 0x01) : exec (.qEnd q) s =
    .next ((u.updQ q.val (fun i => { i with issued := i.issued + 1 })).endList q.val stDone) :=
  congrArg Host.Outcome.next (h.issue hop)

theorem EaselReady.execQMovi (hop : cwOp w = 0x19) : exec (.qMovi q) s = .next (u.nextRd q.val w (wrapInt (cwSimm w) 64)) :=
  congrArg Host.Outcome.next (h.issue hop)

theorem EaselReady.execQMovhi (hop : cwOp w = 0x1A) : exec (.qMovhi q) s =
    .next (u.nextRd q.val w (u.sreg q.val (cwRd w) % 2 ^ 32 + cwImm w * 2 ^ 32)) :=
  congrArg Host.Outcome.next (h.issue hop)

theorem EaselReady.execQSetp (hop : cwOp w = 0x1C) : exec (.qSetp q) s =
    .next ((u.setPred q.val (cwRd w) (setpCond (cwX w) (u.sreg q.val (cwRa w)) (u.opB q.val w))).next q.val) :=
  congrArg Host.Outcome.next (h.issue hop)

theorem EaselReady.execQPlog (hop : cwOp w = 0x1D) : exec (.qPlog q) s =
    .next ((u.setPred q.val (cwRd w) (plogOp (cwX w) (u.pred q.val (cwRa w)) (u.pred q.val (cwRb w)))).next q.val) :=
  congrArg Host.Outcome.next (h.issue hop)

theorem EaselReady.execQRdtime (hop : cwOp w = 0x38) : exec (.qRdtime q) s =
    .next (u.nextRd q.val w (u.timeItem q.val (cwX w))) :=
  congrArg Host.Outcome.next (h.issue hop)

theorem EaselReady.execQBr (hop : cwOp w = 0x28) : exec (.qBr q) s =
    .next (u.finishInstr q.val 1 (wrapInt ((u.qpc q.val : Int) + 8 * cwSimm w) 64)) :=
  congrArg Host.Outcome.next (h.issue hop)

theorem EaselReady.execQJr (hop : cwOp w = 0x29) : exec (.qJr q) s = .next (u.finishInstr q.val 1 (u.sreg q.val (cwRa w))) :=
  congrArg Host.Outcome.next (h.issue hop)

theorem EaselReady.execQFence (hop : cwOp w = 0x37) : exec (.qFence q) s =
    .next (if u.fenceDone q.val (cwX w) then u.next q.val else u.waitOn q.val onFence (.fence (cwX w))) :=
  congrArg Host.Outcome.next (h.issue hop)

theorem EaselReady.execQWaitb (hop : cwOp w = 0x33) : exec (.qWaitb q) s = .next (u.waitb q.val w) :=
  congrArg Host.Outcome.next (h.issue hop)

theorem EaselReady.execQWaite (hop : cwOp w = 0x34) : exec (.qWaite q) s = .next (u.waite q.val w) :=
  congrArg Host.Outcome.next (h.issue hop)

theorem EaselReady.execQEpoch (hop : cwOp w = 0x39) : exec (.qEpoch q) s =
    .next (if 2 ^ 48 ≤ u.sreg q.val (cwRa w) then u.queueFault q.val stDescriptor w
      else if u.settled + 1 + u.fld (R.QCFG q.val) F.QCFG_AHEAD < u.sreg q.val (cwRa w) then u.waitOn q.val onEpoch .reissue
      else (u.setFld (R.QEPOCH q.val) F.QEPOCH_EPOCH (u.sreg q.val (cwRa w))).next q.val) :=
  congrArg Host.Outcome.next (h.issue hop)

/-- A legal SETP or PLOG names one of eight predicates. -/
theorem EaselReady.cwRd_lt (hop : cwOp w = 0x1C ∨ cwOp w = 0x1D) : cwRd w < 8 := by
  have hf : cwFieldsOk w = true := (Bool.and_eq_true_iff.mp h.1.legal).2
  rcases hop with e | e
  all_goals
    rw [cwFieldsOk, e] at hf
    simp only [Bool.and_eq_true, decide_eq_true_eq] at hf
    omega

end Ready

/-! ### Moves and predicates (R202, R209) -/

theorem cwImm_lt (w : Nat) : cwImm w < 2 ^ 32 := Nat.mod_lt _ (by decide)

theorem State.movhi_lt (s : State) (q w : Nat) : s.sreg q (cwRd w) % 2 ^ 32 + cwImm w * 2 ^ 32 < 2 ^ 64 := by
  have := cwImm_lt w
  omega

/-- Settles O30. -/
theorem easelMovesAndPredicates : Obligations.EaselMovesAndPredicates := by
  intro q w s u h
  refine ⟨fun hop => ⟨_, h.execQNop hop, u.next_done _, .next (by simp) (by simp), .next⟩,
    fun hop => ⟨_, h.execQMovi hop, u.nextRd_wrote _ _ (wrapInt_lt ..)⟩,
    fun hop => ⟨_, h.execQMovhi hop, u.nextRd_wrote _ _ (u.movhi_lt ..)⟩,
    fun hop => ⟨_, h.execQSetp hop, u.setPred_next_wrote _ _ (h.cwRd_lt (.inl hop))⟩,
    fun hop => ⟨_, h.execQPlog hop, u.setPred_next_wrote _ _ (h.cwRd_lt (.inr hop))⟩,
    fun hop => ⟨_, h.execQRdtime hop, fun hv => u.nextRd_wrote _ _ hv⟩⟩

/-! ### Control flow (R194, R204, R207, R208, R211) -/

/-- The blocks of the easels stand above the beat's. -/
theorem cpBase_ge (q : Nat) : 0x2000000E0000 ≤ cpBase q := by
  unfold cpBase dieBlk
  split <;> omega

theorem SameRegsBut.countLate {s : State} {l : List Nat} (h : R.BEAT_EVCNT ∈ l) : SameRegsBut l s (s.countLate true) :=
  .count _ _ _ h

theorem SameMemory.countLate {s : State} : SameMemory s (s.countLate true) :=
  .of_eq (State.count_mem ..) (State.count_altered ..)

/-- The count of a late wait touches no queue. -/
theorem State.qpc_countLate (s : State) (q : Nat) : (s.countLate true).qpc q = s.qpc q := by
  have hb := cpBase_ge q
  have hne : R.QPC q ∉ [R.BEAT_EVCNT] := by
    simp only [List.mem_singleton, R.QPC, R.BEAT_EVCNT]
    omega
  rw [State.qpc, (SameRegsBut.countLate (.head _)).1 _ hne, State.qpc]

theorem State.qint_countLate (s : State) (q : Nat) : (s.countLate true).qint q = s.qint q :=
  congrArg (sparseGet · q QueueInt.empty) (State.count_queues s R.BEAT_EVCNT F.BEAT_EVCNT_LATE 1)

/-- WAITB before, at and past its beat. -/
theorem State.waitb_cases (s : State) (q w : Nat) :
    s.waitb q w = if (if cwX w = 1 then (s.position + s.sreg q (cwRa w)) % 2 ^ 64 else s.sreg q (cwRa w)) = s.position then
        s.nextRd q w stDone
      else if (if cwX w = 1 then (s.position + s.sreg q (cwRa w)) % 2 ^ 64 else s.sreg q (cwRa w)) < s.position then
        (s.countLate true).nextRd q w stLate
      else s.waitOn q onBeat (.beat (if cwX w = 1 then (s.position + s.sreg q (cwRa w)) % 2 ^ 64 else s.sreg q (cwRa w)) (cwRd w)) :=
  rfl

/-- WAITB past its beat counts the wait and completes with LATE. -/
theorem State.late_nextRd (s : State) (q w : Nat) : EaselDone s ((s.countLate true).nextRd q w stLate) q ∧
    (cwRd w ≠ 0 → ((s.countLate true).nextRd q w stLate).sreg q (cwRd w) = stLate) ∧
    SameMemory s ((s.countLate true).nextRd q w stLate) := by
  obtain ⟨hdone, hreg, -, hmem⟩ := (s.countLate true).nextRd_wrote q w (v := stLate) (by decide)
  refine ⟨hdone.of (s.qpc_countLate q) (by rw [s.qint_countLate]), fun h0 => ?_, .step .countLate hmem⟩
  rw [hreg (cwRd w) (Nat.mod_lt _ (by decide)), if_pos ⟨rfl, h0⟩]

theorem State.epochStatus_lt (s : State) (e : Nat) : s.epochStatus e < 2 ^ 64 := by
  unfold State.epochStatus
  split
  · decide
  · decide
  · split <;> decide

/-- EPOCH within its run-ahead enters the epoch and goes on. -/
theorem State.setEpoch_next (s : State) (q : Nat) {e : Nat} (he : e < 2 ^ 48) :
    EaselDone s ((s.setFld (R.QEPOCH q) F.QEPOCH_EPOCH e).next q) q ∧
      ((s.setFld (R.QEPOCH q) F.QEPOCH_EPOCH e).next q).fld (R.QEPOCH q) F.QEPOCH_EPOCH = e ∧
      SameMemory s ((s.setFld (R.QEPOCH q) F.QEPOCH_EPOCH e).next q) := by
  refine ⟨(State.next_done ..).of ?_ rfl, ?_, .step (.setFld _ _ _ _) .next⟩
  · rw [State.qpc, State.reg_setFld_other _ _ _ _ _ (qepoch_ne_qpc q), State.qpc]
  · rw [(SameRegsBut.next (l := [R.QPC q, R.QSTAT q]) (by simp) (by simp)).fld _ (by simp),
      State.fld_setFld_same _ _ _ _ (by decide) he]

/-- Settles O31. -/
theorem easelControlFlow : Obligations.EaselControlFlow := by
  intro q w s u h
  have hra : u.sreg q.val (cwRa w) < 2 ^ 64 := u.sreg_lt ..
  refine ⟨h.execQEnd, fun hop => ⟨_, h.execQBr hop, ?_, u.qState_finishInstr _ _ _, .finishInstr (by simp) (by simp), .finishInstr⟩,
    fun hop => ⟨_, h.execQJr hop, ?_, u.qState_finishInstr _ _ _, .finishInstr (by simp) (by simp), .finishInstr⟩,
    fun hop => ?_, fun hop => ?_, fun hop => ?_, fun hop hlt => ?_⟩
  · rw [State.qpc_finishInstr, Nat.mod_eq_of_lt (wrapInt_lt ..)]
  · rw [State.qpc_finishInstr, Nat.mod_eq_of_lt hra]
  · rw [h.execQFence hop]
    refine ⟨fun hd => ⟨_, rfl, ?_⟩, fun hd => ⟨_, rfl, ?_⟩⟩
    · rw [if_pos hd]
      exact ⟨u.next_done _, .next⟩
    · rw [if_neg (by simp [hd])]
      exact ⟨u.waitOn_waits _ _ (by decide), .waitOn⟩
  · intro at_
    rw [h.execQWaitb hop, u.waitb_cases]
    refine ⟨fun he => ⟨_, rfl, ?_⟩, fun hlt => ⟨_, rfl, ?_⟩, fun hgt => ⟨_, rfl, ?_⟩⟩
    · rw [if_pos he]
      exact u.nextRd_wrote _ _ (by decide)
    · rw [if_neg (Nat.ne_of_lt hlt), if_pos hlt]
      exact u.late_nextRd _ _
    · rw [if_neg (Nat.ne_of_gt hgt), if_neg (Nat.not_lt_of_gt hgt)]
      exact ⟨u.waitOn_waits _ _ (by decide), congrArg QueueInt.wait (u.qint_waitOn ..), .waitOn⟩
  · rw [h.execQWaite hop]
    unfold State.waite
    dsimp only
    refine ⟨fun he => ⟨_, rfl, ?_⟩, fun hpos hle => ⟨_, rfl, ?_⟩, fun hgt => ⟨_, rfl, ?_⟩⟩
    · rw [if_pos he]
      exact u.nextRd_wrote _ _ (by decide)
    · rw [if_neg (Nat.ne_of_gt hpos), if_pos hle]
      exact u.nextRd_wrote _ _ (u.epochStatus_lt _)
    · rw [if_neg (by omega), if_neg (Nat.not_le_of_gt hgt)]
      exact ⟨u.waitOn_waits _ _ (by decide), .waitOn⟩
  · rw [h.execQEpoch hop, if_neg (Nat.not_le_of_lt hlt)]
    refine ⟨fun hle => ⟨_, rfl, ?_⟩, fun hgt => ⟨_, rfl, ?_⟩⟩
    · rw [if_neg (Nat.not_lt_of_le hle)]
      exact u.setEpoch_next _ hlt
    · rw [if_pos hgt]
      exact ⟨u.waitOn_waits _ _ (by decide), .waitOn⟩

end Sys2Proof.Machine
end

section
/-!
PROOFS. Semaphores: the grant to a lone waiter, the amounts added and taken, and the rows of the easels that use them.
-/

namespace Sys2Proof.Machine

open Sys2Proof

/-! ### The registers of the stores -/

/-- A semaphore that a store has. -/
def SemHere (st ix : Nat) : Prop := (st < 4 ∧ ix < 4096) ∨ (st = 4 ∧ ix < 8192)

theorem semHere_of_semOk {id : Nat} (h : semOk id = true) : SemHere (bitsOf id 13 3) (bitsOf id 0 13) := by
  have hix : bitsOf id 0 13 < 2 ^ 13 := Nat.mod_lt _ (by decide)
  simp only [semOk, Bool.or_eq_true, Bool.and_eq_true, decide_eq_true_eq, beq_iff_eq] at h
  unfold SemHere
  omega

/-- The hub's queues stand in a block of their own, those of a die in the die's. -/
theorem cpBase_cases (q : Nat) : cpBase q = 0x2000000E0000 ∨ ∃ d < 4, cpBase q = 0x200001040000 + d * 0x100000 := by
  by_cases h : q < 192
  · refine .inr ⟨q / 48, by omega, ?_⟩
    rw [cpBase, if_pos h, dieBlk]
    omega
  · exact .inl (if_neg h)

/-- The base of a store's registers: the hub's, or its die's. -/
theorem lockBase_hub : lockBase (storePlace 4) = 0x2000000D0000 := rfl

theorem lockBase_die {st : Nat} (h : st < 4) : lockBase (storePlace st) = 0x200001060000 + st * 0x100000 := by
  rw [storePlace, if_neg (Nat.ne_of_lt h), lockBase, if_neg (by omega), dieBlk, Nat.add_sub_cancel]
  omega

section Registers
variable {st ix : Nat} (q : Nat)

/-- A word of semaphores stands apart from the registers of every queue that an instruction's end writes. -/
theorem sem_not_queue (h : SemHere st ix) : R.SEM (storePlace st) (ix / 2) ∉ [R.QPC q, R.QSTAT q] := by
  have hq : q % 48 < 48 := Nat.mod_lt _ (by decide)
  intro hm
  simp only [List.mem_cons, List.not_mem_nil, or_false, R.SEM, R.QPC, R.QSTAT] at hm
  rcases h with ⟨hst, hix⟩ | ⟨rfl, hix⟩
  · rw [lockBase_die hst] at hm
    obtain hc | ⟨d, hd, hc⟩ := cpBase_cases q <;> omega
  · rw [lockBase_hub] at hm
    obtain hc | ⟨d, hd, hc⟩ := cpBase_cases q <;> omega

theorem semCnt_ne_qpc (h : SemHere st ix) : R.SEM_CNT (storePlace st) ≠ R.QPC q := by
  have hq : q % 48 < 48 := Nat.mod_lt _ (by decide)
  rw [R.SEM_CNT, R.QPC]
  rcases h with ⟨hst, hix⟩ | ⟨rfl, hix⟩
  · rw [lockBase_die hst]
    obtain hc | ⟨d, hd, hc⟩ := cpBase_cases q <;> omega
  · rw [lockBase_hub]
    obtain hc | ⟨d, hd, hc⟩ := cpBase_cases q <;> omega

end Registers

/-! ### Counts -/

section Counts
variable (s : State) (st ix : Nat)

theorem semField_fits : (if ix % 2 = 0 then F.SEM_COUNT_LO else F.SEM_COUNT_HI).fits := by
  split <;> decide

theorem semField_width : (if ix % 2 = 0 then F.SEM_COUNT_LO else F.SEM_COUNT_HI).width = 32 := by
  split <;> rfl

theorem State.semCount_lt : s.semCount st ix < 2 ^ 32 := by
  have h := Field.get_lt (if ix % 2 = 0 then F.SEM_COUNT_LO else F.SEM_COUNT_HI) (s.reg (R.SEM (storePlace st) (ix / 2)))
  rwa [semField_width] at h

theorem State.semCount_setSem {v : Nat} (h : v < 2 ^ 32) : (s.setSem st ix v).semCount st ix = v :=
  State.fld_setFld_same _ _ _ _ (semField_fits ix) (by rwa [semField_width])

theorem SameRegsBut.semCount {s t : State} {l : List Nat} (h : SameRegsBut l s t) (hl : R.SEM (storePlace st) (ix / 2) ∉ l) :
    t.semCount st ix = s.semCount st ix :=
  h.fld _ hl

/-- The end of an instruction, or its wait, leaves the semaphores alone. -/
theorem State.semCount_next (q : Nat) (h : SemHere st ix) : (s.next q).semCount st ix = s.semCount st ix :=
  (SameRegsBut.next (by simp) (by simp)).semCount st ix (sem_not_queue q h)

theorem State.semCount_waitOn (q on : Nat) (w : WaitOn) (h : SemHere st ix) :
    (s.waitOn q on w).semCount st ix = s.semCount st ix :=
  (SameRegsBut.waitOn (by simp)).semCount st ix (sem_not_queue q h)

theorem State.qpc_setSem (q v : Nat) (h : SemHere st ix) : (s.setSem st ix v).qpc q = s.qpc q := by
  rw [State.qpc, State.setSem, State.reg_setFld_other, State.qpc]
  intro e
  exact sem_not_queue q h (by simp [e])

theorem SameMemory.setSem {s : State} {st ix v : Nat} : SameMemory s (s.setSem st ix v) := .of_eq rfl rfl

end Counts

/-! ### The line of those that wait -/

/-- The state with another line of waiters. -/
def State.withSemWaiters (s : State) (ws : List SemWaiter) : State := { s with semWaiters := ws }

section Line
variable (s : State) (ws : List SemWaiter)

@[simp] theorem State.semWaiters_withSemWaiters : (s.withSemWaiters ws).semWaiters = ws := rfl

@[simp] theorem State.qpc_withSemWaiters (q : Nat) : (s.withSemWaiters ws).qpc q = s.qpc q := rfl

@[simp] theorem State.qint_withSemWaiters (q : Nat) : (s.withSemWaiters ws).qint q = s.qint q := rfl

@[simp] theorem State.semCount_withSemWaiters (st ix : Nat) : (s.withSemWaiters ws).semCount st ix = s.semCount st ix := rfl

theorem SameMemory.withSemWaiters {s : State} {ws : List SemWaiter} : SameMemory s (s.withSemWaiters ws) := .of_eq rfl rfl

theorem State.semWaiters_setSem (st ix v : Nat) : (s.setSem st ix v).semWaiters = s.semWaiters := State.setFld_semWaiters ..

theorem State.semWaiters_finishWait (q : Nat) : (s.finishWait q).semWaiters = s.semWaiters := by
  rw [State.finishWait, State.finishInstr, State.setQState, State.setFld_semWaiters, State.setFld_semWaiters, State.setPc,
    State.setReg_semWaiters]
  rfl

end Line

/-! ### Grants (R233, R234) -/

section Grants
variable {s : State} {st ix : Nat} {w : SemWaiter}

theorem State.semGrant_nobody (h : s.semWaiters = []) : s.semGrant st ix = s := by
  simp [State.semGrant, h, State.grantConsuming, State.grantNocons]

/-- The count as the waiter leaves it. -/
def State.semTaken (s : State) (st ix : Nat) (w : SemWaiter) : State :=
  if w.nocons then s else s.setSem st ix (s.semCount st ix - w.n)

/-- What the grant of the one waiter leaves: the count as it took it, nobody in line, its queue at its next word. -/
def State.semGranted (s : State) (st ix : Nat) (w : SemWaiter) : State :=
  ((s.semTaken st ix w).withSemWaiters []).next w.queue

theorem State.semGrant_alone (h : s.semWaiters = [w]) (hat : w.at st ix = true) (hn : w.n ≤ s.semCount st ix) :
    s.semGrant st ix = s.semGranted st ix w := by
  have herase : [w].erase w = [] := List.erase_cons_head ..
  unfold State.semGrant State.semGranted State.semTaken
  rw [h]
  cases hc : w.nocons with
  | true =>
    have hskip : s.grantConsuming st ix [w] = s := by simp [State.grantConsuming, hat, hc]
    have hgrant : s.grantNocons st ix [w] = (s.withSemWaiters []).next w.queue := by
      simp only [State.grantNocons, hat, hc, hn, Bool.and_self, decide_true, if_true, h, herase]
      rfl
    rw [if_pos rfl]
    exact (congrArg (fun t : State => t.grantNocons st ix t.semWaiters) hskip).trans ((congrArg _ h).trans hgrant)
  | false =>
    have hgrant : s.grantConsuming st ix [w] =
        ((s.setSem st ix (s.semCount st ix - w.n)).withSemWaiters []).next w.queue := by
      simp only [State.grantConsuming, hat, hc, hn, Bool.not_false, Bool.and_self, if_true, State.semWaiters_setSem, h, herase]
      rfl
    have hnone : (((s.setSem st ix (s.semCount st ix - w.n)).withSemWaiters []).next w.queue).semWaiters = [] :=
      State.semWaiters_finishWait ..
    rw [if_neg (by decide)]
    refine (congrArg (fun t : State => t.grantNocons st ix t.semWaiters) hgrant).trans ?_
    exact congrArg (State.grantNocons _ st ix) hnone

theorem State.semGrant_short (h : s.semWaiters = [w]) (hn : s.semCount st ix < w.n) : s.semGrant st ix = s := by
  unfold State.semGrant
  rw [h]
  simp [State.grantConsuming, State.grantNocons, Nat.not_le_of_lt hn, h]

theorem State.semGranted_semWaiters : (s.semGranted st ix w).semWaiters = [] := State.semWaiters_finishWait ..

theorem State.qpc_semTaken (h : SemHere st ix) (q : Nat) : (s.semTaken st ix w).qpc q = s.qpc q := by
  unfold State.semTaken
  split
  · rfl
  · exact s.qpc_setSem st ix _ _ h

theorem State.qint_semTaken (q : Nat) : (s.semTaken st ix w).qint q = s.qint q := by
  unfold State.semTaken
  split <;> rfl

theorem State.semCount_semTaken : (s.semTaken st ix w).semCount st ix =
    if w.nocons then s.semCount st ix else s.semCount st ix - w.n := by
  unfold State.semTaken
  split
  · rfl
  · exact s.semCount_setSem st ix (Nat.lt_of_le_of_lt (Nat.sub_le ..) (s.semCount_lt st ix))

theorem SameMemory.semTaken : SameMemory s (s.semTaken st ix w) := by
  unfold State.semTaken
  split
  · exact .refl _
  · exact .setSem

theorem State.semGranted_semCount (h : SemHere st ix) :
    (s.semGranted st ix w).semCount st ix = if w.nocons then s.semCount st ix else s.semCount st ix - w.n := by
  rw [State.semGranted, State.semCount_next _ _ _ _ h, State.semCount_withSemWaiters, State.semCount_semTaken]

theorem State.semGranted_done (h : SemHere st ix) : EaselDone s (s.semGranted st ix w) w.queue :=
  (State.next_done ..).of (State.qpc_semTaken h _) (congrArg QueueInt.issued (State.qint_semTaken _))

theorem SameMemory.semGranted : SameMemory s (s.semGranted st ix w) := .step .semTaken (.step .withSemWaiters .next)

end Grants

/-! ### Amounts added (R232) -/

/-- A sum clamped to a count. -/
theorem clamp_count (v : Int) :
    ((if v < 0 then 0 else min v.toNat (2 ^ 32 - 1) : Nat) : Int) = max 0 (min v (2 ^ 32 - 1)) := by
  split <;> omega

section Added
variable {s : State} {st ix : Nat} {n : Int}

/-- An amount added to a semaphore with nobody in line: its clamped sum, and the count of the clamping. -/
theorem State.semAdd_nobody (h : s.semWaiters = []) : ∃ t, (t = s ∨ t = s.count (R.SEM_CNT (storePlace st)) F.SEM_CNT_SATURATED 1) ∧
    s.semAdd st ix n = t.setSem st ix (max 0 (min (s.semCount st ix + n) (2 ^ 32 - 1))).toNat := by
  unfold State.semAdd
  dsimp only
  rw [← clamp_count, Int.toNat_natCast]
  generalize (if (s.semCount st ix : Int) + n < 0 then 0 else min ((s.semCount st ix : Int) + n).toNat (2 ^ 32 - 1)) = c
  by_cases hc : (c : Int) = s.semCount st ix + n
  · rw [if_pos hc]
    exact ⟨s, .inl rfl, State.semGrant_nobody ((State.semWaiters_setSem ..).trans h)⟩
  · rw [if_neg hc]
    exact ⟨_, .inr rfl, State.semGrant_nobody ((State.semWaiters_setSem ..).trans ((State.count_semWaiters ..).trans h))⟩

theorem State.semAdd_semCount (h : s.semWaiters = []) :
    ((s.semAdd st ix n).semCount st ix : Int) = max 0 (min (s.semCount st ix + n) (2 ^ 32 - 1)) := by
  obtain ⟨t, -, ht⟩ := State.semAdd_nobody (st := st) (ix := ix) (n := n) h
  rw [ht, State.semCount_setSem _ _ _ (by omega)]
  omega

theorem State.semAdd_next_done (h : s.semWaiters = []) (hs : SemHere st ix) (q : Nat) :
    EaselDone s ((s.semAdd st ix n).next q) q ∧ SameMemory s ((s.semAdd st ix n).next q) := by
  obtain ⟨t, ht, e⟩ := State.semAdd_nobody (st := st) (ix := ix) (n := n) h
  rw [e]
  have hpc : t.qpc q = s.qpc q := by
    rcases ht with rfl | rfl
    · rfl
    · rw [State.qpc, State.count, State.reg_setFld_other _ _ _ _ _ (semCnt_ne_qpc q hs), State.qpc]
  have hq : t.qint q = s.qint q := by
    rcases ht with rfl | rfl
    · rfl
    · exact congrArg (sparseGet · q QueueInt.empty) (State.count_queues ..)
  have hm : SameMemory s t := by
    rcases ht with rfl | rfl
    · exact .refl _
    · exact .of_eq (State.count_mem ..) (State.count_altered ..)
  refine ⟨(State.next_done ..).of ?_ ?_, .step hm (.step .setSem .next)⟩
  · rw [t.qpc_setSem st ix q _ hs, hpc]
  · exact congrArg QueueInt.issued hq

end Added

/-! ### The rows of the easels (R205) -/

section Rows
variable {s u : State} {q : Fin 240} {w : Nat} (h : EaselReady s q.val w u)
include h

theorem EaselReady.execQSemsig (hop : cwOp w = 0x31) : exec (.qSemsig q) s = .next (u.semPost q.val w 1) :=
  congrArg Host.Outcome.next (h.issue hop)

theorem EaselReady.execQSemadd (hop : cwOp w = 0x32) : exec (.qSemadd q) s =
    .next (u.semPost q.val w (signedOf (u.sreg q.val (cwRb w)) 64)) :=
  congrArg Host.Outcome.next (h.issue hop)

theorem EaselReady.execQSemwait (hop : cwOp w = 0x30) : exec (.qSemwait q) s = .next (u.semWait q.val w) :=
  congrArg Host.Outcome.next (h.issue hop)

end Rows

section Row
variable {s : State} {q w : Nat}

theorem State.unlessAhead_of_not {inside : Bool} {f : State → State} (h : s.aheadNow q = false) : s.unlessAhead q inside f = f s :=
  if_neg (by simp [h])

theorem State.afterStores_of_none {f : State → State} (h : (s.qint q).remoteSts = []) : s.afterStores q f = f s :=
  if_pos (by simp [h])

theorem State.onSemaphore_absent {f : Nat → Nat → State → State} (h : semOk (s.semId q w) = false) :
    s.onSemaphore q w f = s.queueFault q stDescriptor w :=
  if_pos h

theorem State.onSemaphore_here {f : Nat → Nat → State → State} (ha : s.aheadNow q = false) (hok : semOk (s.semId q w) = true)
    (hp : s.storePresent (bitsOf (s.semId q w) 13 3) = true) (hr : s.storeInReset (bitsOf (s.semId q w) 13 3) = false) :
    s.onSemaphore q w f = f (bitsOf (s.semId q w) 13 3) (bitsOf (s.semId q w) 0 13) s := by
  unfold State.onSemaphore
  dsimp only
  rw [if_neg (by simp [hok]), if_neg (by simp [hp]), State.unlessAhead_of_not ha, if_neg (by simp [hr])]

/-- The state in which a SEMWAIT stands in line. -/
def State.semInLine (s : State) (q st ix n : Nat) (nocons : Bool) : State :=
  (s.waitOn q onSem .sem).withSemWaiters ((s.waitOn q onSem .sem).semWaiters ++ [⟨st, ix, q, n, nocons⟩])

theorem State.semWait_here (ha : s.aheadNow q = false) (hok : semOk (s.semId q w) = true)
    (hp : s.storePresent (bitsOf (s.semId q w) 13 3) = true) (hr : s.storeInReset (bitsOf (s.semId q w) 13 3) = false)
    (h0 : 0 < s.sreg q (cwRb w)) (hlt : s.sreg q (cwRb w) < 2 ^ 32) :
    s.semWait q w = (s.semInLine q (bitsOf (s.semId q w) 13 3) (bitsOf (s.semId q w) 0 13) (s.sreg q (cwRb w)) (cwX w == 1)).semGrant
      (bitsOf (s.semId q w) 13 3) (bitsOf (s.semId q w) 0 13) := by
  unfold State.semWait
  dsimp only
  rw [if_neg (Nat.not_le_of_lt hlt), if_neg (fun h => Nat.ne_of_gt h0 h.1), State.onSemaphore_here ha hok hp hr]
  rfl

theorem State.semCount_semInLine {st ix n : Nat} {nocons : Bool} (h : SemHere st ix) :
    (s.semInLine q st ix n nocons).semCount st ix = s.semCount st ix :=
  s.semCount_waitOn st ix q onSem .sem h

theorem State.semInLine_waits {st ix n : Nat} {nocons : Bool} : EaselWaits s (s.semInLine q st ix n nocons) q onSem :=
  s.waitOn_waits q .sem (by decide)

theorem State.issued_semInLine {st ix n : Nat} {nocons : Bool} :
    ((s.semInLine q st ix n nocons).qint q).issued = (s.qint q).issued := by
  rw [State.semInLine, State.qint_withSemWaiters, State.qint_waitOn]

theorem SameMemory.semInLine {st ix n : Nat} {nocons : Bool} : SameMemory s (s.semInLine q st ix n nocons) :=
  .step .waitOn .withSemWaiters

theorem State.semInLine_alone {st ix n : Nat} {nocons : Bool} (h : s.semWaiters = []) :
    (s.semInLine q st ix n nocons).semWaiters = [⟨st, ix, q, n, nocons⟩] := by
  rw [State.semInLine, State.semWaiters_withSemWaiters, State.waitOn, State.setQState, State.setFld_semWaiters,
    State.setFld_semWaiters]
  exact congrArg (· ++ _) h

end Row

/-- Settles O34. -/
theorem easelSemaphores : Obligations.EaselSemaphores := by
  intro q w s u h ha hw id st ix
  refine ⟨fun hok => ⟨fun hop => ?_, fun hop => ?_⟩, fun hok hp hr hst => ⟨fun hop => ?_, fun hop => ?_, fun hop h0 hlt => ?_⟩⟩
  · rw [h.execQSemsig hop, State.semPost, State.onSemaphore_absent hok]
  · rw [h.execQSemadd hop, State.semPost, State.onSemaphore_absent hok]
  all_goals have hs : SemHere st ix := semHere_of_semOk hok
  · rw [h.execQSemsig hop, State.semPost, State.onSemaphore_here ha hok hp hr, State.afterStores_of_none hst]
    obtain ⟨hdone, hmem⟩ := State.semAdd_next_done (n := 1) hw hs q.val
    refine ⟨_, rfl, hdone, ?_, hmem⟩
    have hc := State.semAdd_semCount (st := st) (ix := ix) (n := 1) hw
    rw [State.semCount_next _ _ _ _ hs]
    change (u.semAdd st ix 1).semCount st ix = _
    omega
  · rw [h.execQSemadd hop, State.semPost, State.onSemaphore_here ha hok hp hr, State.afterStores_of_none hst]
    obtain ⟨hdone, hmem⟩ := State.semAdd_next_done (n := signedOf (u.sreg q.val (cwRb w)) 64) hw hs q.val
    refine ⟨_, rfl, hdone, ?_, hmem⟩
    rw [State.semCount_next _ _ _ _ hs]
    exact State.semAdd_semCount hw
  · rw [h.execQSemwait hop, State.semWait_here ha hok hp hr h0 hlt]
    have hline : (u.semInLine q.val st ix (u.sreg q.val (cwRb w)) (cwX w == 1)).semWaiters =
        [⟨st, ix, q.val, u.sreg q.val (cwRb w), cwX w == 1⟩] :=
      State.semInLine_alone hw
    have hcount := State.semCount_semInLine (s := u) (q := q.val) (n := u.sreg q.val (cwRb w)) (nocons := cwX w == 1) hs
    refine ⟨fun hle => ⟨_, rfl, ?_⟩, fun hgt => ⟨_, rfl, ?_⟩⟩
    · rw [State.semGrant_alone hline (by simp [SemWaiter.at, st, ix, id]) (hcount.symm ▸ hle)]
      have hdone := State.semGranted_done (s := u.semInLine q.val st ix (u.sreg q.val (cwRb w)) (cwX w == 1))
        (w := ⟨st, ix, q.val, u.sreg q.val (cwRb w), cwX w == 1⟩) hs
      refine ⟨hdone.of State.semInLine_waits.2.2.1 ?_, ?_, rfl, .step .semInLine .semGranted⟩
      · exact State.issued_semInLine
      · rw [State.semGranted_semCount hs, hcount]
        simp
    · rw [State.semGrant_short hline (hcount.symm ▸ hgt)]
      exact ⟨State.semInLine_waits, hline, hcount, .semInLine⟩

/-! ### Grants and register writes (R232 to R234) -/

/-- Settles O35. -/
theorem semaphoreGrants : Obligations.SemaphoreGrants := by
  refine ⟨fun st ix w s hm hp hr hix hw hst hwx hq hcons hn => ?_, fun st ix s hm hw => ?_, fun pl w v s hm hup hpl hw => ?_⟩
  · have hs : SemHere st.val ix.val := by
      unfold SemHere
      omega
    have hcond : (s.storePresent st.val && !(s.storeInReset st.val) && decide (st.val = 4 ∨ ix.val < 4096)) = true := by
      simp [hp, hr, hix]
    have hexec : exec (.semwaitGrant st ix) s = .next (s.semGranted st.val ix.val w) :=
      (State.whenMain_next _ hm).trans (congrArg Host.Outcome.next ((if_pos hcond).trans
        (State.semGrant_alone hw (by simp [SemWaiter.at, hst, hwx]) hn)))
    obtain ⟨hpc, hrun, -, -⟩ := State.semGranted_done (s := s) (w := w) hs
    refine ⟨_, hexec, State.semGranted_semWaiters, ?_, hrun, hpc, .semGranted⟩
    rw [State.semGranted_semCount hs, hcons]
    rfl
  · refine (State.whenMain_next _ hm).trans (congrArg Host.Outcome.next ?_)
    rw [State.semGrant_nobody hw, ite_self]
  · have hcond : (s.placeUp pl && (pl.val == 0 || decide (w.val < 2048))) = true := by
      rcases hpl with h | h <;> simp [hup, h]
    have hexec : exec (.semWrite pl w v) s = .next (s.setReg (R.SEM pl.val w.val) v) := by
      refine (State.whenMain_next _ hm).trans (congrArg Host.Outcome.next ((if_pos hcond).trans ?_))
      unfold State.semWrite
      dsimp only
      have hset : (s.setReg (R.SEM pl.val w.val) v).semWaiters = [] := (State.setReg_semWaiters ..).trans hw
      rw [State.semGrant_nobody hset, State.semGrant_nobody hset]
    exact ⟨_, hexec, State.reg_setReg_same .., .setReg _ _ (by simp), .of_eq rfl rfl⟩

end Sys2Proof.Machine
end

section
/-!
PROOFS. SliverLaneResults: what an instruction that acts lane by lane leaves in the rows of its destination, in the latches, and
in the rest of memory.
-/

namespace Sys2Proof.Machine

open Sys2Proof

/-! ### The length of a random stream (R99) -/

theorem keccakRound_length (a : List (BitVec 64)) (rc : BitVec 64) : (keccakRound a rc).length = 25 := rfl

theorem keccakF_length {a : List (BitVec 64)} (h : a.length = 25) : (keccakF a).length = 25 :=
  List.foldlRecOn keccakRC keccakRound (motive := fun a => a.length = 25) h fun a _ rc _ => keccakRound_length a rc

theorem absorb_length (rate n : Nat) {m : List (BitVec 8)} {a : List (BitVec 64)} (h : a.length = 25) :
    (absorb rate n m a).length = 25 := by
  induction n generalizing m a with
  | zero => exact h
  | succ n ih => exact ih (keccakF_length (by simp))

theorem flatMap_laneBytes_length (a : List (BitVec 64)) : (a.flatMap laneBytes).length = 8 * a.length := by
  induction a with
  | nil => rfl
  | cons x r ih =>
    rw [List.flatMap_cons, List.length_append, ih, List.length_cons, laneBytes, List.length_map, List.length_range]
    omega

theorem streamBlock_length (key : List Byte) (sid i : Nat) : (streamBlock key sid i).length = 168 := by
  unfold streamBlock shake128 sponge
  dsimp only
  rw [show (168 + 168 - 1) / 168 = 1 from rfl, squeeze, squeeze, List.append_nil, List.length_take, List.length_take,
    flatMap_laneBytes_length, absorb_length _ _ List.length_replicate]
  rfl

theorem streamBlocks_length (key : List Byte) (sid first n : Nat) :
    ((List.range n).flatMap (fun j => streamBlock key sid (first + j))).length = 168 * n := by
  simp only [List.length_flatMap, streamBlock_length, List.map_const', List.sum_replicate_nat, List.length_range, Nat.mul_comm]

theorem streamBytes_length (key : List Byte) (sid b n : Nat) : (streamBytes key sid b n).length = n := by
  unfold streamBytes
  split
  · simp [*]
  · rw [List.length_map, List.length_take, List.length_drop, streamBlocks_length]
    omega

/-! ### Bits of numbers put together -/

theorem testBit_add_of_and_eq_zero {x y : Nat} (h : ∀ i, (x.testBit i && y.testBit i) = false) (i : Nat) :
    (x + y).testBit i = (x.testBit i || y.testBit i) := by
  induction i generalizing x y with
  | zero =>
    have h0 := h 0
    simp only [Nat.testBit_zero, Bool.and_eq_false_iff, decide_eq_false_iff_not] at h0
    simp only [Nat.testBit_zero, ← Bool.decide_or, decide_eq_decide]
    omega
  | succ i ih =>
    have h0 := h 0
    simp only [Nat.testBit_zero, Bool.and_eq_false_iff, decide_eq_false_iff_not] at h0
    have half : (x + y) / 2 = x / 2 + y / 2 := by omega
    rw [Nat.testBit_succ, Nat.testBit_succ, Nat.testBit_succ, half]
    refine ih fun j => ?_
    rw [← Nat.testBit_succ, ← Nat.testBit_succ]
    exact h (j + 1)

/-- Bits of `new` where the mask has ones, of `old` elsewhere. -/
theorem testBit_merge (old new act i : Nat) :
    (old - (old &&& act) + (new &&& act)).testBit i = if act.testBit i then new.testBit i else old.testBit i := by
  rw [testBit_add_of_and_eq_zero, testBit_sub_and, Nat.testBit_and]
  · cases act.testBit i <;> simp
  · intro j
    rw [testBit_sub_and, Nat.testBit_and]
    cases act.testBit j <;> simp

theorem testBit_packBits (l : List Bool) (j : Nat) : (packBits l).testBit j = l.getD j false := by
  induction l generalizing j with
  | nil => simp [packBits]
  | cons b r ih =>
    rw [packBits, Nat.add_comm, show 2 * packBits r = 2 ^ 1 * packBits r by rw [Nat.pow_one],
      Nat.testBit_two_pow_mul_add _ (by cases b <;> decide)]
    cases j with
    | zero => cases b <;> rfl
    | succ j => simpa using ih j

theorem packBits_lt (l : List Bool) : packBits l < 2 ^ l.length :=
  Nat.lt_pow_two_of_testBit _ fun i hi => by
    rw [testBit_packBits, List.getD_eq_getElem?_getD, List.getElem?_eq_none hi, Option.getD_none]

/-- Words of 1,024 bits, the first the lowest. -/
theorem testBit_words {vs : List Nat} (hv : ∀ v ∈ vs, v < 2 ^ 1024) (i : Nat) {j : Nat} (hj : j < 1024) :
    (vs.foldr (fun v acc => acc * 2 ^ 1024 + v) 0).testBit (1024 * i + j) = (vs.getD i 0).testBit j := by
  induction vs generalizing i with
  | nil => simp
  | cons v r ih =>
    rw [List.foldr_cons, Nat.mul_comm, Nat.testBit_two_pow_mul_add _ (hv v (.head _))]
    cases i with
    | zero => simp [hj]
    | succ i =>
      rw [if_neg (by omega), show 1024 * (i + 1) + j - 1024 = 1024 * i + j by omega,
        ih (fun x hx => hv x (.tail _ hx))]
      rfl

theorem testBit_ofLe (l : List Byte) (j : Nat) : (ofLe l).testBit j = (l.getD (j / 8) 0).toNat.testBit (j % 8) := by
  induction l generalizing j with
  | nil => simp [ofLe]
  | cons b r ih =>
    rw [ofLe, Nat.add_comm, show 256 * ofLe r = 2 ^ 8 * ofLe r from rfl, Nat.testBit_two_pow_mul_add _ b.isLt]
    by_cases h : j < 8
    · rw [if_pos h, Nat.div_eq_of_lt h, Nat.mod_eq_of_lt h]
      rfl
    · rw [if_neg h, ih, show j / 8 = (j - 8) / 8 + 1 by omega, show (j - 8) % 8 = j % 8 by omega]
      rfl

theorem testBit_byteN (n i : Nat) {k : Nat} (hk : k < 8) : (byteN n i).toNat.testBit k = n.testBit (8 * i + k) := by
  rw [byteN, BitVec.toNat_ofNat, Nat.testBit_mod_two_pow, Nat.testBit_shiftRight]
  simp [hk]

/-- A byte is its eight bits. -/
theorem byte_ext {a b : Byte} (h : ∀ k < 8, a.toNat.testBit k = b.toNat.testBit k) : a = b := by
  refine BitVec.eq_of_toNat_eq (Nat.eq_of_testBit_eq fun k => ?_)
  by_cases hk : k < 8
  · exact h k hk
  · rw [Nat.testBit_lt_two_pow, Nat.testBit_lt_two_pow]
    all_goals exact Nat.lt_of_lt_of_le (BitVec.isLt _) (Nat.pow_le_pow_right (by decide) (Nat.le_of_not_lt hk))

theorem byteN_ofLe {l : List Byte} {i : Nat} : byteN (ofLe l) i = l.getD i 0 := by
  refine byte_ext fun k hk => ?_
  rw [testBit_byteN _ _ hk, testBit_ofLe, show (8 * i + k) / 8 = i by omega, show (8 * i + k) % 8 = k by omega]

/-! ### Memory after a list of bytes written -/

/-- A byte after writes that all give it one value, or that leave it with that value. -/
theorem memByte_writes {v : Byte} {a : Nat} (l : List (Nat × Byte)) (m : List Host.Cell) (hl : ∀ p ∈ l, p.1 = a → p.2 = v)
    (hv : (∃ p ∈ l, p.1 = a) ∨ memByte m a = v) : memByte (l.foldl (fun m p => memSet m p.1 p.2) m) a = v := by
  induction l generalizing m with
  | nil =>
    rcases hv with ⟨p, hp, -⟩ | hv
    · cases hp
    · exact hv
  | cons p r ih =>
    refine ih _ (fun x hx => hl x (.tail _ hx)) ?_
    by_cases hp : p.1 = a
    · refine .inr ?_
      rw [← hl p (.head _) hp, ← hp]
      exact sparseGet_set_same ..
    · rcases hv with ⟨x, hx, hxa⟩ | hv
      · rcases List.mem_cons.mp hx with rfl | hx
        · exact absurd hxa hp
        · exact .inl ⟨x, hx, hxa⟩
      · refine .inr ?_
        exact (sparseGet_set_other _ hp _ _ _).trans hv

/-- A byte that no write names is as before. -/
theorem memByte_writes_other {a : Nat} (l : List (Nat × Byte)) (m : List Host.Cell) (hl : ∀ p ∈ l, p.1 ≠ a) :
    memByte (l.foldl (fun m p => memSet m p.1 p.2) m) a = memByte m a :=
  memByte_writes l m (fun p hp e => absurd e (hl p hp)) (.inr rfl)

theorem State.byteAt_sound {s : State} (h : s.altered = []) (k : Nat) : s.byteAt k = memByte s.mem k := by
  unfold State.byteAt State.pattern
  rw [h]
  simp [sparseGet, byteN]

/-! ### Rows -/

/-- Bytes of rows of the cores stand apart (R146). -/
theorem rowKey_inj {d c c' r r' i i' : Nat} (hc : c < 2048) (hc' : c' < 2048) (hi : i < 128) (hi' : i' < 128)
    (h : rowKey d c r + i = rowKey d c' r' + i') : c = c' ∧ r = r' ∧ i = i' := by
  unfold rowKey rowOffset at h
  omega

section Rows
variable (s : State) (d c r : Nat)

theorem State.testBit_rowBits {j : Nat} (hj : j < 1024) :
    (s.rowBits d c r).testBit j = (s.byteAt (rowKey d c r + j / 8)).toNat.testBit (j % 8) := by
  have hlt : j / 8 < 128 := by omega
  rw [State.rowBits, testBit_ofLe]
  simp [hlt]

theorem State.byteN_rowBits {i : Nat} (hi : i < 128) : byteN (s.rowBits d c r) i = s.byteAt (rowKey d c r + i) := by
  rw [State.rowBits, byteN_ofLe]
  simp [hi]

/-- A row as an instruction leaves it: the results' bits in the active lanes. -/
def State.mergedRow (act : Nat) (vals : List Nat) (k : Nat) : Nat :=
  s.rowBits d c r - (s.rowBits d c r &&& act) + (packBits (vals.map (fun v => bitOf v k)) &&& act)

theorem State.mem_rowWrites {x : RowSpan} {act : Nat} {vals : List Nat} {p : Nat × Byte} :
    p ∈ s.rowWrites d c (some x) act vals ↔ ∃ k < x.n, ∃ i < 128,
      byteN (s.mergedRow d c (x.first + k) act vals k) i ≠ byteN (s.rowBits d c (x.first + k)) i ∧
        p = (rowKey d c (x.first + k) + i, byteN (s.mergedRow d c (x.first + k) act vals k) i) := by
  unfold State.rowWrites
  simp only [List.mem_flatMap, List.mem_range]
  refine exists_congr fun k => and_congr_right fun _ => ?_
  rw [← State.mergedRow]
  split
  · rename_i he
    simp [he]
  · simp only [List.mem_map, List.mem_filter, List.mem_range, bne_iff_ne, and_assoc, eq_comm (a := p)]

end Rows

/-! ### What runs after the lanes -/

/-- `t` has the memory and the latches of `s`. -/
structure LaneFrame (s t : State) : Prop where
  mem : t.mem = s.mem
  altered : t.altered = s.altered
  latches : t.latches = s.latches

namespace LaneFrame
variable {s₀ s t : State} (h : LaneFrame s₀ s)

theorem refl : LaneFrame s s := ⟨rfl, rfl, rfl⟩

include h

theorem setFld {a : Nat} {f : Field} {v : Nat} : LaneFrame s₀ (s.setFld a f v) := ⟨h.mem, h.altered, h.latches⟩

theorem count {a : Nat} {f : Field} {n : Nat} : LaneFrame s₀ (s.count a f n) := h.setFld

theorem countWrap {a : Nat} {f : Field} {n : Nat} : LaneFrame s₀ (s.countWrap a f n) := h.setFld

theorem updCmd {q n : Nat} {f : Cmd → Cmd} : LaneFrame s₀ (s.updCmd q n f) := ⟨h.mem, h.altered, h.latches⟩

theorem updSliver {q n : Nat} {f : SliverRun → SliverRun} : LaneFrame s₀ (s.updSliver q n f) := ⟨h.mem, h.altered, h.latches⟩

theorem setBrush {k : Nat} {r : BrushRun} : LaneFrame s₀ (s.setBrush k r) := ⟨h.mem, h.altered, h.latches⟩

theorem ite {c : Prop} [Decidable c] (ht : LaneFrame s₀ t) : LaneFrame s₀ (if c then s else t) := by
  split
  · exact h
  · exact ht

theorem thenIf {c : Prop} [Decidable c] (ht : LaneFrame s₀ s → LaneFrame s₀ t) : LaneFrame s₀ (if c then t else s) :=
  (ht h).ite h

theorem countInto {t : Tally} {d p c f : Nat} {r : CvRes} : LaneFrame s₀ (s.countInto t d p c f r).1 := by
  unfold State.countInto
  dsimp only
  split
  · exact h
  · exact ((h.thenIf fun h => h.count).thenIf fun h => h.count).thenIf fun h => h.count

theorem brushEvents {c : SlCtx} {e : EvCount} : LaneFrame s₀ (s.brushEvents c e) := h.count.count.count.thenIf fun h => h.updSliver

theorem brushPals {c : SlCtx} {pals : List (Nat × CvRes)} : LaneFrame s₀ (s.brushPals c pals) := by
  refine List.foldlRecOn pals _ (motive := LaneFrame s₀) h fun u hu p _ => ?_
  split
  · split
    · exact hu.countInto.updCmd.updSliver
    · exact hu
  · exact hu

theorem brushNext {c : SlCtx} {t : Nat} : LaneFrame s₀ (s.brushNext c t) := h.countWrap.updSliver.setBrush

theorem brushRetire {c : SlCtx} {t stall skipped : Nat} : LaneFrame s₀ (s.brushRetire c none t stall skipped) :=
  ((h.countWrap (n := skipped)).ite h.countWrap.count).brushNext

end LaneFrame

/-! ### The lanes of one core -/

section Core
variable (s : State) (c : SlCtx)

theorem State.laneVals_length (d core : Nat) (sp : Option RowSpan) : (s.laneVals d core sp).length = 1024 := by
  unfold State.laneVals
  split
  · exact List.length_replicate
  · dsimp only
    split
    · exact List.length_replicate
    · exact (List.length_map _).trans List.length_range

theorem State.laneRand_length (i : Nat) : (s.laneRand c i).length = 1024 := by
  unfold State.laneRand
  split
  · exact streamBytes_length ..
  · exact List.length_replicate

theorem bitOf_activeBits (w : Nat) (l : Latches) (i : Nat) {j : Nat} (hj : j < 1024) :
    bitOf (activeBits w l i) j = (!(slPred w) || bitOf l.mask (1024 * i + j)) := by
  unfold activeBits
  cases slPred w with
  | true =>
    rw [if_pos rfl, bitOf_eq_testBit, bitOf_eq_testBit, bitsOf_testBit]
    simp [hj]
  | false =>
    rw [if_neg (by decide), bitOf_eq_testBit, Nat.testBit_two_pow_sub_one]
    simp [hj]

variable (fn : LaneIn → LaneOut) (i j : Nat)

/-- What lane j of core i finds. -/
def State.laneIn : LaneIn :=
  ⟨(s.laneVals c.d (64 * c.b + i) c.ra).getD j 0, (s.laneVals c.d (64 * c.b + i) c.rb).getD j 0,
    (s.laneVals c.d (64 * c.b + i) c.rb).getD j 0, ((s.withCapture c.prog).laneRand c i).getD j 0,
    bitOf (s.latch (brushKey c.d c.b)).carry (1024 * i + j), bitOf (s.latch (brushKey c.d c.b)).mask (1024 * i + j)⟩

/-- What it gives: nothing where it is not active. -/
def State.laneOut : LaneOut :=
  if bitOf (activeBits c.w (s.latch (brushKey c.d c.b)) i) j then fn (s.laneIn c i j) else {}

theorem State.carry_laneOut (cy : Bool) : (s.laneOut c fn i j).carry.getD cy =
    if bitOf (activeBits c.w (s.latch (brushKey c.d c.b)) i) j then (fn (s.laneIn c i j)).carry.getD cy else cy := by
  unfold State.laneOut
  split <;> rfl

theorem State.mask_laneOut (mk : Bool) : (s.laneOut c fn i j).mask.getD mk =
    if bitOf (activeBits c.w (s.latch (brushKey c.d c.b)) i) j then (fn (s.laneIn c i j)).mask.getD mk else mk := by
  unfold State.laneOut
  split <;> rfl

/-- What core i gives. -/
def State.coreOut : CoreOut :=
  s.runCore c (slCost c.w) (s.skipOn c) (s.latch (brushKey c.d c.b)) ((s.withCapture c.prog).laneRand c i) fn i

/-- Lane by lane, with what each finds. -/
theorem zip_lanes {as bs rs : List Nat} (ha : as.length = 1024) (hb : bs.length = 1024) (hr : rs.length = 1024) :
    (List.range laneCount).zip (as.zip (bs.zip rs)) =
      (List.range 1024).map (fun j => (j, as.getD j 0, bs.getD j 0, rs.getD j 0)) := by
  refine List.ext_getElem (by simp [laneCount, ha, hb, hr]) fun j h₁ h₂ => ?_
  have hj : j < 1024 := by simpa using h₂
  simp [ha, hb, hr, hj]

theorem State.coreOut_eq :
    (s.coreOut c fn i).writes = s.rowWrites c.d (64 * c.b + i) c.rd (activeBits c.w (s.latch (brushKey c.d c.b)) i)
      ((List.range 1024).map (fun j => (s.laneOut c fn i j).res.code)) ∧
    (s.coreOut c fn i).carry = packBits ((List.range 1024).map (fun j =>
      (s.laneOut c fn i j).carry.getD (bitOf (s.latch (brushKey c.d c.b)).carry (1024 * i + j)))) ∧
    (s.coreOut c fn i).mask = packBits ((List.range 1024).map (fun j =>
      (s.laneOut c fn i j).mask.getD (bitOf (s.latch (brushKey c.d c.b)).mask (1024 * i + j)))) := by
  unfold State.coreOut State.runCore
  dsimp only
  rw [zip_lanes (s.laneVals_length ..) (s.laneVals_length ..) (State.laneRand_length ..)]
  simp only [List.map_map]
  exact ⟨rfl, rfl, rfl⟩

end Core

/-! ### The instruction as a whole -/

theorem State.latch_setLatch (s : State) (k : Nat) (l : Latches) : (s.setLatch k l).latch k = l :=
  sparseGet_set_same s.latches k l Latches.start

section Run
variable (u : State) (c : SlCtx) (fn : LaneIn → LaneOut)

/-- The bytes that the instruction writes. -/
def State.laneWrites : List (Nat × Byte) := ((List.range 64).map (u.coreOut c fn)).flatMap CoreOut.writes

/-- The latches that it leaves. -/
def State.laneLatches : Latches :=
  { carry := ((List.range 64).map (u.coreOut c fn)).foldr (fun o v => v * 2 ^ 1024 + o.carry) 0,
    mask := ((List.range 64).map (u.coreOut c fn)).foldr (fun o v => v * 2 ^ 1024 + o.mask) 0 }

theorem State.rowErrors_sound (h : u.altered = []) (l : Latches) : u.rowErrors c l = (u, none) := by
  unfold State.rowErrors
  rw [h]
  rfl

theorem State.runLanes_frame (h : u.altered = []) :
    LaneFrame ((u.poke (u.laneWrites c fn)).setLatch (brushKey c.d c.b) (u.laneLatches c fn)) (u.runLanes c fn) := by
  unfold State.runLanes
  dsimp only
  rw [u.rowErrors_sound c h]
  exact LaneFrame.refl.brushEvents.brushPals.brushRetire

/-- Row k of the destination in core i, as the instruction leaves it. -/
def State.laneRow (x : RowSpan) (i k : Nat) : Nat :=
  u.mergedRow c.d (64 * c.b + i) (x.first + k) (activeBits c.w (u.latch (brushKey c.d c.b)) i)
    ((List.range 1024).map (fun j => (u.laneOut c fn i j).res.code)) k

theorem State.mem_laneWrites {p : Nat × Byte} : p ∈ u.laneWrites c fn ↔ ∃ x, c.rd = some x ∧ ∃ i < 64, ∃ k < x.n, ∃ m < 128,
    byteN (u.laneRow c fn x i k) m ≠ byteN (u.rowBits c.d (64 * c.b + i) (x.first + k)) m ∧
      p = (rowKey c.d (64 * c.b + i) (x.first + k) + m, byteN (u.laneRow c fn x i k) m) := by
  simp only [State.laneWrites, List.flatMap_map, List.mem_flatMap, List.mem_range, (u.coreOut_eq c fn _).1]
  cases hrd : c.rd with
  | none => simp [State.rowWrites]
  | some x => simp only [State.mem_rowWrites, Option.some.injEq, exists_eq_left', State.laneRow]

section
variable {u c}

/-- A byte of the destination's rows after the writes. -/
theorem State.memByte_laneWrites (hs : u.altered = []) (hb : c.b < 32) {x : RowSpan} (hx : c.rd = some x) {i k m : Nat}
    (hi : i < 64) (hk : k < x.n) (hm : m < 128) :
    memByte (u.poke (u.laneWrites c fn)).mem (rowKey c.d (64 * c.b + i) (x.first + k) + m) = byteN (u.laneRow c fn x i k) m := by
  refine memByte_writes _ _ (fun p hp hpa => ?_) ?_
  · obtain ⟨x', hx', i', hi', k', -, m', hm', -, rfl⟩ := (u.mem_laneWrites c fn).mp hp
    obtain rfl : x = x' := Option.some.inj (hx.symm.trans hx')
    obtain ⟨hci, hrk, rfl⟩ := rowKey_inj (by omega) (by omega) hm' hm hpa
    obtain rfl : i' = i := by omega
    obtain rfl : k' = k := by omega
    rfl
  · by_cases he : byteN (u.laneRow c fn x i k) m = byteN (u.rowBits c.d (64 * c.b + i) (x.first + k)) m
    · rw [he, u.byteN_rowBits _ _ _ hm, State.byteAt_sound hs]
      exact .inr rfl
    · exact .inl ⟨_, (u.mem_laneWrites c fn).mpr ⟨x, hx, i, hi, k, hk, m, hm, he, rfl⟩, rfl⟩

/-- A bit of a row of the destination, as the instruction leaves it. -/
theorem State.testBit_laneRow (x : RowSpan) (i k : Nat) {j : Nat} (hj : j < 1024) :
    (u.laneRow c fn x i k).testBit j =
      if bitOf (activeBits c.w (u.latch (brushKey c.d c.b)) i) j then bitOf (fn (u.laneIn c i j)).res.code k
      else bitOf (u.rowBits c.d (64 * c.b + i) (x.first + k)) j := by
  rw [State.laneRow, State.mergedRow, testBit_merge, testBit_packBits, ← bitOf_eq_testBit, ← bitOf_eq_testBit]
  by_cases hon : bitOf (activeBits c.w (u.latch (brushKey c.d c.b)) i) j = true
  · rw [if_pos hon, if_pos hon]
    simp [hj, State.laneOut, hon]
  · rw [if_neg hon, if_neg hon]

theorem State.bitOf_rowBits_after {t : State} (hs : u.altered = []) (hb : c.b < 32) {x : RowSpan} (hx : c.rd = some x)
    (hmem : t.mem = (u.poke (u.laneWrites c fn)).mem) (halt : t.altered = []) {i j k : Nat} (hi : i < 64) (hj : j < 1024)
    (hk : k < x.n) : bitOf (t.rowBits c.d (64 * c.b + i) (x.first + k)) j = (u.laneRow c fn x i k).testBit j := by
  have hjm : j / 8 < 128 := by omega
  rw [bitOf_eq_testBit, t.testBit_rowBits _ _ _ hj, State.byteAt_sound halt, hmem, State.memByte_laneWrites fn hs hb hx hi hk hjm,
    testBit_byteN _ _ (by omega), show 8 * (j / 8) + j % 8 = j by omega]

/-- A carry latch, as the instruction leaves it. -/
theorem State.carry_laneLatches {i j : Nat} (hi : i < 64) (hj : j < 1024) :
    bitOf (u.laneLatches c fn).carry (1024 * i + j) =
      (u.laneOut c fn i j).carry.getD (bitOf (u.latch (brushKey c.d c.b)).carry (1024 * i + j)) := by
  have hw : ∀ v ∈ ((List.range 64).map (u.coreOut c fn)).map CoreOut.carry, v < 2 ^ 1024 := by
    simp only [List.map_map, List.mem_map, Function.comp_apply, (u.coreOut_eq c fn _).2.1]
    rintro v ⟨i, -, rfl⟩
    exact Nat.lt_of_lt_of_eq (packBits_lt _) (by rw [List.length_map, List.length_range])
  have hfold := testBit_words hw i hj
  rw [List.foldr_map] at hfold
  rw [bitOf_eq_testBit]
  refine hfold.trans ?_
  simp [hi, hj, (u.coreOut_eq c fn _).2.1, testBit_packBits]

/-- A mask latch, as the instruction leaves it. -/
theorem State.mask_laneLatches {i j : Nat} (hi : i < 64) (hj : j < 1024) :
    bitOf (u.laneLatches c fn).mask (1024 * i + j) =
      (u.laneOut c fn i j).mask.getD (bitOf (u.latch (brushKey c.d c.b)).mask (1024 * i + j)) := by
  have hw : ∀ v ∈ ((List.range 64).map (u.coreOut c fn)).map CoreOut.mask, v < 2 ^ 1024 := by
    simp only [List.map_map, List.mem_map, Function.comp_apply, (u.coreOut_eq c fn _).2.2]
    rintro v ⟨i, -, rfl⟩
    exact Nat.lt_of_lt_of_eq (packBits_lt _) (by rw [List.length_map, List.length_range])
  have hfold := testBit_words hw i hj
  rw [List.foldr_map] at hfold
  rw [bitOf_eq_testBit]
  refine hfold.trans ?_
  simp [hi, hj, (u.coreOut_eq c fn _).2.2, testBit_packBits]

end

end Run

/-- Settles O44. -/
theorem sliverLaneResults : Obligations.SliverLaneResults := by
  intro c fn u _ hb hs _ l t inn on
  obtain ⟨hmem, halt, hlat⟩ := u.runLanes_frame c fn hs
  have hl : t.latch (brushKey c.d c.b) = u.laneLatches c fn := by
    rw [State.latch, hlat, ← State.latch, State.latch_setLatch]
  refine ⟨fun x hx i hi j hj k hk => ?_, fun a ha => ?_, fun i hi j hj => ?_⟩
  · rw [State.bitOf_rowBits_after fn hs hb hx hmem (halt.trans hs) hi hj hk, State.testBit_laneRow fn x i k hj,
      bitOf_activeBits _ _ _ hj]
    rfl
  · rw [hmem]
    refine memByte_writes_other _ _ fun p hp e => ?_
    obtain ⟨x, hx, i, hi, k, hk, m, hm, -, rfl⟩ := (u.mem_laneWrites c fn).mp hp
    exact ha x hx i hi k hk m hm e.symm
  · rw [hl, State.carry_laneLatches fn hi hj, State.mask_laneLatches fn hi hj, State.carry_laneOut, State.mask_laneOut,
      bitOf_activeBits _ _ _ hj]
    exact ⟨rfl, rfl⟩

end Sys2Proof.Machine
end

section
/-!
PROOFS. Dispatched commands: how they start and finish; and the brushes: issue, lane instructions and control.
-/

namespace Sys2Proof.Machine

open Sys2Proof

/-- The first entry of a kind, after every entry of it was updated within the kind. -/
theorem find_map_if {α : Type} (p : α → Bool) {f : α → α} (hf : ∀ x, p (f x) = p x) (l : List α) :
    (l.map (fun x => if p x then f x else x)).find? p = (l.find? p).map f := by
  induction l with
  | nil => rfl
  | cons x r ih =>
    rw [List.map_cons, List.find?_cons, List.find?_cons]
    cases hx : p x with
    | true => simp [hx, hf]
    | false => simpa [hx] using ih

/-! ### Dispatched commands (R213 to R215) -/

section Commands
variable {s : State} {q n : Nat} {c : Cmd}

theorem State.findCmd_is (h : s.findCmd q n = some c) : c.queue = q ∧ c.seq = n := by
  have := List.find?_some h
  simpa [Cmd.is] using this

/-- A command updated is found as updated. -/
theorem State.findCmd_updCmd {f : Cmd → Cmd} (hf : ∀ x, (f x).is q n = x.is q n) :
    (s.updCmd q n f).findCmd q n = (s.findCmd q n).map f :=
  find_map_if _ hf s.cmds

/-- A command that is found finishes. -/
theorem State.finish_finished {status res0 res1 due : Nat} (h : s.findCmd c.queue c.seq ≠ none) :
    CmdFinished (s.finish c status res0 res1 due) c.queue c.seq status res0 res1 due := by
  obtain ⟨x, hx⟩ := Option.ne_none_iff_exists'.mp h
  refine ⟨{ x with phase := .finished, status := status, res0 := res0, res1 := res1, due := due }, ?_, rfl, rfl, rfl, rfl, rfl⟩
  refine (State.findCmd_updCmd fun _ => ?_).trans ?_
  · rfl
  · rw [hx]
    rfl

theorem SameRegsBut.updCmd {l : List Nat} {f : Cmd → Cmd} : SameRegsBut l s (s.updCmd q n f) := .of_eq rfl rfl

theorem SameMemory.updCmd {f : Cmd → Cmd} : SameMemory s (s.updCmd q n f) := .of_eq rfl rfl

theorem SameRegsBut.finish {l : List Nat} {status res0 res1 due : Nat} : SameRegsBut l s (s.finish c status res0 res1 due) := .updCmd

theorem SameMemory.finish {status res0 res1 due : Nat} : SameMemory s (s.finish c status res0 res1 due) := .updCmd

/-- The command has started. -/
def State.begun (s : State) (q n : Nat) : State := s.updCmd q n (fun x => { x with phase := .started })

theorem State.findCmd_begun (h : s.findCmd q n = some c) : (s.begun q n).findCmd q n = some { c with phase := .started } := by
  refine (State.findCmd_updCmd fun _ => ?_).trans ?_
  · rfl
  · rw [h]
    rfl

/-- A command that may start runs its body, once it has started. -/
theorem State.starting_go {code : Nat} {body : State → Cmd → State} (h : s.startOf q n code = .go c) (hc : s.engineClosing c = false) :
    s.starting q n code body = body (s.begun q n) c := by
  unfold State.starting
  rw [h]
  exact if_neg (by
    rw [show (s.updCmd q n (fun x => { x with phase := .started })).engineClosing c = s.engineClosing c from rfl, hc]
    decide)

end Commands

/-! ### Issue of a brush (R151, R153) -/

/-- The opcodes that a brush issues. -/
def slIssued (op : Nat) : Bool := slKnown op || op == 2 || op == 3

/-- A brush that finds its next instruction runs it, or stops with its fault. -/
theorem SliverReady.issue {s u : State} {d b op : Nat} {c : SlCtx} {check : SlCtx → State → Option (Nat × Nat)}
    {body : SlCtx → State → State} (h : SliverReady s d b op c u) (hop : slIssued op = true) :
    s.whenServing (s.brushIssue d b op check body) = .next (match check c u with
      | some (st, row) => u.brushStop d b c.run st row
      | none => body c u) := by
  obtain ⟨cd, cb, run, prog, w, rd, ra, rb⟩ := c
  obtain ⟨hserv, hup, hlent, rfl, rfl, hrun, hprog, hmap, ⟨bytes, hread, hw⟩, hcode, hrows⟩ := h
  dsimp only at *
  refine (State.whenServing_next _ hserv).trans (congrArg Host.Outcome.next ?_)
  unfold State.brushIssue
  rw [if_neg (by rw [hserv, hup, hlent]; decide)]
  dsimp only
  rw [hrun]
  dsimp only
  rw [hprog]
  dsimp only
  rw [if_neg (by rw [hmap]; decide), hread]
  dsimp only
  subst hw hcode
  rw [if_neg (by decide), if_neg (by rw [slIssued] at hop; rw [hop]; decide), if_neg (by simp)]
  cases hrep : run.rep with
  | none =>
    rw [hrep] at hrows
    dsimp only at *
    rw [hrows] <;> rfl
  | some x =>
    rw [hrep] at hrows
    dsimp only at *
    rw [hrows] <;> rfl

theorem exec_sliverLane {i : Instr} {d : Fin 4} {b : Fin 32} {op : Nat} {fn : Nat → LaneIn → LaneOut}
    (h : sliverLane i = some (d, b, op, fn)) (s : State) : exec i s = s.slvLane d.val b.val op fn ∧ slIssued op = true := by
  cases i
  all_goals cases h
  all_goals exact ⟨rfl, rfl⟩

/-- Settles O43. -/
theorem sliverLanes : Obligations.SliverLanes := by
  intro i d b op fn c s u hi h
  obtain ⟨hexec, hop⟩ := exec_sliverLane hi s
  refine ⟨fun hf => ?_, fun st row hf => ?_⟩
  · rw [hexec, State.slvLane, h.issue hop, hf]
  · rw [hexec, State.slvLane, h.issue hop, hf]

end Sys2Proof.Machine
end

section
/-!
PROOFS. SliverControl: the instructions that steer a brush, the start of a program, and the lending of a brush.
-/

namespace Sys2Proof.Machine

open Sys2Proof

/-! ### The entries of a finite map, found one by one -/

section Found
variable {α : Type} (m : Sparse α) (a b : Nat)

theorem find_sparsePut (v : α) :
    (sparsePut m a v).find? (fun p => p.1 == b) = if b = a then some (a, v) else m.find? (fun p => p.1 == b) := by
  induction m with
  | nil => by_cases h : b = a <;> simp [sparsePut, h, eq_comm (a := a)]
  | cons p r ih =>
    obtain ⟨k, w⟩ := p
    rw [sparsePut]
    by_cases hb : b = a
    · subst hb
      rw [if_pos rfl] at ih ⊢
      split
      · simp
      · split
        · simp
        · rw [List.find?_cons_of_neg (by simpa using by omega), ih]
    · rw [if_neg hb] at ih ⊢
      split
      · rw [List.find?_cons_of_neg (by simpa using Ne.symm hb)]
      · split
        · rename_i hk
          subst hk
          rw [List.find?_cons_of_neg (by simpa using Ne.symm hb), List.find?_cons_of_neg (by simpa using Ne.symm hb)]
        · rw [List.find?_cons, List.find?_cons, ih]

theorem find_sparseDel :
    (sparseDel m a).find? (fun p => p.1 == b) = if b = a then none else m.find? (fun p => p.1 == b) := by
  induction m with
  | nil => simp [sparseDel]
  | cons p r ih =>
    obtain ⟨k, w⟩ := p
    rw [sparseDel]
    split
    · rename_i hk
      subst hk
      rw [ih]
      by_cases hb : b = k
      · rw [if_pos hb, if_pos hb]
      · rw [if_neg hb, if_neg hb, List.find?_cons_of_neg (by simpa using Ne.symm hb)]
    · rename_i hk
      rw [List.find?_cons, List.find?_cons, ih]
      by_cases hb : b = a
      · rw [if_pos hb, if_pos hb, show (k == b) = false by simpa using hb ▸ hk]
      · rw [if_neg hb, if_neg hb]

theorem ne_of_mem_sparseDel {p : Nat × α} (h : p ∈ sparseDel m a) : p.1 ≠ a := by
  induction m with
  | nil => cases h
  | cons x r ih =>
    obtain ⟨k, w⟩ := x
    rw [sparseDel] at h
    split at h
    · exact ih h
    · rcases List.mem_cons.mp h with rfl | h
      · assumption
      · exact ih h

end Found

/-! ### Brushes -/

section Brush
variable (s : State) (k k' : Nat)

theorem State.brushRun_setBrush (r : BrushRun) : (s.setBrush k r).brushRun k' = if k' = k then some r else s.brushRun k' := by
  unfold State.brushRun State.setBrush
  dsimp only
  rw [find_sparsePut]
  split <;> rfl

theorem State.brushRun_delBrush : (s.delBrush k).brushRun k' = if k' = k then none else s.brushRun k' := by
  unfold State.brushRun State.delBrush
  dsimp only
  rw [find_sparseDel]
  split <;> rfl

theorem SameMemory.setBrush {s : State} {k : Nat} {r : BrushRun} : SameMemory s (s.setBrush k r) := .of_eq rfl rfl

theorem SameRegsBut.setBrush {s : State} {k : Nat} {r : BrushRun} {l : List Nat} : SameRegsBut l s (s.setBrush k r) := .of_eq rfl rfl

theorem SameMemory.updSliver {s : State} {q n : Nat} {f : SliverRun → SliverRun} : SameMemory s (s.updSliver q n f) := .of_eq rfl rfl

/-- An instruction's time is counted, and kept in its program. -/
theorem State.brushTime_fst (d b t : Nat) (r : BrushRun) : (s.brushTime d b r t).1 =
    (s.countWrap (R.SLV_BBUSY d b) F.SLV_BBUSY_BUSY t).updSliver r.queue r.seq
      (fun x => { x with until_ := max x.until_ (max s.now r.busy + s.acDur d t) }) := rfl

theorem SameMemory.brushTime {s : State} {d b t : Nat} {r : BrushRun} : SameMemory s (s.brushTime d b r t).1 := by
  rw [State.brushTime_fst]
  exact .step (.setFld s _ _ _) .updSliver

theorem SameMemory.brushNext {s : State} {c : SlCtx} {t : Nat} : SameMemory s (s.brushNext c t) := .step .brushTime .setBrush

/-- An instruction that takes t ac, outside a span. -/
theorem State.brushRun_brushNext (c : SlCtx) (t : Nat) (h : c.run.rep = none) :
    (s.brushNext c t).brushRun (brushKey c.d c.b) =
      some { c.run with index := c.run.index + 1, busy := max s.now c.run.busy + s.acDur c.d t } := by
  rw [State.brushNext]
  dsimp only
  rw [State.brushRun_setBrush, if_pos rfl, BrushRun.next, State.brushTime]
  dsimp only
  rw [h]

end Brush

/-! ### The end of a program on a brush -/

/-- The program of a run, when the time of a brush's instruction has passed. -/
theorem State.sliverRun_updSliver {s : State} {q n : Nat} {f : SliverRun → SliverRun}
    (hf : ∀ x, (f x).queue = x.queue ∧ (f x).seq = x.seq) : (s.updSliver q n f).sliverRun q n = (s.sliverRun q n).map f :=
  find_map_if (fun x : SliverRun => x.queue == q && x.seq == n) (fun x => by rw [(hf x).1, (hf x).2]) s.slivers

theorem State.sliverRun_brushTime {s : State} {d b t : Nat} {r : BrushRun} {x : SliverRun} (h : s.sliverRun r.queue r.seq = some x) :
    (s.brushTime d b r t).1.sliverRun r.queue r.seq = some { x with until_ := max x.until_ (max s.now r.busy + s.acDur d t) } := by
  rw [State.brushTime_fst, State.sliverRun_updSliver (f := fun x => { x with
    until_ := max x.until_ (max s.now r.busy + s.acDur d t) }) fun _ => ⟨rfl, rfl⟩, show (s.countWrap (R.SLV_BBUSY d b) F.SLV_BBUSY_BUSY t).sliverRun r.queue r.seq = some x from
    (congrArg (List.find? _) (State.setFld_slivers ..)).trans h]
  rfl

/-- The state with other programs. -/
def State.withSlivers (s : State) (l : List SliverRun) : State := { s with slivers := l }

theorem State.findCmd_withSlivers (s : State) (l : List SliverRun) (q n : Nat) : (s.withSlivers l).findCmd q n = s.findCmd q n := rfl

/-- The last brush of a program that stopped nowhere ends: its command finishes. -/
theorem State.sliverDone_last {s : State} {q n : Nat} {x : SliverRun} (hlast : ∀ p ∈ s.brushRuns, ¬(p.2.queue = q ∧ p.2.seq = n))
    (hx : s.sliverRun q n = some x) (hstop : x.stopped = []) (hc : s.findCmd q n ≠ none) :
    ∃ due, (s.sliverDone q n).brushRuns = s.brushRuns ∧ (s.sliverDone q n).sliverRun q n = none ∧
      CmdFinished (s.sliverDone q n) q n (doneStatus x.counted) 0 0 due ∧ SameMemory s (s.sliverDone q n) := by
  obtain ⟨c, hc⟩ := Option.ne_none_iff_exists'.mp hc
  have hany : s.brushRuns.any (fun p => p.2.queue == q && p.2.seq == n) = false := by
    simpa [List.any_eq_false] using hlast
  have hdone : s.sliverDone q n = (s.withSlivers (s.slivers.filter (fun x => !(x.queue == q && x.seq == n)))).finish c
      (doneStatus x.counted) 0 0 (max s.now x.until_) := by
    unfold State.sliverDone
    rw [hany, hx, hc]
    dsimp only
    rw [hstop]
    rfl
  obtain ⟨rfl, rfl⟩ := State.findCmd_is hc
  rw [hdone]
  refine ⟨max s.now x.until_, rfl, ?_, ?_, .step (.of_eq rfl rfl) .finish⟩
  · exact List.find?_eq_none.mpr fun y hy => by
      simpa only [Bool.not_eq_true', Bool.not_eq_true] using (List.mem_filter.mp hy).2
  · exact State.finish_finished (by
      rw [State.findCmd_withSlivers, hc]
      exact Option.some_ne_none _)

theorem State.brushRuns_updSliver (s : State) (q n : Nat) (f : SliverRun → SliverRun) :
    (s.updSliver q n f).brushRuns = s.brushRuns := rfl

theorem State.cmds_updSliver (s : State) (q n : Nat) (f : SliverRun → SliverRun) : (s.updSliver q n f).cmds = s.cmds := rfl

/-- The time of an instruction leaves brushes and commands alone. -/
theorem State.brushRuns_brushTime {s : State} {d b t : Nat} {r : BrushRun} : (s.brushTime d b r t).1.brushRuns = s.brushRuns := by
  rw [State.brushTime_fst, State.brushRuns_updSliver, State.countWrap, State.setFld_brushRuns]

theorem State.findCmd_brushTime {s : State} {d b t q n : Nat} {r : BrushRun} :
    (s.brushTime d b r t).1.findCmd q n = s.findCmd q n := by
  rw [State.brushTime_fst, State.findCmd, State.cmds_updSliver, State.countWrap, State.setFld_cmds, State.findCmd]

/-- The program ends on its last brush. -/
theorem State.endBrush {s : State} {k q n : Nat} {x : SliverRun}
    (hlast : ∀ p ∈ s.brushRuns, p.1 ≠ k → ¬(p.2.queue = q ∧ p.2.seq = n)) (hx : s.sliverRun q n = some x) (hstop : x.stopped = [])
    (hc : s.findCmd q n ≠ none) :
    ∃ due, ((s.delBrush k).sliverDone q n).brushRun k = none ∧ ((s.delBrush k).sliverDone q n).sliverRun q n = none ∧
      CmdFinished ((s.delBrush k).sliverDone q n) q n (doneStatus x.counted) 0 0 due ∧
      SameMemory s ((s.delBrush k).sliverDone q n) := by
  obtain ⟨due, hruns, hnone, hfin, hmem⟩ := State.sliverDone_last (s := s.delBrush k)
    (fun p hp => hlast p (mem_sparseDel hp) (ne_of_mem_sparseDel _ _ hp)) hx hstop hc
  refine ⟨due, ?_, hnone, hfin, .step (.of_eq rfl rfl) hmem⟩
  rw [State.brushRun, hruns, ← State.brushRun, State.brushRun_delBrush, if_pos rfl]

/-! ### The start of a program (R151, R152) -/

/-- What a brush runs when a program of queue q begins on it at time `now`. -/
def BrushRun.fresh (q n now : Nat) : BrushRun := { queue := q, seq := n, index := 0, rep := none, base := 0, busy := now }

/-- A brush begins a program, with its latches at v. -/
def State.startBrush (s : State) (q n : Nat) (v : Latches) (k : Nat) : State := (s.setBrush k (.fresh q n s.now)).setLatch k v

/-- So does every brush of a list. -/
def State.startBrushes (s : State) (d q n : Nat) (v : Latches) (l : List Nat) : State :=
  l.foldl (fun s b => s.startBrush q n v (brushKey d b)) s

section Start
variable {s : State} {d q n : Nat} {v : Latches}

theorem State.startBrush_starts (k k' : Nat) (h : k' = k ∨ s.brushRun k' = some (.fresh q n s.now) ∧ s.latch k' = v) :
    (s.startBrush q n v k).brushRun k' = some (.fresh q n s.now) ∧ (s.startBrush q n v k).latch k' = v := by
  have hrun : (s.startBrush q n v k).brushRun k' = (s.setBrush k (.fresh q n s.now)).brushRun k' := rfl
  rw [hrun, State.brushRun_setBrush]
  by_cases hk : k' = k
  · subst hk
    exact ⟨if_pos rfl, State.latch_setLatch ..⟩
  · obtain ⟨hr, hl⟩ := h.resolve_left hk
    exact ⟨(if_neg hk).trans hr, (sparseGet_set_other _ (Ne.symm hk) _ _ _).trans hl⟩

theorem State.now_startBrush (k : Nat) : (s.startBrush q n v k).now = s.now := rfl

theorem State.startBrushes_starts (l : List Nat) (b : Nat)
    (h : b ∈ l ∨ s.brushRun (brushKey d b) = some (.fresh q n s.now) ∧ s.latch (brushKey d b) = v) :
    (s.startBrushes d q n v l).brushRun (brushKey d b) = some (.fresh q n s.now) ∧
      (s.startBrushes d q n v l).latch (brushKey d b) = v := by
  induction l generalizing s with
  | nil => exact h.resolve_left List.not_mem_nil
  | cons x l ih =>
    have hx := ih (s := s.startBrush q n v (brushKey d x))
    rw [State.now_startBrush] at hx
    refine hx ?_
    rcases h with h | h
    · rcases List.mem_cons.mp h with rfl | h
      · exact .inr (State.startBrush_starts _ _ (.inl rfl))
      · exact .inl h
    · exact .inr (State.startBrush_starts _ _ (.inr h))

theorem State.startBrushes_frame (l : List Nat) (m : List Nat) :
    SameRegsBut m s (s.startBrushes d q n v l) ∧ SameMemory s (s.startBrushes d q n v l) := by
  induction l generalizing s with
  | nil => exact ⟨.refl .., .refl _⟩
  | cons x l ih =>
    obtain ⟨hr, hm⟩ := ih (s := s.startBrush q n v (brushKey d x))
    exact ⟨.step (.of_eq rfl rfl) hr, .step (.of_eq rfl rfl) hm⟩

end Start

theorem mem_maskBrushes {m b : Nat} : b ∈ maskBrushes m ↔ b < 32 ∧ bitOf m b = true := by
  simp [maskBrushes]

/-! ### What each control row runs -/

section Control
variable {s u : State} {d : Fin 4} {b : Fin 32} {op : Nat} {c : SlCtx} (h : SliverReady s d.val b.val op c u)
include h

theorem SliverReady.execSlvNop (hop : op = 0x00) (hf : u.slFault c = none) : exec (.slvNop d b) s = .next (u.brushNext c 1) := by
  subst hop
  exact (h.issue (check := fun c s => s.slFault c) rfl).trans (by rw [hf])

theorem SliverReady.execSlvEnd (hop : op = 0x01) (hf : u.slFault c = none) : exec (.slvEnd d b) s =
    .next (((u.brushTime c.d c.b c.run 1).1.delBrush (brushKey c.d c.b)).sliverDone c.run.queue c.run.seq) := by
  subst hop
  exact (h.issue (check := fun c s => s.slFault c) rfl).trans (by rw [hf])

theorem SliverReady.execSlvRep (hop : op = 0x02) (hf : State.repFault c u = none) : exec (.slvRep d b) s =
    .next ((u.brushTime c.d c.b c.run 1).1.setBrush (brushKey c.d c.b) { c.run with
      index := c.run.index + 1, busy := max u.now c.run.busy + u.acDur c.d 1,
      rep := some { start := c.run.index + 1, span := bitsOf c.w 48 8, count := bitsOf c.w 56 16, iter := 0,
                    bstride := bitsOf c.w 72 16, rstep := signedOf c.w 24 } }) := by
  subst hop
  exact (h.issue (check := fun c s => State.repFault c s) rfl).trans (by
    rw [hf]
    rfl)

/-- The context of a SETRB, with the random base that it leaves. -/
def SlCtx.setrb (c : SlCtx) : SlCtx :=
  { c with run := { c.run with base := if bitsOf c.w 64 2 = 0 then bitsOf c.w 0 64 else (c.run.base + bitsOf c.w 0 64) % 2 ^ 64 } }

theorem SliverReady.execSetrb (hop : op = 0x03) (hok : slSetrbOk c.w = true) :
    exec (.setrb d b) s = .next (u.brushNext c.setrb 1) := by
  subst hop
  exact (h.issue (check := fun c _ => if slSetrbOk c.w then none else some (stDescriptor, 0)) rfl).trans (by
    rw [if_pos hok]
    rfl)

theorem SliverReady.execSlvCvt (hop : op = 0x50) (hf : u.slFault c = none) : exec (.slvCvt d b) s =
    .next (u.runLanes c (laneCvt c.w ((u.withCapture c.prog).scaleOf c.d (slPset c.w)))) := by
  subst hop
  exact (h.issue (check := fun c s => s.slFault c) rfl).trans (by rw [hf])

theorem SliverReady.execSlvReduce (hop : op = 0x60) (hf : u.slFault c = none) :
    exec (.slvReduce d b) s = .next (u.runReduce c) := by
  subst hop
  exact (h.issue (check := fun c s => s.slFault c) rfl).trans (by rw [hf])

end Control

/-! ### The dispatch of a program -/

theorem State.execSliverRun_busy {s : State} {q : Fin 240} {n : Nat} {c : Cmd} (hserv : s.serving = true)
    (hc : s.findCmd q.val n = some c) (hbusy : s.brushesBusy c = true) : exec (.sliverRun q n) s = .next s := by
  refine (State.whenServing_next _ hserv).trans (congrArg Host.Outcome.next ?_)
  rw [hc]
  exact if_pos hbusy

theorem State.execSliverRun_go {s : State} {q : Fin 240} {n : Nat} {c : Cmd} (hserv : s.serving = true)
    (hc : s.findCmd q.val n = some c) (hfree : s.brushesBusy c = false) (hgo : s.startOf q.val n 0x30 = .go c)
    (hcl : s.engineClosing c = false) : exec (.sliverRun q n) s = .next ((s.begun q.val n).sliverStart c) := by
  refine (State.whenServing_next _ hserv).trans (congrArg Host.Outcome.next ?_)
  rw [hc]
  exact (if_neg (by simp [hfree])).trans (State.starting_go hgo hcl)

/-- What a SLIVER_RUN captures when it starts (R186). -/
def State.freshSliver (s : State) (c : Cmd) : SliverRun where
  queue := c.queue
  seq := c.seq
  die := c.die
  prog := c.at 8 8
  capt := s.captureRegs c.die
  lendMask := F.SLV_LEND_LEND_MASK.get (s.reg (R.SLV_LEND c.die))
  lendBase := F.SLV_LEND_ROW_BASE.get (s.reg (R.SLV_LEND c.die))
  lendCount := F.SLV_LEND_ROW_COUNT.get (s.reg (R.SLV_LEND c.die))
  stopped := []
  counted := false
  until_ := s.now

/-- A program that names brushes that serve and an aligned address of this module starts on every one of them. -/
theorem State.sliverStart_starts {s : State} {c : Cmd} (hmask : c.at 16 4 ≠ 0)
    (hup : ∀ b < 32, bitOf (c.at 16 4) b = true → s.brushUp c.die b = true) (halign : c.at 8 8 % 16 = 0)
    (hown : s.isOwn (c.at 8 8) = true) : ∃ t, t.now = s.now ∧ SameRegsBut [] s t ∧ SameMemory s t ∧
      s.sliverStart c = t.startBrushes c.die c.queue c.seq Latches.start (maskBrushes (c.at 16 4)) := by
  have hany : ((maskBrushes (c.at 16 4)).any (fun b => !(s.brushUp c.die b)) || c.at 8 8 % 16 != 0 || !(s.isOwn (c.at 8 8))) = false := by
    have hall : (maskBrushes (c.at 16 4)).any (fun b => !(s.brushUp c.die b)) = false := by
      rw [List.any_eq_false]
      intro b hb
      obtain ⟨hlt, hbit⟩ := mem_maskBrushes.mp hb
      simp [hup b hlt hbit]
    simp [hall, halign, hown]
  refine ⟨(s.withSlivers (s.slivers ++ [s.freshSliver c])).updCmd c.queue c.seq (fun x => { x with palDie := c.die }),
    rfl, .step (.of_eq rfl rfl) .updCmd, .step (.of_eq rfl rfl) .updCmd, ?_⟩
  unfold State.sliverStart
  dsimp only
  rw [if_neg hmask, if_neg (by rw [hany]; decide)]
  rfl

/-! ### The lending of a brush (R156, R168) -/

/-- A brush is lent, from the next tick on. -/
def State.lend (s : State) (k : Nat) : State :=
  { s with lent := s.lent ++ [k], lentSince := sparsePut s.lentSince k (s.now + 1) }

theorem State.brushRuns_lend (s : State) (k : Nat) : (s.lend k).brushRuns = s.brushRuns := rfl

theorem SameRegsBut.lend {s : State} {k : Nat} {l : List Nat} : SameRegsBut l s (s.lend k) := .of_eq rfl rfl

theorem SameMemory.lend {s : State} {k : Nat} : SameMemory s (s.lend k) := .of_eq rfl rfl

/-- What lets a brush be lent: it serves, LEND names it and rows for it, it is not lent, a collective runs. -/
def State.lendOk (s : State) (d b : Nat) : Bool :=
  s.brushUp d b && bitOf (F.SLV_LEND_LEND_MASK.get (s.reg (R.SLV_LEND d))) b && F.SLV_LEND_ROW_COUNT.get (s.reg (R.SLV_LEND d)) != 0 &&
    !(s.lent.contains (brushKey d b)) && s.cmds.any (fun c => isCollective c.code && c.phase == .started)

section Lend
variable {s : State} {d : Fin 4} {b : Fin 32} {r : BrushRun}

theorem State.lendable (hup : s.brushUp d.val b.val = true) (hmask : bitOf (s.fld (R.SLV_LEND d.val) F.SLV_LEND_LEND_MASK) b.val = true)
    (hrows : s.fld (R.SLV_LEND d.val) F.SLV_LEND_ROW_COUNT ≠ 0) (hlent : s.lent.contains (brushKey d.val b.val) = false)
    (hcoll : s.cmds.any (fun c => isCollective c.code && c.phase == .started) = true) : s.lendOk d.val b.val = true := by
  rw [State.fld] at hmask hrows
  rw [State.lendOk, hup, hmask, hlent, hcoll, bne_iff_ne.mpr hrows]
  rfl

theorem State.execLendGrant_ok (hserv : s.serving = true) (hok : s.lendOk d.val b.val = true) :
    exec (.lendGrant d b) s = .next (match s.brushRun (brushKey d.val b.val) with
      | none => s.lend (brushKey d.val b.val)
      | some r =>
        if s.fld (R.SLV_CFG d.val) F.SLV_CFG_LEND_PREEMPT = 1 then
          ((s.setBrush (brushKey d.val b.val) { r with busy := max s.now r.busy + s.acDur d.val 4 }).lend (brushKey d.val b.val)).count
            (R.SLV_BSTALL d.val b.val) F.SLV_BSTALL_LEND 4
        else s) :=
  (State.whenServing_next _ hserv).trans (congrArg Host.Outcome.next (if_neg (by
    rw [← State.lendOk, hok]
    decide)))

end Lend

/-! ### SliverControl -/

/-- Settles O46. -/
theorem sliverControl : Obligations.SliverControl := by
  refine ⟨fun d b op c s u h => ⟨fun hop hf hrep => ?_, fun hop hf hc hprog hstop hlast => ?_, fun hop hf => ?_,
    fun hop hok hrep => ?_, h.execSlvCvt, h.execSlvReduce⟩, fun q n c s hc hserv => ⟨State.execSliverRun_busy hserv hc,
    fun hfree hgo hcl => ⟨fun hmask => ?_, fun hmask hup halign hown => ?_⟩⟩, fun d b s hserv hup hmask hrows hlent hcoll => ?_⟩
  · rw [h.execSlvNop hop hf, ← h.die, ← h.brush]
    exact ⟨_, rfl, u.brushRun_brushNext c 1 hrep, .brushNext⟩
  · rw [h.execSlvEnd hop hf, ← h.die, ← h.brush]
    rw [← h.die, ← h.brush] at hlast
    obtain ⟨due, hrun, hnone, hfin, hmem⟩ := State.endBrush (s := (u.brushTime c.d c.b c.run 1).1) (k := brushKey c.d c.b)
      (by rwa [State.brushRuns_brushTime]) (State.sliverRun_brushTime hprog) hstop (by rwa [State.findCmd_brushTime])
    exact ⟨_, due, rfl, hrun, hnone, hfin, .step .brushTime hmem⟩
  · rw [h.execSlvRep hop hf, ← h.die, ← h.brush]
    refine ⟨_, rfl, ?_, .step .brushTime .setBrush⟩
    rw [State.brushRun_setBrush, if_pos rfl]
  · rw [h.execSetrb hop hok, ← h.die, ← h.brush]
    exact ⟨_, rfl, u.brushRun_brushNext c.setrb 1 hrep, .brushNext⟩
  · obtain ⟨hq, hn⟩ := State.findCmd_is hc
    rw [State.execSliverRun_go hserv hc hfree hgo hcl]
    refine ⟨_, rfl, ?_⟩
    rw [← hq, ← hn] at hc ⊢
    rw [State.sliverStart]
    dsimp only
    rw [if_pos hmask]
    refine ⟨State.finish_finished ?_, .step .updCmd .finish, .step .updCmd .finish⟩
    rw [State.findCmd_begun hc]
    exact Option.some_ne_none _
  · rw [State.execSliverRun_go hserv hc hfree hgo hcl]
    refine ⟨_, rfl, ?_⟩
    obtain ⟨t, hnow, hregs, hmem, ht⟩ := State.sliverStart_starts (s := s.begun q.val n) hmask hup halign hown
    obtain ⟨hr, hm⟩ := State.startBrushes_frame (s := t) (d := c.die) (q := c.queue) (n := c.seq)
      (v := Latches.start) (maskBrushes (c.at 16 4)) []
    rw [ht]
    refine ⟨fun b hb hbit => ?_, ?_⟩
    · have hstart := State.startBrushes_starts (s := t) (d := c.die) (q := c.queue) (n := c.seq) (v := Latches.start) _ b
        (.inl (mem_maskBrushes.mpr ⟨hb, hbit⟩))
      rwa [hnow] at hstart
    exact ⟨.step .updCmd (.step hregs hr), .step .updCmd (.step hmem hm)⟩
  · refine ⟨fun hidle => ?_, fun r hr => ⟨fun hpre => ?_, fun hpre => ?_⟩⟩
    all_goals have hok := State.lendable hup hmask hrows hlent hcoll
    · rw [State.execLendGrant_ok hserv hok, hidle]
      exact ⟨_, rfl, rfl, .of_eq rfl rfl, .of_eq rfl rfl⟩
    · rw [State.execLendGrant_ok hserv hok, hr]
      exact congrArg Host.Outcome.next (if_neg hpre)
    · rw [State.execLendGrant_ok hserv hok, hr]
      refine ⟨_, congrArg Host.Outcome.next (if_pos hpre), State.count_lent .., ?_,
        .step .setBrush (.step .lend (.count _ _ _ (by simp))), .step .setBrush (.step .lend (.count _ _ _ _))⟩
      rw [State.brushRun, State.count_brushRuns, State.brushRuns_lend, ← State.brushRun, State.brushRun_setBrush, if_pos rfl]

end Sys2Proof.Machine
end

section
/-!
PROOFS. The rings of the queues: doorbells, entries taken, and completion slots freed.
-/

namespace Sys2Proof.Machine

open Sys2Proof

section Registers
variable (q : Nat)

theorem qtail_ne_qstat : R.QTAIL q ≠ R.QSTAT q := by simp only [R.QTAIL, R.QSTAT]; omega

theorem qtail_ne_qhead : R.QTAIL q ≠ R.QHEAD q := by simp only [R.QTAIL, R.QHEAD]; omega

theorem chead_ne_qstat : R.CHEAD q ≠ R.QSTAT q := by simp only [R.CHEAD, R.QSTAT]; omega

end Registers

/-! ### Doorbells (R196, R222) -/

section Tail
variable (s : State) (q : Nat) {n : Nat}

theorem State.qState_setTail : (s.setFld (R.QTAIL q) F.QTAIL_TAIL n).qState q = s.qState q :=
  State.fld_setFld_other _ _ _ _ _ _ (qtail_ne_qstat q)

/-- The entries that wait once TAIL is n. -/
theorem State.pendingEntries_setTail (hn : n < 2 ^ 32) : (s.setFld (R.QTAIL q) F.QTAIL_TAIL n).pendingEntries q =
    (n + 2 ^ 32 - s.fld (R.QHEAD q) F.QHEAD_HEAD) % 2 ^ 32 := by
  rw [State.pendingEntries, State.fld_setFld_same _ _ _ _ (by decide) hn, State.fld_setFld_other _ _ _ _ _ _ (qtail_ne_qhead q)]

/-- A doorbell whose tail the ring can hold. -/
theorem State.doorbell_taken {v : Nat} (hoff : s.qState q ≠ qOff)
    (hle : (v % 2 ^ 32 + 2 ^ 32 - s.fld (R.QHEAD q) F.QHEAD_HEAD) % 2 ^ 32 ≤ 2 ^ s.fld (R.QCFG q) F.QCFG_RING_LOG) :
    s.doorbell q v = if s.qState q = qIdle ∧ (v % 2 ^ 32 + 2 ^ 32 - s.fld (R.QHEAD q) F.QHEAD_HEAD) % 2 ^ 32 ≠ 0 then
      (s.setFld (R.QTAIL q) F.QTAIL_TAIL (v % 2 ^ 32)).setQState q qRun 0 else s.setFld (R.QTAIL q) F.QTAIL_TAIL (v % 2 ^ 32) := by
  have hn : v % 2 ^ 32 < 2 ^ 32 := Nat.mod_lt _ (by decide)
  unfold State.doorbell
  dsimp only
  rw [if_neg hoff, if_pos hle, State.pendingEntries_setTail _ _ hn]

end Tail

theorem execQtailDoorbell_up {q : Fin 240} {v : BitVec 64} {s : State} (h : s.qBlockUp q.val = true) :
    exec (.qtailDoorbell q v) s = .next (s.doorbell q.val v.toNat) :=
  congrArg Host.Outcome.next (if_pos h)

/-- Settles O24. -/
theorem doorbell : Obligations.Doorbell := by
  intro q v s hup
  rw [execQtailDoorbell_up hup]
  refine ⟨fun hoff => ?_, fun hoff => ⟨fun hle => ⟨_, rfl, ?_⟩, fun hlt => ⟨_, rfl, ?_⟩⟩⟩
  · exact congrArg Host.Outcome.next (if_pos hoff)
  · have hn : v.toNat % 2 ^ 32 < 2 ^ 32 := Nat.mod_lt _ (by decide)
    have htail : (s.setFld (R.QTAIL q.val) F.QTAIL_TAIL (v.toNat % 2 ^ 32)).fld (R.QTAIL q.val) F.QTAIL_TAIL = v.toNat % 2 ^ 32 :=
      State.fld_setFld_same _ _ _ _ (by decide) hn
    rw [s.doorbell_taken q.val hoff hle]
    by_cases hidle : s.qState q.val = qIdle ∧ (v.toNat % 2 ^ 32 + 2 ^ 32 - s.fld (R.QHEAD q.val) F.QHEAD_HEAD) % 2 ^ 32 ≠ 0
    · rw [if_pos hidle, if_pos hidle]
      refine ⟨?_, State.qState_setQState _ _ _ (by decide), .step (.setFld _ _ _ (by simp)) (.setQState (by simp)),
        .step (.setFld _ _ _ _) .setQState⟩
      rw [State.fld, State.reg_setQState_other _ _ _ _ (qtail_ne_qstat _)]
      exact htail
    · rw [if_neg hidle, if_neg hidle]
      exact ⟨htail, s.qState_setTail _, .setFld _ _ _ (by simp), .setFld _ _ _ _⟩
  · have hbad : s.doorbell q.val v.toNat = s.count (R.QERR q.val) F.QERR_DB_BAD 1 := by
      unfold State.doorbell
      dsimp only
      rw [if_neg hoff, if_neg (Nat.not_le_of_lt hlt)]
    rw [hbad]
    exact ⟨State.fld_count_same _ _ _ _ (by decide), .count _ _ _ (by simp), .count _ _ _ _⟩

/-! ### Ring entries and completion slots (R194, R195, R216) -/

/-- A legal entry without REC begins its list. -/
theorem State.takeEntry_begins {s u : State} {q : Nat} {b : List Byte}
    (hf : s.fetch q (((s.reg (R.QBASE q)).toNat +
      16 * (s.fld (R.QHEAD q) F.QHEAD_HEAD % 2 ^ s.fld (R.QCFG q) F.QCFG_RING_LOG)) % 2 ^ 64) 16 16 = (.ok b, u))
    (h10 : leField b 10 1 = 0) (h11 : leField b 11 1 = 0) :
    s.takeEntry q = u.enterList q (s.fld (R.QHEAD q) F.QHEAD_HEAD) 0 b := by
  have hrec : bitOf (leField b 10 1) 0 = false := by rw [h10]; rfl
  unfold State.takeEntry
  dsimp only
  rw [hf]
  dsimp only
  rw [hrec, if_neg (by simp [h10, h11]), if_neg (by decide)]

theorem execCheadWrite_up {q : Fin 240} {v : BitVec 64} {s : State} (h : s.qBlockUp q.val = true) :
    exec (.cheadWrite q v) s = .next (s.cheadWrite q.val v.toNat) :=
  congrArg Host.Outcome.next (if_pos h)

/-- Settles O26. -/
theorem ringEntryAndHead : Obligations.RingEntryAndHead := by
  refine ⟨fun q b s u hi hr hl hp hf h10 h11 => ?_, fun q s hp => ?_, fun q v s hup hw => ?_⟩
  · have hexec : exec (.ringEntryTake q) s = .next (u.enterList q.val (s.fld (R.QHEAD q.val) F.QHEAD_HEAD) 0 b) :=
      congrArg Host.Outcome.next ((if_pos (by simp [hi, hr, hl, hp])).trans (State.takeEntry_begins hf h10 h11))
    have hq := u.qint_updQ_same q.val (fun i => { i with
      inList := true, entry := s.fld (R.QHEAD q.val) F.QHEAD_HEAD, tag := leField b 8 2, wantRec := bitOf (leField b 10 1) 0,
      maxw := leField b 12 4, slot := 0, issued := 0, wait := none })
    exact ⟨_, hexec, congrArg QueueInt.inList hq, congrArg QueueInt.tag hq, congrArg QueueInt.maxw hq, congrArg QueueInt.issued hq,
      State.reg_setReg_same .., .setReg _ _ (by simp), .of_eq rfl rfl⟩
  · exact congrArg Host.Outcome.next (if_neg (by simp [hp]))
  · rw [execCheadWrite_up hup]
    unfold State.cheadWrite
    dsimp only
    refine ⟨fun hle => ⟨_, rfl, ?_⟩, fun hlt => congrArg Host.Outcome.next (if_pos hlt)⟩
    have hst : (s.setFld (R.CHEAD q.val) F.CHEAD_CHEAD (v.toNat % 2 ^ 32)).qState q.val = s.qState q.val :=
      State.fld_setFld_other _ _ _ _ _ _ (chead_ne_qstat _)
    rw [if_neg (Nat.not_lt_of_le hle), hst, if_neg fun h => hw h.1]
    exact ⟨State.fld_setFld_same _ _ _ _ (by decide) (Nat.mod_lt _ (by decide)), .setFld _ _ _ (by simp), .setFld _ _ _ _⟩

end Sys2Proof.Machine
end

section
/-!
PROOFS. DispatchAndCompletion: FENCE, RBIND, DISPATCH and the completion of commands.
-/

namespace Sys2Proof.Machine

open Sys2Proof

/-! ### What the check for aliases leaves (R103) -/

/-- A register that neither the check for aliases of the bind tables nor the recording of errors writes. -/
def AliasFree (a : Nat) : Prop :=
  ¬ IsRecordReg a ∧ ∀ d < 4, a ≠ R.RAND_STAT d ∧ ∀ n < 64, a ≠ R.RAND_BIND d n

theorem aliasFree_qpc (q : Nat) : AliasFree (R.QPC q) := by
  have hq : q % 48 < 48 := Nat.mod_lt _ (by decide)
  obtain hc | ⟨e, he, hc⟩ := cpBase_cases q
  all_goals
    refine ⟨?_, fun d hd => ⟨?_, fun n hn => ?_⟩⟩
    · rw [IsRecordReg, R.QPC, R.HOSTP_ALERT, R.HOSTP_EVT_CNT, hc]
      omega
    · rw [R.QPC, R.RAND_STAT, dieBlk, hc]
      omega
    · rw [R.QPC, R.RAND_BIND, dieBlk, hc]
      omega

theorem aliasFree_randStream (d n : Nat) : AliasFree (R.RAND_STREAM d n) := by
  refine ⟨?_, fun e he => ⟨?_, fun m hm => ?_⟩⟩
  · rw [IsRecordReg, R.RAND_STREAM, R.HOSTP_ALERT, R.HOSTP_EVT_CNT, dieBlk]
    omega
  · rw [R.RAND_STREAM, R.RAND_STAT, dieBlk, dieBlk]
    omega
  · rw [R.RAND_STREAM, R.RAND_BIND, dieBlk, dieBlk]
    omega

/-- `t` has the memory of `s`, and its register a. -/
def KeepsReg (a : Nat) (s t : State) : Prop := t.mem = s.mem ∧ t.reg a = s.reg a

namespace KeepsReg
variable {s t u : State} {a : Nat}

theorem refl : KeepsReg a s s := ⟨rfl, rfl⟩

theorem trans (h : KeepsReg a s t) (g : KeepsReg a t u) : KeepsReg a s u := ⟨g.1.trans h.1, g.2.trans h.2⟩

theorem setReg {b : Nat} {v : Word} (h : b ≠ a) : KeepsReg a s (s.setReg b v) := ⟨rfl, State.reg_setReg_other _ _ _ _ h⟩

theorem setFld {b v : Nat} {f : Field} (h : b ≠ a) : KeepsReg a s (s.setFld b f v) := setReg h

theorem errRecord {r : ErrRec} (h : ¬ IsRecordReg a) : KeepsReg a s (s.errRecord r) :=
  ⟨by rw [(s.errRecord_recordFrame r).rest], (s.errRecord_recordFrame r).regs a h⟩

theorem aliasBits (h : AliasFree a) : KeepsReg a s s.aliasBits := by
  unfold State.aliasBits
  refine List.foldlRecOn (motive := KeepsReg a s) _ _ (List.foldlRecOn (motive := KeepsReg a s) _ _ refl fun t ht p hp => ?_)
    fun t ht d hd => ?_
  · obtain ⟨d, hd, n, hn, rfl⟩ : ∃ d < 4, ∃ n < 64, (d, n) = p := by
      simpa only [List.mem_flatMap, List.mem_map, List.mem_range] using hp
    dsimp only
    split
    · exact ht
    · exact ht.trans (setFld ((h.2 d hd).2 n hn).symm)
  · exact ht.trans (setFld (h.2 d (List.mem_range.mp hd)).1.symm)

theorem aliasCheck {unit d n : Nat} (h : AliasFree a) (hd : d < 4) : KeepsReg a s (s.aliasCheck unit d n).1 := by
  unfold State.aliasCheck
  split
  · exact aliasBits h
  · refine trans (List.foldlRecOn (motive := KeepsReg a s) _ _ refl fun t ht p _ => ?_) (aliasBits h)
    exact ht.trans (trans (setFld (h.2 d hd).1.symm) (errRecord h.1))

end KeepsReg

/-! ### RBIND (R210) -/

section Bind
variable {s : State} {unit d n consumer : Nat} {valid shared : Bool} {lo hi sid : Word}

theorem State.bindEntry_eq : s.bindEntry unit d n consumer valid shared lo hi sid =
    ((((s.setReg (R.RAND_KEY_LO d n) lo).setReg (R.RAND_KEY_HI d n) hi).setReg (R.RAND_STREAM d n) sid).setReg (R.RAND_BIND d n)
      (BitVec.ofNat 64 (consumer % 256 + 256 * b2n valid + 512 * b2n shared + 1024 *
        (((s.setReg (R.RAND_KEY_LO d n) lo).setReg (R.RAND_KEY_HI d n) hi).setReg (R.RAND_STREAM d n) sid).fld (R.RAND_BIND d n)
          F.RAND_BIND_ALIAS))).aliasCheck unit d n := rfl

theorem State.randStream_bindEntry (hd : d < 4) (hn : n < 64) :
    (s.bindEntry unit d n consumer valid shared lo hi sid).1.reg (R.RAND_STREAM d n) = sid := by
  have h := aliasFree_randStream d n
  rw [State.bindEntry_eq]
  exact (KeepsReg.trans (.setReg ((h.2 d hd).2 n hn).symm) (.aliasCheck h hd)).2.trans (State.reg_setReg_same ..)

theorem State.bindEntry_queue (hd : d < 4) (hn : n < 64) (q : Nat) :
    KeepsReg (R.QPC q) s (s.bindEntry unit d n consumer valid shared lo hi sid).1 := by
  have hq : q % 48 < 48 := Nat.mod_lt _ (by decide)
  have hne : R.RAND_STREAM d n ≠ R.QPC q ∧ R.RAND_KEY_LO d n ≠ R.QPC q ∧ R.RAND_KEY_HI d n ≠ R.QPC q := by
    rw [R.RAND_STREAM, R.RAND_KEY_LO, R.RAND_KEY_HI, R.QPC, dieBlk]
    obtain hc | ⟨e, he, hc⟩ := cpBase_cases q
    all_goals
      rw [hc]
      omega
  obtain ⟨hst, hlo, hhi⟩ := hne
  have h := aliasFree_qpc q
  rw [State.bindEntry_eq]
  exact .trans (.setReg hlo) (.trans (.setReg hhi) (.trans (.setReg hst) (.trans (.setReg ((h.2 d hd).2 n hn).symm) (.aliasCheck h hd))))

end Bind

theorem randStream_not_queue {d n : Nat} (hn : n < 64) (q r : Nat) (hr : r < 32) :
    R.RAND_STREAM d n ∉ [R.QSREG q r, R.QPC q, R.QSTAT q] := by
  have hq : q % 48 < 48 := Nat.mod_lt _ (by decide)
  simp only [List.mem_cons, List.not_mem_nil, or_false, not_or]
  rw [R.RAND_STREAM, R.QSREG, R.QPC, R.QSTAT, dieBlk]
  obtain hc | ⟨e, he, hc⟩ := cpBase_cases q
  all_goals
    rw [hc]
    omega

theorem SameRegsBut.nextRd {s : State} {q w v : Nat} {l : List Nat} (hr : R.QSREG q (cwRd w) ∈ l) (hp : R.QPC q ∈ l) (hs : R.QSTAT q ∈ l) :
    SameRegsBut l s (s.nextRd q w v) := .step (.setSreg fun _ => hr) (.next hp hs)

theorem State.mem_finishInstr (s : State) (q cost pc : Nat) : (s.finishInstr q cost pc).mem = s.mem := by
  rw [State.finishInstr, State.setQState, State.setFld_mem, State.setFld_mem, State.setPc, State.setReg_mem]
  rfl

theorem State.cmds_finishInstr (s : State) (q cost pc : Nat) : (s.finishInstr q cost pc).cmds = s.cmds := by
  rw [State.finishInstr, State.setQState, State.setFld_cmds, State.setFld_cmds, State.setPc, State.setReg_cmds]
  rfl

theorem State.mem_nextRd (s : State) (q w v : Nat) : (s.nextRd q w v).mem = s.mem := by
  rw [State.nextRd, State.next, State.finishWait, State.mem_finishInstr]
  unfold State.setSreg
  split <;> rfl

/-- RBIND of a legal record of this module's memory. -/
theorem State.rbind_legal {u v : State} {q w : Nat} {b : List Byte} (ha : u.aheadNow q = false)
    (hal : u.sreg q (cwRa w) % 32 = 0) (hown : u.isOwn (u.sreg q (cwRa w)) = true)
    (hmap : u.mappedRange (gaLocal (u.sreg q (cwRa w))) 32 = true)
    (hup : u.blockUp (.rand (Fin.ofNat 4 (bitsOf (cwImm w) 8 2))) = true)
    (hread : u.readMem (easelWho q) (gaLocal (u.sreg q (cwRa w))) 32 = (b, v, false)) (h25 : leField b 25 1 < 4)
(h26 : leField b 26 6 = 0) {x : State × Bool}
    (hx : v.bindEntry (easelUnit (easelOf q)) (bitsOf (cwImm w) 8 2) (bitsOf (cwImm w) 0 6) (leField b 24 1) (bitOf (leField b 25 1) 0)
      (bitOf (leField b 25 1) 1) (BitVec.ofNat 64 (leField b 0 8)) (BitVec.ofNat 64 (leField b 8 8))
      (BitVec.ofNat 64 (leField b 16 8)) = x) : u.rbind q w = x.1.nextRd q w (doneStatus x.2) := by
  obtain ⟨t, hit⟩ := x
  unfold State.rbind
  refine (if_neg ?_).trans ((State.unlessAhead_of_not ha).trans ?_)
  · simp only [hal, hown, hmap, hup, ne_eq, not_true_eq_false, reduceCtorEq, or_self, not_false_eq_true]
  · rw [hread]
    refine (if_neg Bool.false_ne_true).trans ((if_neg (by omega)).trans ?_)
    exact congrArg (fun x : State × Bool => match x with | (s, hit) => s.nextRd q w (doneStatus hit)) hx

/-! ### DISPATCH (R212 to R214) -/

/-- The commands, with one more and then without it. -/
theorem filter_append_is {l : List Cmd} {c : Cmd} {q : Nat} (hq : c.queue = q) (h : l.find? (fun x => x.is q c.seq) = none) :
    (l ++ [c]).filter (fun x => !(x.is q c.seq)) = l := by
  have hc : c.is q c.seq = true := by simp [Cmd.is, hq]
  rw [List.filter_append, List.filter_cons_of_neg (by simp [hc]), List.filter_nil, List.append_nil, List.filter_eq_self]
  intro x hx
  simpa using List.find?_eq_none.mp h x hx

theorem find_append_is {l : List Cmd} {c : Cmd} {q : Nat} (hq : c.queue = q) (h : l.find? (fun x => x.is q c.seq) = none) :
    (l ++ [c]).find? (fun x => x.is q c.seq) = some c := by
  have hc : c.is q c.seq = true := by simp [Cmd.is, hq]
  rw [List.find?_append, h, Option.none_or, List.find?_cons_of_pos (by exact hc)]

/-- The state with other commands. -/
def State.withCmds (s : State) (l : List Cmd) : State := { s with cmds := l }

theorem State.cmds_withCmds (s : State) (l : List Cmd) : (s.withCmds l).cmds = l := rfl

theorem State.reg_withCmds (s : State) (l : List Cmd) (a : Nat) : (s.withCmds l).reg a = s.reg a := rfl

theorem State.qState_withCmds (s : State) (l : List Cmd) (q : Nat) : (s.withCmds l).qState q = s.qState q := rfl

theorem State.qpc_withCmds (s : State) (l : List Cmd) (q : Nat) : (s.withCmds l).qpc q = s.qpc q := rfl

theorem SameMemory.withCmds {s : State} {l : List Cmd} : SameMemory s (s.withCmds l) := .of_eq rfl rfl

/-- A dispatch without REC that finds room goes to its engine. -/
theorem State.dispatch_accepts {u v : State} {q w : Nat} {b : List Byte} {c : Cmd}
    (hf : u.fetch q ((u.qpc q + 8) % 2 ^ 64) 8 64 = (.ok b, v)) (ha : v.aheadNow q = false)
    (hc : c = v.newCmd q (patched b w (v.sreg q (cwRa w)) (v.sreg q (cwRb w)))) (hends : v.headerEnds c = none)
    (hrec : c.rec_ = false) (hnew : v.findCmd q c.seq = none) (hroom : v.pendingOn q c.engine < engineCap c.engine) :
    u.dispatch q w = v.accept q w c none := by
  have hq : c.queue = q := by rw [hc]; rfl
  have hfilter : ({ v with cmds := (v.cmds ++ [c]).filter (fun x => !(x.is q c.seq)) } : State) = v := by
    rw [filter_append_is hq hnew]
  unfold State.dispatch
  rw [hf]
  dsimp only
  rw [← hc, if_neg (by simp [hrec]), hends]
  dsimp only
  rw [ha, if_neg Bool.false_ne_true]
  dsimp only
  rw [show ({ v with cmds := v.cmds ++ [c] } : State).findCmd q c.seq = some c from find_append_is hq hnew, Option.getD_some, hfilter,
    if_neg (show ¬(true = false) by decide), if_neg (Nat.not_le_of_lt hroom)]

theorem qseq_not_queue (q : Nat) : R.QSEQ q ∉ [R.QPC q, R.QSTAT q] := by
  simp only [List.mem_cons, List.not_mem_nil, or_false, not_or, R.QSEQ, R.QPC, R.QSTAT]
  omega

/-- The state of the queue once a dispatch has issued. -/
def State.issued (s : State) (q n : Nat) : State :=
  (s.setReg (R.QSEQ q) (BitVec.ofNat 64 n)).finishInstr q 9 (((s.setReg (R.QSEQ q) (BitVec.ofNat 64 n)).qpc q + 72) % 2 ^ 64)

theorem State.issued_queue (s : State) (q n : Nat) : (s.issued q n).reg (R.QSEQ q) = BitVec.ofNat 64 n ∧ (s.issued q n).qState q = qRun ∧
    (s.issued q n).qpc q = (s.qpc q + 72) % 2 ^ 64 ∧ SameMemory s (s.issued q n) ∧ (s.issued q n).cmds = s.cmds := by
  have hpc : (s.setReg (R.QSEQ q) (BitVec.ofNat 64 n)).qpc q = s.qpc q := by
    rw [State.qpc, State.reg_setReg_other, State.qpc]
    intro e
    exact qseq_not_queue q (by simp [e])
  refine ⟨?_, State.qState_finishInstr .., ?_, .step (.setReg s _ _) .finishInstr, ?_⟩
  · exact ((SameRegsBut.finishInstr (by simp) (by simp)).1 _ (qseq_not_queue q)).trans (State.reg_setReg_same ..)
  · rw [State.issued, State.qpc_finishInstr, hpc, Nat.mod_mod]
  · rw [State.issued, State.cmds_finishInstr, State.setReg_cmds]

/-- What the acceptance of a fresh command without REC leaves. -/
theorem State.accept_issues {v : State} {q w : Nat} {c : Cmd} (hrec : c.rec_ = false) (hslot : c.slot = 0) :
    v.accept q w c none = (v.issued q c.seq).withCmds ((v.issued q c.seq).cmds ++ [{ c with unit := c.unitId }]) := by
  have hc : ({ c with slot := 0 } : Cmd) = c := by rw [← hslot]
  unfold State.accept
  rw [hrec, if_neg (by simp), if_neg (by simp)]
  simp only [Bool.false_eq_true, if_false, hc]
  rw [hslot]
  rfl

/-! ### DispatchAndCompletion -/

/-- Settles O38. -/
theorem dispatchAndCompletion : Obligations.DispatchAndCompletion := by
  refine ⟨fun q scope s hup hst hw => ?_, fun q w b s u v h hop ha hal hown hmap hup hread h25 h26 => ?_,
    ?_, fun q s hup hst hon => ?_, fun q n c s hserv hc => ?_⟩
  · have hexec : exec (.fenceComplete q) s = .next (if s.fenceDone q.val scope then
        (if (s.qint q.val).stFault.isSome then s.reportSt q.val else s.next q.val) else s) := by
      refine congrArg Host.Outcome.next ((if_pos (by simp [hup, hst])).trans ?_)
      rw [hw]
    rw [hexec]
    refine ⟨fun hd => ?_, fun hd hf => ⟨_, rfl, ?_⟩⟩
    · rw [hd]
      rfl
    · rw [if_pos hd, if_neg (by simp [hf])]
      exact ⟨s.next_done _, .next⟩
  · obtain ⟨x, hb⟩ : ∃ x, v.bindEntry (easelUnit (easelOf q.val)) (bitsOf (cwImm w) 8 2) (bitsOf (cwImm w) 0 6) (leField b 24 1)
        (bitOf (leField b 25 1) 0) (bitOf (leField b 25 1) 1) (BitVec.ofNat 64 (leField b 0 8)) (BitVec.ofNat 64 (leField b 8 8))
        (BitVec.ofNat 64 (leField b 16 8)) = x := ⟨_, rfl⟩
    have hx := State.rbind_legal ha hal hown hmap hup hread h25 h26 hb
    have hd : bitsOf (cwImm w) 8 2 < 4 := Nat.mod_lt _ (by decide)
    have hn : bitsOf (cwImm w) 0 6 < 64 := Nat.mod_lt _ (by decide)
    have hexec : exec (.qRbind q) s = .next (x.1.nextRd q.val w (doneStatus x.2)) :=
      congrArg Host.Outcome.next ((h.issue hop).trans hx)
    obtain ⟨hmem, hpc⟩ := State.bindEntry_queue (s := v) (unit := easelUnit (easelOf q.val)) (consumer := leField b 24 1)
      (valid := bitOf (leField b 25 1) 0) (shared := bitOf (leField b 25 1) 1) (lo := BitVec.ofNat 64 (leField b 0 8))
      (hi := BitVec.ofNat 64 (leField b 8 8)) (sid := BitVec.ofNat 64 (leField b 16 8)) hd hn q.val
    rw [hb] at hmem hpc
    obtain ⟨hnext, -, -⟩ := x.1.setSreg_next_done q.val (cwRd w) (doneStatus x.2)
    have hsame : SameRegsBut [R.QSREG q.val (cwRd w), R.QPC q.val, R.QSTAT q.val] x.1 (x.1.nextRd q.val w (doneStatus x.2)) :=
      .nextRd (by simp) (by simp) (by simp)
    refine ⟨_, hexec, State.qState_finishInstr .., ?_, ?_, ?_⟩
    · rw [show x.1.nextRd q.val w (doneStatus x.2) = (x.1.setSreg q.val (cwRd w) (doneStatus x.2)).next q.val from rfl, hnext,
        State.qpc, hpc, State.qpc]
    · rw [State.mem_nextRd, hmem]
    · rw [hsame.1 _ (randStream_not_queue hn _ _ (Nat.mod_lt _ (by decide))), ← hb, State.randStream_bindEntry hd hn]
  · intro q w b s u v h hop hf ha c hends hrec hnew hroom
    have hexec : exec (.qDispatch q) s = .next ((v.issued q.val c.seq).withCmds
        ((v.issued q.val c.seq).cmds ++ [{ c with unit := c.unitId }])) :=
      congrArg Host.Outcome.next ((h.issue hop).trans ((State.dispatch_accepts hf ha rfl hends hrec hnew hroom).trans
        (State.accept_issues hrec rfl)))
    obtain ⟨hseq, hrun, hpc, hmem, hcmds⟩ := v.issued_queue q.val c.seq
    refine ⟨_, hexec, ?_, (State.reg_withCmds ..).trans hseq, (State.qState_withCmds ..).trans hrun,
      (State.qpc_withCmds ..).trans hpc, .step hmem .withCmds⟩
    rw [State.cmds_withCmds, hcmds]
  · exact congrArg Host.Outcome.next (if_pos ⟨hup, hst, hon⟩)
  · refine ⟨fun hfin hdue hopen => ?_, fun hdue => ?_⟩
    all_goals
      refine (State.whenServing_next _ hserv).trans (congrArg Host.Outcome.next ?_)
      rw [hc]
    · exact if_pos ⟨hfin, hdue, hopen⟩
    · exact if_neg (by omega)

end Sys2Proof.Machine
end

section
/-!
PROOFS. Arbiters: the grant of a lone request, the end of a window, the cut-off of a privileged holder.
-/

namespace Sys2Proof.Machine

open Sys2Proof

section Arbiter
variable (s : State) (k : Nat) (a : Arbiter)

theorem State.arb_setArb : (s.setArb k a).arb k = a := sparseGet_set_same s.arbs k a Arbiter.fresh

theorem SameRegsBut.setArb {s : State} {k : Nat} {a : Arbiter} {l : List Nat} : SameRegsBut l s (s.setArb k a) := .of_eq rfl rfl

theorem SameMemory.setArb {s : State} {k : Nat} {a : Arbiter} : SameMemory s (s.setArb k a) := .of_eq rfl rfl

end Arbiter

/-! ### The grant of a lone request (R227) -/

section Grant
variable {s : State} {pl r : Nat}

theorem getD_four_zeros : ∀ c < 4, [0, 0, 0, 0].getD c 0 = 0 := by decide

/-- Where no grant of the window counts yet, no class is masked (R226). -/
theorem State.classMasked_unused {a : Arbiter} (h : a.used = [0, 0, 0, 0]) {c : Nat} (hc : c < 4) : s.classMasked pl r a c = false := by
  have h0 : a.used.getD c 0 = 0 := by
    rw [h]
    exact getD_four_zeros c hc
  rw [State.classMasked, h0]
  cases hq : s.quota pl r c <;> simp

theorem nextAbove_alone (q : ArbReq) : nextAbove 0 [q] = some q := by simp [nextAbove]

/-- A lone request is chosen. -/
theorem State.arbChoose_alone {a : Arbiter} (hu : a.used = [0, 0, 0, 0]) (hl : a.last = [0, 0, 0, 0]) {q : ArbReq} (hq : q.cls < 4) :
    s.arbChoose pl r a [q] = some (q, false) := by
  unfold State.arbChoose
  by_cases hp : q.priv < 7
  · simp [hp]
  · have hfind : (List.range 4).find? (fun c => s.classMasked pl r a c == false && [q].any (fun x => x.cls == c)) = some q.cls := by
      refine List.find?_range_eq_some.mpr ⟨by simp [State.classMasked_unused hu hq], by simpa using hq, fun c hc => ?_⟩
      simp [Nat.ne_of_gt hc]
    have hlast : a.last.getD q.cls 0 = 0 := by
      rw [hl]
      exact getD_four_zeros _ hq
    simp only [List.foldl_cons, List.foldl_nil, hp, if_false, hfind, hlast]
    simp [nextAbove_alone]

/-- An arbiter without history, once it has granted a lone request. -/
theorem State.arbCycle_alone {u : Nat} {k : ArbAsk} {a : Arbiter} (ha : s.arb (arbKey pl r u) = a) (hu : a.used = [0, 0, 0, 0])
    (hl : a.last = [0, 0, 0, 0]) (hh : a.holder = none) (hk : a.kept = []) (hlive : s.arbLive k.src = true)
    (hdelay : s.arbDelay pl r a k = 0) (hready : k.ready = true) (hcls : (s.arbReq a k).cls < 4) :
    ∃ b, s.arbCycle pl r u [k] = s.setArb (arbKey pl r u) b ∧ b.holder = some (s.arbReq a k) ∧ b.units = 1 := by
  have hhere : [k].filter (fun k => s.arbLive k.src) = [k] := by simp [hlive]
  have hdue : [k].filter (fun k => s.arbDelay pl r a k == 0) = [k] := by simp [hdelay]
  have hhid : [k].filter (fun k => s.arbDelay pl r a k != 0) = [] := by simp [hdelay]
  have hchoose : ∀ b : Arbiter, b.used = a.used → b.last = a.last → s.arbChoose pl r b [s.arbReq a k] = some (s.arbReq a k, false) :=
    fun b bu bl => State.arbChoose_alone (bu.trans hu) (bl.trans hl) hcls
  unfold State.arbCycle
  simp only [ha, hhere, hdue, hhid, hh, hk, List.map_cons, List.map_nil, List.filter_nil]
  rw [hchoose { a with cycle := a.cycle + 1, holder := none, kept := [] } rfl rfl]
  simp only [List.all_cons, List.all_nil, hready, Bool.or_true, Bool.and_true, if_true, Bool.false_eq_true, if_false]
  refine ⟨_, rfl, ?_, ?_⟩
  all_goals split <;> rfl

end Grant

/-! ### The cut-off of a privileged holder (R229) -/

/-- The registers of the arbiters are not those that recording an error writes. -/
theorem arbCut_not_record (pl : Nat) : ¬ IsRecordReg (R.ARB_CUT pl) := by
  rw [IsRecordReg, R.ARB_CUT, R.HOSTP_ALERT, R.HOSTP_EVT_CNT, lockBase]
  split
  · omega
  · rw [dieBlk]
    omega

theorem arbStat_ne_arbCut (pl : Nat) : R.ARB_STAT pl ≠ R.ARB_CUT pl := by
  rw [R.ARB_STAT, R.ARB_CUT]
  omega

theorem RecordFrame.arb {s t : State} (h : RecordFrame s t) (k : Nat) : t.arb k = s.arb k := by
  rw [h.rest]
  rfl

/-- The state in which the cut-off of a holder is recorded. -/
def State.cutOff (s : State) (pl r key who : Nat) (a : Arbiter) : State :=
  (((s.setArb key a).setBit (R.ARB_CUT pl) F.ARB_CUT_WHO who true).setFld (R.ARB_CUT pl) F.ARB_CUT_LAST_R r).count (R.ARB_STAT pl)
    F.ARB_STAT_CUT 1

/-- The bit of ARB_CUT.WHO that a privileged requester has. -/
def cutWho (p : Nat) : Nat := if p = 0 then 0 else if p = 1 then 1 else if p < 6 then 2 else 3

/-- The record of a cut-off. -/
def cutRecord (pl r priv held : Nat) : ErrRec :=
  { cls := clsCorrected, code := 0x0205, unit := privUnit priv, sub := r, info0 := (if pl = 0 then 0 else 1 + 16 * (pl - 1)),
    info1 := held }

/-- The arbiter whose holder is cut off for the window. -/
def Arbiter.cutOff (a : Arbiter) (h : ArbReq) : Arbiter := { (a.withdraw h) with cut := h.priv :: a.cut }

theorem State.execArbCutoff_limit {pl r : Fin 5} {u : BitVec 16} {h : ArbReq} {s : State} (hm : s.mainUp = true)
    (hh : (s.arb (arbKey pl.val r.val u.toNat)).holder = some h) (hp : h.priv < 7)
    (hle : s.holdLimit pl.val h.priv ≤ (s.arb (arbKey pl.val r.val u.toNat)).held) :
    exec (.arbCutoff pl r u) s = .next ((s.cutOff pl.val r.val (arbKey pl.val r.val u.toNat) (cutWho h.priv)
      ((s.arb (arbKey pl.val r.val u.toNat)).cutOff h)).errRecord
        (cutRecord pl.val r.val h.priv (s.arb (arbKey pl.val r.val u.toNat)).held)) := by
  refine (State.whenMain_next _ hm).trans (congrArg Host.Outcome.next ?_)
  dsimp only
  rw [hh]
  exact if_pos ⟨hp, hle⟩

section CutOff
variable {s : State} {pl r key who : Nat} {a : Arbiter}

theorem State.arb_cutOff : (s.cutOff pl r key who a).arb key = a := by
  rw [State.cutOff, State.arb, State.count_arbs, State.setFld_arbs, State.setBit, State.setFld_arbs, ← State.arb, State.arb_setArb]

theorem State.lastR_cutOff (h : r < 5) : (s.cutOff pl r key who a).fld (R.ARB_CUT pl) F.ARB_CUT_LAST_R = r := by
  rw [State.cutOff, State.fld_count_other _ _ _ _ _ _ (arbStat_ne_arbCut pl), State.fld_setFld_same _ _ _ _ (by decide) (Nat.lt_trans h (by decide))]

theorem SameMemory.cutOff : SameMemory s (s.cutOff pl r key who a) :=
  .step .setArb (.step (.setFld _ _ _ _) (.step (.setFld _ _ _ _) (.count _ _ _ _)))

end CutOff

/-- Settles O39. -/
theorem arbiters : Obligations.Arbiters := by
  refine ⟨fun pl r u k s hm hex ha hlive hdelay hready hcls => ?_, fun pl r u s hm hex => ⟨fun hle => ?_, fun hlt => ?_⟩,
    fun pl r u h s hm hh hp => ⟨fun hle => ?_, fun hlt => ?_⟩⟩
  · obtain ⟨b, hb, hholder, hunits⟩ := State.arbCycle_alone ha rfl rfl rfl rfl hlive hdelay hready hcls
    have hexec : exec (.arbGrant pl r u [k]) s = .next (s.setArb (arbKey pl.val r.val u.toNat) b) :=
      (State.whenMain_next _ hm).trans (congrArg Host.Outcome.next ((if_pos hex).trans hb))
    refine ⟨_, hexec, ?_, ?_, .setArb, .setArb⟩
    all_goals rw [State.arb_setArb]
    · exact hholder
    · exact hunits
  · have hexec : exec (.arbWindowReset pl r u) s = .next (s.setArb (arbKey pl.val r.val u.toNat)
        { s.arb (arbKey pl.val r.val u.toNat) with used := [0, 0, 0, 0], cycle := 0, cut := [] }) :=
      (State.whenMain_next _ hm).trans (congrArg Host.Outcome.next (if_pos (by simp [hex, hle])))
    refine ⟨_, hexec, ?_, ?_, ?_, .setArb, .setArb⟩
    all_goals rw [State.arb_setArb]
  · exact (State.whenMain_next _ hm).trans (congrArg Host.Outcome.next (if_neg (by simp [hlt])))
  · have hrec := (s.cutOff pl.val r.val (arbKey pl.val r.val u.toNat) (cutWho h.priv)
      ((s.arb (arbKey pl.val r.val u.toNat)).cutOff h)).errRecord_recordFrame
        (cutRecord pl.val r.val h.priv (s.arb (arbKey pl.val r.val u.toNat)).held)
    have hexec := State.execArbCutoff_limit hm hh hp hle
    refine ⟨_, hexec, ?_, ?_, ?_, .step .cutOff hrec.sameMemory⟩
    · rw [hrec.arb, State.arb_cutOff]
      rfl
    · rw [hrec.arb, State.arb_cutOff]
      exact .head _
    · rw [hrec.fld _ (arbCut_not_record _), State.lastR_cutOff r.isLt]
  · refine (State.whenMain_next _ hm).trans (congrArg Host.Outcome.next ?_)
    dsimp only
    rw [hh]
    exact if_neg (by omega)

end Sys2Proof.Machine
end

section
/-!
PROOFS. Staged applies: requested, refused, cancelled, taking effect.
-/

namespace Sys2Proof.Machine

open Sys2Proof

section Request
variable {s : State} {slot hub die : Nat} {atBeat fromBeat : Bool}

/-- A request finds its slot taken or names a block that is already named (R244). -/
def State.applyClash (s : State) (slot hub die : Nat) : Prop :=
  s.applySlot slot ≠ none ∨ s.pendingNames &&& (hub + die * 65536) ≠ 0

/-- The request of an apply as it waits in its slot. -/
def State.applyAsked (s : State) (slot : Nat) (atBeat : Bool) (hub die : Nat) (fromBeat : Bool) : ApplyReq :=
  ⟨atBeat, s.slotClock slot + 64, (s.position / 65536 + 1) * 65536, hub, die, fromBeat⟩

theorem State.applyRequest_free (hslot : s.applySlot slot = none) (hnames : s.pendingNames &&& (hub + die * 65536) = 0) :
    s.applyRequest slot atBeat hub die fromBeat =
      { s with applies := s.applies ++ [(slot, s.applyAsked slot atBeat hub die fromBeat)] } :=
  if_neg (by simp [hslot, ApplyReq.names, hnames])

theorem State.applyRequest_clash (h : s.applyClash slot hub die) :
    s.applyRequest slot atBeat hub die fromBeat = s.count (R.APPLY_CNT slot) F.APPLY_CNT_IGNORED 1 :=
  if_pos (by simpa [State.applyClash, ApplyReq.names, Option.isSome_iff_ne_none] using h)

theorem State.applySlot_append (r : ApplyReq) (h : s.applySlot slot = none) :
    ({ s with applies := s.applies ++ [(slot, r)] } : State).applySlot slot = some r := by
  have hnone : s.applies.find? (fun p => p.1 == slot) = none := Option.map_eq_none_iff.mp h
  simp [State.applySlot, List.find?_append, hnone]

/-- What a command that asks for an apply does (R244). -/
theorem applyRequest_spec {c : Instr} (hexec : exec c s = .next (s.applyRequest slot atBeat hub die fromBeat)) :
    (s.applySlot slot = none → s.pendingNames &&& (hub + die * 65536) = 0 → ∃ t, exec c s = .next t ∧
      t.applySlot slot = some (s.applyAsked slot atBeat hub die fromBeat) ∧ SameRegsBut [] s t ∧ SameMemory s t) ∧
    (s.applyClash slot hub die → ∃ t, exec c s = .next t ∧ t.applies = s.applies ∧
      t.fld (R.APPLY_CNT slot) F.APPLY_CNT_IGNORED =
        min (s.fld (R.APPLY_CNT slot) F.APPLY_CNT_IGNORED + 1) (2 ^ F.APPLY_CNT_IGNORED.width - 1) ∧
      SameRegsBut [R.APPLY_CNT slot] s t ∧ SameMemory s t) := by
  refine ⟨fun hslot hnames => ⟨_, hexec, ?_⟩, fun hclash => ⟨_, hexec, ?_⟩⟩
  · rw [State.applyRequest_free hslot hnames]
    exact ⟨State.applySlot_append _ hslot, .of_eq rfl rfl, .of_eq rfl rfl⟩
  · rw [State.applyRequest_clash hclash]
    exact ⟨s.count_applies .., s.fld_count_same _ _ _ (by decide), .count _ _ _ (List.mem_singleton_self _), .count _ _ _ _⟩

end Request

/-! ### CANCEL (R244) -/

section Cancel
variable {s : State} {slot : Nat}

theorem State.applyCancel_gone : ∀ p ∈ (s.applyCancel slot false).applies, p.1 ≠ slot ∨ p.2.fromBeat = true := by
  intro p hp
  have h := (List.mem_filter.mp hp).2
  by_cases hslot : p.1 = slot
  · exact .inr (by simpa [hslot] using h)
  · exact .inl hslot

theorem State.applyCancel_other : ∀ p ∈ s.applies, p.1 ≠ slot → p ∈ (s.applyCancel slot false).applies :=
  fun p hp hslot => List.mem_filter.mpr ⟨hp, by simp [hslot]⟩

end Cancel

/-- The commands that ask for an apply, with what each of them asks for. -/
def AsksApply (s : State) (c : Instr) (slot hub die : Nat) (atBeat fromBeat : Bool) : Prop :=
  c = .beatApply ∧ slot = 0 ∧ hub = 4 ∧ die = 0 ∧ atBeat = false ∧ fromBeat = true ∨
  c = .beatApplyAtBeat ∧ slot = 0 ∧ hub = 4 ∧ die = 0 ∧ atBeat = true ∧ fromBeat = true ∨
  (∃ (h : BitVec 16) (m : BitVec 36), c = .lockApplyNow h m ∧ slot = 0 ∧ hub = h.toNat ∧ die = m.toNat ∧ atBeat = false ∧
    fromBeat = false) ∨
  (∃ (h : BitVec 16) (m : BitVec 36), c = .lockApplyAtBeat h m ∧ slot = 0 ∧ hub = h.toNat ∧ die = m.toNat ∧ atBeat = true ∧
    fromBeat = false) ∨
  (∃ (d : Fin 4) (m : BitVec 9), c = .dlockApplyNow d m ∧ s.blockUp (.dlock d) = true ∧ slot = d.val + 1 ∧ hub = 0 ∧
    die = m.toNat * 2 ^ (9 * d.val) ∧ atBeat = false ∧ fromBeat = false) ∨
  (∃ (d : Fin 4) (m : BitVec 9), c = .dlockApplyAtBeat d m ∧ s.blockUp (.dlock d) = true ∧ slot = d.val + 1 ∧ hub = 0 ∧
    die = m.toNat * 2 ^ (9 * d.val) ∧ atBeat = true ∧ fromBeat = false)

theorem AsksApply.exec {s : State} {c : Instr} {slot hub die : Nat} {atBeat fromBeat : Bool} (hm : s.mainUp = true)
    (h : AsksApply s c slot hub die atBeat fromBeat) : exec c s = .next (s.applyRequest slot atBeat hub die fromBeat) := by
  rcases h with ⟨rfl, rfl, rfl, rfl, rfl, rfl⟩ | ⟨rfl, rfl, rfl, rfl, rfl, rfl⟩ | ⟨g, m, rfl, rfl, rfl, rfl, rfl, rfl⟩ |
    ⟨g, m, rfl, rfl, rfl, rfl, rfl, rfl⟩ | ⟨d, m, rfl, hd, rfl, rfl, rfl, rfl, rfl⟩ | ⟨d, m, rfl, hd, rfl, rfl, rfl, rfl, rfl⟩
  · exact State.whenMain_next _ hm
  · exact State.whenMain_next _ hm
  · exact State.whenMain_next _ hm
  · exact State.whenMain_next _ hm
  · exact (State.whenMain_next _ hm).trans (congrArg Host.Outcome.next (if_pos hd))
  · exact (State.whenMain_next _ hm).trans (congrArg Host.Outcome.next (if_pos hd))

/-- An apply request that waits takes effect when it is due and may (R245). -/
theorem exec_stagedApplyEffect {s : State} {slot : Fin 5} {r : ApplyReq} (hm : s.mainUp = true) (h : s.applySlot slot.val = some r) :
    exec (.stagedApplyEffect slot) s = .next (if s.applyDue slot.val r && s.applyReady r then s.applyTake slot.val r else s) := by
  refine (State.whenMain_next _ hm).trans (congrArg Host.Outcome.next ?_)
  rw [h]

/-- Settles O40. -/
theorem stagedApplies : Obligations.StagedApplies := by
  refine ⟨fun c slot hub die atBeat fromBeat s hm hc => applyRequest_spec (AsksApply.exec hm hc), fun s hm => ?_,
    fun d s hm hd => ?_, fun slot r s hm hr => ⟨fun hdue hready => ?_, fun hdue => ?_⟩⟩
  · exact ⟨_, State.whenMain_next _ hm, State.applyCancel_gone, State.applyCancel_other, .of_eq rfl rfl, .of_eq rfl rfl⟩
  · exact ⟨_, (State.whenMain_next _ hm).trans (congrArg Host.Outcome.next (if_pos hd)), State.applyCancel_gone,
      State.applyCancel_other, .of_eq rfl rfl, .of_eq rfl rfl⟩
  · rw [exec_stagedApplyEffect hm hr, hdue, hready]
    rfl
  · rw [exec_stagedApplyEffect hm hr, hdue]
    rfl

end Sys2Proof.Machine
end

section
/-!
PROOFS. The beat: RESYNC, an edge in LOCKED, the takeover and the local generator.
-/

namespace Sys2Proof.Machine

open Sys2Proof

section Layer
variable {l : List Nat} {s : State} {k : Tracker}

/-- The state with the tracker k and every register as it is. -/
def State.withTracker (s : State) (k : Tracker) : State := { s with tracker := k }

theorem State.tracker_withTracker : (s.withTracker k).tracker = k := rfl

theorem State.hubAc_withTracker : (s.withTracker k).hubAc = s.hubAc := rfl

theorem SameRegsBut.withTracker : SameRegsBut l s (s.withTracker k) := .of_eq rfl rfl

theorem SameMemory.withTracker : SameMemory s (s.withTracker k) := .of_eq rfl rfl

theorem State.tracker_setTracker : (s.setTracker k).tracker = k := State.setReg_tracker (s.withTracker k) _ _

theorem State.tracker_setBeatState {n : Nat} : (s.setBeatState n).tracker = s.tracker := s.setFld_tracker _ _ _

theorem SameRegsBut.setTracker (h : R.BEAT_PERIOD ∈ l) : SameRegsBut l s (s.setTracker k) :=
  .step .withTracker (.setReg (s.withTracker k) _ h)

theorem SameRegsBut.setBeatState {n : Nat} (h : R.BEAT_STAT ∈ l) : SameRegsBut l s (s.setBeatState n) := .setFld _ _ _ h

theorem SameMemory.setBeatState {n : Nat} : SameMemory s (s.setBeatState n) := .setFld _ _ _ _

/-- BEAT_STAT.STATE is no other field of its register. -/
theorem State.beatState_setFld {f : Field} {v : Nat} (h : 4 ≤ f.lo) : (s.setFld R.BEAT_STAT f v).beatState = s.beatState :=
  s.fld_setFld_apart _ _ _ _ (by decide) (.inl h)

theorem State.beatState_of_sameRegs {t : State} (h : SameRegsBut l s t) (hl : R.BEAT_STAT ∉ l) : t.beatState = s.beatState :=
  h.fld _ hl

end Layer

/-! ### RESYNC (R44) -/

section Search
variable {s : State}

/-- The tracker as acquisition begins. -/
def State.searchTracker (s : State) : Tracker :=
  { s.tracker with pos0 := s.posAt s.hubTime, t0 := s.hubTime, acq := [], coasted := 0, lastReal := false, follow := none }

theorem State.enterSearch_eq :
    s.enterSearch = ((s.withTracker s.searchTracker).setBeatState 1).setFld R.BEAT_STAT F.BEAT_STAT_TAKEN_OVER 0 := rfl

theorem State.tracker_enterSearch : s.enterSearch.tracker = s.searchTracker := by
  rw [State.enterSearch_eq, State.setFld_tracker, State.tracker_setBeatState, State.tracker_withTracker]

theorem State.beatState_enterSearch : s.enterSearch.beatState = 1 := by
  rw [State.enterSearch_eq, State.beatState_setFld (by decide), State.beatState_setBeatState _ (by decide)]

theorem State.hubTime_enterSearch : s.enterSearch.hubTime = s.hubTime := by
  rw [State.hubTime, State.enterSearch_eq, State.setFld_hubAc, State.setBeatState, State.setFld_hubAc, State.hubAc_withTracker,
    State.hubTime]

/-- In SEARCH the position is held. -/
theorem State.position_enterSearch : s.enterSearch.position = s.position := by
  have held : s.enterSearch.posAt s.hubTime = s.posAt s.hubTime := by
    rw [State.posAt, State.beatState_enterSearch, State.tracker_enterSearch]
    exact if_neg Bool.false_ne_true
  rw [State.position, State.hubTime_enterSearch, held, State.position]

end Search

/-- Settles O19. -/
theorem resyncSearches : Obligations.ResyncSearches := by
  refine fun s hm => ⟨s.enterSearch, State.whenMain_next _ hm, State.beatState_enterSearch, ?_, ?_, State.position_enterSearch, ?_, ?_⟩
  · rw [State.tracker_enterSearch]
    rfl
  · rw [State.tracker_enterSearch]
    rfl
  · exact .step .withTracker (.step (.setBeatState (List.mem_singleton_self _)) (.setFld _ _ _ (List.mem_singleton_self _)))
  · exact .step .withTracker (.step .setBeatState (.setFld _ _ _ _))

/-! ### An edge in LOCKED (R41) -/

section Edge
variable {s : State}

/-- Without injection the edge reaches the tracker at its own time. -/
theorem exec_beatEdge (hm : s.mainUp = true) (hsrc : s.fld R.BEAT_CFG F.BEAT_CFG_SOURCE = 1) (hp : s.pert 0 = false) :
    exec .beatEdge s = .next (s.trackerEdge s.hubTime none) := by
  refine (State.whenMain_next _ hm).trans (congrArg Host.Outcome.next ((if_pos hsrc).trans ?_))
  rw [State.jitter, hp]
  rfl

theorem State.trackerEdge_locked (e : Nat) (h : s.beatState = 2) :
    s.trackerEdge e none = if absDiff e s.tracker.t1 ≤ s.beatWindow s.tracker.per then s.acceptEdge e 0 else s.spurious := by
  rw [State.trackerEdge, h]
  simp

/-- What an accepted edge of the present beat leaves of the tracker. -/
theorem State.acceptEdge_spec (e : Nat) : (s.acceptEdge e 0).beatState = 2 ∧ (s.acceptEdge e 0).tracker.t0 = e ∧
    (s.acceptEdge e 0).tracker.pos0 = s.posAt e ∧ (s.acceptEdge e 0).tracker.pos1 = (s.tracker.k + 1) * 2 ^ 32 ∧
    (s.acceptEdge e 0).tracker.lastE = e ∧ (s.acceptEdge e 0).tracker.coasted = 0 ∧
    (s.acceptEdge e 0).tracker.t1 = e + (s.acceptEdge e 0).tracker.per ∧ SameMemory s (s.acceptEdge e 0) := by
  unfold State.acceptEdge
  dsimp only
  rw [State.tracker_setBeatState, State.tracker_setTracker]
  refine ⟨State.beatState_setBeatState _ (by decide), rfl, by simp, rfl, rfl, rfl, rfl, ?_⟩
  refine .step (.step (.step ?_ (.setFld _ _ _ _)) (.setTracker _ _)) .setBeatState
  split
  · exact .count _ _ _ _
  · exact .refl _

end Edge

/-- Settles O20. -/
theorem beatEdgeLocked : Obligations.BeatEdgeLocked := by
  refine fun s hm => ⟨fun hsrc => ?_, fun hsrc hp hst => ⟨fun hin => ?_, fun hout => ?_⟩⟩
  · exact (State.whenMain_next _ hm).trans (congrArg Host.Outcome.next (if_neg hsrc))
  · have hexec := exec_beatEdge hm hsrc hp
    rw [State.trackerEdge_locked _ hst, if_pos hin] at hexec
    exact ⟨_, hexec, State.acceptEdge_spec _⟩
  · have hexec := exec_beatEdge hm hsrc hp
    rw [State.trackerEdge_locked _ hst, if_neg (Nat.not_le.mpr hout)] at hexec
    exact ⟨_, hexec, s.count_tracker _ _ _, s.fld_count_same _ _ _ (by decide), .count _ _ _ (List.mem_singleton_self _), .count _ _ _ _⟩

/-! ### The takeover (R38) and the local generator (R37) -/

section Master
variable {s : State}

/-- A follower takes the beat over (R38). -/
def State.TakesOver (s : State) : Prop :=
  s.beatState = 3 ∧ s.fld R.BEAT_CFG F.BEAT_CFG_SOURCE = 2 ∧ s.fld R.BEAT_CFG F.BEAT_CFG_MASTER_ELIG = 1 ∧
    s.fld R.BEAT_CFG F.BEAT_CFG_TAKEOVER ≤ s.tracker.coasted

/-- The tracker of a module that has taken the beat over. -/
def State.takeoverTracker (s : State) : Tracker :=
  { s.tracker with genNext := s.tracker.t1, genRc := (roundDivEven (s.tracker.per * acTicks s.hubPoint : Nat) (65536 * rcTicks : Nat)).toNat,
                   coasted := 0, follow := none }

/-- The state of a module that has taken the beat over. -/
def State.takenOver (s : State) : State :=
  ((((s.withTracker s.takeoverTracker).setBeatState 5).setFld R.BEAT_STAT F.BEAT_STAT_TAKEN_OVER 1).setFld R.BEAT_STAT
    F.BEAT_STAT_MASTER_RANK_SEEN (s.fld R.BEAT_CFG F.BEAT_CFG_MASTER_RANK)).setReg R.BEAT_MASTER_SERIAL (s.reg R.ID_SERIAL)

theorem exec_masterTakeover_due (hm : s.mainUp = true) (h : s.TakesOver) : exec .masterTakeover s = .next s.takenOver :=
  (State.whenMain_next _ hm).trans (congrArg Host.Outcome.next (if_pos h))

theorem State.tracker_takenOver : s.takenOver.tracker = s.takeoverTracker := by
  rw [State.takenOver, State.setReg_tracker, State.setFld_tracker, State.setFld_tracker, State.tracker_setBeatState,
    State.tracker_withTracker]

theorem State.beatState_takenOver : s.takenOver.beatState = 5 := by
  rw [State.takenOver, State.beatState, State.fld_setReg_other _ _ _ _ _ (by decide), ← State.beatState,
    State.beatState_setFld (by decide), State.beatState_setFld (by decide), State.beatState_setBeatState _ (by decide)]

theorem State.takenOver_marked : s.takenOver.fld R.BEAT_STAT F.BEAT_STAT_TAKEN_OVER = 1 := by
  rw [State.takenOver, State.fld_setReg_other _ _ _ _ _ (by decide), State.fld_setFld_apart _ _ _ _ _ (by decide) (by decide),
    State.fld_setFld_same _ _ _ _ (by decide) (by decide)]

theorem SameRegsBut.takenOver : SameRegsBut [R.BEAT_STAT, R.BEAT_MASTER_SERIAL] s s.takenOver :=
  have stat : R.BEAT_STAT ∈ [R.BEAT_STAT, R.BEAT_MASTER_SERIAL] := List.mem_cons_self
  .step .withTracker (.step (.setBeatState stat) (.step (.setFld _ _ _ stat) (.step (.setFld _ _ _ stat)
    (.setReg _ _ (List.mem_cons_of_mem _ (List.mem_singleton_self _))))))

theorem SameMemory.takenOver : SameMemory s s.takenOver :=
  .step .withTracker (.step .setBeatState (.step (.setFld _ _ _ _) (.step (.setFld _ _ _ _) (.setReg _ _ _))))

/-- The tracker past a boundary of the module's own generator, of which the next one is p later (R37). -/
def Tracker.pastBoundary (t : Tracker) (p : Nat) : Tracker :=
  { t with t0 := t.genNext, pos0 := t.k * 2 ^ 32, t1 := t.genNext + p, pos1 := (t.k + 1) * 2 ^ 32, per := p, lastE := t.genNext,
           genNext := t.genNext + p }

/-- A boundary of a generator that has not taken over and sends no token. -/
theorem exec_generatorBoundary_due (hm : s.mainUp = true) (h : s.beatState = 5 ∧ s.tracker.genNext ≤ s.hubTime)
    (htaken : s.fld R.BEAT_STAT F.BEAT_STAT_TAKEN_OVER = 0) (hout : s.fld R.BEAT_CFG F.BEAT_CFG_TOKEN_OUT = 0) :
    exec .generatorBoundary s =
      .next (s.setTracker (s.tracker.pastBoundary (s.rcToAc (s.fld R.BEAT_GEN_PERIOD F.BEAT_GEN_PERIOD_PERIOD_RC)))) := by
  refine (State.whenMain_next _ hm).trans (congrArg Host.Outcome.next ((if_pos h).trans ?_))
  dsimp only
  rw [htaken, hout, if_neg (by decide), if_neg (by decide)]
  rfl

end Master

/-- Settles O22. -/
theorem masterAndGenerator : Obligations.MasterAndGenerator := by
  refine ⟨fun s hm hst hsrc helig htake => ?_, fun s hm helig => ?_, fun s hm hst hdue htaken hout => ?_, fun s hm hnot => ?_⟩
  · refine ⟨_, exec_masterTakeover_due hm ⟨hst, hsrc, helig, htake⟩, State.beatState_takenOver, State.takenOver_marked, ?_, ?_,
      State.reg_setReg_same _ _ _, .takenOver, .takenOver⟩
    all_goals rw [State.tracker_takenOver]; rfl
  · exact (State.whenMain_next _ hm).trans (congrArg Host.Outcome.next (if_neg (by simp [helig])))
  · refine ⟨_, exec_generatorBoundary_due hm ⟨hst, hdue⟩ htaken hout, ?_, ?_, ?_, ?_, ?_,
      .setTracker (List.mem_singleton_self _), .setTracker _ _⟩
    · exact (State.setTracker_fld_other _ _ _ (by decide)).trans hst
    all_goals rw [State.tracker_setTracker]; rfl
  · exact (State.whenMain_next _ hm).trans (congrArg Host.Outcome.next (if_neg fun h => absurd h.2 (Nat.not_le.mpr hnot)))

end Sys2Proof.Machine
end

section
/-!
PROOFS. What leaves memory alone: a lemma for each operation that does, composed as the operations are.
-/

namespace Sys2Proof.Machine

open Sys2Proof

/-- `t` has the memory of `s`: what is stored, and what is altered. -/
structure MemSame (s t : State) : Prop where
  mem : t.mem = s.mem
  altered : t.altered = s.altered

theorem MemSame.sameMemory {s t : State} (h : MemSame s t) : SameMemory s t := .of_eq h.mem h.altered

section
variable {s₀ s t u : State}

theorem MemSame.refl : MemSame s s := ⟨rfl, rfl⟩

/-- A change of other fields than the two that hold memory. -/
theorem MemSame.upd {pending powered mainGood strapValid strapNode strapSlot lidPins sbStrap now hubAc regs staged ceSeen held
    tracker queues cmds semWaiters lockWaiters arbs applies ceIndex ceCount lfsr power events eventSeq eventLost
    draws out lifeLimit members links fabric creditHolds heldSignals lent imageUp resetHolds warmRun captured
    pendingVeto engResets snap banks accs gates probs replayIds rings slivers brushRuns latches lentSince nmaUpdates
    groups colls redRx redTx retracted stepDigests closes qps sessions bells keys sensors egSent replayBuf pldmTid
    signReqs challenge debugExpiry flash incLimit update recov pend}
    (h : MemSame s₀ s) :
    MemSame s₀ ⟨pending, powered, mainGood, strapValid, strapNode, strapSlot, lidPins, sbStrap, now, hubAc, regs, staged,
      s.mem, s.altered, ceSeen, held, tracker, queues, cmds, semWaiters, lockWaiters, arbs, applies, ceIndex,
      ceCount, lfsr, power, events, eventSeq, eventLost, draws, out, lifeLimit, members, links, fabric, creditHolds,
      heldSignals, lent, imageUp, resetHolds, warmRun, captured, pendingVeto, engResets, snap, banks, accs, gates,
      probs, replayIds, rings, slivers, brushRuns, latches, lentSince, nmaUpdates, groups, colls, redRx, redTx,
      retracted, stepDigests, closes, qps, sessions, bells, keys, sensors, egSent, replayBuf, pldmTid, signReqs,
      challenge, debugExpiry, flash, incLimit, update, recov, pend⟩ :=
  ⟨h.mem, h.altered⟩

theorem MemSame.ite {c : Prop} {i : Decidable c} (ht : MemSame s₀ t) (hu : MemSame s₀ u) :
    MemSame s₀ (if c then t else u) := by
  split
  · exact ht
  · exact hu

theorem MemSame.thenIf {c : Prop} {i : Decidable c} (h : MemSame s₀ s) (ht : MemSame s₀ s → MemSame s₀ t) :
    MemSame s₀ (if c then t else s) :=
  .ite (ht h) h

theorem MemSame.elseIf {c : Prop} {i : Decidable c} (h : MemSame s₀ s) (ht : MemSame s₀ s → MemSame s₀ t) :
    MemSame s₀ (if c then s else t) :=
  .ite h (ht h)

section Pairs

variable {α β : Type} {a : α} {b : β}

theorem MemSame.ite_fst {c : Prop} {i : Decidable c} {p q : State × α} (hp : MemSame s₀ p.1) (hq : MemSame s₀ q.1) :
    MemSame s₀ (if c then p else q).1 := by
  split
  · exact hp
  · exact hq

theorem MemSame.ite_snd {c : Prop} {i : Decidable c} {p q : α × State} (hp : MemSame s₀ p.2) (hq : MemSame s₀ q.2) :
    MemSame s₀ (if c then p else q).2 := by
  split
  · exact hp
  · exact hq

theorem MemSame.ite_mid {c : Prop} {i : Decidable c} {p q : α × State × β} (hp : MemSame s₀ p.2.1) (hq : MemSame s₀ q.2.1) :
    MemSame s₀ (if c then p else q).2.1 := by
  split
  · exact hp
  · exact hq

theorem MemSame.of_fst {p : State × α} (h : MemSame s₀ p.1) (e : p = (t, a)) : MemSame s₀ t := by
  subst e
  exact h

theorem MemSame.of_snd {p : α × State} (h : MemSame s₀ p.2) (e : p = (a, t)) : MemSame s₀ t := by
  subst e
  exact h

theorem MemSame.of_mid {p : α × State × β} (h : MemSame s₀ p.2.1) (e : p = (a, t, b)) : MemSame s₀ t := by
  subst e
  exact h

end Pairs

theorem MemSame.foldl {α : Type} {g : State → α → State} {l : List α} (h : MemSame s₀ s)
    (hg : ∀ t x, MemSame s₀ t → MemSame s₀ (g t x)) : MemSame s₀ (l.foldl g s) := by
  induction l generalizing s with
  | nil => exact h
  | cons x r ih => exact ih (hg s x h)

theorem MemSame.foldl_fst {α β : Type} {g : State × β → α → State × β} {l : List α} {p : State × β} (h : MemSame s₀ p.1)
    (hg : ∀ p x, MemSame s₀ p.1 → MemSame s₀ (g p x).1) : MemSame s₀ (l.foldl g p).1 := by
  induction l generalizing p with
  | nil => exact h
  | cons x r ih => exact ih (hg p x h)

theorem MemSame.foldl_snd {α β : Type} {g : β × State → α → β × State} {l : List α} {p : β × State} (h : MemSame s₀ p.2)
    (hg : ∀ p x, MemSame s₀ p.2 → MemSame s₀ (g p x).2) : MemSame s₀ (l.foldl g p).2 := by
  induction l generalizing p with
  | nil => exact h
  | cons x r ih => exact ih (hg p x h)

end

section
variable {s₀ s : State} (h : MemSame s₀ s)
include h

/-! #### The operations on registers, memory and marks -/

theorem MemSame.setReg {a v} : MemSame s₀ (s.setReg a v) := ⟨h.mem, h.altered⟩

theorem MemSame.setFld {a f v} : MemSame s₀ (s.setFld a f v) := h.setReg

theorem MemSame.count {a f n} : MemSame s₀ (s.count a f n) := h.setFld

theorem MemSame.countWrap {a f n} : MemSame s₀ (s.countWrap a f n) := h.setFld

theorem MemSame.setBit {a f i b} : MemSame s₀ (s.setBit a f i b) := h.setFld

theorem MemSame.emit {o} : MemSame s₀ (s.emit o) := h.upd

theorem MemSame.alert {i} : MemSame s₀ (s.alert i) := .ite h h.setBit

theorem MemSame.queueEvent {kind body} : MemSame s₀ (s.queueEvent kind body) := .ite h.upd.count.emit h.upd.count.alert

theorem MemSame.hostEvent {kind body} : MemSame s₀ (s.hostEvent kind body) := .ite h.queueEvent h

theorem MemSame.setWords {base bytes} : MemSame s₀ (s.setWords base bytes) := h.foldl fun _ _ h₁ => h₁.setReg

theorem MemSame.ringWrite {cls bytes} : MemSame s₀ (s.ringWrite cls bytes) :=
  (MemSame.ite h.count h).setWords.setReg.count.thenIf fun h₁ => h₁.setWords.setFld

theorem MemSame.ceAdmit : MemSame s₀ (s.ceAdmit).2 := .ite_snd h.upd h.upd

theorem MemSame.errDeliver {cls bytes} : MemSame s₀ (s.errDeliver cls bytes) :=
  .ite (MemSame.ite h.hostEvent h).alert ((MemSame.ite h.hostEvent h).thenIf fun h₁ => h₁.alert)

theorem MemSame.errRecord {r} : MemSame s₀ (s.errRecord r) :=
  .ite (.ite h.ceAdmit.ringWrite.errDeliver h.ceAdmit.count) h.ringWrite.errDeliver

theorem MemSame.draw : MemSame s₀ (s.draw).2 := h.upd

/-! #### The links -/

theorem MemSame.setLink {p l} : MemSame s₀ (s.setLink p l) := h.upd

theorem MemSame.spendCredit {p vc len} : MemSame s₀ (s.spendCredit p vc len) := h.setLink

theorem MemSame.egress {p r} : MemSame s₀ (s.egress p r) := h.spendCredit.setLink.emit

/-! #### The packets of the fabric -/

theorem MemSame.sendRaw {r} : MemSame s₀ (s.sendRaw r) := by
  dsimp only [State.sendRaw]
  split
  · exact h.egress
  · exact .ite h.upd h

theorem MemSame.releaseWaiting : MemSame s₀ (s.releaseWaiting) := by
  dsimp only [State.releaseWaiting]
  refine h.upd.foldl fun _ _ h₁ => .ite h₁ ?_
  split
  · exact h₁.egress
  · exact h₁.upd

theorem MemSame.takeSeq {dst vc} : MemSame s₀ (s.takeSeq dst vc).2 := h.upd

theorem MemSame.sendPkt {dst vc type addr body} : MemSame s₀ (s.sendPkt dst vc type addr body).2 := h.takeSeq.sendRaw

theorem MemSame.sendReq {dst vc type addr body o} : MemSame s₀ (s.sendReq dst vc type addr body o).2 :=
  (MemSame.ite_snd h.takeSeq h.sendPkt).upd

theorem MemSame.respond {h' type err addr body} : MemSame s₀ (s.respond h' type err addr body) := h.upd.sendRaw

/-! #### The queues -/

theorem MemSame.setQint {q i} : MemSame s₀ (s.setQint q i) := h.upd

theorem MemSame.updQ {q f} : MemSame s₀ (s.updQ q f) := h.setQint

theorem MemSame.setQState {q st on} : MemSame s₀ (s.setQState q st on) := h.setFld.setFld

theorem MemSame.setSreg {q i v} : MemSame s₀ (s.setSreg q i v) := .ite h h.setReg

theorem MemSame.setPc {q pc} : MemSame s₀ (s.setPc q pc) := h.setReg

theorem MemSame.finishInstr {q cost pc} : MemSame s₀ (s.finishInstr q cost pc) := h.updQ.setPc.setQState

theorem MemSame.finishWait {q} : MemSame s₀ (s.finishWait q) := h.finishInstr

theorem MemSame.finishWaitRd {q rd v} : MemSame s₀ (s.finishWaitRd q rd v) := h.setSreg.finishWait

/-! #### Arbiters, semaphores, locks and applies -/

theorem MemSame.leaveSems {q} : MemSame s₀ (s.leaveSems q) := h.upd

theorem MemSame.setLock {store ix o} : MemSame s₀ (s.setLock store ix o) := h.setReg.setReg

theorem MemSame.lockAnswer {w status} : MemSame s₀ (s.lockAnswer w status) := by
  dsimp only [State.lockAnswer]
  refine .ite ?_ (.ite h h.respond)
  split
  · exact h.finishWaitRd
  · exact h

theorem MemSame.lockGrant {store ix} : MemSame s₀ (s.lockGrant store ix) := by
  dsimp only [State.lockGrant]
  split
  · exact h
  · exact (MemSame.ite h h.count).upd.setLock.lockAnswer

theorem MemSame.leaveLocks {q} : MemSame s₀ (s.leaveLocks q) := h.upd

theorem MemSame.lockReexamine {store} : MemSame s₀ (s.lockReexamine store) := h.foldl fun _ _ h₁ => .ite h₁.lockGrant h₁

/-! #### The pair -/

theorem MemSame.setPairState {x} : MemSame s₀ (s.setPairState x) := h.setFld

theorem MemSame.sendPend {type nums bytes} : MemSame s₀ (s.sendPend type nums bytes) := by
  dsimp only [State.sendPend]
  split
  · exact h.emit
  · exact h

theorem MemSame.pairChange {f : State → State} (hf : ∀ t, MemSame s₀ t → MemSame s₀ (f t)) : MemSame s₀ (s.pairChange f) :=
  (hf _ h).elseIf fun h₁ => h₁.hostEvent.alert

theorem MemSame.faultHandover : MemSame s₀ (s.faultHandover) :=
  .ite (.ite (h.sendPend.count.pairChange (fun _ h₁ => h₁.setPairState.setFld.setFld))
    (h.pairChange (fun _ h₁ => h₁.setPairState))) h

/-! #### Queue control -/

theorem MemSame.sendLock {q m store ix kind o} : MemSame s₀ (s.sendLock q m store ix kind o).2 := h.sendReq

theorem MemSame.abandonReqs {hit} : MemSame s₀ (s.abandonReqs hit) := h.upd

theorem MemSame.abandonWait {q} : MemSame s₀ (s.abandonWait q) := by
  dsimp only [State.abandonWait]
  split
  · exact h.leaveSems.updQ
  · exact (h.leaveLocks.abandonReqs.foldl fun _ _ h₁ => h₁.sendLock).updQ
  · exact h.abandonReqs.updQ
  · exact h
  · exact h.updQ

/-! #### The host port -/

theorem MemSame.orphanSigns {o} : MemSame s₀ (s.orphanSigns o) := h.upd

/-! #### Resets -/

theorem MemSame.bumpQueue {q} : MemSame s₀ (s.bumpQueue q) := h.countWrap

theorem MemSame.resetQueue {q e} : MemSame s₀ (s.resetQueue q e) := by
  unfold State.resetQueue
  extract_lets t u gone v mine w x
  have hu : MemSame s₀ u := h.abandonWait.abandonReqs
  have hw : MemSame s₀ w := ⟨hu.mem, hu.altered⟩
  exact .ite hw.bumpQueue hw.bumpQueue.updQ.setQState

/-! #### The ports -/

theorem MemSame.sendVc0 {p type body} : MemSame s₀ (s.sendVc0 p type body) := h.egress

theorem MemSame.floodVc0 {but type body} : MemSame s₀ (s.floodVc0 but type body) := h.foldl fun _ _ h₁ => .ite h₁.sendVc0 h₁

theorem MemSame.electLearn {x} : MemSame s₀ (s.electLearn x) := .ite h.upd.floodVc0 h

theorem MemSame.electSelf : MemSame s₀ (s.electSelf) := .ite h.electLearn h

theorem MemSame.excludeModule {kept serial} : MemSame s₀ (s.excludeModule kept serial) := .ite h h.upd.errRecord

theorem MemSame.assign {serial straps shown} : MemSame s₀ (s.assign serial straps shown) := by
  dsimp only [State.assign]
  refine .ite h (.ite h.upd ?_)
  split
  · split
    · exact h.upd
    · exact .ite h.excludeModule h.excludeModule.upd
  · split
    · exact h.upd
    · exact h.excludeModule

theorem MemSame.takeAddress {a excluded} : MemSame s₀ (s.takeAddress a excluded) := by
  dsimp only [State.takeAddress]
  split
  · exact h.setFld.setFld.setFld
  · exact .ite h.setFld.setFld.setFld h

theorem MemSame.setMembers {ms epoch} : MemSame s₀ (s.setMembers ms epoch) :=
  h.upd.setFld.setFld.elseIf fun h₁ => h₁.foldl fun _ _ h₂ => h₂.lockReexamine

theorem MemSame.sendMember : MemSame s₀ (s.sendMember) := h.floodVc0

theorem MemSame.coordRoutes : MemSame s₀ (s.coordRoutes) := by
  dsimp only [State.coordRoutes]
  refine (h.foldl fun _ _ h₁ => h₁.setReg).foldl fun _ _ h₁ => ?_
  split
  · exact h₁
  · exact h₁.sendVc0

theorem MemSame.memberRefresh : MemSame s₀ (s.memberRefresh) := by
  dsimp only [State.memberRefresh]
  refine .ite h (.ite (.setReg (.takeAddress (h.assign.foldl fun _ _ h₁ => ?_)))
      (.coordRoutes (.setMembers (.setReg (.takeAddress (h.assign.foldl fun _ _ h₁ => ?_))))))
  · split
    · exact h₁.assign
    · exact h₁
  · split
    · exact h₁.assign
    · exact h₁

theorem MemSame.becomeCoord : MemSame s₀ (s.becomeCoord) := h.setFld.setFld.setFld.setReg.upd.memberRefresh.sendMember

theorem MemSame.memberRx {p seq coord deputy epoch ms excl} : MemSame s₀ (s.memberRx p seq coord deputy epoch ms excl) :=
  .ite h (h.setFld.setFld.setFld.setReg.setReg.upd.setMembers.takeAddress.thenIf fun h₁ => h₁.foldl fun _ _ h₂ => .ite
    h₂.egress h₂)

theorem MemSame.reroute {p} : MemSame s₀ (s.reroute p).1 := .foldl_fst h fun _ _ h₁ => h₁.setReg

theorem MemSame.portDown {p} : MemSame s₀ (s.portDown p) :=
  .ite (.ite h ((h.setReg.count.setLink.orphanSigns.reroute.count.errRecord.releaseWaiting.foldl fun _ _ h₁ =>
    h₁.sendRaw).elseIf fun h₁ => h₁.emit).memberRefresh) h.setBit.setLink

theorem MemSame.applyTable {es} : MemSame s₀ (s.applyTable es) := by
  dsimp only [State.applyTable]
  exact (((h.foldl fun _ _ h₁ => h₁.setReg).foldl fun _ _ h₁ => .ite h₁.setReg h₁).foldl
    fun _ _ h₁ => .ite h₁ h₁.reroute).releaseWaiting.memberRefresh

theorem MemSame.routeRx {epoch i total first es} : MemSame s₀ (s.routeRx epoch i total first es) :=
  .ite h (.ite h.upd.applyTable h.upd)

theorem MemSame.linkUp {p v3 credits} : MemSame s₀ (s.linkUp p v3 credits) :=
  .ite (.ite h h.setReg.setLink.sendVc0.electSelf) (.ite h h.setBit.setLink)

theorem MemSame.portReady {p} : MemSame s₀ (s.portReady p) :=
  (h.setFld.elseIf fun h₁ => h₁.sendVc0).memberRefresh.releaseWaiting

theorem MemSame.drawNonce : MemSame s₀ (s.drawNonce).2 := h.draw.draw.draw.draw

theorem MemSame.helloPeer {p b} : MemSame s₀ (s.helloPeer p b) := h.setReg.setReg.foldl fun _ _ h₁ => h₁.setReg

theorem MemSame.helloRx {p b} : MemSame s₀ (s.helloRx p b) :=
  .ite (.ite ((h.helloPeer.setLink.thenIf fun h₁ => h₁.electSelf.electLearn).setLink.foldl fun _ _ h₁ =>
    h₁.sendVc0).drawNonce.setFld.setLink.sendVc0
    ((h.helloPeer.setLink.thenIf fun h₁ => h₁.electSelf.electLearn).setLink.foldl fun _ _ h₁ => h₁.sendVc0).portReady)
    (h.helloPeer.setLink.thenIf fun h₁ => h₁.electSelf.electLearn).memberRefresh

theorem MemSame.admitRefuse {p why} : MemSame s₀ (s.admitRefuse p why) := h.setLink.setFld.errRecord

theorem MemSame.mqWrite {v} : MemSame s₀ (s.mqWrite v) := h.setFld.setReg.setReg.setReg

end

end Sys2Proof.Machine
end

section
/-!
PROOFS. The supplies, the boot and its outcome, and warm resets.
-/

namespace Sys2Proof.Machine

open Sys2Proof

/-! ### What a change of mode and a reset's register writes leave alone -/

/-- `t` is `s` but for registers of p, the host events, the stored incarnation limit and the mark of a warm reset that runs. -/
structure BootFrame (p : Nat → Prop) (s t : State) : Prop where
  rest : t = { s with regs := t.regs, incLimit := t.incLimit, warmRun := t.warmRun, events := t.events, eventSeq := t.eventSeq,
                      eventLost := t.eventLost, ceIndex := t.ceIndex, ceCount := t.ceCount, out := t.out }
  regs : ∀ a, ¬ p a → t.reg a = s.reg a

namespace BootFrame

variable {p q : Nat → Prop} {s t u : State}

theorem refl (s : State) : BootFrame p s s := ⟨rfl, fun _ _ => rfl⟩

theorem trans (h : BootFrame p s t) (g : BootFrame p t u) : BootFrame p s u where
  rest := g.rest.trans (congrArg (fun x : State =>
    { x with regs := u.regs, incLimit := u.incLimit, warmRun := u.warmRun, events := u.events, eventSeq := u.eventSeq,
             eventLost := u.eventLost, ceIndex := u.ceIndex, ceCount := u.ceCount, out := u.out }) h.rest)
  regs a ha := (g.regs a ha).trans (h.regs a ha)

theorem mono (h : BootFrame p s t) (hpq : ∀ a, p a → q a) : BootFrame q s t := ⟨h.rest, fun a ha => h.regs a fun hp => ha (hpq a hp)⟩

theorem ite {c : Prop} [Decidable c] (ht : BootFrame p s t) (hu : BootFrame p s u) : BootFrame p s (if c then t else u) := by
  split
  · exact ht
  · exact hu

theorem thenIf {c : Prop} [Decidable c] (ht : BootFrame p s t) (hu : BootFrame p t u) : BootFrame p s (if c then u else t) :=
  .ite (ht.trans hu) ht

theorem setReg (s : State) {a : Nat} (v : Word) (ha : p a) : BootFrame p s (s.setReg a v) :=
  ⟨rfl, fun b hb => s.reg_setReg_other a b v (fun e => hb (e ▸ ha))⟩

theorem setFld (s : State) {a : Nat} (f : Field) (v : Nat) (ha : p a) : BootFrame p s (s.setFld a f v) := setReg s _ ha

theorem count (s : State) {a : Nat} (f : Field) (n : Nat) (ha : p a) : BootFrame p s (s.count a f n) := setFld s f _ ha

theorem emit (s : State) (o : Out) : BootFrame p s (s.emit o) := ⟨rfl, fun _ _ => rfl⟩

theorem foldl {α : Type} {g : State → α → State} {l : List α} (hg : ∀ s, ∀ x ∈ l, BootFrame p s (g s x)) :
    BootFrame p s (l.foldl g s) :=
  List.foldlRecOn _ _ (refl s) fun _ hb x hx => hb.trans (hg _ x hx)

theorem record (h : RecordFrame s t) (hp : ∀ a, IsRecordReg a → p a) : BootFrame p s t :=
  ⟨by rw [h.rest], fun a ha => h.regs a fun hr => ha (hp a hr)⟩

theorem fld (h : BootFrame p s t) {a : Nat} (f : Field) (ha : ¬ p a) : t.fld a f = s.fld a f := by
  rw [State.fld, h.regs a ha, State.fld]

theorem mode (h : BootFrame p s t) (ha : ¬ p R.ID_STATE) : t.mode = s.mode := h.fld _ ha

theorem staged (h : BootFrame p s t) : t.staged = s.staged := by rw [h.rest]

theorem mem (h : BootFrame p s t) : t.mem = s.mem := by rw [h.rest]

theorem imageUp (h : BootFrame p s t) : t.imageUp = s.imageUp := by rw [h.rest]

theorem mainGood (h : BootFrame p s t) : t.mainGood = s.mainGood := by rw [h.rest]

theorem cmds (h : BootFrame p s t) : t.cmds = s.cmds := by rw [h.rest]

theorem powered (h : BootFrame p s t) : t.powered = s.powered := by rw [h.rest]

theorem now (h : BootFrame p s t) : t.now = s.now := by rw [h.rest]

theorem pending (h : BootFrame p s t) : t.pending = s.pending := by rw [h.rest]

theorem flash (h : BootFrame p s t) : t.flash = s.flash := by rw [h.rest]

theorem queues (h : BootFrame p s t) : t.queues = s.queues := by rw [h.rest]

theorem colls (h : BootFrame p s t) : t.colls = s.colls := by rw [h.rest]

theorem sameMemory (h : BootFrame p s t) : SameMemory s t := .of_eq h.mem (by rw [h.rest])

end BootFrame

/-! ### The measurements and the mode -/

/-- The registers that a change of mode writes besides ID_STATE: the measurements, and those that tell of it. -/
def IsModeReg (a : Nat) : Prop := IsRecordReg a ∨ (0x200000010100 ≤ a ∧ a < 0x200000010200)

section Mode
variable {s : State} {m : Nat}

theorem isModeReg_meas {i w : Nat} (hi : i < 8) (hw : w < 4) : IsModeReg (R.SEC_MEAS i w) :=
  .inr (by unfold R.SEC_MEAS; omega)

theorem State.setMeas_frame {i : Nat} (b : List Byte) (hi : i < 8) : BootFrame IsModeReg s (s.setMeas i b) :=
  .foldl fun _ _ hw => .setReg _ _ (isModeReg_meas hi (List.mem_range.mp hw))

theorem State.extend_frame {i : Nat} (d : List Byte) (hi : i < 8) : BootFrame IsModeReg s (s.extend i d) := s.setMeas_frame _ hi

theorem State.alert_frame (i : Nat) : BootFrame IsModeReg s (s.alert i) := .record (s.alert_recordFrame i) fun _ => .inl

theorem State.hostEvent_frame (kind : Nat) (body : List Byte) : BootFrame IsModeReg s (s.hostEvent kind body) :=
  .record (s.hostEvent_recordFrame kind body) fun _ => .inl

/-- The state with the image's mark. -/
def State.withImageUp (s : State) (b : Bool) : State := { s with imageUp := b }

/-- The state with the mark of a warm reset that runs. -/
def State.withWarmRun (s : State) (b : Bool) : State := { s with warmRun := b }

theorem State.mode_withImageUp (b : Bool) : (s.withImageUp b).mode = s.mode := rfl

theorem State.imageUp_withImageUp (b : Bool) : (s.withImageUp b).imageUp = b := rfl

theorem State.kept_withImageUp (b : Bool) : (s.withImageUp b).staged = s.staged ∧ (s.withImageUp b).cmds = s.cmds ∧
    (s.withImageUp b).queues = s.queues ∧ (s.withImageUp b).mem = s.mem := ⟨rfl, rfl, rfl, rfl⟩

theorem State.fld_withImageUp (b : Bool) (a : Nat) (f : Field) : (s.withImageUp b).fld a f = s.fld a f := rfl

theorem State.mode_withWarmRun (b : Bool) : (s.withWarmRun b).mode = s.mode := rfl

theorem State.warmRun_withWarmRun (b : Bool) : (s.withWarmRun b).warmRun = b := rfl

theorem BootFrame.withImageUp {p : Nat → Prop} {s t : State} (h : BootFrame p s t) (b : Bool) :
    BootFrame p (s.withImageUp b) (t.withImageUp b) := ⟨congrArg (State.withImageUp · b) h.rest, h.regs⟩

theorem BootFrame.withWarmRun {p : Nat → Prop} (b : Bool) : BootFrame p s (s.withWarmRun b) := ⟨rfl, fun _ _ => rfl⟩

/-- The state as it enters mode m, before the change is measured and told of. -/
def State.modeSet (s : State) (m : Nat) : State :=
  (s.setFld R.ID_STATE F.ID_STATE_STATE m).withWarmRun ((s.setFld R.ID_STATE F.ID_STATE_STATE m).warmRun && m == mBoot)

/-- The new mode is measured and told of (R413, R402, R403). -/
def State.modeTold (s : State) (m old : Nat) : State :=
  let t := if m = mEarly ∨ m = mFull ∨ m = mDegraded then s.measureState else s
  (t.hostEvent 5 (leBytes old 8 ++ leBytes (t.reg R.ID_STATE).toNat 8)).alert 4

theorem State.enterMode_eq : s.enterMode m = if s.mode = m then s else (s.modeSet m).modeTold m (s.reg R.ID_STATE).toNat := rfl

theorem State.modeTold_frame (old : Nat) : BootFrame IsModeReg s (s.modeTold m old) :=
  have measured : BootFrame IsModeReg s (if m = mEarly ∨ m = mFull ∨ m = mDegraded then s.measureState else s) :=
    .thenIf (.refl s) (s.extend_frame _ (by decide))
  (measured.trans (State.hostEvent_frame _ _)).trans (State.alert_frame _)

theorem State.enterMode_same (h : s.mode = m) : s.enterMode m = s := if_pos h

theorem State.enterMode_frame (h : s.mode ≠ m) : BootFrame IsModeReg (s.modeSet m) (s.enterMode m) := by
  rw [State.enterMode_eq, if_neg h]
  exact State.modeTold_frame _

theorem idState_not_modeReg : ¬ IsModeReg R.ID_STATE := by
  unfold IsModeReg IsRecordReg
  decide

theorem State.mode_enterMode (hm : m < 16) : (s.enterMode m).mode = m := by
  by_cases h : s.mode = m
  · rw [State.enterMode_same h, h]
  · rw [(State.enterMode_frame h).mode idState_not_modeReg]
    exact s.fld_setFld_same _ _ _ (by decide) hm

/-- A change of mode leaves alone everything but the mode, its measurement and what tells of it. -/
theorem State.enterMode_rest : BootFrame (fun a => IsModeReg a ∨ a = R.ID_STATE) s (s.enterMode m) := by
  by_cases h : s.mode = m
  · rw [State.enterMode_same h]
    exact .refl s
  · exact .trans (.trans (.setFld _ _ _ (.inr rfl)) (.withWarmRun _)) ((State.enterMode_frame h).mono fun _ => .inl)

theorem State.bootRom_frame : BootFrame IsModeReg (s.withImageUp false) s.bootRom := by
  have meas : BootFrame IsModeReg s ((List.range 8).foldl (fun s i => s.setMeas i (List.replicate 32 0)) s).measureBoot :=
    .trans (.foldl fun _ _ hi => State.setMeas_frame _ (List.mem_range.mp hi)) (State.extend_frame _ (by decide))
  exact meas.withImageUp false

theorem State.imageUp_bootRom : s.bootRom.imageUp = false := State.bootRom_frame.imageUp

end Mode

/-! ### The internals and the registers of a warm reset -/

section Warm
variable {s : State}

theorem State.loseBlocks_frame {bs : List Block} (h : s.staged = []) : BootFrame (fun _ => True) s (s.loseBlocks bs) := by
  refine ⟨?_, fun _ ha => absurd trivial ha⟩
  unfold State.loseBlocks
  rw [h]
  rfl

theorem State.warmRegs_frame (h : s.staged = []) : BootFrame (fun _ => True) s s.warmRegs := by
  have mapped : BootFrame (fun _ => True) s { s with regs := mapRegs warmValue s.regs } := ⟨rfl, fun _ ha => absurd trivial ha⟩
  have written := (((mapped.trans (.setFld _ (a := R.ID_UNITS) F.ID_UNITS_DIE_IN_SERVICE 0 trivial)).trans
    (.setFld _ (a := R.ID_UNITS) F.ID_UNITS_STACK_IN_SERVICE 0 trivial)).trans (.setReg _ (a := R.PWR_DOM_STAT) 0 trivial)).trans
    (.setReg _ (a := R.PWR_DOM_CLOSING) 0 trivial)
  exact written.trans (State.loseBlocks_frame (written.staged.trans h))

theorem State.bumpIncarn_frame : BootFrame (fun _ => True) s s.bumpIncarn := by
  have raised (n : Nat) : BootFrame (fun _ => True) s { s with incLimit := n } := ⟨rfl, fun _ _ => rfl⟩
  exact .trans (.ite (raised _) (.refl s)) (.setReg _ _ trivial)

theorem State.warmReset_frame (cause : Nat) : BootFrame (fun _ => True) s.updateCut.warmInternals (s.warmReset cause) := by
  have regs := State.warmRegs_frame (s := s.updateCut.warmInternals) rfl
  have lost := regs.trans (.ite (c := cause = 2) (State.loseBlocks_frame (bs := [.err]) (regs.staged.trans rfl)) (.refl _))
  exact .trans (.trans (.trans (.trans lost (.ite (.count _ _ _ trivial) (.refl _))) State.bumpIncarn_frame)
    (.foldl fun _ _ _ => .setFld _ _ _ trivial)) (.setFld _ _ _ trivial)

theorem State.cause_warmReset {cause : Nat} (h : cause < 16) : (s.warmReset cause).fld R.RST_STAT F.RST_STAT_LAST_CAUSE = cause :=
  State.fld_setFld_same _ _ _ _ (by decide) h

theorem State.mem_updateCut : s.updateCut.mem = s.mem := by
  unfold State.updateCut
  split <;> rfl

theorem State.mem_warmInternals : s.warmInternals.mem = s.mem.filter (fun c => isHbm c.1) := by
  unfold State.warmInternals State.writeBackHeld
  split <;> rfl

theorem memByte_filter (m : List Host.Cell) {k : Nat} (h : isHbm k = true) :
    memByte (m.filter fun c => isHbm c.1) k = memByte m k := by
  induction m with
  | nil => rfl
  | cons c r ih =>
    unfold memByte at ih ⊢
    by_cases hc : isHbm c.1
    · simp only [List.filter_cons, hc, if_true, sparseGet, ih]
    · have hne : c.1 ≠ k := fun e => hc (e ▸ h)
      simp only [List.filter_cons, hc, if_false, sparseGet, hne, ih, Bool.false_eq_true]

/-- What no reset of the module keeps. -/
theorem State.warmReset_empties (cause : Nat) : (s.warmReset cause).staged = [] ∧ (s.warmReset cause).cmds = [] ∧
    (s.warmReset cause).queues = [] :=
  have frame := s.warmReset_frame cause
  ⟨frame.staged.trans rfl, frame.cmds.trans rfl, frame.queues.trans rfl⟩

theorem State.memByte_warmReset (cause : Nat) {k : Nat} (h : isHbm k = true) : memByte (s.warmReset cause).mem k = memByte s.mem k := by
  rw [(s.warmReset_frame cause).mem, State.mem_warmInternals, State.mem_updateCut, memByte_filter _ h]

end Warm

/-! ### Auxiliary power (R473, R33, R434) -/

section Aux
variable {s : State} {valid sb : Bool} {node : BitVec 10} {slot lid : BitVec 3}

/-- The internals of a module that comes up from the auxiliary supply. -/
def State.auxCold (s : State) (valid : Bool) (node : BitVec 10) (slot lid : BitVec 3) (sb : Bool) : State :=
  { State.reset with
    pending := s.pending, out := s.out, draws := s.draws, flash := s.flash, strapValid := valid, strapNode := node.toNat,
    strapSlot := slot.toNat, lidPins := lid.toNat, sbStrap := b2n sb, lifeLimit := s.lifeLimit + 16, incLimit := s.incLimit,
    mainGood := false }

/-- A register that keeps its value over a cold reset: the identity, the host port's address, the digests of the OTP. -/
def coldKept (a : Nat) : Bool :=
  warmFixed a || inBlocks [.hostp] a && a == R.HOSTP_MAC || (decide (R.SEC_OTP_DIGEST 0 ≤ a) && decide (a ≤ R.SEC_OTP_DIGEST 3))

/-- The cold state with the registers that are kept. -/
def State.auxKept (s t : State) : State := (s.regs.filter fun p => coldKept p.1).foldl (fun t p => t.setReg p.1 p.2) t

/-- The straps and the lid are sampled (R33, R446). -/
def State.auxStraps (t : State) (valid : Bool) (node : BitVec 10) (slot lid : BitVec 3) : State :=
  t.setReg R.ID_STRAPS (BitVec.ofNat 64 (node.toNat + slot.toNat * 2 ^ 10 + b2n valid * 2 ^ 13 + lid.toNat * 2 ^ 14))

/-- The incarnation starts at its stored limit. -/
def State.auxIncarn (s t : State) (lid : BitVec 3) : State :=
  (t.setFld R.ID_PART F.ID_PART_VARIANT (if lid = 3 then 0x43 else if lid = 2 then 0x49 else 0x41)).setReg R.ID_INCARN
    (BitVec.ofNat 64 s.incLimit)

/-- The further registers that a module from the auxiliary supply has. -/
def State.auxRest (s t : State) (valid : Bool) (slot : BitVec 3) (sb : Bool) : State :=
  let t := t.setReg R.LIFETIME (BitVec.ofNat 64 (s.lifeLimit + s.lifeLimit * 2 ^ 32))
  let lim := s.fld R.SEC_IDX_LIMIT F.SEC_IDX_LIMIT_LIMIT
  let t := (t.setFld R.SEC_IDX_LIMIT F.SEC_IDX_LIMIT_LIMIT lim).setFld R.SEC_IDX F.SEC_IDX_NEXT lim
  let t := t.setFld R.SEC_STAT F.SEC_STAT_SVN_OTP s.svnOtp
  let t := t.setReg R.HOSTP_SB (BitVec.ofNat 64 ((0x58 + (if valid then slot.toNat else 0)) * 2 ^ 32 + b2n sb))
  t.alert 4

theorem exec_auxPowerGood_off (h : s.powered = false) : exec (.auxPowerGood valid node slot lid sb) s =
    .next (s.auxRest (s.auxIncarn ((s.auxKept (s.auxCold valid node slot lid sb)).auxStraps valid node slot lid) lid) valid slot sb) :=
  congrArg Host.Outcome.next (if_neg (by simp [h]))

/-- A register that is kept over a cold reset is not one of these. -/
theorem coldKept_ne {a b : Nat} (ha : coldKept a = true) (hb : coldKept b = false) : a ≠ b := fun e => by
  rw [e, hb] at ha
  exact Bool.false_ne_true ha

theorem State.auxKept_frame {a : Nat} (ha : coldKept a = false) (t : State) : BootFrame (· ≠ a) t (s.auxKept t) :=
  .foldl fun _ _ hp => .setReg _ _ (coldKept_ne (by simpa using (List.mem_filter.mp hp).2) ha)

theorem State.auxIncarn_frame {a : Nat} (h : R.ID_PART ≠ a) (g : R.ID_INCARN ≠ a) (t : State) :
    BootFrame (· ≠ a) t (s.auxIncarn t lid) := .trans (.setFld _ _ _ h) (.setReg _ _ g)

/-- The registers of the last step of a cold reset. -/
def auxRestRegs : List Nat := [R.LIFETIME, R.SEC_IDX_LIMIT, R.SEC_IDX, R.SEC_STAT, R.HOSTP_SB]

theorem State.auxRest_frame {a : Nat} (h : a ∉ auxRestRegs) (g : ¬ IsRecordReg a) (t : State) :
    BootFrame (· ≠ a) t (s.auxRest t valid slot sb) := by
  simp only [auxRestRegs, List.mem_cons, List.not_mem_nil, or_false, not_or] at h
  obtain ⟨h₁, h₂, h₃, h₄, h₅⟩ := h
  exact .trans (.trans (.trans (.trans (.trans (.setReg _ _ (Ne.symm h₁)) (.setFld _ _ _ (Ne.symm h₂))) (.setFld _ _ _ (Ne.symm h₃)))
    (.setFld _ _ _ (Ne.symm h₄))) (.setReg _ _ (Ne.symm h₅))) (.record (State.alert_recordFrame _ 4) fun b hb e => g (e ▸ hb))

theorem State.mode_auxCold : (s.auxCold valid node slot lid sb).mode = mAon :=
  (rfl : _ = State.reset.mode).trans (by rw [State.mode, State.fld, State.reset_reg (by decide) (by decide)]; decide)

/-- The module as the auxiliary supply brings it up. -/
def State.auxUp (s : State) (valid : Bool) (node : BitVec 10) (slot lid : BitVec 3) (sb : Bool) : State :=
  s.auxRest (s.auxIncarn ((s.auxKept (s.auxCold valid node slot lid sb)).auxStraps valid node slot lid) lid) valid slot sb

theorem State.auxUp_frame {a : Nat} (hk : coldKept a = false) (h : a ∉ R.ID_STRAPS :: R.ID_PART :: R.ID_INCARN :: auxRestRegs)
    (g : ¬ IsRecordReg a) : BootFrame (· ≠ a) (s.auxCold valid node slot lid sb) (s.auxUp valid node slot lid sb) := by
  simp only [List.mem_cons (a := a), not_or] at h
  obtain ⟨hs, hp, hi, hr⟩ := h
  exact .trans (.trans (.trans (State.auxKept_frame hk _) (.setReg _ _ (Ne.symm hs))) (State.auxIncarn_frame (Ne.symm hp) (Ne.symm hi) _))
    (State.auxRest_frame hr g _)

theorem State.straps_auxUp : (s.auxUp valid node slot lid sb).reg R.ID_STRAPS =
    BitVec.ofNat 64 (node.toNat + slot.toNat * 2 ^ 10 + b2n valid * 2 ^ 13 + lid.toNat * 2 ^ 14) :=
  have frame := (State.auxIncarn_frame (s := s) (lid := lid) (a := R.ID_STRAPS) (by decide) (by decide) _).trans
    (State.auxRest_frame (s := s) (valid := valid) (slot := slot) (sb := sb) (by decide) (by unfold IsRecordReg; decide) _)
  (frame.regs R.ID_STRAPS (not_not_intro rfl)).trans (State.reg_setReg_same _ _ _)

theorem State.incarn_auxUp : (s.auxUp valid node slot lid sb).reg R.ID_INCARN = BitVec.ofNat 64 s.incLimit :=
  have frame := State.auxRest_frame (s := s) (valid := valid) (slot := slot) (sb := sb) (a := R.ID_INCARN) (by decide)
    (by unfold IsRecordReg; decide) _
  (frame.regs R.ID_INCARN (not_not_intro rfl)).trans (State.reg_setReg_same _ _ _)

theorem State.updateCut_rest : s.updateCut = { s with flash := s.updateCut.flash, update := none } := by
  unfold State.updateCut
  split <;> rfl

end Aux

/-- Settles O13. -/
theorem auxiliarySupply : Obligations.AuxiliarySupply := by
  refine ⟨fun valid node slot lid sb s hoff => ?_, fun valid node slot lid sb s hon => congrArg Host.Outcome.next (if_pos hon),
    fun s hon => ?_⟩
  · have frame := State.auxUp_frame (s := s) (valid := valid) (node := node) (slot := slot) (lid := lid) (sb := sb)
      (a := R.ID_STATE) (by decide) (by decide) (by unfold IsRecordReg; decide)
    refine ⟨_, exec_auxPowerGood_off hoff, frame.powered.trans rfl, ?_, frame.now.trans rfl, State.straps_auxUp, State.incarn_auxUp,
      frame.pending.trans rfl, frame.flash.trans rfl⟩
    exact (frame.mode (not_not_intro rfl)).trans State.mode_auxCold
  · refine ⟨_, congrArg Host.Outcome.next (if_pos hon), rfl, ?_, .of_eq ?_ ?_, .of_eq ?_ ?_⟩
    all_goals
      dsimp only
      rw [State.updateCut_rest]

/-! ### The main supply (R428, R450, R472, R478) -/

section Main
variable {s : State}

/-- The module may leave AON. -/
def State.MayBoot (s : State) : Prop :=
  s.mode = mAon ∧ s.fld R.RST_CFG F.RST_CFG_HOLD_AON = 0 ∧ s.fld R.PWR_STAT F.PWR_STAT_TRIP = 0 ∧ s.cool = true

/-- The stored limit of the incarnation stays above it (R434). -/
def State.limitRaised (s : State) : State :=
  if s.incLimit ≤ (s.reg R.ID_INCARN).toNat then { s with incLimit := s.incLimit + 256 } else s

theorem exec_mainPowerGood_boot (hp : s.powered = true) (h : s.MayBoot) :
    exec .mainPowerGood s = .next (({ s with mainGood := true }.warmInternals.warmRegs).limitRaised.bootRom.enterMode mBoot) :=
  (State.alive_next _ hp).trans (congrArg Host.Outcome.next (if_pos h))

theorem State.limitRaised_frame : BootFrame (fun _ => True) s s.limitRaised :=
  .ite ⟨rfl, fun _ _ => rfl⟩ (.refl s)

theorem State.imageUp_bootMode (m : Nat) : (s.bootRom.enterMode m).imageUp = false :=
  State.enterMode_rest.imageUp.trans State.imageUp_bootRom

theorem State.mainGood_warmInternals : s.warmInternals.mainGood = s.mainGood := by
  unfold State.warmInternals State.writeBackHeld
  split <;> rfl

/-- The state with the mark of its main supply. -/
def State.withMainGood (s : State) (b : Bool) : State := { s with mainGood := b }

theorem State.mode_withMainGood (b : Bool) : (s.withMainGood b).mode = s.mode := rfl

theorem State.mainGood_withMainGood (b : Bool) : (s.withMainGood b).mainGood = b := rfl

theorem State.staged_withMainGood (b : Bool) : (s.withMainGood b).staged = s.staged := rfl

/-- The module loses its main supply or its clock. -/
theorem exec_mainLoss {c : Instr} (hc : c = .mainPowerLoss ∨ c = .refclkLoss) (h : s.running = true) :
    exec c s = .next (s.mainLost.withMainGood false) := by
  have hp : s.powered = true := (Bool.and_eq_true_iff.mp h).1
  rcases hc with rfl | rfl
  all_goals exact (State.alive_next _ hp).trans (congrArg Host.Outcome.next (if_pos h))

theorem mainLoss_spec {c : Instr} (hc : c = .mainPowerLoss ∨ c = .refclkLoss) (h : s.running = true) :
    ∃ t, exec c s = .next t ∧ t.mode = mAon ∧ t.mainGood = false ∧ t.staged = [] :=
  ⟨_, exec_mainLoss hc h, (State.mode_withMainGood _).trans (State.mode_enterMode (by decide)), State.mainGood_withMainGood _,
    (State.staged_withMainGood _).trans (State.enterMode_rest.staged.trans (s.warmReset_empties 2).1)⟩

end Main

/-- Settles O14. -/
theorem mainSupply : Obligations.MainSupply := by
  refine ⟨fun s hp hmode hhold htrip hcool => ?_, fun s hp hmode hheld => ?_, fun s h => mainLoss_spec (.inl rfl) h,
    fun s h => mainLoss_spec (.inr rfl) h⟩
  · refine ⟨_, exec_mainPowerGood_boot hp ⟨hmode, hhold, htrip, hcool⟩, State.mode_enterMode (by decide), State.imageUp_bootMode _, ?_⟩
    have warm := State.warmRegs_frame (s := { s with mainGood := true }.warmInternals) rfl
    calc _ = _ := State.enterMode_rest.mainGood
      _ = _ := State.bootRom_frame.mainGood
      _ = _ := State.limitRaised_frame.mainGood
      _ = _ := warm.mainGood
      _ = true := State.mainGood_warmInternals
  · refine (State.alive_next _ hp).trans (congrArg Host.Outcome.next ((if_neg fun h => ?_).trans (if_pos hmode)))
    obtain ⟨-, hhold, htrip, hcool⟩ := h
    rcases hheld with hn | hn | hn
    · exact hn hhold
    · exact hn htrip
    · exact Bool.false_ne_true (hn.symm.trans hcool)

/-! ### The boot (R413, R430) -/

section Boot
variable {s : State}

theorem State.verifyImage_le (get : Nat → Byte) (bad : Bool) : s.verifyImage get bad ≤ 6 := by
  unfold State.verifyImage
  dsimp only
  repeat' split
  all_goals decide

/-- The result of the image checks as it shows in SEC_STAT. -/
def State.bootResult (s : State) (why : Nat) : State := s.setFld R.SEC_STAT F.SEC_STAT_BOOT_RESULT why

/-- The image is measured and named. -/
def State.imageNamed (s : State) : State :=
  let s := s.extend 1 (shake256 (imgBytes s.flashByte 0 1024) 32)
  let s := s.setReg R.ID_FW (BitVec.ofNat 64 (imgField s.flashByte 8 6))
  s.setFld R.SEC_STAT F.SEC_STAT_SVN_IMAGE (imgField s.flashByte 5 1)

/-- The module that has no image to run recovers. -/
def State.imageFailed (s : State) : State :=
  (((s.setFld R.SEC_STAT F.SEC_STAT_SVN_IMAGE 0).enterMode mRecovery).raiseDomains (2 ^ 52 + 2 ^ 55)).hostTrain

theorem exec_imageChecksComplete (e : Bool) (hp : s.powered = true) (hm : s.mode = mBoot) (hi : s.imageUp = false) :
    exec (.imageChecksComplete e) s = .next
      (if s.verifyImage s.flashByte e = 0 then (s.bootResult (s.verifyImage s.flashByte e)).imageNamed.withImageUp true
        else (s.bootResult (s.verifyImage s.flashByte e)).imageFailed) := by
  refine (State.alive_next _ hp).trans (congrArg Host.Outcome.next ((if_pos ⟨hm, hi⟩).trans ?_))
  rw [State.bootResult, State.imageNamed, State.imageFailed, State.withImageUp]

/-- The registers that the outcome of the boot may write. -/
def IsBootReg (a : Nat) : Prop := IsModeReg a ∨ a ∈ [R.ID_FW, R.SEC_STAT, R.PWR_DOM_STAT, R.HOSTP_STAT, R.ID_UNITS]

theorem idState_not_bootReg : ¬ IsBootReg R.ID_STATE := by
  unfold IsBootReg IsModeReg IsRecordReg
  decide

theorem isBootReg_of_mem {a : Nat} (h : a ∈ [R.ID_FW, R.SEC_STAT, R.PWR_DOM_STAT, R.HOSTP_STAT, R.ID_UNITS]) : IsBootReg a := .inr h

theorem State.bootResult_frame (why : Nat) : BootFrame IsBootReg s (s.bootResult why) := .setFld _ _ _ (isBootReg_of_mem (by decide))

theorem State.imageNamed_frame : BootFrame IsBootReg s s.imageNamed :=
  .trans (.trans ((s.extend_frame _ (by decide)).mono fun _ => .inl) (.setReg _ _ (isBootReg_of_mem (by decide))))
    (.setFld _ _ _ (isBootReg_of_mem (by decide)))

theorem State.raiseDomains_frame (m : Nat) : BootFrame IsBootReg s (s.raiseDomains m) := .setFld _ _ _ (isBootReg_of_mem (by decide))

theorem State.hostTrain_frame : BootFrame IsBootReg s s.hostTrain :=
  have mem : IsBootReg R.HOSTP_STAT := isBootReg_of_mem (by decide)
  .trans (.trans (.setFld _ _ _ mem) (.setFld _ _ _ mem)) (.setFld _ _ _ mem)

theorem secStat_not_modeReg : ¬ (IsModeReg R.SEC_STAT ∨ R.SEC_STAT = R.ID_STATE) := by
  unfold IsModeReg IsRecordReg
  decide

theorem State.bootResult_reads {why : Nat} (h : why ≤ 6) :
    (s.bootResult why).fld R.SEC_STAT F.SEC_STAT_BOOT_RESULT = why % 256 := by
  have small : why < 2 ^ F.SEC_STAT_BOOT_RESULT.width := Nat.lt_of_le_of_lt h (by decide)
  rw [State.bootResult, State.fld_setFld_same _ _ _ _ (by decide) small, Nat.mod_eq_of_lt (Nat.lt_of_le_of_lt h (by decide))]

/-- Naming the image leaves the result of its checks. -/
theorem State.result_imageNamed : s.imageNamed.fld R.SEC_STAT F.SEC_STAT_BOOT_RESULT = s.fld R.SEC_STAT F.SEC_STAT_BOOT_RESULT := by
  have measured := (s.extend_frame (i := 1) (shake256 (imgBytes s.flashByte 0 1024) 32) (by decide)).fld (a := R.SEC_STAT)
    F.SEC_STAT_BOOT_RESULT (fun h => secStat_not_modeReg (.inl h))
  rw [State.imageNamed, State.fld_setFld_apart _ _ _ _ _ (by decide) (by decide), State.fld_setReg_other _ _ _ _ _ (by decide), measured]

/-- Recovery leaves the result of the image checks. -/
theorem State.result_imageFailed : s.imageFailed.fld R.SEC_STAT F.SEC_STAT_BOOT_RESULT = s.fld R.SEC_STAT F.SEC_STAT_BOOT_RESULT := by
  rw [State.imageFailed, State.hostTrain, State.fld_setFld_other _ _ _ _ _ _ (by decide),
    State.fld_setFld_other _ _ _ _ _ _ (by decide), State.fld_setFld_other _ _ _ _ _ _ (by decide), State.raiseDomains,
    State.fld_setFld_other _ _ _ _ _ _ (by decide), State.enterMode_rest.fld _ secStat_not_modeReg,
    State.fld_setFld_apart _ _ _ _ _ (by decide) (by decide)]

theorem State.imageFailed_mode : s.imageFailed.mode = mRecovery :=
  ((State.raiseDomains_frame _).trans State.hostTrain_frame).mode idState_not_bootReg |>.trans (State.mode_enterMode (by decide))

theorem State.imageUp_imageFailed : s.imageFailed.imageUp = s.imageUp :=
  calc _ = _ := ((State.raiseDomains_frame _).trans State.hostTrain_frame).imageUp
    _ = _ := State.enterMode_rest.imageUp
    _ = _ := s.setFld_imageUp _ _ _

/-- The dies in service and the domains that are on as EARLY begins. -/
def State.earlyUnits (s : State) (d0 : Bool) : State :=
  (s.setFld R.ID_UNITS F.ID_UNITS_DIE_IN_SERVICE (b2n d0)).raiseDomains (15 * 2 ^ 52 + (if d0 then 2 ^ 9 - 1 else 0))

theorem exec_earlyEntry_due (d0 : Bool) (hp : s.powered = true) (hm : s.mode = mBoot) (hi : s.imageUp = true) :
    exec (.earlyEntry d0) s = .next ((s.earlyUnits d0).hostTrain.enterMode mEarly) :=
  (State.alive_next _ hp).trans (congrArg Host.Outcome.next (if_pos ⟨hm, hi⟩))

theorem State.dies_earlyUnits (d0 : Bool) : (s.earlyUnits d0).fld R.ID_UNITS F.ID_UNITS_DIE_IN_SERVICE = b2n d0 := by
  rw [State.earlyUnits, State.raiseDomains, State.fld_setFld_other _ _ _ _ _ _ (by decide),
    State.fld_setFld_same _ _ _ _ (by decide) (by cases d0 <;> decide)]

theorem State.dies_hostTrain : s.hostTrain.fld R.ID_UNITS F.ID_UNITS_DIE_IN_SERVICE = s.fld R.ID_UNITS F.ID_UNITS_DIE_IN_SERVICE := by
  rw [State.hostTrain, State.fld_setFld_other _ _ _ _ _ _ (by decide), State.fld_setFld_other _ _ _ _ _ _ (by decide),
    State.fld_setFld_other _ _ _ _ _ _ (by decide)]

theorem State.link_hostTrain : s.hostTrain.fld R.HOSTP_STAT F.HOSTP_STAT_LINK = 1 := by
  rw [State.hostTrain, State.fld_setFld_apart _ _ _ _ _ (by decide) (by decide), State.fld_setFld_apart _ _ _ _ _ (by decide) (by decide),
    State.fld_setFld_same _ _ _ _ (by decide) (by decide)]

end Boot

/-- Settles O15. -/
theorem bootOutcome : Obligations.BootOutcome := by
  refine ⟨fun e s hp hm hi => ?_, fun d0 s hp hm hi => ?_, fun d0 s hp hnot => ?_⟩
  · intro why
    have hwhy : why ≤ 6 := State.verifyImage_le _ _
    refine ⟨_, exec_imageChecksComplete e hp hm hi, ?_⟩
    change let t := if why = 0 then (s.bootResult why).imageNamed.withImageUp true else (s.bootResult why).imageFailed
      t.imageUp = decide (why = 0) ∧ t.mode = (if why = 0 then mBoot else mRecovery) ∧ t.fld R.SEC_STAT F.SEC_STAT_BOOT_RESULT = why % 256
    by_cases h : why = 0
    · rw [if_pos h, if_pos h, decide_eq_true h]
      have hmode := ((State.bootResult_frame (s := s) why).trans State.imageNamed_frame).mode idState_not_bootReg
      have hres := (State.result_imageNamed (s := s.bootResult why)).trans (State.bootResult_reads hwhy)
      exact ⟨State.imageUp_withImageUp _, (State.mode_withImageUp _).trans (hmode.trans hm), (State.fld_withImageUp _ _ _).trans hres⟩
    · rw [if_neg h, if_neg h, decide_eq_false h]
      exact ⟨State.imageUp_imageFailed.trans ((State.bootResult_frame why).imageUp.trans hi), State.imageFailed_mode,
        State.result_imageFailed.trans (State.bootResult_reads hwhy)⟩
  · have rest := State.enterMode_rest (s := (s.earlyUnits d0).hostTrain) (m := mEarly)
    refine ⟨_, exec_earlyEntry_due d0 hp hm hi, State.mode_enterMode (by decide), ?_, ?_⟩
    · rw [rest.fld _ (by unfold IsModeReg IsRecordReg; decide), State.dies_hostTrain, State.dies_earlyUnits]
    · rw [rest.fld _ (by unfold IsModeReg IsRecordReg; decide), State.link_hostTrain]
  · refine (State.alive_next _ hp).trans (congrArg Host.Outcome.next (if_neg fun h => ?_))
    rcases hnot with hn | hn
    · exact hn h.1
    · exact Bool.false_ne_true (hn.symm.trans h.2)

/-! ### Warm resets (R433, R435, R439) -/

section Request
variable {s : State} {kind result : Nat}

theorem State.kind_rstResult (h : kind < 8) : (s.rstResult kind result).fld R.RST_STAT F.RST_STAT_KIND = kind := by
  rw [State.rstResult, State.fld_setFld_apart _ _ _ _ _ (by decide) (by decide), State.fld_setFld_same _ _ _ _ (by decide) h]

theorem State.result_rstResult (h : result < 256) : (s.rstResult kind result).fld R.RST_STAT F.RST_STAT_RESULT = result :=
  State.fld_setFld_same _ _ _ _ (by decide) h

theorem SameRegsBut.rstResult : SameRegsBut [R.RST_STAT] s (s.rstResult kind result) :=
  .step (.setFld _ _ _ (List.mem_singleton_self _)) (.setFld _ _ _ (List.mem_singleton_self _))

theorem SameMemory.rstResult : SameMemory s (s.rstResult kind result) := .step (.setFld _ _ _ _) (.setFld _ _ _ _)

theorem State.warmBoot_eq (cause : Nat) : s.warmBoot cause = ((s.warmReset cause).bootRom.enterMode mBoot).withWarmRun true := rfl

/-- A warm reset of a running module (R435). -/
theorem State.warmBoot_spec : (s.warmBoot 1).mode = mBoot ∧ (s.warmBoot 1).imageUp = false ∧ (s.warmBoot 1).warmRun = true ∧
    (∀ k, isHbm k = true → memByte (s.warmBoot 1).mem k = memByte s.mem k) ∧ (s.warmBoot 1).staged = [] ∧ (s.warmBoot 1).cmds = [] ∧
    (s.warmBoot 1).queues = [] ∧ (s.warmBoot 1).fld R.RST_STAT F.RST_STAT_LAST_CAUSE = 1 := by
  have frame : BootFrame (fun a => IsModeReg a ∨ a = R.ID_STATE) ((s.warmReset 1).withImageUp false) (s.warmBoot 1) :=
    (State.warmBoot_eq 1) ▸ .trans (.trans (State.bootRom_frame.mono fun _ => .inl) State.enterMode_rest) (.withWarmRun true)
  obtain ⟨staged, cmds, queues⟩ := s.warmReset_empties 1
  obtain ⟨kstaged, kcmds, kqueues, kmem⟩ := (s.warmReset 1).kept_withImageUp false
  refine ⟨?_, frame.imageUp.trans (State.imageUp_withImageUp _), ?_, fun k hk => ?_, frame.staged.trans (kstaged.trans staged),
    frame.cmds.trans (kcmds.trans cmds), frame.queues.trans (kqueues.trans queues), ?_⟩
  · rw [State.warmBoot_eq, State.mode_withWarmRun, State.mode_enterMode (by decide)]
  · rw [State.warmBoot_eq]
    exact State.warmRun_withWarmRun _
  · rw [frame.mem, kmem]
    exact State.memByte_warmReset 1 hk
  · rw [frame.fld _ (by unfold IsModeReg IsRecordReg; decide), State.fld_withImageUp, State.cause_warmReset (by decide)]

end Request

/-- Settles O17. -/
theorem warmReset : Obligations.WarmReset := by
  refine ⟨fun s hrun hwarm => ⟨_, ?_, State.warmBoot_spec⟩,
    fun s hp hwarm => ⟨_, ?_, State.kind_rstResult (result := 3) (by decide), State.result_rstResult (by decide), .rstResult, .rstResult⟩,
    fun s hp hwarm hmode => ⟨_, ?_, State.kind_rstResult (result := 4) (by decide), State.result_rstResult (by decide), .rstResult,
      .rstResult⟩⟩
  · refine (State.alive_next _ (Bool.and_eq_true_iff.mp hrun).1).trans (congrArg Host.Outcome.next ?_)
    rw [State.rstWarm, hwarm, hrun]
    rfl
  · exact (State.alive_next _ hp).trans (congrArg Host.Outcome.next (if_pos hwarm))
  · refine (State.alive_next _ hp).trans (congrArg Host.Outcome.next ?_)
    have hrun : s.running = false := by simp [State.running, Nat.not_le.mpr hmode]
    rw [State.rstWarm, hwarm, hrun]
    rfl

end Sys2Proof.Machine
end

section
/-!
PROOFS. Resets of a die, an engine and a queue, and their completion.
-/

namespace Sys2Proof.Machine

open Sys2Proof

section Bits
variable {s : State} {a i : Nat} {f : Field}

theorem State.bit_setBit (b : Bool) (hf : f.fits) (hi : i < f.width) : (s.setBit a f i b).bit a f i = b := by
  have small : putBits (s.fld a f) i 1 (b2n b) < 2 ^ f.width := putBits_one_lt _ (s.fld_lt a f) hi
  rw [State.bit, State.setBit, State.fld_setFld_same _ _ _ _ hf small, bitOf_putBits_one, if_pos rfl]

end Bits

/-! ### What a handover for a fault leaves alone -/

/-- The registers that a handover writes. -/
def IsHandoverReg (a : Nat) : Prop := IsModeReg a ∨ a ∈ [R.PEND_STAT, R.PEND_CNT, R.HOSTP_STAT]

section Handover
variable {s : State}

theorem BootFrame.sendPend {p : Nat → Prop} (type : Nat) (nums : List Nat) (bytes : List Byte) :
    BootFrame p s (s.sendPend type nums bytes) := by
  unfold State.sendPend
  split
  · exact .emit _ _
  · exact .refl _

theorem BootFrame.pairChange {f : State → State} (hf : BootFrame IsHandoverReg s (f s)) : BootFrame IsHandoverReg s (s.pairChange f) :=
  .ite hf (hf.trans (((State.hostEvent_frame _ _).trans (State.alert_frame _)).mono fun _ => .inl))

theorem State.faultHandover_frame : BootFrame IsHandoverReg s s.faultHandover := by
  have written {a : Nat} (h : a ∈ [R.PEND_STAT, R.PEND_CNT, R.HOSTP_STAT]) : IsHandoverReg a := .inr h
  have broken (t : State) : BootFrame IsHandoverReg t (t.setPairState psBroken) := .setFld _ _ _ (written (by decide))
  refine .ite (.ite (.trans (.trans (.sendPend _ _ _) (.count _ _ _ (written (by decide)))) (.pairChange ?_)) (.pairChange (broken s))) (.refl s)
  exact .trans (.trans (broken _) (.setFld _ _ _ (written (by decide)))) (.setFld _ _ _ (written (by decide)))

/-- The request of a reset that begins: counted, its handover done, shown. -/
def State.resetBegun (s : State) (f : Field) (kind : Nat) : State := ((s.count R.RST_CNT f 1).faultHandover).rstResult kind 1

theorem State.colls_resetBegun (f : Field) (kind : Nat) : (s.resetBegun f kind).colls = s.colls := by
  rw [State.resetBegun, State.rstResult, State.setFld_colls, State.setFld_colls, State.faultHandover_frame.colls, State.count_colls]

theorem State.homedOn_none (h : s.colls = []) (d : Nat) : s.homedOn d = [] := by
  rw [State.homedOn, h]
  rfl

theorem State.forceColls_none (h : s.colls = []) (d : Nat) : s.forceColls d = s := by
  rw [State.forceColls, State.homedOn_none h]
  rfl

end Handover

/-! ### The reset of a die (R436) -/

section Die
variable {s : State} {d : Nat} {force : Bool}

/-- A reset of a die that nothing holds back starts at once. -/
theorem State.rstDie_starts (hacc : s.rstAccepts = true) (hwarm : s.warmRun = false) (hin : s.dieIn d = true)
    (hnot : s.bit R.RST_STAT F.RST_STAT_DIE_RESET d = false) (hhold : s.resetHolds.contains d = false) (hcolls : s.colls = []) :
    s.rstDie d force = (s.resetBegun F.RST_CNT_DIE 2).startDieReset d := by
  have hc := (s.colls_resetBegun F.RST_CNT_DIE 2).trans hcolls
  unfold State.rstDie
  rw [hwarm, hacc, hin, hnot, hhold, if_neg Bool.false_ne_true, if_neg (by simp), if_neg (by simp)]
  dsimp only
  rw [if_neg Bool.false_ne_true, ← State.resetBegun]
  generalize s.resetBegun F.RST_CNT_DIE 2 = u at hc ⊢
  rw [State.forceColls_none hc, ite_self, State.homedOn_none hc]
  rfl

theorem BootFrame.bumpQueue {p : Nat → Prop} {q : Nat} (h : p (R.QINCARN q)) : BootFrame p s (s.bumpQueue q) := .setFld _ _ _ h

/-- A state without the commands, queues, arbiters and applies of a die (R436, R247). -/
def State.dieEmptied (s : State) (d : Nat) : State :=
  { s with cmds := s.cmds.filter (fun c => c.queue / 48 != d || decide (192 ≤ c.queue)),
           queues := s.queues.filter (fun p => p.1 / 48 != d || decide (192 ≤ p.1)),
           arbs := s.arbs.filter (fun (p : Nat × Arbiter) => p.1 / 65536 / 8 != d + 1 || (p.1 / 65536) % 8 == 0),
           applies := (s.applies.filter (fun (p : Nat × ApplyReq) => p.1 != d + 1)).map (fun (p : Nat × ApplyReq) =>
             (p.1, ({ p.2 with dieMask := putBits p.2.dieMask (9 * d) 9 0 } : ApplyReq))) }

/-- The incarnations of a die's queues move on. -/
def State.dieBumped (s : State) (d : Nat) : State := (List.range 48).foldl (fun s k => s.bumpQueue (48 * d + k)) s

theorem State.startDieReset_eq : ∃ u : State, s.startDieReset d =
    (((u.dieEmptied d).coldBlocks (dieBlocks d)).dieBumped d).setBit R.RST_STAT F.RST_STAT_DIE_RESET d true := ⟨_, rfl⟩

theorem State.cmds_coldBlocks (s : State) (bs : List Block) : (s.coldBlocks bs).cmds = s.cmds := rfl

theorem State.cmds_dieEmptied {c : Cmd} (h : c ∈ (s.dieEmptied d).cmds) : c.queue / 48 ≠ d ∨ 192 ≤ c.queue := by
  simpa using (List.mem_filter.mp h).2

theorem State.dieBumped_frame : BootFrame (fun _ => True) s (s.dieBumped d) := .foldl fun _ _ _ => .bumpQueue trivial

/-- A die that is reset is marked, and no command of its queues is left. -/
theorem State.startDieReset_spec (hd : d < 4) : (s.startDieReset d).bit R.RST_STAT F.RST_STAT_DIE_RESET d = true ∧
    ∀ c ∈ (s.startDieReset d).cmds, c.queue / 48 ≠ d ∨ 192 ≤ c.queue := by
  obtain ⟨u, hu⟩ := State.startDieReset_eq (s := s) (d := d)
  rw [hu]
  refine ⟨State.bit_setBit _ (by decide) hd, fun c hc => ?_⟩
  rw [State.setBit, State.setFld_cmds, State.dieBumped_frame.cmds, State.cmds_coldBlocks] at hc
  exact State.cmds_dieEmptied hc

end Die

/-! ### The reset of an engine (R437) -/

section Engine
variable {s : State}

theorem State.rstEngineReq_starts {kind d cv : Nat} (hk : kind < 5) (hacc : s.rstAccepts = true) (hwarm : s.warmRun = false)
    (hin : s.dieIn d = true) (hpair : s.pairState ≠ psPaired) (hengs : s.engResets = []) (hholds : s.resetHolds = [])
    (hnot : s.bit R.RST_STAT F.RST_STAT_DIE_RESET d = false) (hcolls : s.colls = []) :
    s.rstEngineReq kind d cv false = (s.resetBegun F.RST_CNT_ENGINE 3).startEngineReset kind d cv := by
  have hc := (s.colls_resetBegun F.RST_CNT_ENGINE 3).trans hcolls
  unfold State.rstEngineReq
  dsimp only
  rw [if_neg (Nat.not_le.mpr hk), hwarm, hacc, hin, hengs, hholds, hnot, if_neg Bool.false_ne_true, if_neg (by simp [hpair]),
    if_neg (by simp), List.contains_nil, Bool.and_false, if_neg Bool.false_ne_true, if_neg (show ¬(kind = 1 ∧ false = true) by simp),
    ← State.resetBegun]
  generalize s.resetBegun F.RST_CNT_ENGINE 3 = u at hc ⊢
  rw [State.homedOn_none hc]
  exact if_neg (by simp)

/-- The state with the engines whose reset still runs. -/
def State.withEngResets (s : State) (l : List Nat) : State := { s with engResets := l }

theorem State.engResets_withEngResets (l : List Nat) : (s.withEngResets l).engResets = l := rfl

/-- The engine e is back: the last one marks its reset done. -/
def State.engineBack (s : State) (e : Nat) : State :=
  if (s.withEngResets (s.engResets.filter (· != e))).engResets.isEmpty then (s.withEngResets (s.engResets.filter (· != e))).rstDone 3
  else s.withEngResets (s.engResets.filter (· != e))

theorem State.rstDone_engResets (kind : Nat) : (s.rstDone kind).engResets = s.engResets := by
  unfold State.rstDone
  split
  · exact s.setFld_engResets _ _ _
  · rfl

theorem State.engineBack_gone {e : Nat} : e ∉ (s.engineBack e).engResets := by
  unfold State.engineBack
  split
  all_goals simp [State.rstDone_engResets, State.engResets_withEngResets]

theorem SameRegsBut.withEngResets {l : List Nat} {m : List Nat} : SameRegsBut l s (s.withEngResets m) := .of_eq rfl rfl

theorem SameMemory.withEngResets {m : List Nat} : SameMemory s (s.withEngResets m) := .of_eq rfl rfl

theorem SameRegsBut.rstDone {kind : Nat} : SameRegsBut [R.RST_STAT] s (s.rstDone kind) :=
  .ite (.setFld _ _ _ (List.mem_singleton_self _)) (.refl _ _)

theorem SameMemory.rstDone {kind : Nat} : SameMemory s (s.rstDone kind) := by
  unfold State.rstDone
  split
  · exact .setFld _ _ _ _
  · exact .refl _

theorem SameRegsBut.engineBack {e : Nat} : SameRegsBut [R.RST_STAT] s (s.engineBack e) :=
  .ite (.step .withEngResets .rstDone) .withEngResets

theorem SameMemory.engineBack {e : Nat} : SameMemory s (s.engineBack e) := by
  unfold State.engineBack
  split
  · exact .step .withEngResets .rstDone
  · exact .withEngResets

/-- The completion of an engine's reset takes it off the list; RST_STAT alone may change. -/
theorem engineResetComplete_spec (e : Fin 74) (hm : s.mainUp = true) : ∃ t, exec (.engineResetComplete e) s = .next t ∧
    e.val ∉ t.engResets ∧ SameRegsBut [R.RST_STAT] s t ∧ SameMemory s t := by
  have hexec : exec (.engineResetComplete e) s =
      .next (if s.engResets.contains e.val then s.engineBack e.val else s) := State.whenMain_next _ hm
  by_cases hin : s.engResets.contains e.val
  · rw [if_pos hin] at hexec
    exact ⟨_, hexec, State.engineBack_gone, .engineBack, .engineBack⟩
  · rw [if_neg hin] at hexec
    exact ⟨_, hexec, by simpa using hin, .refl _ _, .refl _⟩

end Engine

/-! ### The completion of a die's reset, and the reset of a queue (R436, R438) -/

section Rest
variable {s : State}

/-- The signals held for a die go out, and those that wait for its store go on (R236). -/
def State.dieBack (s : State) (d : Nat) : State :=
  let t := (s.setBit R.RST_STAT F.RST_STAT_DIE_RESET d false).rstDone 2
  let sig := t.heldSignals.filter (fun p => p.1 == d)
  (sig.foldl (fun (s : State) p => s.semAdd p.1 p.2 1) { t with heldSignals := t.heldSignals.filter (fun p => p.1 != d) }).lockOpsGo.resumeQueues

theorem exec_dieResetComplete (d : Fin 4) (hm : s.mainUp = true) : exec (.dieResetComplete d) s =
    .next (if s.bit R.RST_STAT F.RST_STAT_DIE_RESET d.val then s.dieBack d.val else s) := State.whenMain_next _ hm

theorem State.withHeldSignals_none (h : s.heldSignals = []) : { s with heldSignals := [] } = s := by rw [← h]

theorem State.heldSignals_rstDone (kind : Nat) : (s.rstDone kind).heldSignals = s.heldSignals := by
  unfold State.rstDone
  split
  · exact s.setFld_heldSignals _ _ _
  · rfl

theorem State.dieBack_none {d : Nat} (h : s.heldSignals = []) :
    s.dieBack d = ((s.setBit R.RST_STAT F.RST_STAT_DIE_RESET d false).rstDone 2).lockOpsGo.resumeQueues := by
  have held : ((s.setBit R.RST_STAT F.RST_STAT_DIE_RESET d false).rstDone 2).heldSignals = [] := by
    rw [State.heldSignals_rstDone, State.setBit, State.setFld_heldSignals, h]
  unfold State.dieBack
  generalize (s.setBit R.RST_STAT F.RST_STAT_DIE_RESET d false).rstDone 2 = t at held ⊢
  dsimp only
  rw [held, List.filter_nil, List.filter_nil, List.foldl_nil, State.withHeldSignals_none held]

/-- The reset of a queue that begins. -/
def State.queueBegun (s : State) (q : Nat) : State := ((s.count R.RST_CNT F.RST_CNT_QUEUE 1).resetQueue q none).faultHandover

theorem State.rstQueue_starts {q : Nat} (hacc : s.rstAccepts = true) (hwarm : s.warmRun = false) (hin : s.queueIn q = true)
    (hnot : (s.qint q).resetting = false) (hdie : q < 192 → s.bit R.RST_STAT F.RST_STAT_DIE_RESET (q / 48) = false) :
    ∃ r, s.rstQueue q = (s.queueBegun q).rstResult 4 r := by
  refine ⟨if (((s.count R.RST_CNT F.RST_CNT_QUEUE 1).resetQueue q none).qint q).resetting then 1 else 2, ?_⟩
  unfold State.rstQueue
  rw [hwarm, hacc, hin, hnot, if_neg Bool.false_ne_true, if_neg (by simp), if_neg (by simpa using hdie)]
  rfl

theorem SameMemory.queueBegun {q : Nat} : SameMemory s (s.queueBegun q) :=
  (MemSame.refl.count.resetQueue.faultHandover).sameMemory

end Rest

theorem State.powered_of_rstAccepts {s : State} (h : s.rstAccepts = true) : s.powered = true := (Bool.and_eq_true_iff.mp h).1

/-- Settles O18. -/
theorem smallerResets : Obligations.SmallerResets := by
  refine ⟨fun d force s hacc hwarm hin hnot hhold hcolls => ?_, fun d s hm hnot => ?_, fun d s hm hres hheld => ?_,
    fun kind d cv s hacc hwarm hin hpair hengs hholds hnot hcolls => ?_, fun e s hm => engineResetComplete_spec e hm,
    fun q s hacc hwarm hin hnot hdie => ?_⟩
  · refine ⟨_, (State.alive_next _ (State.powered_of_rstAccepts hacc)).trans (congrArg Host.Outcome.next
      (State.rstDie_starts hacc hwarm hin hnot hhold hcolls)), State.startDieReset_spec d.isLt⟩
  · rw [exec_dieResetComplete d hm, if_neg (by simp [hnot])]
  · rw [exec_dieResetComplete d hm, if_pos hres, State.dieBack_none hheld]
  · exact (State.alive_next _ (State.powered_of_rstAccepts hacc)).trans (congrArg Host.Outcome.next
      (State.rstEngineReq_starts kind.isLt hacc hwarm hin hpair hengs hholds hnot hcolls))
  · obtain ⟨r, hr⟩ := State.rstQueue_starts hacc hwarm hin hnot hdie
    exact ⟨_, (State.alive_next _ (State.powered_of_rstAccepts hacc)).trans (congrArg Host.Outcome.next hr),
      State.kind_rstResult (by decide), .step .queueBegun .rstResult⟩

end Sys2Proof.Machine
end

section
/-!
PROOFS. The commands of the canvases: PRIME, STREAM, DRAIN and PACK.
-/

namespace Sys2Proof.Machine

open Sys2Proof

/-! ### What keeps a command found -/

/-- The queue q has its command n. -/
def State.HasCmd (s : State) (q n : Nat) : Prop := s.findCmd q n ≠ none

section Found
variable {s t : State} {q n : Nat} {c : Cmd}

theorem State.HasCmd.of_cmds (h : s.HasCmd q n) (e : t.cmds = s.cmds) : t.HasCmd q n := by
  unfold State.HasCmd State.findCmd
  rw [e]
  exact h

theorem State.HasCmd.updCmd {r m : Nat} {f : Cmd → Cmd} (h : s.HasCmd q n) (hf : ∀ x, (f x).is q n = x.is q n) :
    (s.updCmd r m f).HasCmd q n := by
  have kept (x : Cmd) : (if x.is r m then f x else x).is q n = x.is q n := by
    split
    · exact hf x
    · rfl
  unfold State.HasCmd State.findCmd State.updCmd at *
  rw [List.find?_map, ne_eq, Option.map_eq_none_iff]
  simpa only [Function.comp_def, kept] using h

theorem State.HasCmd.capture (h : s.HasCmd q n) (a : Nat) (b : List Byte) : (s.capture c a b).HasCmd q n := h.updCmd fun _ => rfl

/-- A command that is there finishes. -/
theorem State.HasCmd.finished {status res0 res1 due : Nat} (h : s.HasCmd c.queue c.seq) :
    CmdFinished (s.finish c status res0 res1 due) c.queue c.seq status res0 res1 due := State.finish_finished h

end Found

/-! ### Reading memory leaves the commands alone -/

section Read
variable {s : State}

theorem RecordFrame.cmds {t : State} (h : RecordFrame s t) : t.cmds = s.cmds := by rw [h.rest]

/-- The state with the sectors whose corrections were recorded. -/
def State.withCeSeen (s : State) (l : List Nat) : State := { s with ceSeen := l }

theorem State.cmds_withCeSeen (l : List Nat) : (s.withCeSeen l).cmds = s.cmds := rfl

theorem State.cmds_corrected (u : Nat) : (s.corrected u).cmds = s.cmds := by
  unfold State.corrected
  split
  · dsimp only
    split
    · exact s.count_cmds _ _ _
    · exact (State.errRecord_recordFrame _ _).cmds.trans ((State.cmds_withCeSeen _).trans (s.count_cmds _ _ _))
  · exact s.count_cmds _ _ _

theorem State.cmds_uncorrectable (w : Who) (u : Nat) : (s.uncorrectable w u).cmds = s.cmds := by
  unfold State.uncorrectable
  split
  · exact (State.errRecord_recordFrame _ _).cmds.trans ((State.setFld_cmds _ _ _ _).trans (s.count_cmds _ _ _))
  · exact (State.errRecord_recordFrame _ _).cmds

theorem State.cmds_writeBackHeld (hit : Nat → Bool) : (s.writeBackHeld hit).cmds = s.cmds := by
  unfold State.writeBackHeld
  split <;> rfl

theorem State.cmds_repair (u : Nat) : (s.repair u).cmds = s.cmds := rfl

/-- The state with the number of free values drawn. -/
def State.withDraws (s : State) (n : Nat) : State := { s with draws := n }

theorem State.cmds_withDraws (n : Nat) : (s.withDraws n).cmds = s.cmds := rfl

theorem State.cmds_readUnit (w : Who) (u : Nat) : (s.readUnit w u).1.cmds = s.cmds := by
  unfold State.readUnit State.decodeUnit
  dsimp only
  generalize (if isHbm u = true then ((2, 4) : Nat × Nat) else (1, 2)) = limits
  split
  · exact (State.cmds_corrected _).trans (State.cmds_repair _)
  · split
    · exact State.cmds_uncorrectable _ _
    · split
      · exact (State.cmds_uncorrectable _ _).trans (s.cmds_withDraws _)
      · split
        · rfl
        · exact (State.cmds_corrected _).trans ((State.cmds_repair _).trans ((State.poke_cmds _ _).trans (s.cmds_withDraws _)))

theorem State.cmds_readKeys (w : Who) (keys : List Nat) : (s.readKeys w keys).1.cmds = s.cmds := by
  unfold State.readKeys
  refine List.foldlRecOn (motive := fun p : State × Bool => p.1.cmds = s.cmds) _ _ (State.cmds_writeBackHeld _) fun p hp u _ => ?_
  dsimp only
  split
  · exact (State.cmds_readUnit _ _).trans hp
  · exact hp

/-- A command that reads a descriptor stays where it is. -/
theorem State.HasCmd.readDesc {q n a al k : Nat} {c : Cmd} (h : s.HasCmd q n) : (s.readDesc c a al k).2.HasCmd q n := by
  unfold State.readDesc
  split
  · exact h
  · split
    · have kept : (s.readMem c.who (gaLocal a) k).2.1.HasCmd q n := h.of_cmds (State.cmds_readKeys _ _)
      dsimp only
      split
      · exact kept
      · exact kept.capture _ _
    · exact h

theorem State.HasCmd.readTd {q n a : Nat} {c : Cmd} (h : s.HasCmd q n) : (s.readTd c a).2.HasCmd q n := h.readDesc

end Read

/-! ### How a command of a canvas starts -/

section Start
variable {s : State} {q n code : Nat} {c : Cmd} {body : State → Cmd → State}

theorem State.canvasStart_waits (h : s.findCmd q n = some c) (hr : s.canvasReady c = false) : s.canvasStart q n code body = s := by
  unfold State.canvasStart
  rw [h]
  exact if_neg (by simp [hr])

theorem State.canvasStart_go (h : s.findCmd q n = some c) (hr : s.canvasReady c = true) (hc : s.engineClosing c = false)
    (hgo : s.startOf q n code = .go c) : s.canvasStart q n code body = body (s.canvasBegun q n c) c := by
  unfold State.canvasStart
  rw [h]
  exact (if_pos hr).trans (State.starting_go hgo hc)

theorem State.hasCmd_canvasBegun (h : s.findCmd q n = some c) : (s.canvasBegun q n c).HasCmd c.queue c.seq := by
  obtain ⟨rfl, rfl⟩ := State.findCmd_is h
  have started : (s.updCmd c.queue c.seq (fun x => { x with phase := .started })).HasCmd c.queue c.seq :=
    State.HasCmd.updCmd (s := s) (by rw [State.HasCmd, h]; exact Option.some_ne_none c) fun _ => rfl
  exact started.of_cmds rfl

theorem State.now_canvasBegun : (s.canvasBegun q n c).now = s.now := rfl

end Start

section Work
variable {u v : State} {c : Cmd}

theorem State.primeBody_empty (h : c.at 32 2 = 0) (hok : u.primeOk c = true) : u.primeBody c = u.fail c stDone := by
  unfold State.primeBody
  dsimp only
  rw [if_pos (.inl h), if_pos hok]

theorem State.streamBody_empty (h : c.at 32 4 = 0) (hok : u.streamOk c = true) : u.streamBody c = u.fail c stDone := by
  unfold State.streamBody
  dsimp only
  rw [if_pos h, if_pos hok]

theorem State.drainBody_empty (h : c.at 32 4 = 0) (hf : drainFieldsOk c.desc = true) (hp : c.at 9 1 < packProblems (u.packing c.die c.canvas))
    (hc : c.at 8 1 < 16) (hcols : leField c.desc 36 2 ≤ packSize (u.packing c.die c.canvas) (u.wide c.die c.canvas)) :
    u.drainBody c = u.fail c stDone := by
  have hcols' : (DrainDesc.of c.desc).cols ≤ packSize (u.packing c.die c.canvas) (u.wide c.die c.canvas) := hcols
  unfold State.drainBody
  dsimp only
  rw [if_pos (.inl h), hf, decide_eq_true hp, decide_eq_true hc, decide_eq_true hcols']
  rfl

/-- Nothing of a local tensor is gathered. -/
theorem State.gather_local {r : Nat × Nat} (h : v.isRemote r.1 = false) : v.gather c [r] = (v, false) := by
  unfold State.gather
  exact if_pos (.inl (by simp [h]))

/-- A STREAM of local weights that passes its checks, without RING (R105 to R114). -/
theorem State.streamBody_plain {t : TD} (hrows : c.at 32 4 ≠ 0) (htd : u.readTd c (c.at 16 8) = (.ok t, v)) (hok : v.streamOk c = true)
    (hring : bitOf c.flags 3 = false) (hrole : roleOk (c.at 12 1) (t.ext1 (firstDim (bitOf c.flags 2))) = true)
    (hfull : v.streamsFull c = false)
    (hten : v.canvasTensor t (if u.wide c.die c.canvas then [fLog4, fLog8, fLog16] else [fLog4, fLog8]) = none)
    (hlocal : v.isRemote t.range.1 = false) : u.streamBody c = v.streamPlain c t := by
  have hgather : (if t.count = 0 then (v, false) else v.gather c [t.range]) = (v, false) := by
    rw [State.gather_local hlocal, ite_self]
  unfold State.streamBody
  dsimp only
  rw [if_neg hrows, htd]
  dsimp only
  rw [hok, hrole, hfull, hten]
  dsimp only
  rw [hgather, hring]
  rfl

theorem State.cmds_updProb (d k p : Nat) (f : ProbInt → ProbInt) : (v.updProb d k p f).cmds = v.cmds := rfl

theorem State.cmds_swapBanks (d k p : Nat) : (v.swapBanks d k p).cmds = v.cmds := by
  refine List.foldlRecOn (motive := fun t : State => t.cmds = v.cmds) _ _ rfl fun t ht j _ => ?_
  dsimp only
  split
  · exact ht
  · exact ht

theorem State.cmds_streamBegin (reads : Nat) : (v.streamBegin c reads).cmds = v.cmds := by
  unfold State.streamBegin
  dsimp only
  split
  · rw [State.cmds_updProb]
    split
    · exact State.cmds_updProb _ _ _ _
    · exact (State.cmds_swapBanks _ _ _).trans (State.cmds_updProb _ _ _ _)
  · exact State.cmds_updProb _ _ _ _

theorem State.cmds_streamRow (t : TD) (cells : List (List Num)) (j e : Nat) (clear : Bool) :
    (v.streamRow c t cells j e clear).cmds = v.cmds := rfl

theorem State.cmds_countRows (n : Nat) : (v.countRows c n).cmds = v.cmds := State.setFld_cmds _ _ _ _

/-- A STREAM without RING ends with its rows. -/
theorem State.streamPlain_finishes (t : TD) (h : v.HasCmd c.queue c.seq) :
    ∃ st frz due, CmdFinished (v.streamPlain c t) c.queue c.seq st (c.at 32 4) frz due := by
  unfold State.streamPlain
  extract_lets d cv m wide sz rows e0 clear frz w
  generalize hr : w.readKeys c.who (dedupNat (w.ownKeys (streamBytesOf c t sz 0 rows))) = r
  obtain ⟨x, bad⟩ := r
  have hx : x.cmds = v.cmds := by
    rw [show x = (w.readKeys c.who (dedupNat (w.ownKeys (streamBytesOf c t sz 0 rows)))).1 from (congrArg Prod.fst hr).symm,
      State.cmds_readKeys]
    exact State.cmds_streamBegin _
  have hrows (f : State → Nat → State) (hf : ∀ t j, (f t j).cmds = t.cmds) : ((List.range rows).foldl f x).cmds = v.cmds :=
    List.foldlRecOn (motive := fun t : State => t.cmds = v.cmds) _ _ hx fun b hb j _ => (hf b j).trans hb
  dsimp only
  refine ⟨_, _, _, State.HasCmd.finished (h.of_cmds ?_)⟩
  rw [State.count_cmds, State.cmds_countRows]
  split
  · exact (State.cmds_updProb _ _ _ _).trans (hrows _ fun _ _ => State.cmds_streamRow ..)
  · exact hrows _ fun _ _ => State.cmds_streamRow ..

end Work

/-! ### PACK (R122, R123) -/

section Pack
variable {s u : State} {c : Cmd} {d k m : Nat}

theorem State.fld_clearCanvas (a : Nat) (f : Field) : (s.clearCanvas d k).fld a f = s.fld a f := rfl

theorem State.kept_clearCanvas : (s.clearCanvas d k).now = s.now ∧ (s.clearCanvas d k).cmds = s.cmds := ⟨rfl, rfl⟩

theorem SameRegsBut.clearCanvas {l : List Nat} : SameRegsBut l s (s.clearCanvas d k) := .of_eq rfl rfl

theorem SameMemory.clearCanvas : SameMemory s (s.clearCanvas d k) := .of_eq rfl rfl

theorem packing_fits (hk : k < 16) : (F.CANV_MODE_PACKING k).fits := by
  unfold Field.fits F.CANV_MODE_PACKING
  dsimp only
  omega

theorem width_fits (hk : k < 16) : (F.CANV_MODE_WIDTH k).fits := by
  unfold Field.fits F.CANV_MODE_WIDTH
  dsimp only
  omega

theorem State.packing_packCanvas (hk : k < 16) : (s.packCanvas d k m).packing d k = m % 4 := by
  rw [State.packing, State.packCanvas, State.fld_clearCanvas, State.fld_setFld_apart _ _ _ _ _ (packing_fits hk)
    (.inl (by unfold F.CANV_MODE_PACKING F.CANV_MODE_WIDTH; dsimp only; omega)),
    State.fld_setFld_mod _ _ _ _ (packing_fits hk)]
  exact Nat.mod_mod _ 4

theorem State.wide_packCanvas (hk : k < 16) (hm : m < 8) : (s.packCanvas d k m).wide d k = decide (4 ≤ m) := by
  have small : m / 4 < 2 ^ (F.CANV_MODE_WIDTH k).width := Nat.div_lt_of_lt_mul hm
  rw [State.wide, State.packCanvas, State.fld_clearCanvas, State.fld_setFld_same _ _ _ _ (width_fits hk) small]
  exact (by decide : ∀ m < 8, (m / 4 == 1) = decide (4 ≤ m)) m hm

theorem SameRegsBut.packCanvas : SameRegsBut [R.CANV_MODE d] s (s.packCanvas d k m) :=
  .step (.step (.setFld _ _ _ (List.mem_singleton_self _)) (.setFld _ _ _ (List.mem_singleton_self _))) .clearCanvas

theorem SameMemory.packCanvas : SameMemory s (s.packCanvas d k m) := .step (.step (.setFld _ _ _ _) (.setFld _ _ _ _)) .clearCanvas

theorem sparseGet_filter_out {α : Type} (l : Sparse α) (p : Nat × α → Bool) {a : Nat} (x : α) (h : ∀ v, p (a, v) = false) :
    sparseGet (l.filter p) a x = x := by
  refine sparseGet_of_absent _ _ _ fun y hy e => ?_
  have hy := (List.mem_filter.mp hy).2
  rw [show y = (a, y.2) from Prod.ext e rfl, h] at hy
  exact Bool.false_ne_true hy

/-- A canvas that is cleared has no accumulation left. -/
theorem State.accRow_clearCanvas {p e sz : Nat} (hp : p < 16) (he : e < 4096) :
    (s.clearCanvas d k).accRow d k p e sz = List.replicate sz AccEntry.empty := by
  have key : entryKey d k p e / (16 * 4096) = d * 16 + k := by
    unfold entryKey
    omega
  have none_left : sparseGet (s.clearCanvas d k).accs (entryKey d k p e) [] = [] :=
    sparseGet_filter_out _ _ _ fun v => by simp [key]
  rw [State.accRow, none_left]

/-- The registers and the accumulations that a change of the commands leaves. -/
theorem State.packing_finish (st r0 r1 due : Nat) : (s.finish c st r0 r1 due).packing d k = s.packing d k ∧
    (s.finish c st r0 r1 due).wide d k = s.wide d k ∧
    (∀ p e sz, (s.finish c st r0 r1 due).accRow d k p e sz = s.accRow d k p e sz) :=
  ⟨rfl, rfl, fun _ _ _ => rfl⟩

theorem State.packBody_go (hres : c.at 10 54 = 0) (hcv : c.at 8 1 < 16) (hm : c.at 9 1 < 6) (h3 : c.at 9 1 ≠ 3)
    (hoff : 4 ≤ c.at 9 1 → u.offered fLog16 = true) (hkept : (u.packCanvas c.die c.canvas (c.at 9 1)).sharedCanvas c.die c.canvas = false) :
    u.packBody c = (u.packCanvas c.die c.canvas (c.at 9 1)).finish c stDone 0 0
      ((u.packCanvas c.die c.canvas (c.at 9 1)).now + (u.packCanvas c.die c.canvas (c.at 9 1)).acDur c.die 4096) := by
  unfold State.packBody
  dsimp only
  rw [if_neg (by omega), if_neg, hkept]
  · rfl
  · rintro ⟨hwide, hnot⟩
    rw [hoff (by omega)] at hnot
    exact Bool.noConfusion hnot

/-- The clocks depend on the operating points alone. -/
theorem State.acDur_of_sameRegs {l : List Nat} {t : State} (h : SameRegsBut l s t) (hp : ∀ d, R.DPWR_STAT d ∉ l) (hu : R.ID_UNITS ∉ l)
    (d n : Nat) : t.acDur d n = s.acDur d n := by
  have point (d : Nat) : t.point d = s.point d := h.fld _ (hp d)
  have units (i : Nat) : t.bit R.ID_UNITS F.ID_UNITS_DIE_IN_SERVICE i = s.bit R.ID_UNITS F.ID_UNITS_DIE_IN_SERVICE i := by
    rw [State.bit, h.fld _ hu, State.bit]
  simp only [State.acDur, State.hubPoint, point, units]

theorem State.acDur_packCanvas (die n : Nat) : (s.packCanvas d k m).acDur die n = s.acDur die n := by
  refine State.acDur_of_sameRegs .packCanvas (fun die h => ?_) (fun h => ?_) die n
  · have := List.mem_singleton.mp h
    rw [R.DPWR_STAT, R.CANV_MODE, dieBlk, dieBlk] at this
    omega
  · have := List.mem_singleton.mp h
    rw [R.ID_UNITS, R.CANV_MODE, dieBlk] at this
    omega

theorem State.shared_packCanvas : (s.packCanvas d k m).sharedCanvas d k = s.sharedCanvas d k := by
  have apart : R.CANV_STAT d ∉ [R.CANV_MODE d] := fun h => by
    have := List.mem_singleton.mp h
    rw [R.CANV_STAT, R.CANV_MODE] at this
    omega
  rw [State.sharedCanvas, State.bit, SameRegsBut.packCanvas.fld _ apart, State.sharedCanvas, State.bit]

theorem State.kept_packCanvas : (s.packCanvas d k m).now = s.now ∧ (s.packCanvas d k m).cmds = s.cmds := by
  obtain ⟨know, kcmds⟩ := State.kept_clearCanvas (s := (s.setFld (R.CANV_MODE d) (F.CANV_MODE_PACKING k) (m % 4)).setFld (R.CANV_MODE d)
    (F.CANV_MODE_WIDTH k) (m / 4)) (d := d) (k := k)
  rw [State.packCanvas, know, kcmds, State.setFld_now, State.setFld_now, State.setFld_cmds, State.setFld_cmds]
  exact ⟨rfl, rfl⟩

end Pack

/-- What the start of a canvas command leaves alone. -/
theorem State.canvasBegun_kept {s : State} {q n : Nat} {c : Cmd} : SameRegsBut [] s (s.canvasBegun q n c) ∧
    SameMemory s (s.canvasBegun q n c) := ⟨.of_eq rfl rfl, .of_eq rfl rfl⟩

/-- A PACK that passes its checks (R122, R123). -/
theorem State.packBody_spec {s u : State} {c : Cmd} (hu : SameRegsBut [] s u) (hmem : SameMemory s u) (hnow : u.now = s.now)
    (hcmd : u.HasCmd c.queue c.seq) (hres : c.at 10 54 = 0) (hcv : c.at 8 1 < 16) (hm : c.at 9 1 < 6) (h3 : c.at 9 1 ≠ 3)
    (hoff : 4 ≤ c.at 9 1 → s.offered fLog16 = true) (hshared : s.sharedCanvas c.die c.canvas = false) :
    (u.packBody c).packing c.die c.canvas = c.at 9 1 % 4 ∧ (u.packBody c).wide c.die c.canvas = decide (4 ≤ c.at 9 1) ∧
    (∀ p e sz, p < 16 → e < 4096 → (u.packBody c).accRow c.die c.canvas p e sz = List.replicate sz AccEntry.empty) ∧
    CmdFinished (u.packBody c) c.queue c.seq stDone 0 0 (s.now + s.acDur c.die 4096) ∧
    SameRegsBut [R.CANV_MODE c.die] s (u.packBody c) ∧ SameMemory s (u.packBody c) := by
  have hcanvas : c.canvas < 16 := Nat.mod_lt _ (by decide)
  have hoffered : u.offered fLog16 = s.offered fLog16 := by
    rw [State.offered, State.mode, hu.fld _ List.not_mem_nil, State.offered, State.mode]
  have hkept : (u.packCanvas c.die c.canvas (c.at 9 1)).sharedCanvas c.die c.canvas = false := by
    rw [State.shared_packCanvas, State.sharedCanvas, State.bit, hu.fld _ List.not_mem_nil]
    exact hshared
  obtain ⟨know, kcmds⟩ := State.kept_packCanvas (s := u) (d := c.die) (k := c.canvas) (m := c.at 9 1)
  rw [State.packBody_go hres hcv hm h3 (fun h => hoffered.trans (hoff h)) hkept, State.acDur_packCanvas,
    State.acDur_of_sameRegs hu (fun _ => List.not_mem_nil) List.not_mem_nil, know, hnow]
  have hfin : (u.packCanvas c.die c.canvas (c.at 9 1)).HasCmd c.queue c.seq := hcmd.of_cmds kcmds
  have frame : SameRegsBut [R.CANV_MODE c.die] s (u.packCanvas c.die c.canvas (c.at 9 1)) := .step (hu.mono (List.nil_subset _)) .packCanvas
  have fmem : SameMemory s (u.packCanvas c.die c.canvas (c.at 9 1)) := .step hmem .packCanvas
  have hpack := State.packing_packCanvas (s := u) (d := c.die) (m := c.at 9 1) hcanvas
  have hwide := State.wide_packCanvas (s := u) (d := c.die) (m := c.at 9 1) hcanvas (by omega)
  have hacc : ∀ p e sz, p < 16 → e < 4096 →
      (u.packCanvas c.die c.canvas (c.at 9 1)).accRow c.die c.canvas p e sz = List.replicate sz AccEntry.empty :=
    fun p e sz hp he => State.accRow_clearCanvas hp he
  generalize u.packCanvas c.die c.canvas (c.at 9 1) = p at hfin frame fmem hpack hwide hacc ⊢
  obtain ⟨kpacking, kwide, kacc⟩ := State.packing_finish (s := p) (c := c) (d := c.die) (k := c.canvas) stDone 0 0
    (s.now + s.acDur c.die 4096)
  exact ⟨kpacking.trans hpack, kwide.trans hwide, fun p e sz hp he => (kacc p e sz).trans (hacc p e sz hp he), hfin.finished,
    .step frame .finish, .step fmem .finish⟩

/-- Settles O41. -/
theorem canvasCommands : Obligations.CanvasCommands := by
  intro q n c s hserve hfind
  have hcmd := State.hasCmd_canvasBegun hfind
  obtain ⟨hq, hn⟩ := State.findCmd_is hfind
  refine ⟨fun hwait => ?_, fun hready hopen => ?_⟩
  · exact ⟨(State.whenServing_next _ hserve).trans (congrArg Host.Outcome.next (State.canvasStart_waits hfind hwait)),
      (State.whenServing_next _ hserve).trans (congrArg Host.Outcome.next (State.canvasStart_waits hfind hwait)),
      (State.whenServing_next _ hserve).trans (congrArg Host.Outcome.next (State.canvasStart_waits hfind hwait)),
      (State.whenServing_next _ hserve).trans (congrArg Host.Outcome.next (State.canvasStart_waits hfind hwait))⟩
  · intro u d
    have go {code : Nat} {body : State → Cmd → State} (hgo : s.startOf q.val n code = .go c) :
        s.whenServing (s.canvasStart q.val n code body) = .next (body u c) :=
      (State.whenServing_next _ hserve).trans (congrArg Host.Outcome.next (State.canvasStart_go hfind hready hopen hgo))
    have ended : CmdFinished (u.fail c stDone) q.val n stDone 0 0 s.now := by
      have h := State.HasCmd.finished (status := stDone) (res0 := 0) (res1 := 0) (due := s.now) hcmd
      rw [hq, hn] at h
      exact h
    refine ⟨fun hgo => ⟨go hgo, fun h hok => ?_⟩, fun hgo => ⟨go hgo, fun h hok => ?_, fun t v hrows htd hok hring hrole hfull hten
      hlocal => ?_⟩, fun hgo => ⟨go hgo, fun h hf hp hc hcols => ?_⟩, fun hgo hres hcv hm h3 hoff hshared => ⟨_, go hgo, ?_⟩⟩
    · rw [State.primeBody_empty h hok]
      exact ended
    · rw [State.streamBody_empty h hok]
      exact ended
    · rw [State.streamBody_plain hrows htd hok hring hrole hfull hten hlocal]
      have hv : (u.readTd c (c.at 16 8)).2.HasCmd c.queue c.seq := State.HasCmd.readTd hcmd
      rw [htd] at hv
      have spec := State.streamPlain_finishes t hv
      rw [hq, hn] at spec
      exact ⟨rfl, spec⟩
    · rw [State.drainBody_empty h hf hp hc hcols]
      exact ended
    · have spec := State.packBody_spec (s := s) (u := u) State.canvasBegun_kept.1 State.canvasBegun_kept.2 rfl hcmd hres hcv hm h3 hoff hshared
      rw [hq, hn] at spec
      exact spec

end Sys2Proof.Machine
end

section
/-!
PROOFS. Gates of the canvases: a gate that follows the pair's other module while the module is no mirror closes without LATE.
-/

namespace Sys2Proof.Machine

open Sys2Proof

/-! ### The status with which the commands of a queue's number end -/

/-- Every command n of queue q has ended with one of these statuses. -/
def State.EndedIn (s : State) (q n : Nat) (l : List Nat) : Prop := ∀ x ∈ s.cmds, x.is q n = true → x.status ∈ l

section Ended
variable {s : State} {c : Cmd} {l : List Nat}

theorem State.endedIn_finish {status res0 res1 due : Nat} (h : status ∈ l) :
    (s.finish c status res0 res1 due).EndedIn c.queue c.seq l := by
  intro x hx hxis
  obtain ⟨y, -, rfl⟩ := List.mem_map.mp hx
  split
  · exact h
  next hy =>
    rw [if_neg hy] at hxis
    exact absurd hxis hy

theorem State.EndedIn.updCmd {q n r m : Nat} {f : Cmd → Cmd} (h : s.EndedIn q n l) (hf : ∀ x, (f x).status = x.status)
    (his : ∀ x, (f x).is q n = x.is q n) : (s.updCmd r m f).EndedIn q n l := by
  intro x hx hxis
  obtain ⟨y, hy, rfl⟩ := List.mem_map.mp hx
  by_cases hr : y.is r m = true
  · rw [if_pos hr] at hxis ⊢
    rw [hf]
    exact h y hy (his y ▸ hxis)
  · rw [if_neg hr] at hxis ⊢
    exact h y hy hxis

theorem State.EndedIn.found {q n : Nat} {x : Cmd} (h : s.EndedIn q n l) (hx : s.findCmd q n = some x) : x.status ∈ l :=
  h x (List.mem_of_find?_eq_some hx) (List.find?_some (p := fun y : Cmd => y.is q n) hx)

/-- A command that ends with writes has its own status, or names data that were refused. -/
theorem State.endedIn_finishWrites {ws : List BitWrite} {status res0 res1 due : Nat} (hs : status ∈ l) (hd : stData ∈ l) :
    (s.finishWrites c ws status res0 res1 due).EndedIn c.queue c.seq l := by
  unfold State.finishWrites
  dsimp only
  refine State.EndedIn.updCmd (State.endedIn_finish ?_) (fun _ => rfl) fun _ => rfl
  split
  · exact hd
  · exact hs

/-- A PRIME of a gate that closes late ends LATE, or names uncorrectable data. -/
theorem State.endedIn_primeWrite_late {t : TD} {mask : Nat} {body : List Byte} (hbody : body ≠ []) :
    (s.primeWrite c t mask true body).EndedIn c.queue c.seq [stData, stLate] := by
  unfold State.primeWrite
  dsimp only
  rw [if_neg hbody]
  refine State.endedIn_finishWrites ?_ (by decide)
  split <;> decide

end Ended

theorem State.manifest_ne_nil (s : State) (x : Gate) (m : Nat) : s.manifest x m ≠ [] := by
  have head : leBytes m 32 ≠ [] := List.ne_nil_of_length_pos (by rw [leBytes, List.length_map, List.length_range]; decide)
  unfold State.manifest
  simp only [ne_eq, List.append_eq_nil_iff, head, false_and, not_false_eq_true]

/-! ### The counterexample -/

/-- A PRIME of queue 0 that waits at a gate; the tensor's descriptor is read already. -/
def waitingPrime : Cmd :=
  { queue := 0, seq := 1, desc := List.replicate 64 0, epoch := 0, pc := 0, slot := 0, unit := 0, phase := .started, status := 0,
    res0 := 0, res1 := 0, due := 0, capt := [(0, List.replicate 128 0)], orphan := false, palDie := 0, tally := [], rx := [],
    open_ := 0, rerr := 0 }

/-- A module in FULL, no mirror, whose gate 0 of die 0 follows; the mask of its open batch is there, and the PRIME that waits at it
waits late. -/
def followingGate : State :=
  { ((((State.reset.setFld R.ID_STATE F.ID_STATE_STATE mFull).setFld R.ID_UNITS F.ID_UNITS_DIE_IN_SERVICE 15).setFld R.PWR_DOM_STAT
      F.PWR_DOM_STAT_ON (2 ^ 56 - 1)).setFld (R.CANV_GATE_CFG 0) (F.CANV_GATE_CFG_FOLLOW 0) 1) with
    cmds := [waitingPrime], gates := [(0, ⟨[], 0, [(0, 0)], [⟨0, 1, true, false⟩]⟩)] }

/-- The model ends that PRIME with DONE: a gate that follows counts nothing late of its own. -/
theorem followingGate_ends : ∃ t, exec (.gateClose 0 0) followingGate = .next t ∧ ¬ t.EndedIn 0 1 [stData, stLate] := by
  refine ⟨followingGate.tryClose 0 0, rfl, fun h => ?_⟩
  have found : ((followingGate.tryClose 0 0).findCmd 0 1).map Cmd.status = some stDone := by decide +kernel
  obtain ⟨x, hx, hstatus⟩ := Option.map_eq_some_iff.mp found
  have := h.found hx
  rw [hstatus] at this
  exact absurd this (by decide)

/-- Refutes O42: a gate that follows gives its PRIME the status DONE also where it waited late, so the clause on GATE_CLOSE fails. -/
theorem not_canvasEvents : ¬ Obligations.CanvasEvents := by
  rintro ⟨-, hclose, -⟩
  obtain ⟨-, hwait⟩ := hclose 0 0 followingGate (by decide +kernel) (by decide +kernel)
  obtain ⟨-, hcloses⟩ := hwait ⟨0, 1, true, false⟩ [] waitingPrime 0 (TD.parse (List.replicate 128 0)) (by decide +kernel) (by decide +kernel)
  obtain ⟨u, hu, -⟩ := hcloses (by decide +kernel) (by decide +kernel) (by decide +kernel)
  obtain ⟨t, ht, hnot⟩ := followingGate_ends
  rw [ht] at hu
  rw [Host.Outcome.next.inj hu] at hnot
  exact hnot (State.endedIn_primeWrite_late (State.manifest_ne_nil _ _ _))

end Sys2Proof.Machine
end

section
/-!
PROOFS. The move commands.
-/

namespace Sys2Proof.Machine

open Sys2Proof

section Start
variable {s : State} {q n code : Nat} {c : Cmd}

/-- A command that starts is there, and its code is the row's. -/
theorem State.startOf_go (h : s.startOf q n code = .go c) : s.findCmd q n = some c ∧ c.code = code := by
  unfold State.startOf at h
  split at h
  · cases h
  next x hx =>
    by_cases hbar : x.phase ≠ .accepted ∨ x.code ≠ code ∨ s.serving = false ∨ s.engineUp x.engine = false
    · rw [if_pos hbar] at h
      cases h
    · rw [if_neg hbar] at h
      have hxc : x = c := by
        split at h
        · cases h
        split at h
        · cases h
        split at h
        · split at h <;> cases h
        split at h
        · cases h
        split at h
        · cases h
        exact StartKind.go.inj h
      have hcode : x.code = code := Decidable.not_not.mp fun g => hbar (.inr (.inl g))
      exact ⟨hxc ▸ hx, hxc ▸ hcode⟩

theorem State.hasCmd_begun (h : s.findCmd q n = some c) : (s.begun q n).HasCmd c.queue c.seq := by
  obtain ⟨rfl, rfl⟩ := State.findCmd_is h
  rw [State.HasCmd, State.findCmd_begun h]
  exact Option.some_ne_none _

/-- A row of a move command runs its body, once it has started. -/
theorem exec_moveRow {i : Instr} {q : Fin 240} (h : moveRow i = some (q, n, code)) (hserve : s.serving = true)
    (hgo : s.startOf q.val n code = .go c) (hopen : s.engineClosing c = false) : exec i s = .next ((s.begun q.val n).moveBody c) := by
  have go {code : Nat} (hgo : s.startOf q.val n code = .go c) :
      s.whenServing (s.starting q.val n code State.moveBody) = .next ((s.begun q.val n).moveBody c) :=
    (State.whenServing_next _ hserve).trans (congrArg Host.Outcome.next (State.starting_go hgo hopen))
  cases i
  all_goals cases h
  all_goals exact go hgo

theorem moveRow_code {i : Instr} {q : Fin 240} (h : moveRow i = some (q, n, code)) : code ∈ [0x10, 0x11, 0x12, 0x13, 0x14, 0x15, 0x16, 0x17] := by
  cases i
  all_goals cases h
  all_goals decide

end Start

section Body
variable {u v : State} {c : Cmd} {m : MoveSet}

theorem State.moveBody_unread {st w : Nat} (h : u.moveTds c = (.error (st, w), v)) : u.moveBody c = v.moveFail c st w := by
  unfold State.moveBody
  rw [h]

theorem State.moveBody_refused {st w : Nat} (h : u.moveTds c = (.ok m, v)) (hc : v.moveCheck c m = some (st, w)) (hst : st ≠ stDone) :
    u.moveBody c = v.moveFail c st w := by
  unfold State.moveBody
  rw [h]
  dsimp only
  rw [hc]
  exact if_neg hst

/-- The work of a move command that passes its checks, by its code. -/
def State.moveWork (s : State) (c : Cmd) (m : MoveSet) : State :=
  match c.code with
  | 0x10 => s.moveCopyWork c m id
  | 0x11 => s.moveCopyWork c m (fun i => i.getD 1 0 :: i.getD 0 0 :: i.drop 2)
  | 0x12 => s.moveConvertWork c m
  | 0x13 => s.moveCopyWork c m id
  | 0x14 => s.moveFillWork c m
  | _ => s.moveIndexed c m

theorem State.moveBody_work (h : u.moveTds c = (.ok m, v)) (hc : v.moveCheck c m = none) : u.moveBody c = v.moveWork c m := by
  unfold State.moveBody
  rw [h]
  dsimp only
  rw [hc]
  rfl

theorem State.HasCmd.moveTds {q n : Nat} (h : u.HasCmd q n) : (u.moveTds c).2.HasCmd q n := by
  unfold State.moveTds
  extract_lets none_ rd
  have read (use : Bool) (lo w : Nat) {x : State} (hx : x.HasCmd q n) {r : Except (Nat × Nat) TD} {y : State}
      (h : rd use lo w x = (r, y)) : y.HasCmd q n := by
    dsimp only [rd] at h
    split at h
    · have hread := hx.readTd (c := c) (a := c.at lo 8)
      split at h
      next hy =>
        rw [hy] at hread
        exact (Prod.mk.inj h).2 ▸ hread
      next hy =>
        rw [hy] at hread
        exact (Prod.mk.inj h).2 ▸ hread
    · exact (Prod.mk.inj h).2 ▸ hx
  clear_value rd
  generalize hsrc : rd (usesSrc c.code) 24 whSrc u = p
  obtain ⟨a, x⟩ := p
  have hx := read _ _ _ h hsrc
  cases a with
  | error e => exact hx
  | ok a =>
    dsimp only
    generalize hdst : rd true 32 whDst x = p
    obtain ⟨b, y⟩ := p
    have hy := read _ _ _ hx hdst
    cases b with
    | error e => exact hy
    | ok b =>
      dsimp only
      generalize hidx : rd (usesIdx c.code) 56 whIdx y = p
      obtain ⟨i, z⟩ := p
      have hz := read _ _ _ hy hidx
      cases i with
      | error e => exact hz
      | ok i => exact hz

end Body

/-! ### FILL (R284) -/

section Fill
variable {v : State} {c : Cmd} {m : MoveSet}

/-- The writes of a FILL, in order. -/
def fillWrites (c : Cmd) (m : MoveSet) : List (List BitWrite) := m.dst.all.map (fun i => m.dst.writes i (fillCode m.dst.fmt c.patternOf))

theorem State.gather_nil : v.gather c [] = (v, false) := by
  unfold State.gather
  exact if_pos (.inl rfl)

theorem State.moveFillWork_local (h : v.isRemote m.dst.base = false) :
    v.moveFillWork c m = v.moveEnd c m (fillWrites c m) none false 0 0 := by
  have hshared : v.gather c (v.sharedBytes m.dst) = (v, false) := by
    rw [State.sharedBytes, if_neg (by simp [h])]
    exact State.gather_nil
  unfold State.moveFillWork
  rw [hshared]
  exact if_neg Bool.false_ne_true

theorem memByte_pokeBits {l : List Host.Cell} {w : BitWrite} {k : Nat} (h : (memKey (gaLocal w.addr)).getD 0 ≠ k) :
    memByte (pokeBits l w) k = memByte l k := sparseGet_set_other _ h _ _ _

theorem memByte_foldl_pokeBits {ws : List BitWrite} {l : List Host.Cell} {k : Nat} (h : ∀ w ∈ ws, (memKey (gaLocal w.addr)).getD 0 ≠ k) :
    memByte (ws.foldl pokeBits l) k = memByte l k :=
  List.foldlRecOn (motive := fun l' => memByte l' k = memByte l k) _ _ rfl fun _ hb w hw => (memByte_pokeBits (h w hw)).trans hb

/-- The state with the memory l. -/
def State.withMem (s : State) (l : List Host.Cell) : State := { s with mem := l }

/-- Without altered units and held sectors, writes of this module's bytes only change its memory. -/
theorem State.writeBits_own {ws : List BitWrite} (ha : v.altered = []) (hh : v.held = []) (hown : ∀ w ∈ ws, v.isOwn w.addr = true) :
    v.writeBits ws = (v.withMem (ws.foldl pokeBits v.mem), false) := by
  unfold State.writeBits
  rw [List.filter_eq_self.mpr hown]
  exact if_pos ⟨ha, hh⟩

theorem State.sendWrites_own {ws : List BitWrite} (hown : ∀ w ∈ ws, v.isOwn w.addr = true) : v.sendWrites c ws = (v, 0) := by
  have none_remote : ws.filter (fun w => v.isRemote w.addr) = [] :=
    List.filter_eq_nil_iff.mpr fun w hw => by simp [State.isRemote, hown w hw]
  unfold State.sendWrites
  rw [none_remote]
  rfl

theorem State.isOwn_withMem (l : List Host.Cell) (a : Nat) : (v.withMem l).isOwn a = v.isOwn a := rfl

/-- The end of a command, with the requests that it still awaits. -/
def State.ended (s : State) (c : Cmd) (st r0 r1 due k : Nat) : State :=
  (s.finish c st r0 r1 due).updCmd c.queue c.seq (fun x => { x with open_ := x.open_ + k })

/-- The end of a command whose writes stay in this module. -/
theorem State.finishWrites_own {ws : List BitWrite} {st r0 r1 due : Nat} (ha : v.altered = []) (hh : v.held = [])
    (hown : ∀ w ∈ ws, v.isOwn w.addr = true) : v.finishWrites c ws st r0 r1 due = (v.withMem (ws.foldl pokeBits v.mem)).ended c st r0 r1 due 0 := by
  unfold State.finishWrites
  rw [State.writeBits_own ha hh hown]
  dsimp only
  rw [State.sendWrites_own (v := v.withMem _) fun w hw => (State.isOwn_withMem _ _).trans (hown w hw)]
  rfl

theorem State.moveBytes_frame (rd wr : Nat) :
    SameRegsBut [R.MOV_RD_BYTES c.die, R.MOV_WR_BYTES c.die] v (v.moveBytes c rd wr) ∧ (v.moveBytes c rd wr).mem = v.mem ∧
    (v.moveBytes c rd wr).altered = v.altered ∧ (v.moveBytes c rd wr).held = v.held ∧ (v.moveBytes c rd wr).cmds = v.cmds := by
  unfold State.moveBytes State.countWrap
  refine ⟨.step (.setFld _ _ _ List.mem_cons_self) (.setFld _ _ _ (List.mem_cons_of_mem _ (List.mem_singleton_self _))), ?_, ?_, ?_, ?_⟩
  · rw [State.setFld_mem, State.setFld_mem]
  · rw [State.setFld_altered, State.setFld_altered]
  · rw [State.setFld_held, State.setFld_held]
  · rw [State.setFld_cmds, State.setFld_cmds]

/-- Which addresses are this module's own depends on its address and its mode. -/
theorem State.isOwn_of_sameRegs {l : List Nat} {t : State} (h : SameRegsBut l v t) (ha : R.ID_ADDR ∉ l) (hm : R.ID_STATE ∉ l) (a : Nat) :
    t.isOwn a = v.isOwn a := by
  have addr : t.ownAddr = v.ownAddr := h.fld _ ha
  have mode : t.mode = v.mode := h.fld _ hm
  rw [State.isOwn, addr, mode, State.isOwn]

theorem movBytes_apart {a die : Nat} (h : a < 0x200001000000) : a ∉ [R.MOV_RD_BYTES die, R.MOV_WR_BYTES die] := by
  rw [List.mem_cons, List.mem_singleton, R.MOV_RD_BYTES, R.MOV_WR_BYTES, dieBlk]
  omega

theorem State.mem_ended {st r0 r1 due k : Nat} : (v.ended c st r0 r1 due k).mem = v.mem := rfl

theorem State.cmds_withMem (l : List Host.Cell) : (v.withMem l).cmds = v.cmds := rfl

theorem State.mem_withMem (l : List Host.Cell) : (v.withMem l).mem = l := rfl

theorem State.finished_opened {st r0 r1 due k : Nat} (h : v.HasCmd c.queue c.seq) :
    CmdFinished (v.ended c st r0 r1 due k) c.queue c.seq st r0 r1 due := by
  obtain ⟨x, hx, hphase, hstatus, hres0, hres1, hdue⟩ := h.finished (status := st) (res0 := r0) (res1 := r1) (due := due)
  refine ⟨{ x with open_ := x.open_ + k }, ?_, hphase, hstatus, hres0, hres1, hdue⟩
  refine (State.findCmd_updCmd fun _ => ?_).trans ?_
  · rfl
  · rw [hx]
    rfl

/-- A move command that has written: where a write was refused, its fault is recorded. -/
def State.writesTold (s : State) (c : Cmd) : State :=
  match s.findCmd c.queue c.seq with
  | some x => if x.status = stData then s.moveFault c stData whDst else s
  | none => s

theorem State.writesTold_done (h : v.HasCmd c.queue c.seq) {r0 r1 due k : Nat} :
    (v.ended c stDone r0 r1 due k).writesTold c = v.ended c stDone r0 r1 due k := by
  obtain ⟨x, hx, -, hstatus, -⟩ := State.finished_opened (st := stDone) (r0 := r0) (r1 := r1) (due := due) (k := k) h
  unfold State.writesTold
  rw [hx]
  exact if_neg (by rw [hstatus]; decide)

theorem State.moveEnd_whole (els : List (List BitWrite)) : v.moveEnd c m els none false 0 0 =
    ((v.moveBytes c 0 (elemBytes m.dst els.length)).finishWrites c (els.flatMap id) stDone els.length 0
      (v.moveDue c 0 (elemBytes m.dst els.length) els.length)).writesTold c := rfl

/-- A FILL of this module's own bytes: it ends DONE with its elements counted, and other bytes stay (R284). -/
theorem State.moveFillWork_spec (ha : v.altered = []) (hh : v.held = []) (hlocal : v.isRemote m.dst.base = false)
    (hown : ∀ w ∈ (fillWrites c m).flatMap id, v.isOwn w.addr = true) (hcmd : v.HasCmd c.queue c.seq) :
    (∃ due, CmdFinished (v.moveFillWork c m) c.queue c.seq stDone m.dst.count 0 due) ∧
    ∀ k, (∀ w ∈ (fillWrites c m).flatMap id, (memKey (gaLocal w.addr)).getD 0 ≠ k) →
      memByte (v.moveFillWork c m).mem k = memByte v.mem k := by
  have hcount : (fillWrites c m).length = m.dst.count := by simp [fillWrites, TD.all]
  rw [State.moveFillWork_local hlocal, State.moveEnd_whole, hcount]
  generalize v.moveDue c 0 (elemBytes m.dst m.dst.count) m.dst.count = due
  obtain ⟨regs, hmem, halt, hheld, hcmds⟩ := v.moveBytes_frame (c := c) 0 (elemBytes m.dst m.dst.count)
  generalize v.moveBytes c 0 (elemBytes m.dst m.dst.count) = b at *
  rw [State.finishWrites_own (halt.trans ha) (hheld.trans hh) fun w hw =>
    (State.isOwn_of_sameRegs regs (movBytes_apart (by decide)) (movBytes_apart (by decide)) _).trans (hown w hw), hmem]
  have stored : (b.withMem (List.foldl pokeBits v.mem ((fillWrites c m).flatMap id))).HasCmd c.queue c.seq :=
    State.HasCmd.of_cmds hcmd ((State.cmds_withMem _).trans hcmds)
  rw [State.writesTold_done stored]
  refine ⟨⟨_, State.finished_opened stored⟩, fun k hk => ?_⟩
  rw [State.mem_ended, State.mem_withMem]
  exact memByte_foldl_pokeBits hk

end Fill

/-- Settles O47. -/
theorem moveCommands : Obligations.MoveCommands := by
  intro i q n code c s hrow hserve hgo hopen u
  obtain ⟨hfind, hcode⟩ := State.startOf_go hgo
  obtain ⟨hq, hn⟩ := State.findCmd_is hfind
  have hexec := exec_moveRow hrow hserve hgo hopen
  have hcodes := moveRow_code hrow
  refine ⟨fun st w v hread => hexec.trans (congrArg Host.Outcome.next (State.moveBody_unread hread)), fun m v hread =>
    ⟨fun st w hc hst => hexec.trans (congrArg Host.Outcome.next (State.moveBody_refused hread hc hst)), fun hc => ?_⟩⟩
  have hwork : exec i s = .next (v.moveWork c m) := hexec.trans (congrArg Host.Outcome.next (State.moveBody_work hread hc))
  unfold State.moveWork at hwork
  rw [hcode] at hwork
  refine ⟨fun h => ?_, fun h => ?_, fun h => ?_, fun h => ?_, fun h => ⟨?_, fun ha hh hlocal hown => ?_⟩⟩
  · rcases h with rfl | rfl
    all_goals exact hwork
  · subst h
    exact hwork
  · subst h
    exact hwork
  · simp only [List.mem_cons, List.not_mem_nil, or_false] at hcodes
    rcases hcodes with rfl | rfl | rfl | rfl | rfl | rfl | rfl | rfl
    iterate 5 exact absurd h (by decide)
    all_goals exact hwork
  · subst h
    exact hwork
  · have hcmd := (State.hasCmd_begun hfind).moveTds (c := c)
    have hv : ((s.begun q.val n).moveTds c).2 = v := congrArg Prod.snd hread
    rw [hv] at hcmd
    have written : ∀ {p : BitWrite → Prop}, (∀ x ∈ m.dst.all, ∀ b ∈ m.dst.writes x (fillCode m.dst.fmt c.patternOf), p b) →
        ∀ w ∈ (fillWrites c m).flatMap id, p w := by
      intro p hp w hw
      obtain ⟨l, hl, hwl⟩ := List.mem_flatMap.mp hw
      obtain ⟨x, hx, rfl⟩ := List.mem_map.mp hl
      exact hp x hx w hwl
    obtain ⟨hend, hmem⟩ := State.moveFillWork_spec ha hh hlocal (written hown) hcmd
    rw [hq, hn] at hend
    exact ⟨hend, fun k hk => hmem k (written hk)⟩

end Sys2Proof.Machine
end

section
/-!
PROOFS. The collective commands: waiting, cancelled, put in flight.
-/

namespace Sys2Proof.Machine

open Sys2Proof

section Start
variable {s : State} {n code : Nat} {close : Bool} {q : Fin 240} {c : Cmd} {i : Instr}

/-- A row of a collective command starts it. -/
theorem exec_collRow (h : collRow c i = some (q, n, code, close)) (hserve : s.serving = true) (hfind : s.findCmd q.val n = some c) :
    exec i s = .next (s.collStart q.val n code close) := by
  have go (code : Nat) (close : Bool) : s.whenServing (s.collStart q.val n code close) = .next (s.collStart q.val n code close) :=
    State.whenServing_next _ hserve
  have named (code : Nat) : s.whenServing (match s.findCmd q.val n with
      | some c => s.collStart q.val n code (cfClose c)
      | none => s) = .next (s.collStart q.val n code (cfClose c)) := by
    rw [hfind]
    exact go code _
  cases i
  all_goals cases h
  · exact named 0x20
  · exact named 0x21
  · exact go 0x22 false
  · exact named 0x23
  · exact go 0x22 true

theorem State.collStart_waits (h : s.collWaits q.val n close = true) : s.collStart q.val n code close = s := if_pos h

theorem State.collStart_go (h : s.collWaits q.val n close = false) (hgo : s.startOf q.val n code = .go c)
    (hopen : s.engineClosing c = false) : s.collStart q.val n code close = (s.begun q.val n).collBody c :=
  (if_neg (by simp [h])).trans (State.starting_go hgo hopen)

end Start

section Body
variable {s u : State} {c : Cmd} {v : Nat} {g : Group}

theorem State.group_setGroup (x : Option Group) : (s.setGroup v x).group v = x := sparseGet_set_same _ _ _ _

/-- The state in which a collective goes on once its group's sequence has advanced. -/
theorem State.collBody_cancelled_unknown (h : u.slotOf (c.at 8 1) = none) (he : c.epoch ≠ 0) (hr : u.retracted.contains c.epoch = true) :
    u.collBody c = u.fail c stCancelled := by
  unfold State.collBody
  dsimp only
  rw [h]
  exact if_pos ⟨he, hr⟩

theorem State.advanceCseq_kept (e : Nat) : (u.advanceCseq v g e).retracted = u.retracted ∧ (u.advanceCseq v g e).cmds = u.cmds ∧
    (u.advanceCseq v g e).now = u.now ∧ SameRegsBut [] u (u.advanceCseq v g e) ∧ SameMemory u (u.advanceCseq v g e) :=
  ⟨rfl, rfl, rfl, .of_eq rfl rfl, .of_eq rfl rfl⟩

theorem State.collBody_cancelled (h : u.slotOf (c.at 8 1) = some v) (hg : u.group v = some g) (he : c.epoch ≠ 0)
    (hr : u.retracted.contains c.epoch = true) : u.collBody c = (u.advanceCseq v g c.epoch).fail c stCancelled := by
  unfold State.collBody
  dsimp only
  rw [h, Option.bind_some, hg]
  exact if_pos ⟨he, hr⟩

theorem State.collBody_runs {w : State} {l : List (Option TD × List Byte)} {gext : List Nat} {split : Nat}
    (h : u.slotOf (c.at 8 1) = some v) (hg : u.group v = some g) (he : c.epoch = 0 ∨ u.retracted.contains c.epoch = false)
    (htds : (u.advanceCseq v g c.epoch).collTds c (collAddrs c) = (.ok l, w))
    (hcheck : w.collCheck c (some g) ((l.take 4).map Prod.fst) (l.getD 4 (none, [])).1 = .ok (gext, split)) :
    u.collBody c = w.runColl c v g ((l.take 4).map Prod.fst) (l.getD 4 (none, [])).1 (l.getD 4 (none, [])).2 gext split g.cseq := by
  have live : ¬(c.epoch ≠ 0 ∧ (u.advanceCseq v g c.epoch).retracted.contains c.epoch = true) := by
    rintro ⟨hne, hret⟩
    rcases he with h0 | hn
    · exact hne h0
    · exact Bool.false_ne_true (hn.symm.trans hret)
  unfold State.collBody
  dsimp only
  rw [h, Option.bind_some, hg]
  dsimp only
  rw [if_neg live, htds]
  dsimp only
  rw [hcheck]

/-- A collective that is cancelled ends at once. -/
theorem State.cancelled_spec {q n : Nat} (hcmd : u.HasCmd c.queue c.seq) (hq : c.queue = q) (hn : c.seq = n) (hnow : u.now = s.now)
    (hregs : SameRegsBut [] s u) (hmem : SameMemory s u) : CmdFinished (u.fail c stCancelled) q n stCancelled 0 0 s.now ∧
      SameRegsBut [] s (u.fail c stCancelled) ∧ SameMemory s (u.fail c stCancelled) := by
  have hend := hcmd.finished (status := stCancelled) (res0 := 0) (res1 := 0) (due := u.now)
  rw [hq, hn, hnow] at hend
  rw [State.fail, hnow]
  exact ⟨hend, .step hregs .finish, .step hmem .finish⟩

theorem State.group_fail (st : Nat) : (u.fail c st).group v = u.group v := rfl

end Body

/-- The start of a command changes no table of groups. -/
theorem State.begun_kept (s : State) (q n : Nat) : (∀ x, (s.begun q n).slotOf x = s.slotOf x) ∧
    (∀ v, (s.begun q n).group v = s.group v) ∧ (s.begun q n).retracted = s.retracted ∧ (s.begun q n).now = s.now ∧
    SameRegsBut [] s (s.begun q n) ∧ SameMemory s (s.begun q n) :=
  ⟨fun _ => rfl, fun _ => rfl, rfl, rfl, .of_eq rfl rfl, .of_eq rfl rfl⟩

/-- Settles O48. -/
theorem collectiveCommands : Obligations.CollectiveCommands := by
  intro i q n code close c s hserve hfind hrow
  have hexec := exec_collRow hrow hserve hfind
  obtain ⟨hq, hn⟩ := State.findCmd_is hfind
  obtain ⟨kslot, kgroup, kret, know, kregs, kmem⟩ := s.begun_kept q.val n
  have hcmd := State.hasCmd_begun hfind
  refine ⟨fun hwait => hexec.trans (congrArg Host.Outcome.next (State.collStart_waits hwait)), fun hwait hgo hopen => ?_⟩
  intro u
  have hu : u = s.begun q.val n := rfl
  clear_value u
  subst hu
  have hbody : exec i s = .next ((s.begun q.val n).collBody c) := hexec.trans (congrArg Host.Outcome.next (State.collStart_go hwait hgo hopen))
  refine ⟨fun hslot he hr => ⟨_, hbody, ?_⟩, fun v g hslot hg => ⟨fun he hr => ⟨_, hbody, ?_⟩, fun l w gext split he htds hcheck => ?_⟩⟩
  · rw [State.collBody_cancelled_unknown ((kslot _).trans hslot) he ((congrArg (fun l => l.contains c.epoch) kret).trans hr)]
    exact State.cancelled_spec hcmd hq hn know kregs kmem
  · rw [State.collBody_cancelled ((kslot _).trans hslot) ((kgroup _).trans hg) he ((congrArg (fun l => l.contains c.epoch) kret).trans hr)]
    obtain ⟨-, acmds, anow, aregs, amem⟩ := (s.begun q.val n).advanceCseq_kept (v := v) (g := g) c.epoch
    obtain ⟨hend, hregs, hmem⟩ := State.cancelled_spec (State.HasCmd.of_cmds hcmd acmds) hq hn (anow.trans know) (kregs.step aregs)
      (kmem.step amem)
    refine ⟨hend, ?_, hregs, hmem⟩
    rw [State.group_fail, State.advanceCseq, State.group_setGroup]
    rfl
  · refine hbody.trans (congrArg Host.Outcome.next (State.collBody_runs ((kslot _).trans hslot) ((kgroup _).trans hg) ?_ htds hcheck))
    rw [kret]
    exact he

end Sys2Proof.Machine
end

section
/-!
PROOFS. Packets in their flows; and the events of collectives: registration, segments, steps, substitution, vetoes, holds.
-/

namespace Sys2Proof.Machine

open Sys2Proof

/-! ### A request in its turn (R300 to R302) -/

section Turn
variable {s u : State} {h : Hdr} {type : Nat} {body : List Byte}

theorem Arrives.packetRx (a : Arrives s h type) (f : State → State) : s.packetRx h type f = f s := by
  obtain ⟨-, hchannel, hhere, haddr, -, hmember⟩ := a
  unfold State.packetRx
  rw [if_neg (by simp [hchannel]), if_neg (by simp [hhere, haddr, hmember])]

theorem State.giveUpGaps_none (h : s.fabric.early = []) : s.giveUpGaps = s := by
  unfold State.giveUpGaps
  rw [h]
  rfl

/-- A request that is in its turn is delivered, and nothing waits behind it. -/
theorem InTurn.requestRx (t : InTurn s h type u) (body : List Byte) :
    s.requestRx h type body = u.deliver { hdr := h, type := type, body := body } := by
  obtain ⟨harrives, hfresh, halone, hturn⟩ := t
  rw [State.requestRx, harrives.packetRx]
  unfold State.inFlow
  dsimp only
  rw [hfresh]
  dsimp only
  rcases hturn with ⟨hvc, rfl⟩ | ⟨hvc, hseq, rfl⟩
  · exact if_pos hvc
  · have zero : (h.seq.toNat + 65536 - s.expected (rxKey h)) % 65536 = 0 := by
      rw [hseq, Nat.add_sub_cancel_left]
    rw [if_neg (Nat.not_le.mpr hvc), State.giveUpGaps_none halone, if_pos zero, halone] <;> rfl

theorem InTurn.exec_request (t : InTurn s h type u) {i : Instr} (hi : exec i s = s.whenServing (s.requestRx h type body)) :
    exec i s = .next (u.deliver { hdr := h, type := type, body := body }) :=
  hi.trans ((State.whenServing_next _ t.arrives.serving).trans (congrArg Host.Outcome.next (t.requestRx body)))

theorem State.mode_setExpected (k n : Nat) : (s.setExpected k n).mode = s.mode := rfl

/-- A packet that moves its flow on changes no mode. -/
theorem InTurn.mode (t : InTurn s h type u) : u.mode = s.mode := by
  rcases t.turn with ⟨-, rfl⟩ | ⟨-, -, rfl⟩
  · rfl
  · exact State.mode_setExpected _ _

/-- The packets of collectives are served outside EARLY. -/
theorem State.deliver_coll (hm : u.mode ≠ mEarly) {f : State → Hdr → List Byte → State}
    (hf : type = tRedHdr ∧ f = State.redHdrRx ∨ type = tRedData ∧ f = State.redDataRx ∨ type = tRetract ∧ f = State.retractRx) :
    u.deliver { hdr := h, type := type, body := body } = f u h body := by
  unfold State.deliver
  dsimp only
  rw [if_neg fun e => hm e.1]
  rcases hf with ⟨rfl, rfl⟩ | ⟨rfl, rfl⟩ | ⟨rfl, rfl⟩
  · exact if_pos rfl
  · rw [if_neg (by decide), if_pos rfl]
  · rw [if_neg (by decide), if_neg (by decide), if_pos rfl]

end Turn

/-! ### Registration of a slot (R323) -/

section Register
variable {s : State} {v status : Nat}

theorem redGctl_ne_redStat (v : Nat) : R.RED_GCTL v ≠ R.RED_STAT := by
  rw [R.RED_GCTL, R.RED_STAT]
  omega

/-- The state of a slot whose group is g, without its segments. -/
def State.regrouped (s : State) (v : Nat) (g : Option Group) : State :=
  { s.setGroup v g with redRx := s.redRx.filter (fun x => x.slot != v) }

theorem State.bindGroup_eq (g : Option Group) :
    s.bindGroup v status g = ((s.regrouped v g).showGroup v status g).setBit R.RED_STAT F.RED_STAT_BOUND v g.isSome := rfl

theorem State.group_regrouped (g : Option Group) : (s.regrouped v g).group v = g := State.group_setGroup g

theorem SameRegsBut.regrouped {l : List Nat} {g : Option Group} : SameRegsBut l s (s.regrouped v g) := .of_eq rfl rfl

theorem SameMemory.regrouped {g : Option Group} : SameMemory s (s.regrouped v g) := .of_eq rfl rfl

theorem State.group_setFld (a : Nat) (f : Field) (n w : Nat) : (s.setFld a f n).group w = s.group w := rfl

/-- What RED_GCTL shows of a slot, and what showing it changes. -/
theorem State.showGroup_spec (g : Option Group) (hs : status < 256) :
    (s.showGroup v status g).fld (R.RED_GCTL v) F.RED_GCTL_STATUS = status ∧
    (s.showGroup v status g).fld (R.RED_GCTL v) F.RED_GCTL_VALID = b2n g.isSome ∧
    (∀ x, g = some x → x.gid < 256 → (s.showGroup v status g).fld (R.RED_GCTL v) F.RED_GCTL_GROUP = x.gid) ∧
    (∀ w, (s.showGroup v status g).group w = s.group w) ∧
    SameRegsBut [R.RED_GCTL v] s (s.showGroup v status g) ∧ SameMemory s (s.showGroup v status g) := by
  have regs {f : Field} {n : Nat} {t : State} (ht : SameRegsBut [R.RED_GCTL v] s t) : SameRegsBut [R.RED_GCTL v] s (t.setFld (R.RED_GCTL v) f n) :=
    ht.step (.setFld _ _ _ (List.mem_singleton_self _))
  have mem {f : Field} {n : Nat} {t : State} (ht : SameMemory s t) : SameMemory s (t.setFld (R.RED_GCTL v) f n) := ht.step (.setFld _ _ _ _)
  cases g
  all_goals
    unfold State.showGroup
    dsimp only
    refine ⟨?_, ?_, ?_, fun w => ?_, regs (regs (regs (regs (regs (regs (.refl _ _)))))), mem (mem (mem (mem (mem (mem (.refl _))))))⟩
  · rw [State.fld_setFld_apart _ _ _ _ _ (by decide) (by decide), State.fld_setFld_apart _ _ _ _ _ (by decide) (by decide),
      State.fld_setFld_apart _ _ _ _ _ (by decide) (by decide), State.fld_setFld_apart _ _ _ _ _ (by decide) (by decide),
      State.fld_setFld_apart _ _ _ _ _ (by decide) (by decide), State.fld_setFld_same _ _ _ _ (by decide) hs]
  · rw [State.fld_setFld_apart _ _ _ _ _ (by decide) (by decide), State.fld_setFld_apart _ _ _ _ _ (by decide) (by decide),
      State.fld_setFld_apart _ _ _ _ _ (by decide) (by decide), State.fld_setFld_apart _ _ _ _ _ (by decide) (by decide),
      State.fld_setFld_same _ _ _ _ (by decide) (by decide)]
    rfl
  · exact fun x hx => by cases hx
  · rw [State.group_setFld, State.group_setFld, State.group_setFld, State.group_setFld, State.group_setFld, State.group_setFld]
  · rw [State.fld_setFld_apart _ _ _ _ _ (by decide) (by decide), State.fld_setFld_apart _ _ _ _ _ (by decide) (by decide),
      State.fld_setFld_apart _ _ _ _ _ (by decide) (by decide), State.fld_setFld_apart _ _ _ _ _ (by decide) (by decide),
      State.fld_setFld_apart _ _ _ _ _ (by decide) (by decide), State.fld_setFld_same _ _ _ _ (by decide) hs]
  · rw [State.fld_setFld_apart _ _ _ _ _ (by decide) (by decide), State.fld_setFld_apart _ _ _ _ _ (by decide) (by decide),
      State.fld_setFld_apart _ _ _ _ _ (by decide) (by decide), State.fld_setFld_apart _ _ _ _ _ (by decide) (by decide),
      State.fld_setFld_same _ _ _ _ (by decide) (by decide)]
    rfl
  · intro x hx hgid
    rw [State.fld_setFld_apart _ _ _ _ _ (by decide) (by decide), Option.some.inj hx]
    exact State.fld_setFld_same _ _ _ _ (by decide) hgid
  · rw [State.group_setFld, State.group_setFld, State.group_setFld, State.group_setFld, State.group_setFld, State.group_setFld]

/-- What binding or freeing a slot leaves of it. -/
theorem State.bindGroup_spec (g : Option Group) (hv : v < 10) (hs : status < 256) :
    (s.bindGroup v status g).fld (R.RED_GCTL v) F.RED_GCTL_STATUS = status ∧
    (s.bindGroup v status g).fld (R.RED_GCTL v) F.RED_GCTL_VALID = b2n g.isSome ∧
    (∀ x, g = some x → x.gid < 256 → (s.bindGroup v status g).fld (R.RED_GCTL v) F.RED_GCTL_GROUP = x.gid) ∧
    (s.bindGroup v status g).bit R.RED_STAT F.RED_STAT_BOUND v = g.isSome ∧ (s.bindGroup v status g).group v = g ∧
    SameRegsBut [R.RED_GCTL v, R.RED_STAT] s (s.bindGroup v status g) ∧ SameMemory s (s.bindGroup v status g) := by
  obtain ⟨hstatus, hvalid, hgroup, hkept, hregs, hmem⟩ := (s.regrouped v g).showGroup_spec (v := v) g hs
  have shown (f : Field) : (s.bindGroup v status g).fld (R.RED_GCTL v) f = ((s.regrouped v g).showGroup v status g).fld (R.RED_GCTL v) f :=
    State.fld_setFld_other _ _ _ _ _ _ (redGctl_ne_redStat v).symm
  refine ⟨(shown _).trans hstatus, (shown _).trans hvalid, fun x hx hgid => (shown _).trans (hgroup x hx hgid), ?_, ?_, ?_, ?_⟩
  · exact State.bit_setBit _ (by decide) hv
  · rw [State.bindGroup_eq, State.setBit, State.group_setFld, hkept, State.group_regrouped]
  · exact .step .regrouped (.step (hregs.mono (by simp)) (.setFld _ _ _ (by simp)))
  · exact .step .regrouped (.step hmem (.setFld _ _ _ _))

theorem State.register_busy (h : s.slotBusy v = true) : s.register v = s.setFld (R.RED_GCTL v) F.RED_GCTL_STATUS stBusy := if_pos h

theorem State.unregister_busy (h : s.slotBusy v = true) : s.unregister v = s.setFld (R.RED_GCTL v) F.RED_GCTL_STATUS stBusy := if_pos h

theorem State.unregister_free (h : s.slotBusy v = false) : s.unregister v = s.bindGroup v stDone none := if_neg (by simp [h])

/-- The group that a descriptor names, as a module of this address has it. -/
def groupNamed (own : Nat) (b : List Byte) : Group :=
  { gid := leField b 0 1, bytes := b, members := membersOf b (leField b 2 2),
    rank := ((membersOf b (leField b 2 2)).findIdx? (fun m => m.module == own || m.backup == own)).getD 0,
    backup := (membersOf b (leField b 2 2)).any (fun m => m.backup == own), cseq := 0, epochs := [] }

/-- A registration that passes its checks binds the slot to the group that it read (R323). -/
theorem State.register_binds {b : List Byte} {u : State} (h : s.slotBusy v = false)
    (hread : s.readGroup (s.reg (R.RED_GADDR v)).toNat = (some b, u)) (hok : groupOk u.ownAddr v b = true)
    (hfree : ∀ w < 10, w ≠ v → u.slotOf (leField b 0 1) ≠ some w) :
    s.register v = u.bindGroup v stDone (some (groupNamed u.ownAddr b)) := by
  have untaken : (List.range 10).any (fun w => w != v && u.slotOf (leField b 0 1) == some w) = false := by
    rw [List.any_eq_false]
    intro w hw
    by_cases hwv : w = v
    · simp [hwv]
    · simp [hfree w (List.mem_range.mp hw) hwv]
  unfold State.register
  rw [if_neg (by simp [h]), hread]
  dsimp only
  rw [hok, untaken, if_neg (by simp)]
  rfl

theorem leField_byte_lt (b : List Byte) (lo : Nat) : leField b lo 1 < 256 := by
  rw [leField]
  rcases h : (b.drop lo).take 1 with _ | ⟨x, l⟩
  · decide
  · have hl : l = [] := by
      have := congrArg List.length h
      simp at this
      exact List.eq_nil_of_length_eq_zero (by omega)
    subst hl
    simpa [ofLe] using x.isLt

end Register

/-! ### A step and a substitution of a collective (R329, R330, R332) -/

section Step
variable {s : State} {q : Fin 240} {n : Nat} {c : Coll} {g : Group}

theorem State.reduceStep_none (hserve : s.serving = true) (hc : s.findColl q.val n = some c) (hg : s.group c.slot = some g)
    (hr : c.ready g = none) : exec (.reduceStep q n) s = .next s := by
  refine (State.whenServing_next _ hserve).trans (congrArg Host.Outcome.next ?_)
  rw [hc]
  dsimp only
  rw [hg]
  dsimp only
  rw [hr]

/-- A step whose operands are there runs on a brush that is lent, or without one where the collective only closes. -/
theorem State.reduceStep_some {d : Derive} {i : Nat} {a b : OpVal} (hserve : s.serving = true) (hc : s.findColl q.val n = some c)
    (hg : s.group c.slot = some g) (hr : c.ready g = some (d, i)) (ha : c.val d.left i = some a) (hb : c.val d.right i = some b) :
    (c.close = true → exec (.reduceStep q n) s = .next (s.runStep c g d i a b)) ∧
    (c.close = false → s.lentBrush c = none → exec (.reduceStep q n) s = .next s) ∧
    (∀ br, c.close = false → s.lentBrush c = some br → exec (.reduceStep q n) s = .next ((s.lendEnd c.home br).runStep c g d i a b)) := by
  have hexec : exec (.reduceStep q n) s = .next (if c.close then s.runStep c g d i a b else
      match s.lentBrush c with
      | none => s
      | some br => (s.lendEnd c.home br).runStep c g d i a b) := by
    refine (State.whenServing_next _ hserve).trans (congrArg Host.Outcome.next ?_)
    rw [hc]
    dsimp only
    rw [hg]
    dsimp only
    rw [hr]
    dsimp only
    rw [ha, hb] <;> rfl
  refine ⟨fun h => ?_, fun h hl => ?_, fun br h hl => ?_⟩
  · rw [hexec, if_pos h]
  · rw [hexec, if_neg (by simp [h]), hl]
  · rw [hexec, if_neg (by simp [h]), hl]

theorem State.substitutePoint_alone {op r : Nat} (hc : s.findColl q.val n = some c) (hg : s.group c.slot = some g)
    (ha : c.awaits g = [(op, r)]) (hp : s.pointReached c g r = true) : s.substitutePoint q.val n (fun x => x == r) =
      ((s.substitute c g op r).1.putColl (s.substitute c g op r).2).pump q.val n := by
  unfold State.substitutePoint
  rw [hc]
  dsimp only
  rw [hg]
  dsimp only
  rw [ha, List.foldl_cons, List.foldl_nil, if_pos (by simp [hp])]

end Step

/-! ### The software veto (R336) -/

section Veto
variable {s : State} {e bits : Nat}

theorem lveto_word {e w : Nat} (he : e < 2 ^ 48) (hw : w < 256) : F.RED_LVETO_EPOCH.get (BitVec.ofNat 64 (e + w * 2 ^ 48)) = e ∧
    F.RED_LVETO_VETO.get (BitVec.ofNat 64 (e + w * 2 ^ 48)) = w := by
  have small : e + w * 2 ^ 48 < 2 ^ 64 := by omega
  unfold Field.get bitsOf F.RED_LVETO_EPOCH F.RED_LVETO_VETO
  rw [BitVec.toNat_ofNat, Nat.mod_eq_of_lt small]
  dsimp only
  omega

theorem lveto_ne_trnStat (e : Nat) : R.TRN_STAT ≠ R.RED_LVETO (e % 8) := by
  rw [R.RED_LVETO, R.TRN_STAT]
  omega

theorem State.vetoWord_lt : s.vetoWord e < 256 := by
  unfold State.vetoWord
  split
  · exact s.fld_lt _ F.RED_LVETO_VETO
  · decide

theorem State.fld_countVetoes_other {a : Nat} (f : Field) (h : R.TRN_STAT ≠ a) : s.countVetoes.fld a f = s.fld a f :=
  State.fld_setFld_other _ _ _ _ _ _ h

/-- The word that is held of an epoch, once it is stored. -/
theorem State.vetoWord_stored {w : Word} {x : Nat} (he : F.RED_LVETO_EPOCH.get w = e) (hx : F.RED_LVETO_VETO.get w = x) :
    (s.setReg (R.RED_LVETO (e % 8)) w).countVetoes.vetoWord e = x := by
  have kept (f : Field) : (s.setReg (R.RED_LVETO (e % 8)) w).countVetoes.fld (R.RED_LVETO (e % 8)) f = f.get w :=
    (State.fld_countVetoes_other f (lveto_ne_trnStat e)).trans (State.fld_setReg_same _ _ _ _)
  rw [State.vetoWord, kept, kept, he, if_pos rfl, hx]

theorem State.stored_sameRegs {w : Word} :
    SameRegsBut [R.RED_LVETO (e % 8), R.TRN_STAT] s (s.setReg (R.RED_LVETO (e % 8)) w).countVetoes :=
  .step (.setReg _ _ (List.mem_cons_self ..)) (State.countVetoes_sameRegs _ (List.mem_cons_of_mem _ (List.mem_cons_self ..)))

/-- The word of an epoch takes the bits that an event holds. -/
theorem State.holdVeto_open (hlo : s.settled < e) (hhi : e ≤ s.settled + 8) (he : e < 2 ^ 48) (hb : bits < 256) :
    (s.holdVeto e bits).vetoWord e = s.vetoWord e ||| bits ∧ SameRegsBut [R.RED_LVETO (e % 8), R.TRN_STAT] s (s.holdVeto e bits) := by
  have hword : s.vetoWord e ||| bits < 256 := Nat.or_lt_two_pow (n := 8) State.vetoWord_lt hb
  obtain ⟨hepoch, hveto⟩ := lveto_word he hword
  unfold State.holdVeto
  rw [if_neg (not_or.mpr ⟨Nat.not_le.mpr hlo, Nat.not_lt.mpr hhi⟩)]
  dsimp only
  generalize BitVec.ofNat 64 (e + (s.vetoWord e ||| bits) * 2 ^ 48) = w at hepoch hveto ⊢
  exact ⟨State.vetoWord_stored hepoch hveto, State.stored_sameRegs⟩

theorem State.vetoEvent_open (hlo : s.settled < e) (hhi : e ≤ s.settled + 8) (hc : s.captured.contains e = false) :
    s.vetoEvent e bits = s.holdVeto e bits := by
  unfold State.vetoEvent
  dsimp only
  rw [if_neg (by omega), if_neg (by omega), if_pos ⟨hlo, hc⟩]

end Veto

/-! ### The ends of injected holds (R466) -/

section Holds
variable {s : State}

/-- The state with the segments l of collectives. -/
def State.withRedRx (s : State) (l : List RedSeg) : State := { s with redRx := l }

theorem State.withRedRx_self : s.withRedRx s.redRx = s := rfl

theorem State.kept_withRedRx (l : List RedSeg) : (s.withRedRx l).redRx = l ∧ (s.withRedRx l).colls = s.colls := ⟨rfl, rfl⟩

theorem SameMemory.withRedRx {l : List RedSeg} : SameMemory s (s.withRedRx l) := .of_eq rfl rfl

theorem State.pumpOf_none (h : s.colls = []) (v k : Nat) : s.pumpOf v k = s := by
  unfold State.pumpOf
  rw [h]
  rfl

theorem State.kept_setLink (p : Nat) (l : LinkPort) : (s.setLink p l).redRx = s.redRx ∧ (s.setLink p l).colls = s.colls := ⟨rfl, rfl⟩

theorem State.kept_emit (o : Out) : (s.emit o).redRx = s.redRx ∧ (s.emit o).colls = s.colls := ⟨rfl, rfl⟩

theorem State.kept_egress (p : Nat) (r : RawPkt) : (s.egress p r).redRx = s.redRx ∧ (s.egress p r).colls = s.colls := by
  unfold State.egress State.spendCredit
  rw [(State.kept_emit _).1, (State.kept_emit _).2, (State.kept_setLink _ _).1, (State.kept_setLink _ _).1, (State.kept_setLink _ _).2,
    (State.kept_setLink _ _).2]
  exact ⟨rfl, rfl⟩

/-- What a packet that is sent leaves alone. -/
theorem State.kept_sendRaw (r : RawPkt) : (s.sendRaw r).redRx = s.redRx ∧ (s.sendRaw r).colls = s.colls := by
  unfold State.sendRaw
  split
  · exact State.kept_egress _ _
  · split
    · exact ⟨rfl, rfl⟩
    · exact ⟨rfl, rfl⟩

theorem State.kept_ackSeg (h : Hdr) (cseq seg : Nat) : (s.ackSeg h cseq seg).redRx = s.redRx ∧ (s.ackSeg h cseq seg).colls = s.colls :=
  State.kept_sendRaw _

/-- A held segment that is not due stays. -/
theorem State.holdsEnd_held {x : RedSeg} (hx : s.redRx = [x]) (hh : x.held = 0) : s.holdsEnd = s := by
  have hdue : (x.held != 0 && decide (x.held ≤ s.now + 1)) = false := by simp [hh]
  unfold State.holdsEnd
  extract_lets due early free redRx late t u
  have hfree : free = [] := by
    dsimp only [free, due]
    rw [hx, List.filter_cons, hdue]
    rfl
  have hred : redRx = s.redRx := by
    dsimp only [redRx, due]
    rw [hx, List.map_cons, List.map_nil, if_neg (by rw [hdue]; exact Bool.false_ne_true)]
  have ht : t = s := by
    dsimp only [t]
    rw [hred]
  dsimp only [u, late]
  rw [hfree, ht]
  rfl

/-- The delay of a segment that came before its collective is over: it is acknowledged. -/
theorem State.holdsEnd_due {x : RedSeg} (hx : s.redRx = [x]) (hc : s.colls = []) (ha : x.acked = false) (hh : x.held ≠ 0)
    (hdue : x.held ≤ s.now + 1) :
    s.holdsEnd = (s.withRedRx [{ x with held := 0, acked := true }]).ackSeg x.hdr x.cseq x.seg := by
  have hcolls := (State.kept_ackSeg (s := s.withRedRx [{ x with held := 0, acked := true }]) x.hdr x.cseq x.seg).2.trans
    ((State.kept_withRedRx _).2.trans hc)
  have isDue : (x.held != 0 && decide (x.held ≤ s.now + 1)) = true := by simp [hh, hdue]
  unfold State.holdsEnd
  extract_lets due early free redRx late t u
  have hearly (y : RedSeg) : early y = true := by
    dsimp only [early]
    rw [hc]
    rfl
  have hfree : free = [x] := by
    dsimp only [free, due]
    rw [hx, List.filter_cons, isDue]
    rfl
  have hred : redRx = [{ x with held := 0, acked := true }] := by
    dsimp only [redRx, due]
    rw [hx, List.map_cons, List.map_nil, if_pos isDue, hearly, Bool.or_true]
  have hlate : late = [x] := by
    dsimp only [late]
    rw [hfree, List.filter_cons, hearly, ha]
    rfl
  have ht : t = s.withRedRx [{ x with held := 0, acked := true }] := by
    dsimp only [t]
    rw [hred, State.withRedRx]
  dsimp only [u]
  rw [hfree, hlate, ht]
  exact State.pumpOf_none hcolls _ _

theorem SameMemory.ackSeg {h : Hdr} {cseq seg : Nat} : SameMemory s (s.ackSeg h cseq seg) := (MemSame.refl.upd.sendRaw).sameMemory

/-- The state with the credits h held back. -/
def State.withCreditHolds (s : State) (h : List (Nat × Nat × Nat × Nat)) : State := { s with creditHolds := h }

theorem State.withCreditHolds_self : s.withCreditHolds s.creditHolds = s := rfl

theorem SameRegsBut.withCreditHolds {l : List Nat} {h : List (Nat × Nat × Nat × Nat)} : SameRegsBut l s (s.withCreditHolds h) := .of_eq rfl rfl

theorem SameMemory.withCreditHolds {h : List (Nat × Nat × Nat × Nat)} : SameMemory s (s.withCreditHolds h) := .of_eq rfl rfl

theorem State.creditHolds_sendCredit (p vc k : Nat) : (s.sendCredit p vc k).creditHolds = s.creditHolds := rfl

theorem State.exec_creditHoldEnd (h : s.mainUp = true) : exec .creditHoldEnd s = .next
    ((s.creditHolds.filter fun h => decide (h.2.2.2 ≤ s.now)).foldl (fun s h => s.sendCredit h.1 h.2.1 h.2.2.1)
      (s.withCreditHolds (s.creditHolds.filter fun h => !decide (h.2.2.2 ≤ s.now)))) :=
  State.whenMain_next _ h

theorem State.creditsKept {p vc k at_ : Nat} (h : s.creditHolds = [(p, vc, k, at_)]) (ht : s.now < at_) :
    (s.creditHolds.filter fun h => !decide (h.2.2.2 ≤ s.now)) = s.creditHolds := by
  rw [h, List.filter_cons, if_pos (by simpa using ht)]
  rfl

theorem State.creditsGone {p vc k at_ : Nat} (h : s.creditHolds = [(p, vc, k, at_)]) (ht : at_ ≤ s.now) :
    (s.creditHolds.filter fun h => !decide (h.2.2.2 ≤ s.now)) = [] := by
  rw [h, List.filter_cons, if_neg (by simpa using ht)]
  rfl

end Holds

/-- The segments not yet acknowledged, once one is. -/
theorem State.redTx_redAckRx {s : State} {h : Hdr} {x : RedTx} (hx : x ∈ (s.redAckRx h).redTx) : x ∈ s.redTx ∧
    ¬(x.dst = h.src.toNat ∧ x.vc = h.vc.val ∧ x.seq = h.seq.toNat ∧ x.cseq = h.addr.toNat / 2 ^ 32 ∧
      x.seg = h.addr.toNat % 2 ^ 32) := by
  obtain ⟨hmem, hne⟩ := List.mem_filter.mp hx
  refine ⟨hmem, ?_⟩
  rintro ⟨h₁, h₂, h₃, h₄, h₅⟩
  simp [h₁, h₂, h₃, h₄, h₅] at hne

/-- Settles O49. -/
theorem collectiveEvents : Obligations.CollectiveEvents := by
  refine ⟨fun v s hm => ⟨fun hbusy => ?_, fun hfree => ⟨?_, fun b u hread hok hslots => ?_⟩⟩, fun h b s u hmode => ⟨fun t => ?_, fun t => ?_,
    fun t => ?_, fun a herr => ?_⟩, fun q n c g s hserve hc hg => ⟨fun hr => State.reduceStep_none hserve hc hg hr,
      fun d i a b hr ha hb => State.reduceStep_some hserve hc hg hr ha hb, fun op r ha hp => ?_⟩, fun v s hm => ?_,
    fun x s hserve hx hcolls hacked => ⟨fun hh => ?_, fun hh hdue => ?_⟩, fun p vc k at_ s hm hholds => ⟨fun hearly => ?_, fun hdue => ?_⟩⟩
  · have reg : exec (.groupRegister v) s = .next (s.setFld (R.RED_GCTL v.val) F.RED_GCTL_STATUS stBusy) :=
      (State.whenMain_next _ hm).trans (congrArg Host.Outcome.next (State.register_busy hbusy))
    have unreg : exec (.groupUnregister v) s = .next (s.setFld (R.RED_GCTL v.val) F.RED_GCTL_STATUS stBusy) :=
      (State.whenMain_next _ hm).trans (congrArg Host.Outcome.next (State.unregister_busy hbusy))
    have shown := s.fld_setFld_same (R.RED_GCTL v.val) F.RED_GCTL_STATUS stBusy (by decide) (by decide)
    exact ⟨_, _, reg, unreg, shown, shown, .setFld _ _ _ (List.mem_singleton_self _), .setFld _ _ _ (List.mem_singleton_self _)⟩
  · obtain ⟨-, hvalid, -, hbound, hgroup, hregs, hmem⟩ := s.bindGroup_spec (status := stDone) none v.isLt (by decide)
    exact ⟨_, (State.whenMain_next _ hm).trans (congrArg Host.Outcome.next (State.unregister_free hfree)), hgroup, hvalid, hbound, hregs, hmem⟩
  · obtain ⟨hstatus, hvalid, hgid, hbound, hgroup, -⟩ := u.bindGroup_spec (status := stDone) (some (groupNamed u.ownAddr b)) v.isLt (by decide)
    refine ⟨_, (State.whenMain_next _ hm).trans (congrArg Host.Outcome.next (State.register_binds hfree hread hok hslots)), hvalid,
      hgid _ rfl (leField_byte_lt b 0), hstatus, hbound, ?_⟩
    rw [hgroup]
    rfl
  · rw [t.exec_request rfl, State.deliver_coll (t.mode ▸ hmode) (.inl ⟨rfl, rfl⟩)]
  · rw [t.exec_request rfl, State.deliver_coll (t.mode ▸ hmode) (.inr (.inl ⟨rfl, rfl⟩))]
  · rw [t.exec_request rfl, State.deliver_coll (t.mode ▸ hmode) (.inr (.inr ⟨rfl, rfl⟩))]
  · have hexec : exec (.redAck h b) s = .next (s.redAckRx h) := by
      refine (State.whenServing_next _ a.serving).trans (congrArg Host.Outcome.next ((a.packetRx _).trans ?_))
      dsimp only
      rw [herr]
      rfl
    exact ⟨_, hexec, fun x hx => State.redTx_redAckRx hx, .of_eq rfl rfl, .of_eq rfl rfl⟩
  · exact (State.whenServing_next _ hserve).trans (congrArg Host.Outcome.next (State.substitutePoint_alone hc hg ha hp))
  · intro e
    refine ⟨fun h => (State.whenMain_next _ hm).trans (congrArg Host.Outcome.next (if_pos h)), fun hbits hlo hhi hcap => ?_⟩
    have he : e < 2 ^ 48 := Nat.mod_lt _ (by decide)
    obtain ⟨hword, hregs⟩ := State.holdVeto_open (s := s) (bits := vetoSoftware) hlo hhi he (by decide)
    have hset : s.vetoSet v = s.holdVeto e vetoSoftware := by
      refine (if_neg ?_).trans (State.vetoEvent_open hlo hhi hcap)
      rintro (h | h)
      · exact h hbits
      · exact absurd hlo (Nat.not_lt.mpr h)
    exact ⟨_, (State.whenMain_next _ hm).trans (congrArg Host.Outcome.next hset), hword, hregs, s.holdVeto_sameMemory _ _⟩
  · exact (State.whenServing_next _ hserve).trans (congrArg Host.Outcome.next (State.holdsEnd_held hx hh))
  · refine ⟨_, (State.whenServing_next _ hserve).trans (congrArg Host.Outcome.next (State.holdsEnd_due hx hcolls hacked hh hdue)), ?_, ?_⟩
    · rw [(State.kept_ackSeg _ _ _).1, (State.kept_withRedRx _).1]
    · exact .step .withRedRx .ackSeg
  · refine (State.exec_creditHoldEnd hm).trans (congrArg Host.Outcome.next ?_)
    rw [State.creditsKept hholds hearly, hholds, List.filter_cons, if_neg (by simpa using hearly), ← hholds]
    exact State.withCreditHolds_self
  · refine ⟨_, (State.exec_creditHoldEnd hm).trans ?_, State.creditHolds_sendCredit (s := s.withCreditHolds []) p vc k, rfl,
      .step .withCreditHolds (.emit _ _), .step .withCreditHolds (.emit _ _)⟩
    rw [State.creditsGone hholds hdue, hholds, List.filter_cons, if_pos (by simpa using hdue)]
    rfl

end Sys2Proof.Machine
end

section
/-!
PROOFS. The stacks of memory: near-memory updates, the scrub, a pseudo-channel that fails.
-/

namespace Sys2Proof.Machine

open Sys2Proof

/-! ### A near-memory update (R251, R265) -/

section Update
variable {s : State} {st n : Nat} {u : NmaUpdate} {r : CvRes}

/-- What of a state the writing of one number into memory needs to be known by: its bytes and the updates that wait. -/
def NmaSame (s t : State) : Prop := t.mem = s.mem ∧ t.nmaUpdates = s.nmaUpdates

theorem NmaSame.trans {s t u : State} (h : NmaSame s t) (g : NmaSame t u) : NmaSame s u := ⟨g.1.trans h.1, g.2.trans h.2⟩

theorem NmaSame.setFld (a : Nat) (f : Field) (v : Nat) : NmaSame s (s.setFld a f v) := ⟨rfl, rfl⟩

theorem NmaSame.updCmd (q k : Nat) (f : Cmd → Cmd) : NmaSame s (s.updCmd q k f) := ⟨rfl, rfl⟩

theorem State.hold_nmaSame (x q k : Nat) : NmaSame s (s.hold st x q k) := by
  unfold State.hold
  dsimp only
  split
  · exact ⟨rfl, rfl⟩
  · exact ⟨rfl, rfl⟩

theorem State.updateDone_nmaSame : NmaSame s (s.updateDone st u r) := by
  have counted (t : State) (a : Nat) (f g : Field) (i j : Nat) : NmaSame s t → NmaSame s ((t.count a f i).count a g j) := fun h =>
    h.trans (.trans (.setFld _ _ _) (.setFld _ _ _))
  have done := counted _ (R.NMA_EV st) F.NMA_EV_OVERFLOW F.NMA_EV_INVALID (b2n r.ovf) (b2n r.inv)
    (NmaSame.setFld (s := s) (R.NMA_UPD st) F.NMA_UPD_APPLIED ((s.fld (R.NMA_UPD st) F.NMA_UPD_APPLIED + 1) % 2 ^ F.NMA_UPD_APPLIED.width))
  unfold State.updateDone
  dsimp only
  split
  · split
    · exact done.trans (.trans (.updCmd _ _ _) (.updCmd _ _ _))
    · exact done.trans (.updCmd _ _ _)
  · exact done

theorem mem_zip_leBytes {a k : Nat} {p : Nat × Byte} (h : p ∈ ((List.range n).map (fun i => a + i)).zip (leBytes k n)) :
    ∃ i < n, p = (a + i, byteN k i) := by
  rw [leBytes, List.zip_map, List.mem_map] at h
  obtain ⟨x, hx, rfl⟩ := h
  obtain ⟨j, hj⟩ := List.mem_iff_getElem.mp hx
  simp only [List.length_zip, List.length_range, List.getElem_zip, List.getElem_range] at hj
  obtain ⟨hlt, rfl⟩ := hj
  exact ⟨j, by omega, rfl⟩

theorem zip_leBytes_mem {a k i : Nat} (hi : i < n) :
    (a + i, byteN k i) ∈ ((List.range n).map (fun i => a + i)).zip (leBytes k n) := by
  rw [leBytes, List.zip_map, List.mem_map]
  refine ⟨(i, i), List.mem_iff_getElem.mpr ⟨i, by simpa using hi, ?_⟩, rfl⟩
  simp

/-- The bytes of a number that is stored, and the bytes around it. -/
theorem State.memByte_poke_number (a k : Nat) :
    (∀ i < n, memByte (s.poke (((List.range n).map (fun i => a + i)).zip (leBytes k n))).mem (a + i) = byteN k i) ∧
    ∀ x, x < a ∨ a + n ≤ x → memByte (s.poke (((List.range n).map (fun i => a + i)).zip (leBytes k n))).mem x = memByte s.mem x := by
  refine ⟨fun i hi => memByte_writes _ _ (fun p hp hpa => ?_) (.inl ⟨_, zip_leBytes_mem hi, rfl⟩), fun x hx =>
    memByte_writes_other _ _ fun p hp => ?_⟩
  · obtain ⟨j, -, rfl⟩ := mem_zip_leBytes hp
    obtain rfl : j = i := Nat.add_left_cancel hpa
    rfl
  · obtain ⟨j, hj, rfl⟩ := mem_zip_leBytes hp
    dsimp only
    omega

/-- The state without an update that is taken. -/
def State.withoutUpdate (s : State) (u : NmaUpdate) : State := { s with nmaUpdates := s.nmaUpdates.erase u }

theorem State.kept_withoutUpdate : (s.withoutUpdate u).mem = s.mem ∧ (s.withoutUpdate u).nmaUpdates = s.nmaUpdates.erase u ∧
    (s.withoutUpdate u).altered = s.altered ∧ ∀ k, (s.withoutUpdate u).byteAt k = s.byteAt k := ⟨rfl, rfl, rfl, fun _ => rfl⟩

/-- What the update u of sound memory stores. -/
def State.updateResult (s : State) (u : NmaUpdate) : CvRes :=
  nmaApply u.op u.fmt u.ovfInf (ofLe ((List.range (fmtBits u.fmt / 8)).map (fun i => s.byteAt (u.addr + i)))) u.val

/-- The state with the result of an update stored at its place. -/
def State.stored (s : State) (u : NmaUpdate) (r : CvRes) : State :=
  s.poke (((List.range (fmtBits u.fmt / 8)).map (fun i => u.addr + i)).zip (leBytes r.code (fmtBits u.fmt / 8)))

theorem State.nmaStep_sound (h : s.altered = []) (hf : u.fmt ≠ fAcc64) :
    NmaSame ((s.withoutUpdate u).stored u (s.updateResult u)) (s.nmaStep st u) := by
  have sound : (s.withoutUpdate u).pattern (codeUnit u.addr) = 0 := by
    rw [State.pattern, State.kept_withoutUpdate.2.2.1, h]
    rfl
  unfold State.nmaStep
  rw [← State.withoutUpdate]
  extract_lets t n sec who combine held
  rw [if_pos (by simp [sound, t, sec])]
  dsimp only
  rw [if_neg Bool.false_ne_true, if_neg fun h => hf h.1, List.map_map]
  have value : nmaApply u.op u.fmt u.ovfInf (ofLe ((List.range n).map (t.byteAt ∘ fun i => u.addr + i))) u.val = s.updateResult u := rfl
  rw [value]
  have merged {x y : State} (c : Prop) [Decidable c] (hy : NmaSame x y) : NmaSame x (if c then y else x) := by
    split
    · exact hy
    · exact ⟨rfl, rfl⟩
  exact .trans (merged _ (.setFld _ _ _)) (.trans (merged _ (State.hold_nmaSame _ _ _)) State.updateDone_nmaSame)

theorem State.stored_kept : (s.stored u r).nmaUpdates = s.nmaUpdates := rfl

theorem State.exec_nmaUpdate {st : Fin 16} (hs : s.serving = true) (hf : s.nmaUpdates.find? (fun x => hbmStack x.addr == st.val) = some u) :
    exec (.nmaUpdate st) s = .next (if s.stackOn st.val then s.nmaStep st.val u else s) := by
  refine (State.whenServing_next _ hs).trans (congrArg Host.Outcome.next ?_)
  rw [hf]

end Update

/-! ### The scrub (R267) -/

section Scrub
variable {s : State} {st : Nat}

/-- NMA_SCRUB and NMA_STAT after sector i, which is the last of its stack or not. -/
def State.scrubbed (s : State) (st i : Nat) (last : Bool) : State :=
  (s.setFld (R.NMA_SCRUB st) F.NMA_SCRUB_SECTOR ((i + 1) % 2 ^ 30)).setFld (R.NMA_STAT st) F.NMA_STAT_SCRUBBING (b2n !last)

theorem State.fld_withCeSeen (l : List Nat) (a : Nat) (f : Field) : (s.withCeSeen l).fld a f = s.fld a f := rfl

theorem SameRegsBut.withCeSeen {m l : List Nat} : SameRegsBut m s (s.withCeSeen l) := .of_eq rfl rfl

theorem SameMemory.withCeSeen {l : List Nat} : SameMemory s (s.withCeSeen l) := .of_eq rfl rfl

/-- The state at the end of a pass. -/
def State.passEnded (s : State) (st : Nat) : State :=
  (s.countWrap (R.NMA_SCRUB st) F.NMA_SCRUB_PASSES 1).withCeSeen (s.ceSeen.filter (fun x => hbmStack x != st))

theorem State.fld_passEnded : (s.passEnded st).fld (R.NMA_SCRUB st) F.NMA_SCRUB_SECTOR = s.fld (R.NMA_SCRUB st) F.NMA_SCRUB_SECTOR :=
  (State.fld_withCeSeen _ _ _).trans (State.fld_setFld_apart s _ _ _ _ (by decide) (by decide))

theorem SameRegsBut.passEnded {l : List Nat} (h : R.NMA_SCRUB st ∈ l) : SameRegsBut l s (s.passEnded st) :=
  .step (.setFld _ _ _ h) .withCeSeen

theorem SameMemory.passEnded : SameMemory s (s.passEnded st) := .step (.setFld _ _ _ _) .withCeSeen

theorem nmaStat_ne_nmaScrub (st : Nat) : R.NMA_STAT st ≠ R.NMA_SCRUB st := by
  rw [R.NMA_STAT, R.NMA_SCRUB]
  omega

theorem State.scrubbed_spec (i : Nat) (last : Bool) :
    (s.scrubbed st i last).fld (R.NMA_SCRUB st) F.NMA_SCRUB_SECTOR = (i + 1) % 2 ^ 30 ∧
    SameRegsBut [R.NMA_SCRUB st, R.NMA_STAT st] s (s.scrubbed st i last) ∧ SameMemory s (s.scrubbed st i last) :=
  ⟨(State.fld_setFld_other _ _ _ _ _ _ (nmaStat_ne_nmaScrub st)).trans
      (State.fld_setFld_same _ _ _ _ (by decide) (Nat.mod_lt _ (by decide))),
    .step (.setFld _ _ _ (by simp)) (.setFld _ _ _ (by simp)), .step (.setFld _ _ _ _) (.setFld _ _ _ _)⟩

/-- What the scrub does after sector i. -/
def State.scrubOn (s : State) (st i : Nat) (last : Bool) : State :=
  if last then (s.scrubbed st i last).passEnded st else s.scrubbed st i last

theorem State.scrubOn_spec (i : Nat) (last : Bool) :
    (s.scrubOn st i last).fld (R.NMA_SCRUB st) F.NMA_SCRUB_SECTOR = (i + 1) % 2 ^ 30 ∧
    SameRegsBut [R.NMA_SCRUB st, R.NMA_STAT st] s (s.scrubOn st i last) ∧ SameMemory s (s.scrubOn st i last) := by
  obtain ⟨hsector, hregs, hmem⟩ := s.scrubbed_spec (st := st) i last
  cases last
  · exact ⟨hsector, hregs, hmem⟩
  · exact ⟨State.fld_passEnded.trans hsector, hregs.step (.passEnded (List.mem_cons_self ..)), hmem.step .passEnded⟩

/-- The scrub of a sound sector of a stack that is up moves on to the next one. -/
theorem State.exec_patrolScrub {st : Fin 16} (hm : s.mainUp = true) (hc : s.fld (R.NMA_CFG st.val) F.NMA_CFG_SCRUB_HOURS ≠ 0)
    (hup : s.stackUp st.val = true) (hheld : s.held = [])
    (hp : s.pattern (hbmKey st.val (64 * s.fld (R.NMA_SCRUB st.val) F.NMA_SCRUB_SECTOR)) = 0) :
    exec (.patrolScrub st) s = .next (s.scrubOn st.val (s.fld (R.NMA_SCRUB st.val) F.NMA_SCRUB_SECTOR)
      (decide (s.fld (R.NMA_SCRUB st.val) F.NMA_SCRUB_SECTOR + 1 = 2 ^ 30))) := by
  refine (State.whenMain_next _ hm).trans (congrArg Host.Outcome.next ?_)
  rw [if_pos (by rw [hup, Bool.true_and]; exact bne_iff_ne.mpr hc)]
  dsimp only
  rw [State.writeBackHeld, if_pos hheld, State.scrubSector, if_pos hp]
  rfl

end Scrub

/-! ### A pseudo-channel that fails (R264) -/

section Fail
variable {s : State} {k pc : Nat}

/-- The marks of a failed pseudo-channel: its own, and its stack's, out of service. -/
def State.pcMarked (s : State) (k pc : Nat) : State :=
  ((s.setBit (R.NMA_PC_FAIL k) F.NMA_PC_FAIL_FAILED pc true).setFld (R.NMA_STAT k) F.NMA_STAT_IN_SERVICE 0).setBit
    R.ID_UNITS F.ID_UNITS_STACK_IN_SERVICE k false

/-- The state without the near-memory updates of stack k, which fail, and the sectors that it holds. -/
def State.stackGone (s : State) (k : Nat) : State :=
  let s := (s.nmaUpdates.filter (fun u => hbmStack u.addr == k)).foldl (fun s u => s.updateFails u stData) s
  { s with held := sparseDel s.held k, nmaUpdates := s.nmaUpdates.filter (fun u => hbmStack u.addr != k) }

theorem State.updateFails_kept (u : NmaUpdate) (status : Nat) :
    (s.updateFails u status).regs = s.regs ∧ (s.updateFails u status).mem = s.mem ∧ (s.updateFails u status).altered = s.altered := by
  unfold State.updateFails
  dsimp only
  split
  · split
    · exact ⟨rfl, rfl, rfl⟩
    · exact ⟨rfl, rfl, rfl⟩
  · exact ⟨rfl, rfl, rfl⟩

theorem State.stackGone_kept : (s.stackGone k).regs = s.regs ∧ (s.stackGone k).mem = s.mem ∧ (s.stackGone k).altered = s.altered := by
  have failed (l : List NmaUpdate) (t : State) : (l.foldl (fun s u => s.updateFails u stData) t).regs = t.regs ∧
      (l.foldl (fun s u => s.updateFails u stData) t).mem = t.mem ∧ (l.foldl (fun s u => s.updateFails u stData) t).altered = t.altered := by
    induction l generalizing t with
    | nil => exact ⟨rfl, rfl, rfl⟩
    | cons u l ih =>
      obtain ⟨hregs, hmem, haltered⟩ := ih (t.updateFails u stData)
      obtain ⟨hregs', hmem', haltered'⟩ := t.updateFails_kept u stData
      exact ⟨hregs.trans hregs', hmem.trans hmem', haltered.trans haltered'⟩
  exact failed _ s

theorem State.fld_stackGone (a : Nat) (f : Field) : (s.stackGone k).fld a f = s.fld a f := by
  rw [State.fld, State.reg, State.stackGone_kept.1]
  rfl

theorem SameMemory.stackGone : SameMemory s (s.stackGone k) := .of_eq State.stackGone_kept.2.1 State.stackGone_kept.2.2

/-- A failure in FULL leads to DEGRADED, and the pair hears of it. -/
def State.degrade (s : State) : State := (if s.mode = mFull then s.enterMode mDegraded else s).faultHandover

theorem State.degrade_spec : (s.mode = mFull → s.degrade.mode = mDegraded) ∧
    BootFrame (fun a => IsHandoverReg a ∨ a = R.ID_STATE) s s.degrade := by
  have entered : BootFrame (fun a => IsHandoverReg a ∨ a = R.ID_STATE) s (if s.mode = mFull then s.enterMode mDegraded else s) :=
    .ite (State.enterMode_rest.mono fun a h => h.imp_left .inl) (.refl s)
  refine ⟨fun h => ?_, entered.trans (State.faultHandover_frame.mono fun _ => .inl)⟩
  rw [State.degrade, if_pos h, State.faultHandover_frame.mode (by unfold IsHandoverReg IsModeReg IsRecordReg; decide)]
  exact State.mode_enterMode (by decide)

/-- The record of a pseudo-channel that fails. -/
def State.pcRecord (s : State) (k : Nat) : ErrRec :=
  { cls := clsFatal, code := 0x0303, unit := 0xF0 + k, info0 := (s.reg (R.NMA_PC_FAIL k)).toNat }

theorem State.exec_pseudoChannelFail {st : Fin 16} {pc : Fin 64} (hm : s.mainUp = true)
    (hb : s.bit R.ID_UNITS F.ID_UNITS_STACK_IN_SERVICE st.val = true) : exec (.pseudoChannelFail st pc) s =
      .next (((s.pcMarked st.val pc.val).errRecord ((s.pcMarked st.val pc.val).pcRecord st.val)).stackGone st.val).degrade := by
  refine (State.whenMain_next _ hm).trans (congrArg Host.Outcome.next ?_)
  exact if_neg (by rw [hb]; exact Bool.noConfusion)

theorem idUnits_ne_nma (k : Nat) : R.ID_UNITS ≠ R.NMA_PC_FAIL k ∧ R.ID_STATE ≠ R.NMA_PC_FAIL k ∧ R.NMA_STAT k ≠ R.NMA_PC_FAIL k ∧
    R.NMA_PC_FAIL k ≠ R.ID_STATE ∧ R.NMA_STAT k ≠ R.ID_STATE := by
  rw [R.ID_UNITS, R.ID_STATE, R.NMA_STAT, R.NMA_PC_FAIL, nmaBase]
  omega

theorem State.pcMarked_spec (hk : k < 16) (hpc : pc < 64) : (s.pcMarked k pc).bit R.ID_UNITS F.ID_UNITS_STACK_IN_SERVICE k = false ∧
    (s.pcMarked k pc).bit (R.NMA_PC_FAIL k) F.NMA_PC_FAIL_FAILED pc = true ∧ (s.pcMarked k pc).mode = s.mode ∧
    SameMemory s (s.pcMarked k pc) := by
  obtain ⟨hunits, -, hstat, hpcState, hstatState⟩ := idUnits_ne_nma k
  refine ⟨State.bit_setBit _ (by decide) hk, ?_, ?_, .step (.step (.setFld _ _ _ _) (.setFld _ _ _ _)) (.setFld _ _ _ _)⟩
  · rw [State.pcMarked, State.bit, State.setBit, State.fld_setFld_other _ _ _ _ _ _ hunits, State.fld_setFld_other _ _ _ _ _ _ hstat]
    exact State.bit_setBit _ (by decide) hpc
  · rw [State.mode, State.pcMarked, State.setBit, State.fld_setFld_other _ _ _ _ _ _ (by decide), State.fld_setFld_other _ _ _ _ _ _ hstatState,
      State.setBit, State.fld_setFld_other _ _ _ _ _ _ hpcState, State.mode]

theorem not_isRecordReg_nma (k : Nat) : ¬ IsRecordReg (R.NMA_PC_FAIL k) := by
  unfold IsRecordReg
  rw [R.NMA_PC_FAIL, nmaBase, R.HOSTP_ALERT, R.HOSTP_EVT_CNT]
  omega

theorem not_isHandoverReg_nma (k : Nat) : ¬ (IsHandoverReg (R.NMA_PC_FAIL k) ∨ R.NMA_PC_FAIL k = R.ID_STATE) := by
  unfold IsHandoverReg IsModeReg IsRecordReg
  simp only [List.mem_cons, List.not_mem_nil, or_false]
  rw [R.NMA_PC_FAIL, nmaBase, R.HOSTP_ALERT, R.HOSTP_EVT_CNT, R.PEND_STAT, R.PEND_CNT, R.HOSTP_STAT, R.ID_STATE]
  omega

end Fail

/-- Settles O50. -/
theorem stackEvents : Obligations.StackEvents := by
  refine ⟨fun st u s hs hf => ⟨fun hoff => ?_, fun hon halt hfmt => ?_⟩, fun st s hs hf => ?_, fun st s hm => ⟨fun hc => ?_,
    fun hc hup hheld hp => ?_⟩, fun st pc s hm => ⟨fun hb => ?_, fun hb => ?_⟩, fun st pc s => rfl⟩
  · rw [State.exec_nmaUpdate hs hf, if_neg (by simp [hoff])]
  · obtain ⟨hmem, hupdates⟩ := State.nmaStep_sound (st := st.val) halt hfmt
    obtain ⟨hbytes, hothers⟩ := (s.withoutUpdate u).memByte_poke_number (n := fmtBits u.fmt / 8) u.addr (s.updateResult u).code
    refine ⟨_, (State.exec_nmaUpdate hs hf).trans (congrArg Host.Outcome.next (if_pos hon)), fun i hi => ?_, fun k hk => ?_,
      hupdates.trans (State.stored_kept.trans State.kept_withoutUpdate.2.1)⟩
    · rw [hmem]
      exact hbytes i hi
    · rw [hmem]
      exact hothers k hk
  · refine (State.whenServing_next _ hs).trans (congrArg Host.Outcome.next ?_)
    rw [hf]
  · refine (State.whenMain_next _ hm).trans (congrArg Host.Outcome.next (if_neg ?_))
    simp [hc]
  · exact ⟨_, State.exec_patrolScrub hm hc hup hheld hp, State.scrubOn_spec _ _⟩
  · exact (State.whenMain_next _ hm).trans (congrArg Host.Outcome.next (if_pos hb))
  · obtain ⟨hunits, hfailed, hmode, hmem⟩ := s.pcMarked_spec st.isLt pc.isLt
    have hrec := (s.pcMarked st.val pc.val).errRecord_recordFrame ((s.pcMarked st.val pc.val).pcRecord st.val)
    obtain ⟨hdegraded, hframe⟩ := (((s.pcMarked st.val pc.val).errRecord _).stackGone st.val).degrade_spec
    have kept {a : Nat} (f : Field) (i : Nat) (h : ¬ (IsHandoverReg a ∨ a = R.ID_STATE)) (h' : ¬ IsRecordReg a) :
        (((s.pcMarked st.val pc.val).errRecord ((s.pcMarked st.val pc.val).pcRecord st.val)).stackGone st.val).degrade.bit a f i = (s.pcMarked st.val pc.val).bit a f i := by
      rw [State.bit, hframe.fld f h, State.fld_stackGone, hrec.fld f h', State.bit]
    refine ⟨_, State.exec_pseudoChannelFail hm hb, ?_, ?_, fun h => hdegraded ?_, hmem.step (hrec.sameMemory.step (.step .stackGone hframe.sameMemory))⟩
    · rw [kept _ _ (by unfold IsHandoverReg IsModeReg IsRecordReg; decide) (by unfold IsRecordReg; decide), hunits]
    · rw [kept _ _ (not_isHandoverReg_nma _) (not_isRecordReg_nma _), hfailed]
    · rw [State.mode, State.fld_stackGone, hrec.fld _ (by unfold IsRecordReg; decide), ← State.mode, hmode, h]

end Sys2Proof.Machine
end

section
/-!
PROOFS. What sending over the fabric leaves alone; and the events of its ports: training, frames, HELLO, admission, loss.
-/

namespace Sys2Proof.Machine

open Sys2Proof

/-! ### What sending over the fabric changes: the links, the fabric's lists, and what went out -/

/-- `t` is `s` after some sending over the fabric. -/
structure NetFrame (s t : State) : Prop where
  rest : t = { s with links := t.links, fabric := t.fabric, out := t.out }

/-- The state with the fabric's lists and counts f. -/
def State.withFabric (s : State) (f : FabricInt) : State := { s with fabric := f }

theorem State.withFabric_self {s : State} : s.withFabric s.fabric = s := rfl

theorem State.fabric_withFabric {s : State} (f : FabricInt) : (s.withFabric f).fabric = f := rfl

namespace NetFrame
variable {s t u : State}

theorem refl : NetFrame s s := ⟨rfl⟩

theorem trans (h : NetFrame s t) (g : NetFrame t u) : NetFrame s u where
  rest := g.rest.trans (congrArg (fun x : State => { x with links := u.links, fabric := u.fabric, out := u.out }) h.rest)

theorem ite {c : Prop} [Decidable c] (ht : NetFrame s t) (hu : NetFrame s u) : NetFrame s (if c then t else u) := by
  split
  · exact ht
  · exact hu

theorem foldl {α : Type} {g : State → α → State} {l : List α} (hg : ∀ t x, NetFrame t (g t x)) : NetFrame s (l.foldl g s) := by
  induction l generalizing s with
  | nil => exact refl
  | cons x l ih => exact (hg s x).trans ih

theorem regs (h : NetFrame s t) : t.regs = s.regs := by rw [h.rest]

theorem staged (h : NetFrame s t) : t.staged = s.staged := by rw [h.rest]

theorem mem (h : NetFrame s t) : t.mem = s.mem := by rw [h.rest]

theorem altered (h : NetFrame s t) : t.altered = s.altered := by rw [h.rest]

theorem now (h : NetFrame s t) : t.now = s.now := by rw [h.rest]

theorem members (h : NetFrame s t) : t.members = s.members := by rw [h.rest]

theorem queues (h : NetFrame s t) : t.queues = s.queues := by rw [h.rest]

theorem pend (h : NetFrame s t) : t.pend = s.pend := by rw [h.rest]

theorem reg (h : NetFrame s t) (a : Nat) : t.reg a = s.reg a := by rw [State.reg, h.regs, State.reg]

theorem fld (h : NetFrame s t) (a : Nat) (f : Field) : t.fld a f = s.fld a f := by rw [State.fld, h.reg, State.fld]

theorem portLinked (h : NetFrame s t) (p : Nat) : t.portLinked p = s.portLinked p := by
  unfold State.portLinked
  rw [h.fld]

theorem sameRegs {l : List Nat} (h : NetFrame s t) : SameRegsBut l s t := .of_eq h.regs h.staged

theorem sameMemory (h : NetFrame s t) : SameMemory s t := .of_eq h.mem h.altered

theorem keepsReg {a : Nat} (h : NetFrame s t) : KeepsReg a s t := ⟨h.mem, h.reg a⟩

theorem setLink {p : Nat} {l : LinkPort} : NetFrame s (s.setLink p l) := ⟨rfl⟩

theorem withFabric {f : FabricInt} : NetFrame s (s.withFabric f) := ⟨rfl⟩

theorem emit {o : Out} : NetFrame s (s.emit o) := ⟨rfl⟩

theorem egress {p : Nat} {r : RawPkt} : NetFrame s (s.egress p r) := trans (trans setLink setLink) emit

theorem sendRaw {r : RawPkt} : NetFrame s (s.sendRaw r) := by
  unfold State.sendRaw
  split
  · exact egress
  · exact ite withFabric refl

theorem sendVc0 {p type : Nat} {body : List Byte} : NetFrame s (s.sendVc0 p type body) := egress

theorem floodVc0 {but type : Nat} {body : List Byte} : NetFrame s (s.floodVc0 but type body) := foldl fun _ _ => ite sendVc0 refl

theorem releaseWaiting : NetFrame s s.releaseWaiting := by
  unfold State.releaseWaiting
  refine trans withFabric (foldl fun v w => ite refl ?_)
  split
  · exact egress
  · exact withFabric

theorem electLearn {x : Nat} : NetFrame s (s.electLearn x) := ite (trans withFabric floodVc0) refl

theorem electSelf : NetFrame s s.electSelf := ite electLearn refl

theorem sendMember : NetFrame s s.sendMember := floodVc0

end NetFrame

section Links
variable {s : State} {p : Nat}

theorem State.link_setLink (l : LinkPort) : (s.setLink p l).link p = l := sparseGet_set_same _ _ _ _

theorem State.link_emit (o : Out) : (s.emit o).link p = s.link p := rfl

/-- A link that sends a packet spends credit, takes its number, and keeps the packet until it is acknowledged. -/
theorem State.link_egress (r : RawPkt) : ∃ c n l, (s.egress p r).link p = { s.link p with credits := c, txSeq := n, unacked := l } := by
  unfold State.egress State.spendCredit
  dsimp only
  exact ⟨_, _, _, by rw [State.link_emit, State.link_setLink, State.link_setLink]⟩

theorem State.length_out_egress (r : RawPkt) : (s.egress p r).out.length = s.out.length + 1 := rfl

theorem State.length_out_emit (o : Out) : (s.emit o).out.length = s.out.length + 1 := rfl

theorem State.electSelf_barred (h : s.fld R.RYF_CFG F.RYF_CFG_COORD_ELIG ≠ 1) : s.electSelf = s := if_neg h

theorem State.memberRefresh_follower (h : s.fld R.RYF_STAT F.RYF_STAT_COORD = 0) : s.memberRefresh = s := if_pos h

theorem State.releaseWaiting_none (h : s.fabric.bulkWait = []) : s.releaseWaiting = s := by
  unfold State.releaseWaiting
  rw [h]
  have same : ({ s.fabric with bulkWait := [] } : FabricInt) = s.fabric := by rw [← h]
  exact congrArg s.withFabric same

theorem State.fabric_setLink (l : LinkPort) : (s.setLink p l).fabric = s.fabric := rfl

end Links

/-! ### Training and lanes (R296, R297) -/

section Train
variable {s : State} {p : Nat}

theorem portStat_word {ver : Nat} (h : ver = 2 ∨ ver = 3) :
    F.RYF_PORT_STAT_STATE.get (BitVec.ofNat 64 (2 + ver * 16 + 4 * 256)) = 2 ∧
    F.RYF_PORT_STAT_VERSION.get (BitVec.ofNat 64 (2 + ver * 16 + 4 * 256)) = ver ∧
    F.RYF_PORT_STAT_WIDTH.get (BitVec.ofNat 64 (2 + ver * 16 + 4 * 256)) = 4 := by
  rcases h with rfl | rfl <;> decide

theorem ryfPort_apart (p : Nat) : R.RYF_PORT_STAT p ≠ R.RYF_CFG ∧ R.RYF_PORT_STAT p ≠ R.RYF_STAT ∧ R.RYF_PORT_LINKCNT p ≠ R.RYF_STAT ∧
    R.RYF_PORT_LINKCNT p ≠ R.RYF_PORT_STAT p ∧ R.RYF_CNT ≠ R.RYF_PORT_STAT p ∧ R.RYF_PORT_FEC p ≠ R.RYF_PORT_LINKCNT p := by
  rw [R.RYF_PORT_STAT, R.RYF_CFG, R.RYF_STAT, R.RYF_PORT_LINKCNT, R.RYF_CNT, R.RYF_PORT_FEC]
  omega

theorem not_isRecordReg_port (p : Nat) (hp : p < 16) : ¬ IsRecordReg (R.RYF_PORT_STAT p) := by
  unfold IsRecordReg
  rw [R.RYF_PORT_STAT, R.HOSTP_ALERT, R.HOSTP_EVT_CNT]
  omega

/-- The state of a port that has trained, before HELLO. -/
def State.trained (s : State) (p ver : Nat) (l : LinkPort) : State :=
  (s.setReg (R.RYF_PORT_STAT p) (BitVec.ofNat 64 (2 + ver * 16 + 4 * 256))).setLink p l

theorem SameRegsBut.setLink {l : List Nat} {x : LinkPort} : SameRegsBut l s (s.setLink p x) := NetFrame.setLink.sameRegs

theorem SameMemory.setLink {x : LinkPort} : SameMemory s (s.setLink p x) := NetFrame.setLink.sameMemory

theorem State.trained_spec {ver : Nat} (l : LinkPort) (hv : ver = 2 ∨ ver = 3) :
    (s.trained p ver l).fld (R.RYF_PORT_STAT p) F.RYF_PORT_STAT_STATE = 2 ∧
    (s.trained p ver l).fld (R.RYF_PORT_STAT p) F.RYF_PORT_STAT_VERSION = ver ∧
    (s.trained p ver l).fld (R.RYF_PORT_STAT p) F.RYF_PORT_STAT_WIDTH = 4 ∧ (s.trained p ver l).link p = l ∧
    SameRegsBut [R.RYF_PORT_STAT p] s (s.trained p ver l) ∧ SameMemory s (s.trained p ver l) := by
  obtain ⟨hstate, hversion, hwidth⟩ := portStat_word hv
  have shown (f : Field) : (s.trained p ver l).fld (R.RYF_PORT_STAT p) f = f.get (BitVec.ofNat 64 (2 + ver * 16 + 4 * 256)) :=
    (NetFrame.setLink.fld _ _).trans (State.fld_setReg_same _ _ _ _)
  exact ⟨(shown _).trans hstate, (shown _).trans hversion, (shown _).trans hwidth, State.link_setLink l,
    .step (.setReg _ _ (List.mem_singleton_self _)) .setLink, .step (.setReg _ _ _) .setLink⟩

/-- A fabric port that is enabled, powered and down trains, and sends HELLO. -/
theorem State.linkUp_fabric {v3 : Bool} {cr : List Nat} (hp : p < 16) (hd : s.portLinked p = false)
    (he : s.fld (R.RYF_PORT_CFG p) F.RYF_PORT_CFG_ENABLE ≠ 0) (hw : s.portPowered p = true) :
    ∃ l body, l.lastRx = s.now ∧ s.linkUp p v3 cr =
      ((s.trained p (if v3 = true ∧ s.maxVer p = 3 then 3 else 2) l).sendVc0 p tHello body).electSelf := by
  have version : (if (v3 && s.maxVer p == 3) = true then 3 else 2) = if v3 = true ∧ s.maxVer p = 3 then 3 else 2 := by simp
  unfold State.linkUp
  extract_lets cr down l ver t
  rw [if_pos hp, if_neg (by simp [hd, he, hw])]
  refine ⟨l, t.helloBytes p, rfl, ?_⟩
  rw [State.trained, ← version]

theorem State.linkUp_barred {v3 : Bool} {cr : List Nat} (hp : p < 16)
    (h : s.portLinked p = true ∨ s.fld (R.RYF_PORT_CFG p) F.RYF_PORT_CFG_ENABLE = 0 ∨ s.portPowered p = false) : s.linkUp p v3 cr = s := by
  unfold State.linkUp
  dsimp only
  rw [if_pos hp, if_pos]
  rcases h with h | h | h
  · simp [h]
  · simp [h]
  · simp [h]

theorem State.linkUp_pendant {v3 : Bool} {cr : List Nat} (hp : 16 ≤ p) (hd : s.pendUp (p - 16) = false) (hw : s.portPowered p = true) :
    ∃ l, s.linkUp p v3 cr = (s.setBit R.PEND_STAT F.PEND_STAT_LINKS (p - 16) true).setLink p l := by
  unfold State.linkUp
  dsimp only
  rw [if_neg (Nat.not_lt.mpr hp), if_neg (by simp [hd, hw])]
  exact ⟨_, rfl⟩

theorem State.pendUp_setLink (q : Nat) (l : LinkPort) : (s.setLink p l).pendUp q = s.pendUp q := rfl

theorem State.pendUp_setBit {i : Nat} (b : Bool) (hi : i < 2) : (s.setBit R.PEND_STAT F.PEND_STAT_LINKS i b).pendUp i = b :=
  State.bit_setBit b (by decide) hi

theorem laneWidth_le (n : Nat) : laneWidth n ≤ 4 := by
  unfold laneWidth
  split
  · exact Nat.le_refl 4
  · split <;> omega

end Train

/-! ### Frames (R298) -/

section Frames
variable {s : State} {p : Nat}

/-- The state with what the wrapper of a frame says of its corrections counted. -/
def State.fecCounted (s : State) (p co un : Nat) : State :=
  (s.count (R.RYF_PORT_FEC p) F.RYF_PORT_FEC_CORRECTED co).count (R.RYF_PORT_FEC p) F.RYF_PORT_FEC_UNCORRECTED un

theorem State.fecCounted_sameRegs (co un : Nat) : SameRegsBut [R.RYF_PORT_FEC p] s (s.fecCounted p co un) :=
  .step (.count _ _ _ (List.mem_singleton_self _)) (.count _ _ _ (List.mem_singleton_self _))

theorem State.fecCounted_sameMemory (co un : Nat) : SameMemory s (s.fecCounted p co un) := .step (.count _ _ _ _) (.count _ _ _ _)

theorem State.fecCounted_links (co un : Nat) : (s.fecCounted p co un).links = s.links := by
  rw [State.fecCounted, State.count_links, State.count_links]

theorem State.fecCounted_fabric (co un : Nat) : (s.fecCounted p co un).fabric = s.fabric := by
  rw [State.fecCounted, State.count_fabric, State.count_fabric]

/-- The link after a good frame: what it acknowledges leaves, its credits are added, the expected number goes on where it is its own. -/
def LinkPort.heard (l : LinkPort) (lseq lack cvc cn : Nat) : LinkPort :=
  let l' := { l with unacked := ackedBy lack l.unacked, credits := sparseSet l.credits cvc (sparseGet l.credits cvc 0 + cn) 0 }
  if l.rxNext = lseq then { l' with rxNext := (l.rxNext + 1) % 4096 } else l'

theorem LinkPort.heard_spec (l : LinkPort) (lseq lack cvc cn : Nat) :
    sparseGet (l.heard lseq lack cvc cn).credits cvc 0 = sparseGet l.credits cvc 0 + cn ∧
    (l.heard lseq lack cvc cn).unacked = ackedBy lack l.unacked ∧
    (l.heard lseq lack cvc cn).rxNext = if l.rxNext = lseq then (l.rxNext + 1) % 4096 else l.rxNext := by
  unfold LinkPort.heard
  dsimp only
  split
  · exact ⟨sparseGet_set_same _ _ _ _, rfl, rfl⟩
  · exact ⟨sparseGet_set_same _ _ _ _, rfl, rfl⟩

theorem State.returnCredit_free (h : s.pert 1 = false) (vc n : Nat) : s.returnCredit p vc n = s.sendCredit p vc n := by
  unfold State.returnCredit
  rw [h]
  exact if_neg Bool.false_ne_true

theorem State.pert_setLink (l : LinkPort) (k : Nat) : (s.setLink p l).pert k = s.pert k := rfl

theorem State.pert_fecCounted (co un k : Nat) : (s.fecCounted p co un).pert k = s.pert k := by
  have other : R.SEC_DEBUG ∉ [R.RYF_PORT_FEC p] ∧ R.PERT_CTL ∉ [R.RYF_PORT_FEC p] := by
    rw [List.mem_singleton, List.mem_singleton, R.SEC_DEBUG, R.PERT_CTL, R.RYF_PORT_FEC]
    omega
  unfold State.pert
  rw [(State.fecCounted_sameRegs co un).fld _ other.1, (State.fecCounted_sameRegs co un).fld _ other.2]

variable {q : Fin 18} {lseq lack : BitVec 12} {cvc cn vc : Fin 16} {co : BitVec 16} {len : Fin 257}

theorem State.exec_frame_bad (hm : s.mainUp = true) (hq : q.val < 16) (hl : s.portLinked q.val = true) (legal : Bool) :
    exec (.linkFrameRx q lseq lack cvc cn false legal co 0 vc len) s =
      .next ((s.fecCounted q.val co.toNat 0).count (R.RYF_PORT_LINKCNT q.val) F.RYF_PORT_LINKCNT_CRC 1) := by
  refine (State.whenMain_next _ hm).trans (congrArg Host.Outcome.next ?_)
  dsimp only
  rw [if_pos hq, hl, if_neg Bool.noConfusion, if_neg (not_not_intro rfl), if_pos rfl, if_pos hq, if_pos hq, if_pos hq]
  rfl

/-- The state after a good frame. -/
def State.heard (s : State) (q : Nat) (lseq lack cvc cn vc len : Nat) : State :=
  let t := s.setLink q ((s.link q).heard lseq lack cvc cn)
  (if (s.link q).rxNext = lseq then t.returnCredit q vc (creditUnits len) else t).releaseWaiting

theorem State.exec_frame_good (hm : s.mainUp = true) (hq : q.val < 16) (hl : s.portLinked q.val = true) :
    exec (.linkFrameRx q lseq lack cvc cn true true co 0 vc len) s =
      .next ((s.fecCounted q.val co.toNat 0).heard q.val lseq.toNat lack.toNat cvc.val cn.val vc.val len.val) := by
  refine (State.whenMain_next _ hm).trans (congrArg Host.Outcome.next ?_)
  extract_lets up cnt t l c l' hit u v
  have hup : ¬ up = false := by
    rw [show up = s.portLinked q.val from if_pos hq, hl]
    exact Bool.noConfusion
  have ht : t = s.fecCounted q.val co.toNat 0 := by
    dsimp only [t, cnt]
    rw [if_pos hq, if_pos hq]
    rfl
  rw [if_neg hup, if_neg (not_not_intro rfl), if_neg Bool.noConfusion, if_neg Bool.noConfusion]
  clear_value t
  subst ht
  rfl

theorem State.heard_spec (lseq lack cvc cn vc len : Nat) (hb : s.fabric.bulkWait = []) (hp : s.pert 1 = false) :
    (s.heard p lseq lack cvc cn vc len).link p = (s.link p).heard lseq lack cvc cn ∧ SameMemory s (s.heard p lseq lack cvc cn vc len) := by
  unfold State.heard
  dsimp only
  split
  · have waits (o : Out) : ((s.setLink p ((s.link p).heard lseq lack cvc cn)).emit o).fabric.bulkWait = [] := by
      rw [State.emit_fabric, State.fabric_setLink, hb]
    rw [State.returnCredit_free ((State.pert_setLink _ _).trans hp), State.sendCredit, State.releaseWaiting_none (waits _), State.link_emit,
      State.link_setLink]
    exact ⟨rfl, .step .setLink (.emit _ _)⟩
  · rw [State.releaseWaiting_none ((congrArg FabricInt.bulkWait (State.fabric_setLink _)).trans hb), State.link_setLink]
    exact ⟨rfl, .setLink⟩

/-- Frames sent again, one after the other. -/
theorem State.foldl_emit {α : Type} (g : α → Out) (l : List α) : (l.foldl (fun s u => s.emit (g u)) s).out.length = s.out.length + l.length ∧
    (l.foldl (fun s u => s.emit (g u)) s).links = s.links ∧ NetFrame s (l.foldl (fun s u => s.emit (g u)) s) := by
  refine ⟨?_, ?_, .foldl fun _ _ => .emit⟩
  · induction l generalizing s with
    | nil => rfl
    | cons x l ih => exact ih.trans (by rw [State.length_out_emit, List.length_cons]; omega)
  · exact List.foldlRecOn (motive := fun t : State => t.links = s.links) _ _ rfl fun t ht x _ => ht

/-- LINK_RETRY counts itself on a fabric port. -/
def State.retryCounted (s : State) (p : Nat) : State := if p < 16 then s.count (R.RYF_PORT_LINKCNT p) F.RYF_PORT_LINKCNT_RETRY 1 else s

theorem State.retryCounted_spec : (s.retryCounted p).links = s.links ∧ (s.retryCounted p).out = s.out ∧
    SameRegsBut [R.RYF_PORT_LINKCNT p] s (s.retryCounted p) ∧ SameMemory s (s.retryCounted p) := by
  unfold State.retryCounted
  split
  · exact ⟨State.count_links .., State.count_out .., .count _ _ _ (List.mem_singleton_self _), .count _ _ _ _⟩
  · exact ⟨rfl, rfl, .refl _ _, .refl _⟩

theorem State.exec_linkRetry (hm : s.mainUp = true) (h : (s.link q.val).unacked ≠ []) :
    exec (.linkRetry q) s = .next ((s.link q.val).unacked.foldl (fun s u => s.emit (u.2.out q.val u.1)) (s.retryCounted q.val)) := by
  refine (State.whenMain_next _ hm).trans (congrArg Host.Outcome.next ?_)
  dsimp only
  split
  · contradiction
  · rfl

theorem State.exec_linkRetry_none (hm : s.mainUp = true) (h : (s.link q.val).unacked = []) : exec (.linkRetry q) s = .next s := by
  refine (State.whenMain_next _ hm).trans (congrArg Host.Outcome.next ?_)
  dsimp only
  rw [h]

end Frames

/-! ### HELLO (R304) -/

section Hello
variable {s : State} {p : Nat}

/-- HELLO on the trained ports of a list: one packet for each. -/
theorem State.foldl_hello (l : List Nat) :
    (l.foldl (fun s p => if s.portLinked p then s.sendVc0 p tHello (s.helloBytes p) else s) s).out.length =
      s.out.length + (l.filter s.portLinked).length ∧
    NetFrame s (l.foldl (fun s p => if s.portLinked p then s.sendVc0 p tHello (s.helloBytes p) else s) s) := by
  refine ⟨?_, .foldl fun _ _ => .ite .sendVc0 .refl⟩
  induction l generalizing s with
  | nil => rfl
  | cons p l ih =>
    rw [List.foldl_cons, ih, List.filter_cons]
    split
    · have same : (s.sendVc0 p tHello (s.helloBytes p)).portLinked = s.portLinked := funext (NetFrame.sendVc0.portLinked)
      rw [same, State.sendVc0, State.length_out_egress, List.length_cons]
      omega
    · rfl

theorem State.foldl_hello_none (l : List Nat) (h : ∀ p ∈ l, s.portLinked p = false) :
    l.foldl (fun s p => if s.portLinked p then s.sendVc0 p tHello (s.helloBytes p) else s) s = s := by
  induction l with
  | nil => rfl
  | cons p l ih =>
    rw [List.foldl_cons, if_neg (by rw [h p (List.mem_cons_self ..)]; exact Bool.noConfusion)]
    exact ih fun q hq => h q (List.mem_cons_of_mem _ hq)

theorem State.exec_helloTimer (hm : s.mainUp = true) (hc : s.fld R.RYF_CFG F.RYF_CFG_COORD_ELIG ≠ 1) : exec .helloTimer s =
    .next ((List.range 16).foldl (fun s p => if s.portLinked p then s.sendVc0 p tHello (s.helloBytes p) else s) s) := by
  refine (State.whenMain_next _ hm).trans (congrArg Host.Outcome.next ?_)
  rw [State.electSelf_barred hc]

theorem peer_word {a q : Nat} (straps : Nat) (ha : a < 2 ^ 16) (hq : q < 16) (hs : straps < 2 ^ 14) :
    F.RYF_PORT_PEER_ADDR.get (BitVec.ofNat 64 (a + q * 2 ^ 16 + straps * 2 ^ 20)) = a := by
  have small : a + q * 2 ^ 16 + straps * 2 ^ 20 < 2 ^ 64 := by omega
  unfold Field.get bitsOf F.RYF_PORT_PEER_ADDR
  rw [BitVec.toNat_ofNat, Nat.mod_eq_of_lt small]
  dsimp only
  omega

theorem ryfPeer_apart (p i : Nat) : R.RYF_PORT_PEER_KEY p i ≠ R.RYF_PORT_PEER_SERIAL p ∧ R.RYF_PORT_PEER_KEY p i ≠ R.RYF_PORT_PEER p ∧
    R.RYF_PORT_PEER_SERIAL p ≠ R.RYF_PORT_PEER p := by
  rw [R.RYF_PORT_PEER_KEY, R.RYF_PORT_PEER_SERIAL, R.RYF_PORT_PEER]
  omega

theorem ryfStat_ne_ryfPeer (p : Nat) : R.RYF_PORT_STAT p ≠ R.RYF_PORT_PEER_SERIAL p ∧ R.RYF_PORT_STAT p ≠ R.RYF_PORT_PEER p := by
  rw [R.RYF_PORT_STAT, R.RYF_PORT_PEER_SERIAL, R.RYF_PORT_PEER]
  omega

/-- The registers that a HELLO of port p writes. -/
def peerRegs (p : Nat) : List Nat := R.RYF_PORT_PEER p :: R.RYF_PORT_PEER_SERIAL p :: (List.range 4).map (R.RYF_PORT_PEER_KEY p)

/-- The digest of a peer's key, in four registers. -/
def State.peerKeyed (s : State) (p : Nat) (b : HelloBody) : State :=
  (List.range 4).foldl (fun s i => s.setReg (R.RYF_PORT_PEER_KEY p i) (BitVec.ofNat 64 (bitsOf b.keyDigest.toNat (64 * i) 64))) s

theorem State.peerKeyed_keeps {a : Nat} (b : HelloBody) (h : ∀ i < 4, R.RYF_PORT_PEER_KEY p i ≠ a) : KeepsReg a s (s.peerKeyed p b) :=
  List.foldlRecOn (motive := KeepsReg a s) _ _ .refl fun _ ht i hi => ht.trans (.setReg (h i (List.mem_range.mp hi)))

theorem State.helloPeer_spec (b : HelloBody) : (s.helloPeer p b).reg (R.RYF_PORT_PEER_SERIAL p) = b.serial ∧
    (s.helloPeer p b).fld (R.RYF_PORT_PEER p) F.RYF_PORT_PEER_ADDR = b.moduleAddr.toNat ∧
    (∀ a, a ∉ peerRegs p → KeepsReg a s (s.helloPeer p b)) ∧ SameMemory s (s.helloPeer p b) := by
  have keyed (t : State) {a : Nat} (h : ∀ i < 4, R.RYF_PORT_PEER_KEY p i ≠ a) := State.peerKeyed_keeps (s := t) b h
  refine ⟨?_, ?_, fun a ha => ?_, ?_⟩
  · exact (keyed _ fun i _ => (ryfPeer_apart p i).1).2.trans (State.reg_setReg_same _ _ _)
  · rw [State.fld, State.helloPeer, ← State.peerKeyed, (keyed _ fun i _ => (ryfPeer_apart p i).2.1).2,
      State.reg_setReg_other _ _ _ _ (ryfPeer_apart p 0).2.2, State.reg_setReg_same]
    exact peer_word _ b.moduleAddr.isLt b.port.isLt b.straps.isLt
  · have other {x : Nat} (hx : x ∈ peerRegs p) : x ≠ a := fun e => ha (e ▸ hx)
    refine .trans (.trans (.setReg (other (List.mem_cons_self ..))) (.setReg (other (List.mem_cons_of_mem _ (List.mem_cons_self ..)))))
      (keyed _ fun i hi => other (List.mem_cons_of_mem _ (List.mem_cons_of_mem _ (List.mem_map_of_mem (List.mem_range.mpr hi)))))
  · exact .step (.step (.setReg _ _ _) (.setReg _ _ _))
      (List.foldlRecOn (motive := SameMemory _) _ _ (.refl _) fun _ ht _ _ => ht.step (.setReg _ _ _))

theorem not_mem_peerRegs (p : Nat) : R.RYF_PORT_CFG p ∉ peerRegs p ∧ (p < 16 → R.RYF_STAT ∉ peerRegs p) := by
  simp only [peerRegs, List.mem_cons, List.mem_map, List.mem_range, not_or, not_exists, not_and]
  rw [R.RYF_PORT_CFG, R.RYF_STAT, R.RYF_PORT_PEER, R.RYF_PORT_PEER_SERIAL]
  refine ⟨⟨by omega, by omega, fun i _ => ?_⟩, fun _ => ⟨by omega, by omega, fun i _ => ?_⟩⟩
  · rw [R.RYF_PORT_PEER_KEY]
    omega
  · rw [R.RYF_PORT_PEER_KEY]
    omega

/-- A port that is ready: its state, then what sending it leads to. -/
theorem State.portReady_follower (h : s.fld R.RYF_STAT F.RYF_STAT_COORD = 0) :
    NetFrame (s.setFld (R.RYF_PORT_STAT p) F.RYF_PORT_STAT_STATE 4) (s.portReady p) := by
  have told : NetFrame (s.setFld (R.RYF_PORT_STAT p) F.RYF_PORT_STAT_STATE 4)
      (if (s.setFld (R.RYF_PORT_STAT p) F.RYF_PORT_STAT_STATE 4).fabric.lowest = 0 then s.setFld (R.RYF_PORT_STAT p) F.RYF_PORT_STAT_STATE 4
       else (s.setFld (R.RYF_PORT_STAT p) F.RYF_PORT_STAT_STATE 4).sendVc0 p tElect
        (leBytes ((s.setFld (R.RYF_PORT_STAT p) F.RYF_PORT_STAT_STATE 4).fabric.lowest - 1) 8)) := .ite .refl .sendVc0
  unfold State.portReady
  dsimp only
  rw [State.memberRefresh_follower ((told.fld _ _).trans ((State.fld_setFld_other _ _ _ _ _ _ (ryfPort_apart p).2.1).trans h))]
  exact told.trans .releaseWaiting

/-- A HELLO on a port in HELLO without admission makes it ready, where this module is no coordinator. -/
theorem State.helloRx_ready {b : HelloBody} (hp : p < 16) (hb : b.coordElig = false) (hc : s.fld R.RYF_STAT F.RYF_STAT_COORD = 0)
    (ha : b.admitReq = false) (hq : s.fld (R.RYF_PORT_CFG p) F.RYF_PORT_CFG_ADMIT_REQ ≠ 1)
    (hs : s.fld (R.RYF_PORT_STAT p) F.RYF_PORT_STAT_STATE = 2) :
    ∃ u, NetFrame (s.helloPeer p b) u ∧ NetFrame (u.setFld (R.RYF_PORT_STAT p) F.RYF_PORT_STAT_STATE 4) (s.helloRx p b) := by
  obtain ⟨-, -, hkeeps, -⟩ := s.helloPeer_spec (p := p) b
  unfold State.helloRx
  extract_lets st l₀ again t l u v w y x
  have hv : v = u := if_neg (by rw [hb]; exact Bool.noConfusion)
  have hx : NetFrame (s.helloPeer p b) x := by
    have hy : NetFrame (s.helloPeer p b) y := NetFrame.trans (hv ▸ .setLink) .setLink
    exact hy.trans (.foldl fun _ _ => .sendVc0)
  have hadmit : x.fld (R.RYF_PORT_CFG p) F.RYF_PORT_CFG_ADMIT_REQ ≠ 1 := by
    rw [hx.fld, State.fld, (hkeeps _ (not_mem_peerRegs p).1).2]
    exact hq
  have hcoord : x.fld R.RYF_STAT F.RYF_STAT_COORD = 0 := by
    rw [hx.fld, State.fld, (hkeeps _ ((not_mem_peerRegs p).2 hp)).2]
    exact hc
  rw [if_pos (.inl hs), if_neg (by simp [ha, hadmit])]
  exact ⟨x, hx, State.portReady_follower hcoord⟩

end Hello

/-! ### Loss (R304, R313) -/

section Loss
variable {s : State} {p : Nat}

theorem isRoute_apart (p : Nat) (hp : p < 16) : isRoute (R.RYF_PORT_STAT p) = false ∧ isRoute R.RYF_STAT = false := by
  unfold isRoute
  rw [R.RYF_PORT_STAT, R.RYF_ROUTE, R.RYF_ROUTE, R.RYF_STAT]
  constructor
  · exact decide_eq_false (by omega)
  · exact decide_eq_false (by omega)

/-- Rerouting writes route entries alone. -/
theorem State.reroute_keeps {a : Nat} (h : isRoute a = false) : KeepsReg a s (s.reroute p).1 := by
  unfold State.reroute
  refine List.foldlRecOn (motive := fun x : State × Nat => KeepsReg a s x.1) _ _ .refl fun x hx b hb => ?_
  have hb' : b ≠ a := fun e => by
    rw [e, State.routes, List.mem_filter, h] at hb
    exact Bool.noConfusion hb.2
  exact hx.trans (.setReg hb')

/-- A port that is down carries nothing. -/
def State.portCleared (s : State) (p : Nat) : State :=
  (((s.setReg (R.RYF_PORT_STAT p) (BitVec.ofNat 64 (if s.fld (R.RYF_PORT_CFG p) F.RYF_PORT_CFG_ENABLE = 0 then 6 else 0))).count
    (R.RYF_PORT_LINKCNT p) F.RYF_PORT_LINKCNT_DOWNS 1).setLink p LinkPort.down).orphanSigns (.admission p)

theorem KeepsReg.orphanSigns {a : Nat} {o : SignOwner} : KeepsReg a s (s.orphanSigns o) := ⟨rfl, rfl⟩

theorem KeepsReg.count {a b n : Nat} {f : Field} (h : b ≠ a) : KeepsReg a s (s.count b f n) := KeepsReg.setFld h

theorem State.portCleared_keeps (p : Nat) : KeepsReg R.RYF_STAT s (s.portCleared p) := by
  obtain ⟨-, hstat, hcnt, -⟩ := ryfPort_apart p
  exact .trans (.trans (.trans (.setReg hstat) (.count hcnt)) NetFrame.setLink.keepsReg) .orphanSigns

theorem State.portCleared_state : (s.portCleared p).fld (R.RYF_PORT_STAT p) F.RYF_PORT_STAT_STATE = 6 ∨
    (s.portCleared p).fld (R.RYF_PORT_STAT p) F.RYF_PORT_STAT_STATE = 0 := by
  obtain ⟨-, -, -, hcnt, -⟩ := ryfPort_apart p
  have kept (t : State) : KeepsReg (R.RYF_PORT_STAT p) t
      (((t.count (R.RYF_PORT_LINKCNT p) F.RYF_PORT_LINKCNT_DOWNS 1).setLink p LinkPort.down).orphanSigns (.admission p)) :=
    .trans (.trans (.count hcnt) NetFrame.setLink.keepsReg) .orphanSigns
  rw [State.fld, State.portCleared, (kept _).2, State.reg_setReg_same]
  split
  · exact .inl (by decide)
  · exact .inr (by decide)

/-- The report of a follower to its coordinator. -/
theorem State.reported_keeps {t u : State} {a : Nat} {c : Prop} [Decidable c] {o : Out} (hc : u.fld R.RYF_STAT F.RYF_STAT_COORD = 0)
    (hu : KeepsReg a t u) : KeepsReg a t (if c then u else u.emit o).memberRefresh := by
  have sent : NetFrame u (if c then u else u.emit o) := .ite .refl .emit
  rw [State.memberRefresh_follower ((sent.fld _ _).trans hc)]
  exact hu.trans sent.keepsReg

/-- After the loss of a port a module that is no coordinator has its own port down. -/
theorem State.portDown_keeps (hp : p < 16) (hl : s.portLinked p = true) (hc : s.fld R.RYF_STAT F.RYF_STAT_COORD = 0) :
    KeepsReg (R.RYF_PORT_STAT p) (s.portCleared p) (s.portDown p) := by
  obtain ⟨-, -, -, -, hcnt, -⟩ := ryfPort_apart p
  unfold State.portDown
  rw [if_pos hp, if_neg (by simp [hl])]
  extract_lets peer l st t u
  have hu : u = s.portCleared p := rfl
  clear_value u
  subst hu
  have routed {a : Nat} (h : isRoute a = false) := State.reroute_keeps (s := s.portCleared p) (p := p) h
  generalize (s.portCleared p).reroute p = r at routed ⊢
  obtain ⟨v, n⟩ := r
  dsimp only at routed ⊢
  have told {a : Nat} (h : R.RYF_CNT ≠ a) (h' : ¬ IsRecordReg a) (h'' : isRoute a = false) (r : ErrRec) (m : List (Nat × RawPkt)) :
      KeepsReg a (s.portCleared p)
        (m.foldl (fun s u => s.sendRaw u.2) ((v.count R.RYF_CNT F.RYF_CNT_REROUTE 1).errRecord r).releaseWaiting) := by
    have sent : NetFrame ((v.count R.RYF_CNT F.RYF_CNT_REROUTE 1).errRecord r)
        (m.foldl (fun s u => s.sendRaw u.2) ((v.count R.RYF_CNT F.RYF_CNT_REROUTE 1).errRecord r).releaseWaiting) :=
      .trans .releaseWaiting (.foldl fun _ _ => .sendRaw)
    exact .trans (.trans (.trans (routed h'') (.count h)) (.errRecord h')) sent.keepsReg
  refine State.reported_keeps ?_ (told hcnt (not_isRecordReg_port p hp) (isRoute_apart p hp).1 _ _)
  rw [State.fld, (told (by decide) (by unfold IsRecordReg; decide) (isRoute_apart p hp).2 _ _).2, (State.portCleared_keeps p).2]
  exact hc

theorem State.portDown_unlinked (hp : p < 16) (hl : s.portLinked p = true) (hc : s.fld R.RYF_STAT F.RYF_STAT_COORD = 0) :
    (s.portDown p).portLinked p = false := by
  have state : (s.portDown p).fld (R.RYF_PORT_STAT p) F.RYF_PORT_STAT_STATE = (s.portCleared p).fld (R.RYF_PORT_STAT p) F.RYF_PORT_STAT_STATE := by
    rw [State.fld, (State.portDown_keeps hp hl hc).2, State.fld]
  unfold State.portLinked
  dsimp only
  rw [state]
  rcases s.portCleared_state (p := p) with h | h
  · rw [h]
    rfl
  · rw [h]
    rfl

theorem State.portDown_pendant {q : Fin 18} (hq : 16 ≤ q.val) : (s.portDown q.val).pendUp (q.val - 16) = false := by
  unfold State.portDown
  rw [if_neg (Nat.not_lt.mpr hq), State.pendUp_setLink]
  exact State.pendUp_setBit false (by omega)

end Loss

/-! ### Echo and admission (R305, R306) -/

section Admission
variable {s : State} {p : Nat}

theorem ryfLat_apart (p : Nat) : R.RYF_PORT_LAT p ≠ R.RYF_PORT_STAT p := by
  rw [R.RYF_PORT_LAT, R.RYF_PORT_STAT]
  omega

/-- The link after an answer to an echo. -/
def LinkPort.echoed (l : LinkPort) (rtt turn : Nat) : LinkPort :=
  { l with echoes := l.echoes + 1, rttMin := if l.echoes = 0 ∨ rtt < l.rttMin then rtt else l.rttMin,
           turnMin := if l.echoes = 0 ∨ rtt < l.rttMin then turn else l.turnMin }

theorem State.exec_echoResp {p : Fin 16} {rtt turn : BitVec 32} (hm : s.mainUp = true) (hl : s.portLinked p.val = true)
    (he : (s.link p.val).echoes < 16) :
    ∃ x, exec (.echoResp p rtt turn) s = .next (s.setLink p.val ((s.link p.val).echoed rtt.toNat turn.toNat)) ∨
      exec (.echoResp p rtt turn) s =
        .next ((s.setLink p.val ((s.link p.val).echoed rtt.toNat turn.toNat)).setFld (R.RYF_PORT_LAT p.val) F.RYF_PORT_LAT_L x) := by
  have hexec : exec (.echoResp p rtt turn) s = .next (if ((s.link p.val).echoed rtt.toNat turn.toNat).echoes = 16 then
      (s.setLink p.val ((s.link p.val).echoed rtt.toNat turn.toNat)).setFld (R.RYF_PORT_LAT p.val) F.RYF_PORT_LAT_L
        (roundDivEven ((((s.link p.val).echoed rtt.toNat turn.toNat).rttMin : Int) -
          ((s.link p.val).echoed rtt.toNat turn.toNat).turnMin) 2).toNat
      else s.setLink p.val ((s.link p.val).echoed rtt.toNat turn.toNat)) := by
    refine (State.whenMain_next _ hm).trans (congrArg Host.Outcome.next ?_)
    exact if_neg (by rw [hl]; simp [he])
  refine ⟨(roundDivEven ((((s.link p.val).echoed rtt.toNat turn.toNat).rttMin : Int) -
    ((s.link p.val).echoed rtt.toNat turn.toNat).turnMin) 2).toNat, ?_⟩
  rw [hexec]
  split
  · exact .inr rfl
  · exact .inl rfl

theorem State.link_setFld (a : Nat) (f : Field) (v : Nat) : (s.setFld a f v).link p = s.link p := rfl

theorem State.askSign_room {r : SignReq} (hl : s.signReqs.length < 64) (hi : s.idxNext < 2 ^ 40) :
    (s.askSign r).1.signReqs = s.signReqs ++ [r] ∧ SameRegsBut [] s (s.askSign r).1 ∧ SameMemory s (s.askSign r).1 := by
  have ask : s.askSign r = ({ s with signReqs := s.signReqs ++ [r] }, true) :=
    if_neg (not_or.mpr ⟨Nat.not_le.mpr hl, Nat.not_le.mpr hi⟩)
  rw [ask]
  exact ⟨rfl, .of_eq rfl rfl, .of_eq rfl rfl⟩

theorem State.exec_admitChal {p : Fin 16} (nonce : List (BitVec 8)) (hm : s.mainUp = true) (hl : s.portLinked p.val = true) :
    ∃ r : SignReq, r.owner = .admission p.val ∧ exec (.admitChal p nonce) s = .next (s.askSign r).1 :=
  ⟨_, rfl, (State.whenMain_next _ hm).trans (congrArg Host.Outcome.next (if_pos hl))⟩

/-- The first part of an answer to a challenge is kept. -/
theorem State.exec_admitResp {p : Fin 16} {i : Fin 39} {b : List (BitVec 8)} (hm : s.mainUp = true)
    (hs : s.fld (R.RYF_PORT_STAT p.val) F.RYF_PORT_STAT_STATE = 3) (hc : (s.link p.val).chalAt ≠ 0) (hf : (s.link p.val).frags = []) :
    exec (.admitResp p i b) s = .next (s.setLink p.val { s.link p.val with frags := [(i.val, b)] }) := by
  have parts : ((s.link p.val).frags.filter (fun x => x.1 != i.val) ++ [(i.val, b)]) = [(i.val, b)] := by
    rw [hf]
    rfl
  have missing : ((List.range 39).all fun k => ([(i.val, b)] : List (Nat × List Byte)).any fun x => x.1 == k) = false := by
    rw [List.all_eq_false]
    refine ⟨if i.val = 0 then 1 else 0, List.mem_range.mpr ?_, ?_⟩
    · split <;> decide
    · split
      · next h => simp [h]
      · next h => simpa using h
  refine (State.whenMain_next _ hm).trans (congrArg Host.Outcome.next ?_)
  extract_lets l fr all key msg dig badKey badSig
  have hfr : fr = [(i.val, b)] := parts
  rw [if_neg (by simp [hs, hc, l]), if_neg (by rw [hfr, missing]; exact Bool.noConfusion), hfr]

theorem State.admitRefuse_spec (hp : p < 16) (why : Nat) : (s.admitRefuse p why).fld (R.RYF_PORT_STAT p) F.RYF_PORT_STAT_STATE = 5 ∧
    SameMemory s (s.admitRefuse p why) := by
  unfold State.admitRefuse
  dsimp only
  refine ⟨?_, .step .setLink (.step (.setFld _ _ _ _) (State.errRecord_recordFrame _ _).sameMemory)⟩
  rw [(State.errRecord_recordFrame _ _).fld _ (not_isRecordReg_port p hp)]
  exact State.fld_setFld_same _ _ _ _ (by decide) (by decide)

theorem State.exec_laneFault {q : Fin 18} {good : BitVec 4} (hm : s.mainUp = true) (hq : q.val < 16) (hl : s.portLinked q.val = true)
    (hw : laneWidth (popCount good.toNat 4) < s.fld (R.RYF_PORT_STAT q.val) F.RYF_PORT_STAT_WIDTH) (h0 : laneWidth (popCount good.toNat 4) ≠ 0) :
    ∃ r : ErrRec, exec (.laneFault q good) s =
      .next ((s.setFld (R.RYF_PORT_STAT q.val) F.RYF_PORT_STAT_WIDTH (laneWidth (popCount good.toNat 4))).errRecord r) := by
  refine ⟨{ cls := clsCorrected, code := 0x0401, unit := 0xDD, sub := q.val,
            info0 := s.fld (R.RYF_PORT_STAT q.val) F.RYF_PORT_STAT_WIDTH, info1 := laneWidth (popCount good.toNat 4) },
    (State.whenMain_next _ hm).trans (congrArg Host.Outcome.next ?_)⟩
  dsimp only
  rw [if_pos hq, if_neg (by rw [hl]; exact Bool.noConfusion), if_neg h0, if_pos hw]

end Admission

/-- Settles O51. -/
theorem portEvents : Obligations.PortEvents := by
  refine ⟨fun p v3 cr s hm => ⟨fun hp h => ?_, fun hp hd he hw hc => ?_, fun hp hd hw => ?_⟩, fun p good s hm hp => ?_,
    fun p lseq lack cvc cn co un vc len s hm hp hl hco hb hpert hun => ?_, fun p s hm => ⟨State.exec_linkRetry_none hm, ?_⟩,
    fun s hm hnone hc => ?_, fun s hm hc hb => ?_, fun p b s hm => ⟨fun hp hl => ?_, fun hp hl hb hc ha hq hs => ?_, fun hp hup => ?_⟩,
    fun p lost s hm => ⟨fun hlost hnow => ?_, fun h => ⟨?_, fun hp => State.portDown_pendant hp, fun hp hl _ _ hc => State.portDown_unlinked hp hl hc⟩⟩,
    fun p turn s hm => ⟨fun hl => ?_, fun hl => ?_⟩, fun p rtt turn s hm hl => ⟨fun he => ?_, fun he => ?_⟩, fun p nonce s hm hl hr hi => ?_,
    fun p i b s hm => ⟨fun hs => ?_, fun hs hc hf => ?_⟩, fun p s hm => ⟨fun hs => ?_, fun hs hc ht => ?_⟩⟩
  · exact (State.whenMain_next _ hm).trans (congrArg Host.Outcome.next (State.linkUp_barred hp h))
  · obtain ⟨l, body, hlast, hup⟩ := s.linkUp_fabric (v3 := v3) (cr := cr.map BitVec.toNat) hp hd he hw
    have hver : (if v3 = true ∧ s.maxVer p.val = 3 then 3 else 2) = 2 ∨ (if v3 = true ∧ s.maxVer p.val = 3 then 3 else 2) = 3 := by
      split
      · exact .inr rfl
      · exact .inl rfl
    obtain ⟨hstate, hversion, hwidth, hlink, hregs, hmem⟩ := s.trained_spec (p := p.val) l hver
    have sent : NetFrame (s.trained p.val (if v3 = true ∧ s.maxVer p.val = 3 then 3 else 2) l)
        ((s.trained p.val (if v3 = true ∧ s.maxVer p.val = 3 then 3 else 2) l).sendVc0 p.val tHello body) := .sendVc0
    have hcfg : R.RYF_CFG ∉ [R.RYF_PORT_STAT p.val] := by simpa using (ryfPort_apart p.val).1.symm
    rw [State.electSelf_barred (by rw [sent.fld, hregs.fld _ hcfg, hc]; decide)] at hup
    refine ⟨_, (State.whenMain_next _ hm).trans (congrArg Host.Outcome.next hup), ?_, ?_, ?_, ?_, hregs.step sent.sameRegs, hmem.step sent.sameMemory⟩
    · rw [sent.fld, hstate]
    · rw [sent.fld, hversion]
    · rw [sent.fld, hwidth]
    · obtain ⟨c, n, u, h⟩ := State.link_egress (s := s.trained p.val (if v3 = true ∧ s.maxVer p.val = 3 then 3 else 2) l) (p := p.val)
        { hdr := { dst := 0, src := 0, vc := 0, hops := 0, err := false, retry := false, seq := 0, addr := 0 }, type := tHello, body := body }
      rw [State.sendVc0, h, hlink]
      exact hlast
  · obtain ⟨l, hup⟩ := s.linkUp_pendant (v3 := v3) (cr := cr.map BitVec.toNat) hp hd hw
    refine ⟨_, (State.whenMain_next _ hm).trans (congrArg Host.Outcome.next hup), ?_, .step (.setFld _ _ _ (List.mem_singleton_self _)) .setLink,
      .step (.setFld _ _ _ _) .setLink⟩
    rw [State.pendUp_setLink]
    exact State.pendUp_setBit true (by omega)
  · refine ⟨fun hl => ?_, fun hl => ⟨fun hw => ?_, fun hw h0 => ?_, fun hw h0 => ?_⟩⟩
    · refine (State.whenMain_next _ hm).trans (congrArg Host.Outcome.next ?_)
      dsimp only
      rw [if_pos hp, if_pos hl]
    · refine (State.whenMain_next _ hm).trans (congrArg Host.Outcome.next ?_)
      dsimp only
      rw [if_pos hp, if_neg (by rw [hl]; exact Bool.noConfusion), if_pos hw]
    · refine (State.whenMain_next _ hm).trans (congrArg Host.Outcome.next ?_)
      dsimp only
      rw [if_pos hp, if_neg (by rw [hl]; exact Bool.noConfusion), if_neg h0, if_neg (Nat.not_lt.mpr hw)]
    · obtain ⟨r, hexec⟩ := State.exec_laneFault hm hp hl hw h0
      have hrec := State.errRecord_recordFrame (s.setFld (R.RYF_PORT_STAT p.val) F.RYF_PORT_STAT_WIDTH (laneWidth (popCount good.toNat 4))) r
      refine ⟨_, hexec, ?_, .step (.setFld _ _ _ _) hrec.sameMemory⟩
      rw [hrec.fld _ (not_isRecordReg_port _ hp)]
      exact State.fld_setFld_same _ _ _ _ (by decide) (Nat.lt_of_le_of_lt (laneWidth_le _) (by decide))
  · subst hun hco
    obtain ⟨-, -, -, -, -, hfec⟩ := ryfPort_apart p.val
    refine ⟨fun legal => ⟨_, State.exec_frame_bad hm hp hl legal, ?_, ?_, .step (State.fecCounted_sameMemory _ _) (.count _ _ _ _)⟩, ?_⟩
    · rw [State.fld_count_same _ _ _ _ (by decide), (State.fecCounted_sameRegs _ _).fld _ (by simpa using hfec.symm)]
    · rw [State.count_links, State.fecCounted_links]
    · have hlink : ∀ co un, (s.fecCounted p.val co un).link p.val = s.link p.val := fun co un => by
        rw [State.link, State.fecCounted_links, State.link]
      obtain ⟨hheard, hmem⟩ := (s.fecCounted p.val (0 : BitVec 16).toNat 0).heard_spec (p := p.val) lseq.toNat lack.toNat cvc.val cn.val vc.val len.val
        ((congrArg FabricInt.bulkWait (State.fecCounted_fabric _ _)).trans hb) ((State.pert_fecCounted _ _ _).trans hpert)
      obtain ⟨hcredits, hunacked, hnext⟩ := (s.link p.val).heard_spec lseq.toNat lack.toNat cvc.val cn.val
      rw [hlink] at hheard
      refine ⟨_, State.exec_frame_good hm hp hl, ?_, ?_, ?_, .step (State.fecCounted_sameMemory _ _) hmem⟩
      · rw [hheard, hcredits]
      · rw [hheard, hunacked]
      · rw [hheard, hnext]
  · by_cases h : (s.link p.val).unacked = []
    · exact ⟨s, State.exec_linkRetry_none hm h, by rw [h]; rfl, rfl, .refl _ _, .refl _⟩
    · obtain ⟨hlinks, hout, hregs, hmem⟩ := s.retryCounted_spec (p := p.val)
      obtain ⟨hlength, hlinks', hnet⟩ := (s.retryCounted p.val).foldl_emit (fun u : Nat × RawPkt => u.2.out p.val u.1) (s.link p.val).unacked
      exact ⟨_, State.exec_linkRetry hm h, hlength.trans (by rw [hout]), hlinks'.trans hlinks, hregs.step hnet.sameRegs, hmem.step hnet.sameMemory⟩
  · rw [State.exec_helloTimer hm (by rw [hc]; decide)]
    exact congrArg Host.Outcome.next (State.foldl_hello_none _ fun p hp => hnone p (List.mem_range.mp hp))
  · obtain ⟨hout, hnet⟩ := s.foldl_hello (List.range 16)
    exact ⟨_, State.exec_helloTimer hm (by rw [hc]; decide), hout, hnet.sameRegs, hnet.sameMemory⟩
  · refine (State.whenMain_next _ hm).trans (congrArg Host.Outcome.next ?_)
    rw [if_pos hp, if_neg (by rw [hl]; exact Bool.noConfusion)]
  · obtain ⟨hserial, haddr, -, hmem⟩ := s.helloPeer_spec (p := p.val) b
    obtain ⟨u, hpeer, hready⟩ := State.helloRx_ready hp hb hc ha hq hs
    refine ⟨s.helloRx p.val b, (State.whenMain_next _ hm).trans (congrArg Host.Outcome.next ?_), ?_, ?_, ?_,
      hmem.step (hpeer.sameMemory.step (.step (.setFld _ _ _ _) hready.sameMemory))⟩
    · rw [if_pos hp, if_pos hl]
    · rw [hready.fld]
      exact State.fld_setFld_same _ _ _ _ (by decide) (by decide)
    · rw [hready.reg, State.reg_setFld_other _ _ _ _ _ (ryfStat_ne_ryfPeer p.val).1, hpeer.reg, hserial]
    · rw [hready.fld, State.fld_setFld_other _ _ _ _ _ _ (ryfStat_ne_ryfPeer p.val).2, hpeer.fld, haddr]
  · refine ⟨_, (State.whenMain_next _ hm).trans (congrArg Host.Outcome.next ((if_neg (Nat.not_lt.mpr hp)).trans (if_pos hup))), ?_, ?_,
      .setLink, .setLink⟩
    · rw [State.link_setLink]
    · rw [State.link_setLink]
  · refine (State.whenMain_next _ hm).trans (congrArg Host.Outcome.next (if_neg ?_))
    rw [hlost, Bool.false_or, decide_eq_true_eq]
    exact Nat.not_le.mpr hnow
  · refine (State.whenMain_next _ hm).trans (congrArg Host.Outcome.next (if_pos ?_))
    rwa [Bool.or_eq_true, decide_eq_true_eq]
  · exact (State.whenMain_next _ hm).trans (congrArg Host.Outcome.next (if_neg (by rw [hl]; exact Bool.noConfusion)))
  · exact (State.whenMain_next _ hm).trans (congrArg Host.Outcome.next (if_pos hl))
  · exact (State.whenMain_next _ hm).trans (congrArg Host.Outcome.next (if_pos (.inr he)))
  · obtain ⟨x, hexec | hexec⟩ := State.exec_echoResp (rtt := rtt) (turn := turn) hm hl he
    · exact ⟨_, hexec, by rw [State.link_setLink]; rfl, by rw [State.link_setLink]; rfl, .setLink, .setLink⟩
    · exact ⟨_, hexec, by rw [State.link_setFld, State.link_setLink]; rfl, by rw [State.link_setFld, State.link_setLink]; rfl,
        .step .setLink (.setFld _ _ _ (List.mem_singleton_self _)), .step .setLink (.setFld _ _ _ _)⟩
  · obtain ⟨r, howner, hexec⟩ := State.exec_admitChal nonce hm hl
    obtain ⟨hreqs, hregs, hmem⟩ := State.askSign_room (r := r) hr hi
    refine ⟨_, hexec, ?_, ⟨r, ?_, howner⟩, hregs, hmem⟩
    · rw [hreqs, List.length_append]
      rfl
    · rw [hreqs]
      exact List.mem_append_right _ (List.mem_singleton_self _)
  · exact (State.whenMain_next _ hm).trans (congrArg Host.Outcome.next (if_pos (.inl hs)))
  · refine ⟨_, State.exec_admitResp hm hs hc hf, ?_, .setLink, .setLink⟩
    rw [State.link_setLink]
  · exact (State.whenMain_next _ hm).trans (congrArg Host.Outcome.next (if_neg fun h => hs h.1))
  · exact ⟨_, (State.whenMain_next _ hm).trans (congrArg Host.Outcome.next (if_pos ⟨hs, hc, ht⟩)), State.admitRefuse_spec p.isLt 4⟩

end Sys2Proof.Machine
end

section
/-!
PROOFS. Election, membership copies, routes and the member query: what they leave of the registers of the fabric.
-/

namespace Sys2Proof.Machine

open Sys2Proof

/-! ### What the stores of locks leave alone when members leave (R239) -/

/-- `t` has the members of `s`, and its registers below the blocks of the locks and queues. -/
structure LockFrame (s t : State) : Prop where
  regs : ∀ a < 0x2000000D0000, t.reg a = s.reg a
  members : t.members = s.members

namespace LockFrame
variable {s t u : State}

theorem refl : LockFrame s s := ⟨fun _ _ => rfl, rfl⟩

theorem trans (h : LockFrame s t) (g : LockFrame t u) : LockFrame s u := ⟨fun a ha => (g.regs a ha).trans (h.regs a ha), g.members.trans h.members⟩

theorem fld (h : LockFrame s t) {a : Nat} (f : Field) (ha : a < 0x2000000D0000) : t.fld a f = s.fld a f := by
  rw [State.fld, h.regs a ha, State.fld]

theorem of_eq (hr : t.regs = s.regs) (hm : t.members = s.members) : LockFrame s t := ⟨fun a _ => by rw [State.reg, hr, State.reg], hm⟩

theorem net (h : NetFrame s t) : LockFrame s t := .of_eq h.regs h.members

theorem setReg {a : Nat} {v : Word} (ha : 0x2000000D0000 ≤ a) : LockFrame s (s.setReg a v) :=
  ⟨fun b hb => State.reg_setReg_other _ _ _ _ (by omega), rfl⟩

theorem setFld {a v : Nat} {f : Field} (ha : 0x2000000D0000 ≤ a) : LockFrame s (s.setFld a f v) := setReg ha

theorem ite {c : Prop} [Decidable c] (ht : LockFrame s t) (hu : LockFrame s u) : LockFrame s (if c then t else u) := by
  split
  · exact ht
  · exact hu

theorem foldl {α : Type} {g : State → α → State} {l : List α} (hg : ∀ t x, LockFrame t (g t x)) : LockFrame s (l.foldl g s) :=
  List.foldlRecOn (motive := LockFrame s) _ _ refl fun _ ht x _ => ht.trans (hg _ x)

theorem updQ {q : Nat} {f : QueueInt → QueueInt} : LockFrame s (s.updQ q f) := .of_eq rfl rfl

theorem lockBase_le (pl : Nat) : 0x2000000D0000 ≤ lockBase pl := by
  unfold lockBase dieBlk
  split <;> omega

theorem finishWaitRd {q rd v : Nat} : LockFrame s (s.finishWaitRd q rd v) := by
  have hq := cpBase_ge q
  have hreg : LockFrame s (s.setSreg q rd v) := .ite refl (setReg (by rw [R.QSREG]; omega))
  have hstat : 0x2000000D0000 ≤ R.QSTAT q := by rw [R.QSTAT]; omega
  refine hreg.trans (trans (trans updQ (setReg (by rw [R.QPC]; omega))) (trans (setFld hstat) (setFld hstat)))

theorem respond {h : Hdr} {type addr : Nat} {err : Bool} {body : List Byte} : LockFrame s (s.respond h type err addr body) :=
  net (NetFrame.trans .withFabric .sendRaw)

theorem lockAnswer {w : LockWaiter} {status : Nat} : LockFrame s (s.lockAnswer w status) := by
  unfold State.lockAnswer
  split
  · split
    · exact finishWaitRd
    · exact refl
  · exact ite refl respond

theorem setLock {store ix : Nat} {o : LockOwner} : LockFrame s (s.setLock store ix o) := by
  have h := lockBase_le (storePlace store)
  exact trans (setReg (by rw [R.LOCK_OWN]; omega)) (setReg (by rw [R.LOCK_INC]; omega))

theorem withLockWaiters {l : List LockWaiter} : LockFrame s { s with lockWaiters := l } := .of_eq rfl rfl

theorem lockGrant {store ix : Nat} : LockFrame s (s.lockGrant store ix) := by
  have h := lockBase_le (storePlace store)
  unfold State.lockGrant
  split
  · exact refl
  · dsimp only
    have counted : LockFrame s (if (s.lockOwner store ix).unit = 0 then s else s.count (R.LOCK_CNT (storePlace store)) F.LOCK_CNT_ORPHAN 1) :=
      ite refl (setFld (by rw [R.LOCK_CNT]; omega))
    exact counted.trans (trans withLockWaiters (trans setLock lockAnswer))

theorem lockReexamine {store : Nat} : LockFrame s (s.lockReexamine store) := foldl fun _ _ => ite lockGrant refl

end LockFrame

/-! ### The table of members (R308 to R310) -/

/-- The registers below the routes that a new table of members may write, but for the module's state in the fabric. -/
def tableRegs : List Nat := [R.ID_ADDR, R.RYF_DEPUTY, R.RYF_MEMBERS, R.HOSTP_ALERT, R.HOSTP_EVT_CNT]

/-- `t` has the registers of `s` below the routes but for those of the table, and its state in the fabric, where only EXCLUDED may
differ. -/
structure TableFrame (s t : State) : Prop where
  regs : ∀ a < 0x200000070000, a ∉ R.RYF_STAT :: tableRegs → t.reg a = s.reg a
  stat : ∀ f : Field, f.fits → (f.lo + f.width ≤ 3 ∨ 4 ≤ f.lo) → t.fld R.RYF_STAT f = s.fld R.RYF_STAT f

namespace TableFrame
variable {s t u : State}

theorem refl : TableFrame s s := ⟨fun _ _ _ => rfl, fun _ _ _ => rfl⟩

theorem trans (h : TableFrame s t) (g : TableFrame t u) : TableFrame s u :=
  ⟨fun a ha hn => (g.regs a ha hn).trans (h.regs a ha hn), fun f hf hl => (g.stat f hf hl).trans (h.stat f hf hl)⟩

theorem of_regs (h : ∀ a < 0x200000070000, a ∉ tableRegs → t.reg a = s.reg a) : TableFrame s t :=
  ⟨fun a ha hn => h a ha fun hm => hn (List.mem_cons_of_mem _ hm),
    fun f _ _ => by rw [State.fld, h R.RYF_STAT (by decide) (by decide), State.fld]⟩

theorem of_eq (hr : t.regs = s.regs) : TableFrame s t := of_regs fun a _ _ => by rw [State.reg, hr, State.reg]

theorem net (h : NetFrame s t) : TableFrame s t := .of_eq h.regs

theorem lock (h : LockFrame s t) : TableFrame s t := of_regs fun a ha _ => h.regs a (by omega)

theorem record (h : RecordFrame s t) : TableFrame s t := of_regs fun a ha hn => h.regs a (by
  rintro (rfl | rfl | hr)
  · exact hn (by decide)
  · exact hn (by decide)
  · omega)

theorem setReg {a : Nat} {v : Word} (ha : a ∈ tableRegs) : TableFrame s (s.setReg a v) :=
  of_regs fun _ _ hn => State.reg_setReg_other _ _ _ _ fun e => hn (e ▸ ha)

theorem setFld {a v : Nat} {f : Field} (ha : a ∈ tableRegs) : TableFrame s (s.setFld a f v) := setReg ha

theorem setRoute {a : Nat} {v : Word} : TableFrame s (s.setReg (R.RYF_ROUTE a) v) :=
  of_regs fun b hb _ => State.reg_setReg_other _ _ _ _ (by rw [R.RYF_ROUTE]; omega)

theorem setExcluded {v : Nat} : TableFrame s (s.setFld R.RYF_STAT F.RYF_STAT_EXCLUDED v) :=
  ⟨fun _ _ hn => State.reg_setReg_other _ _ _ _ fun e => hn (e ▸ List.mem_cons_self ..),
    fun _ hf hl => State.fld_setFld_apart _ _ _ _ _ hf hl⟩

theorem ite {c : Prop} [Decidable c] (ht : TableFrame s t) (hu : TableFrame s u) : TableFrame s (if c then t else u) := by
  split
  · exact ht
  · exact hu

theorem foldl {α : Type} {g : State → α → State} {l : List α} (hg : ∀ t x, TableFrame t (g t x)) : TableFrame s (l.foldl g s) :=
  List.foldlRecOn (motive := TableFrame s) _ _ refl fun _ ht x _ => ht.trans (hg _ x)

theorem excludeModule {kept serial : Nat} : TableFrame s (s.excludeModule kept serial) :=
  ite refl (trans (net .withFabric) (record (State.errRecord_recordFrame _ _)))

theorem assign {serial straps shown : Nat} : TableFrame s (s.assign serial straps shown) := by
  unfold State.assign
  extract_lets f give holder byStraps
  have given (t : State) (a : Nat) : TableFrame t (give t a) := net .withFabric
  refine ite refl (ite (given _ _) ?_)
  split
  · split
    · exact given _ _
    · exact ite excludeModule (trans excludeModule (given _ _))
  · split
    · exact given _ _
    · exact excludeModule

theorem takeAddress {a : Option Nat} {excluded : Bool} : TableFrame s (s.takeAddress a excluded) := by
  have addr {f g : Field} {v w : Nat} : TableFrame s ((s.setFld R.ID_ADDR f v).setFld R.ID_ADDR g w) :=
    trans (setFld (List.mem_cons_self ..)) (setFld (List.mem_cons_self ..))
  cases a
  · exact ite (addr.trans setExcluded) refl
  · exact addr.trans setExcluded

/-- The state with the table ms, and without the flows of the modules that left. -/
theorem setMembers {ms : List Member} {epoch : Nat} : TableFrame s (s.setMembers ms epoch) := by
  have mem : R.RYF_MEMBERS ∈ tableRegs := by decide
  unfold State.setMembers
  extract_lets gone keep f t u
  have ht : TableFrame s t := .of_eq rfl
  have hu : TableFrame s u := ht.trans (trans (setFld mem) (setFld mem))
  exact ite hu (hu.trans (foldl fun _ _ => lock .lockReexamine))

theorem coordRoutes : TableFrame s s.coordRoutes := by
  unfold State.coordRoutes
  refine trans (foldl fun _ _ => setRoute) (foldl fun v x => ?_)
  split
  · exact refl
  · exact net .sendVc0

theorem memberRefresh : TableFrame s s.memberRefresh := by
  unfold State.memberRefresh
  split
  · exact refl
  · extract_lets straps t ns u v topVer own near far ms elig w
    have hu : TableFrame s u := trans assign (foldl fun v n => by
      split
      · exact assign
      · exact refl)
    have hw : TableFrame s w := hu.trans (trans takeAddress (setReg (by decide)))
    exact ite hw (hw.trans (trans setMembers coordRoutes))

end TableFrame

/-! ### Election (R307) -/

section Election
variable {s : State}

/-- The state that has learnt the serial x, before it floods it. -/
def State.learnt (s : State) (x : Nat) : State := s.withFabric { s.fabric with lowest := x + 1, lowestSince := s.now }

theorem State.fabric_egress (p : Nat) (r : RawPkt) : (s.egress p r).fabric = s.fabric := rfl

theorem State.fabric_floodVc0 (but type : Nat) (body : List Byte) : (s.floodVc0 but type body).fabric = s.fabric := by
  unfold State.floodVc0
  refine List.foldlRecOn (motive := fun t : State => t.fabric = s.fabric) _ _ rfl fun t ht p _ => ?_
  split
  · exact (State.fabric_egress _ _).trans ht
  · exact ht

theorem State.electLearn_lower {x : Nat} (h : s.fabric.lowest = 0 ∨ x + 1 < s.fabric.lowest) :
    s.electLearn x = (s.learnt x).floodVc0 16 tElect (leBytes x 8) := if_pos h

theorem State.electLearn_known {x : Nat} (h0 : s.fabric.lowest ≠ 0) (h : s.fabric.lowest ≤ x + 1) : s.electLearn x = s :=
  if_neg (not_or.mpr ⟨h0, Nat.not_lt.mpr h⟩)

/-- The state that begins to be coordinator, before it works its table out. -/
def State.crowned (s : State) : State :=
  let s := ((s.setFld R.RYF_STAT F.RYF_STAT_COORD 1).setFld R.RYF_STAT F.RYF_STAT_ELECTED 1).setFld R.RYF_STAT F.RYF_STAT_DEPUTY 0
  let s := s.setReg R.RYF_COORD (BitVec.ofNat 64 s.serial)
  s.withFabric { s.fabric with assigned := s.members.map (fun m => (m.serial, m.addr)), excluded := [], memberAt := s.now, lowest := s.serial + 1 }

theorem State.becomeCoord_frame : TableFrame s.crowned s.becomeCoord := .trans .memberRefresh (.net .sendMember)

theorem State.crowned_spec : s.crowned.fld R.RYF_STAT F.RYF_STAT_COORD = 1 ∧ s.crowned.fld R.RYF_STAT F.RYF_STAT_ELECTED = 1 ∧
    s.crowned.fld R.RYF_STAT F.RYF_STAT_DEPUTY = 0 ∧ s.crowned.reg R.RYF_COORD = s.reg R.ID_SERIAL := by
  have net (t : State) (f : FabricInt) : NetFrame t (t.withFabric f) := .withFabric
  unfold State.crowned
  dsimp only
  refine ⟨?_, ?_, ?_, ?_⟩
  · rw [(net _ _).fld, State.fld, State.reg_setReg_other _ _ _ _ (by decide), ← State.fld, State.fld_setFld_apart _ _ _ _ _ (by decide) (by decide),
      State.fld_setFld_apart _ _ _ _ _ (by decide) (by decide), State.fld_setFld_same _ _ _ _ (by decide) (by decide)]
  · rw [(net _ _).fld, State.fld, State.reg_setReg_other _ _ _ _ (by decide), ← State.fld, State.fld_setFld_apart _ _ _ _ _ (by decide) (by decide),
      State.fld_setFld_same _ _ _ _ (by decide) (by decide)]
  · rw [(net _ _).fld, State.fld, State.reg_setReg_other _ _ _ _ (by decide), ← State.fld, State.fld_setFld_same _ _ _ _ (by decide) (by decide)]
  · rw [(net _ _).reg, State.reg_setReg_same, State.serial, BitVec.ofNat_toNat, BitVec.setWidth_eq, State.reg_setFld_other _ _ _ _ _ (by decide),
      State.reg_setFld_other _ _ _ _ _ (by decide), State.reg_setFld_other _ _ _ _ _ (by decide)]

/-- What a module that becomes coordinator shows. -/
theorem State.becomeCoord_spec : s.becomeCoord.fld R.RYF_STAT F.RYF_STAT_COORD = 1 ∧ s.becomeCoord.fld R.RYF_STAT F.RYF_STAT_ELECTED = 1 ∧
    s.becomeCoord.fld R.RYF_STAT F.RYF_STAT_DEPUTY = 0 ∧ s.becomeCoord.reg R.RYF_COORD = s.reg R.ID_SERIAL ∧ SameMemory s s.becomeCoord := by
  have h := s.becomeCoord_frame
  obtain ⟨hcoord, helected, hdeputy, hreg⟩ := s.crowned_spec
  refine ⟨?_, ?_, ?_, ?_, (MemSame.refl.becomeCoord).sameMemory⟩
  · rw [h.stat _ (by decide) (by decide), hcoord]
  · rw [h.stat _ (by decide) (by decide), helected]
  · rw [h.stat _ (by decide) (by decide), hdeputy]
  · rw [h.regs _ (by decide) (by unfold tableRegs; decide), hreg]

end Election

/-! ### A membership copy that is taken (R310) -/

section Copy
variable {s : State} {coord deputy epoch : Nat} {ms : List Member}

theorem State.takeAddress_members {a : Option Nat} {excluded : Bool} : (s.takeAddress a excluded).members = s.members := by
  cases a
  · unfold State.takeAddress
    dsimp only
    split
    · rw [State.setFld_members, State.setFld_members, State.setFld_members]
    · rfl
  · unfold State.takeAddress
    dsimp only
    rw [State.setFld_members, State.setFld_members, State.setFld_members]

theorem State.reg_takeAddress {a : Option Nat} {excluded : Bool} {b : Nat} (h : b ≠ R.ID_ADDR) (h' : b ≠ R.RYF_STAT) :
    (s.takeAddress a excluded).reg b = s.reg b := by
  have other (t : State) (f g k : Field) (i j n : Nat) :
      (((t.setFld R.ID_ADDR f i).setFld R.ID_ADDR g j).setFld R.RYF_STAT k n).reg b = t.reg b := by
    rw [State.reg_setFld_other _ _ _ _ _ h'.symm, State.reg_setFld_other _ _ _ _ _ h.symm, State.reg_setFld_other _ _ _ _ _ h.symm]
  cases a
  · unfold State.takeAddress
    dsimp only
    split
    · exact other ..
    · rfl
  · exact other ..

/-- The table that a copy leaves. -/
theorem State.setMembers_spec (he : epoch < 2 ^ 48) (hl : ms.length < 2 ^ 14) : (s.setMembers ms epoch).members = ms ∧
    (s.setMembers ms epoch).fld R.RYF_MEMBERS F.RYF_MEMBERS_EPOCH = epoch ∧
    (s.setMembers ms epoch).fld R.RYF_MEMBERS F.RYF_MEMBERS_COUNT = ms.length ∧
    ∀ a < 0x2000000D0000, a ≠ R.RYF_MEMBERS → (s.setMembers ms epoch).reg a = s.reg a := by
  have hcount : ms.length < 2 ^ 16 := Nat.lt_trans hl (by decide)
  unfold State.setMembers
  extract_lets gone keep f t u
  have hu : u.members = ms ∧ u.fld R.RYF_MEMBERS F.RYF_MEMBERS_EPOCH = epoch ∧ u.fld R.RYF_MEMBERS F.RYF_MEMBERS_COUNT = ms.length ∧
      ∀ a < 0x2000000D0000, a ≠ R.RYF_MEMBERS → u.reg a = s.reg a := by
    refine ⟨?_, ?_, ?_, fun a _ ha => ?_⟩
    · exact (State.setFld_members _ _ _ _).trans (State.setFld_members _ _ _ _)
    · exact (State.fld_setFld_apart _ _ _ _ _ (by decide) (by decide)).trans (State.fld_setFld_same _ _ _ _ (by decide) he)
    · exact State.fld_setFld_same _ _ _ _ (by decide) hcount
    · exact (State.reg_setFld_other _ _ _ _ _ ha.symm).trans (State.reg_setFld_other _ _ _ _ _ ha.symm)
  have hlock : LockFrame u (if gone.isEmpty = true then u else (List.range 5).foldl (fun s st => s.lockReexamine st) u) :=
    .ite .refl (.foldl fun _ _ => .lockReexamine)
  obtain ⟨hm, hepoch, hlen, hregs⟩ := hu
  refine ⟨hlock.members.trans hm, ?_, ?_, fun a ha hne => (hlock.regs a ha).trans (hregs a ha hne)⟩
  · rw [hlock.fld _ (by decide), hepoch]
  · rw [hlock.fld _ (by decide), hlen]

/-- The state that follows a coordinator, before its table is taken. -/
def State.heeds (s : State) (coord deputy : Nat) : State :=
  let s := (s.setFld R.RYF_STAT F.RYF_STAT_COORD 0).setFld R.RYF_STAT F.RYF_STAT_ELECTED 1
  let s := s.setFld R.RYF_STAT F.RYF_STAT_DEPUTY (b2n (deputy == s.serial))
  (s.setReg R.RYF_COORD (BitVec.ofNat 64 coord)).setReg R.RYF_DEPUTY (BitVec.ofNat 64 deputy)

theorem State.heeds_spec : (s.heeds coord deputy).fld R.RYF_STAT F.RYF_STAT_COORD = 0 ∧
    (s.heeds coord deputy).fld R.RYF_STAT F.RYF_STAT_ELECTED = 1 ∧ (s.heeds coord deputy).reg R.RYF_COORD = BitVec.ofNat 64 coord ∧
    (s.heeds coord deputy).reg R.RYF_DEPUTY = BitVec.ofNat 64 deputy := by
  unfold State.heeds
  dsimp only
  refine ⟨?_, ?_, ?_, ?_⟩
  · rw [State.fld, State.reg_setReg_other _ _ _ _ (by decide), State.reg_setReg_other _ _ _ _ (by decide), ← State.fld,
      State.fld_setFld_apart _ _ _ _ _ (by decide) (by decide), State.fld_setFld_apart _ _ _ _ _ (by decide) (by decide),
      State.fld_setFld_same _ _ _ _ (by decide) (by decide)]
  · rw [State.fld, State.reg_setReg_other _ _ _ _ (by decide), State.reg_setReg_other _ _ _ _ (by decide), ← State.fld,
      State.fld_setFld_apart _ _ _ _ _ (by decide) (by decide), State.fld_setFld_same _ _ _ _ (by decide) (by decide)]
  · rw [State.reg_setReg_other _ _ _ _ (by decide), State.reg_setReg_same]
  · rw [State.reg_setReg_same]

/-- The state once a copy is taken, before it is passed on. -/
def State.copied (s : State) (f : FabricInt) (coord deputy epoch : Nat) (ms : List Member) (a : Option Nat) (x : Bool) : State :=
  (((s.heeds coord deputy).withFabric f).setMembers ms epoch).takeAddress a x

theorem State.memberRx_taken {p seq : Nat} {excl : List Nat} (hs : coord ≠ s.serial) (he : s.fld R.RYF_STAT F.RYF_STAT_ELECTED = 0) :
    ∃ f a x, NetFrame (s.copied f coord deputy epoch ms a x) (s.memberRx p seq coord deputy epoch ms excl) := by
  unfold State.memberRx
  extract_lets mine known silent t u v fresh f w x y
  have unknown : ¬ known := by
    intro h
    rw [show known = (s.fld R.RYF_STAT F.RYF_STAT_ELECTED = 1) from rfl, he] at h
    exact absurd h (by decide)
  rw [if_neg (by simp [hs, unknown])]
  refine ⟨_, _, _, .ite (.foldl fun _ _ => .ite .egress .refl) .refl⟩

theorem State.copied_spec {f : FabricInt} {a : Option Nat} {x : Bool} (he : epoch < 2 ^ 48) (hl : ms.length < 2 ^ 14) :
    (s.copied f coord deputy epoch ms a x).members = ms ∧ (s.copied f coord deputy epoch ms a x).reg R.RYF_COORD = BitVec.ofNat 64 coord ∧
    (s.copied f coord deputy epoch ms a x).reg R.RYF_DEPUTY = BitVec.ofNat 64 deputy ∧
    (s.copied f coord deputy epoch ms a x).fld R.RYF_STAT F.RYF_STAT_COORD = 0 ∧
    (s.copied f coord deputy epoch ms a x).fld R.RYF_STAT F.RYF_STAT_ELECTED = 1 ∧
    (s.copied f coord deputy epoch ms a x).fld R.RYF_MEMBERS F.RYF_MEMBERS_EPOCH = epoch ∧
    (s.copied f coord deputy epoch ms a x).fld R.RYF_MEMBERS F.RYF_MEMBERS_COUNT = ms.length := by
  obtain ⟨hcoord, helected, hc, hd⟩ := s.heeds_spec (coord := coord) (deputy := deputy)
  obtain ⟨hm, hepoch, hlen, hregs⟩ := ((s.heeds coord deputy).withFabric f).setMembers_spec (epoch := epoch) (ms := ms) he hl
  have net : NetFrame (s.heeds coord deputy) ((s.heeds coord deputy).withFabric f) := .withFabric
  have table (t : State) {b : Nat} (h : b ≠ R.ID_ADDR) (h' : b ≠ R.RYF_STAT) : (t.takeAddress a x).reg b = t.reg b :=
    State.reg_takeAddress h h'
  have stat {g : Field} (hg : g.fits) (hlo : g.lo + g.width ≤ 3 ∨ 4 ≤ g.lo) :
      (s.copied f coord deputy epoch ms a x).fld R.RYF_STAT g = (s.heeds coord deputy).fld R.RYF_STAT g := by
    rw [State.copied, TableFrame.takeAddress.stat g hg hlo, State.fld, hregs _ (by decide) (by decide), net.reg, State.fld]
  refine ⟨State.takeAddress_members.trans hm, ?_, ?_, (stat (by decide) (by decide)).trans hcoord, (stat (by decide) (by decide)).trans helected,
    ?_, ?_⟩
  · rw [State.copied, table _ (by decide) (by decide), hregs _ (by decide) (by decide), net.reg, hc]
  · rw [State.copied, table _ (by decide) (by decide), hregs _ (by decide) (by decide), net.reg, hd]
  · rw [State.copied, State.fld, table _ (by decide) (by decide), ← State.fld, hepoch]
  · rw [State.copied, State.fld, table _ (by decide) (by decide), ← State.fld, hlen]

end Copy

/-! ### A table of routes (R311, R314) -/

section Routes
variable {s : State} {a : Nat}

theorem find?_cold {l : List RegPat} (h : ∀ p ∈ l, p.row.cold = 0) (off : Nat) :
    (match (l.find? (fun p => p.covers off)).map RegPat.row with | some r => r.cold | none => 0) = 0 := by
  cases hf : l.find? (fun p => p.covers off) with
  | none => rfl
  | some p => exact h p (List.mem_of_find?_eq_some hf)

theorem coldOf_ryf {off : Nat} (h : blockOf a = some (.ryf 2, off) ∨ blockOf a = some (.ryf 3, off)) : coldOf a = 0 := by
  unfold coldOf rowOf
  rcases h with h | h
  · rw [h]
    exact find?_cold (l := rows_ryf2) (by decide) off
  · rw [h]
    exact find?_cold (l := rows_ryf3) (by decide) off

theorem blockOf_route_low (h : a < 0x2000) : blockOf (R.RYF_ROUTE a) = some (.ryf 2, 8 * a) := by
  unfold blockOf
  dsimp only
  rw [R.RYF_ROUTE, regWindow, if_neg (by omega), show (0x200000070000 + 8 * a - 0x200000000000) / 0x10000 = 7 by omega,
    show (0x200000070000 + 8 * a - 0x200000000000) % 0x10000 = 8 * a by omega]
  rfl

theorem blockOf_route_high (h : 0x2000 ≤ a) (ha : a < 0x4000) : blockOf (R.RYF_ROUTE a) = some (.ryf 3, 8 * a - 0x10000) := by
  unfold blockOf
  dsimp only
  rw [R.RYF_ROUTE, regWindow, if_neg (by omega), show (0x200000070000 + 8 * a - 0x200000000000) / 0x10000 = 8 by omega,
    show (0x200000070000 + 8 * a - 0x200000000000) % 0x10000 = 8 * a - 0x10000 by omega]
  rfl

/-- No route is valid in the cold. -/
theorem coldOf_route (ha : a < 0x4000) : coldOf (R.RYF_ROUTE a) = 0 := by
  by_cases h : a < 0x2000
  · exact coldOf_ryf (.inl (blockOf_route_low h))
  · exact coldOf_ryf (.inr (blockOf_route_high (Nat.not_lt.mp h) ha))

theorem isRoute_route (ha : a < 0x4000) : isRoute (R.RYF_ROUTE a) = true := by
  unfold isRoute
  rw [R.RYF_ROUTE, R.RYF_ROUTE, R.RYF_ROUTE]
  exact decide_eq_true (by omega)

theorem sparseGet_absent {α : Type} {m : Sparse α} {b : Nat} (d : α) (h : b ∉ m.map Prod.fst) : sparseGet m b d = d := by
  induction m with
  | nil => rfl
  | cons p m ih =>
    rw [List.map_cons, List.mem_cons, not_or] at h
    exact (if_neg fun e => h.1 e.symm).trans (ih h.2)

/-- The registers of a list set to zero. -/
theorem State.reg_foldl_zero (l : List Nat) (b : Nat) : (l.foldl (fun s a => s.setReg a 0) s).reg b = if b ∈ l then 0 else s.reg b := by
  induction l generalizing s with
  | nil => rfl
  | cons x l ih =>
    rw [List.foldl_cons, ih]
    by_cases hb : b ∈ l
    · rw [if_pos hb, if_pos (List.mem_cons_of_mem _ hb)]
    · rw [if_neg hb]
      by_cases hx : x = b
      · rw [if_pos (hx ▸ List.mem_cons_self ..), hx, State.reg_setReg_same]
      · rw [if_neg (by simp [hb, Ne.symm hx]), State.reg_setReg_other _ _ _ _ hx]

/-- The state without any route. -/
def State.unrouted (s : State) : State := s.routes.foldl (fun s a => s.setReg a 0) s

theorem State.reg_unrouted (ha : a < 0x4000) : s.unrouted.reg (R.RYF_ROUTE a) = 0 := by
  rw [State.unrouted, State.reg_foldl_zero]
  split
  · rfl
  · next h =>
    have absent : R.RYF_ROUTE a ∉ s.regs.map Prod.fst := fun hm => h (List.mem_filter.mpr ⟨hm, isRoute_route ha⟩)
    rw [State.reg, sparseGet_absent _ absent, coldOf_route ha]

theorem State.unrouted_keeps {b : Nat} (hb : isRoute b = false) : KeepsReg b s s.unrouted := by
  refine List.foldlRecOn (motive := KeepsReg b s) _ _ .refl fun t ht x hx => ht.trans (.setReg fun e => ?_)
  rw [e, State.routes, List.mem_filter, hb] at hx
  exact Bool.noConfusion hx.2

/-- One entry of a table goes in force. -/
def State.setRoute (s : State) (e : Nat × Word) : State :=
  if 1 ≤ e.1 ∧ e.1 < 0x4000 ∧ e.1 ≠ s.ownAddr then s.setReg (R.RYF_ROUTE e.1) e.2 else s

theorem State.setRoute_keeps {b : Nat} (e : Nat × Word) (hb : isRoute b = false) : KeepsReg b s (s.setRoute e) := by
  unfold State.setRoute
  split
  · next h =>
    refine .setReg fun he => ?_
    rw [← he, isRoute_route h.2.1] at hb
    exact Bool.noConfusion hb
  · exact .refl

theorem State.foldl_setRoute_keeps {b : Nat} (l : List (Nat × Word)) (hb : isRoute b = false) : KeepsReg b s (l.foldl State.setRoute s) :=
  List.foldlRecOn (motive := KeepsReg b s) _ _ .refl fun t ht e _ => ht.trans (t.setRoute_keeps e hb)

theorem KeepsReg.ownAddr {t : State} (h : KeepsReg R.ID_ADDR s t) : t.ownAddr = s.ownAddr := by
  rw [State.ownAddr, State.fld, h.2, State.ownAddr, State.fld]

theorem State.ownAddr_setRoute (e : Nat × Word) : (s.setRoute e).ownAddr = s.ownAddr := (s.setRoute_keeps e (by decide)).ownAddr

theorem ryfRoute_inj {a b : Nat} (h : R.RYF_ROUTE a = R.RYF_ROUTE b) : a = b := by
  rw [R.RYF_ROUTE, R.RYF_ROUTE] at h
  omega

/-- An entry that a table names. -/
theorem State.reg_foldl_setRoute {v : Word} (l : List (Nat × Word)) (h1 : 1 ≤ a) (ha : a < 0x4000) (ho : a ≠ s.ownAddr)
    (hl : ∀ e ∈ l, e.1 = a → e.2 = v) (hv : (∃ e ∈ l, e.1 = a) ∨ s.reg (R.RYF_ROUTE a) = v) :
    (l.foldl State.setRoute s).reg (R.RYF_ROUTE a) = v := by
  induction l generalizing s with
  | nil =>
    rcases hv with ⟨e, he, -⟩ | hv
    · cases he
    · exact hv
  | cons e l ih =>
    refine ih (by rwa [State.ownAddr_setRoute]) (fun x hx => hl x (List.mem_cons_of_mem _ hx)) ?_
    by_cases hea : e.1 = a
    · refine .inr ?_
      rw [State.setRoute, if_pos (by rw [hea]; exact ⟨h1, ha, ho⟩), hea, State.reg_setReg_same]
      exact hl e (List.mem_cons_self ..) hea
    · have kept : (s.setRoute e).reg (R.RYF_ROUTE a) = s.reg (R.RYF_ROUTE a) := by
        unfold State.setRoute
        split
        · exact State.reg_setReg_other _ _ _ _ fun h => hea (ryfRoute_inj h)
        · rfl
      rw [kept]
      refine hv.imp_left ?_
      rintro ⟨x, hx, hxa⟩
      rcases List.mem_cons.mp hx with rfl | hx
      · exact absurd hxa hea
      · exact ⟨x, hx, hxa⟩

/-- An entry that no table may name, or that this one does not name. -/
theorem State.reg_foldl_setRoute_other (l : List (Nat × Word)) (h : ∀ e ∈ l, e.1 = a → ¬ (1 ≤ a ∧ a < 0x4000 ∧ a ≠ s.ownAddr)) :
    (l.foldl State.setRoute s).reg (R.RYF_ROUTE a) = s.reg (R.RYF_ROUTE a) := by
  induction l generalizing s with
  | nil => rfl
  | cons e l ih =>
    refine (ih fun x hx hxa => by rw [State.ownAddr_setRoute]; exact h x (List.mem_cons_of_mem _ hx) hxa).trans ?_
    unfold State.setRoute
    split
    · next hv =>
      refine State.reg_setReg_other _ _ _ _ fun he => ?_
      have := ryfRoute_inj he
      exact h e (List.mem_cons_self ..) this (this ▸ hv)
    · rfl

/-- The entries of a table on a module whose ports are all up and that is no coordinator. -/
theorem State.applyTable_frame {es : List (Nat × Word)} (hup : ∀ q < 16, s.portLinked q = true) (hc : s.fld R.RYF_STAT F.RYF_STAT_COORD = 0) :
    NetFrame (es.foldl State.setRoute s.unrouted) (s.applyTable es) := by
  have keeps {b : Nat} (hb : isRoute b = false) : (es.foldl State.setRoute s.unrouted).reg b = s.reg b :=
    (State.unrouted_keeps hb).trans (State.foldl_setRoute_keeps es hb) |>.2
  have linked (q : Nat) (hq : q < 16) : (es.foldl State.setRoute s.unrouted).portLinked q = true := by
    rw [← hup q hq]
    unfold State.portLinked
    rw [State.fld, keeps (isRoute_apart q hq).1, State.fld]
  have stay (t : State) (l : List Nat) (h : ∀ q ∈ l, t.portLinked q = true) :
      l.foldl (fun s p => if s.portLinked p then s else (s.reroute p).1) t = t := by
    induction l with
    | nil => rfl
    | cons q l ih =>
      rw [List.foldl_cons, if_pos (h q (List.mem_cons_self ..))]
      exact ih fun x hx => h x (List.mem_cons_of_mem _ hx)
  have same : s.applyTable es = (es.foldl State.setRoute s.unrouted).releaseWaiting.memberRefresh :=
    congrArg (fun t : State => t.releaseWaiting.memberRefresh) (stay _ _ fun q hq => linked q (List.mem_range.mp hq))
  have coord : (es.foldl State.setRoute s.unrouted).releaseWaiting.fld R.RYF_STAT F.RYF_STAT_COORD = 0 := by
    rw [NetFrame.releaseWaiting.fld, State.fld, keeps (isRoute_apart 0 (by decide)).2]
    exact hc
  rw [same, State.memberRefresh_follower coord]
  exact .releaseWaiting

/-- The entries of a ROUTE of one part. -/
def routeEntries (first : Nat) (es : List Word) : List (Nat × Word) := (List.range es.length).map (fun k => (first + k, es.getD k 0))

theorem State.routeRx_whole {e first : Nat} {es : List Word} (h : s.fabric.routeEpoch ≤ e) :
    ∃ f, s.routeRx e 0 1 first es = (s.withFabric f).applyTable (routeEntries first es) := by
  unfold State.routeRx
  extract_lets f fresh frags t
  have hfresh : fresh := Nat.lt_succ_of_le h
  have hfrags : frags = [(0, first, es)] := by
    dsimp only [frags]
    rw [if_pos hfresh]
    rfl
  rw [if_neg (by simp [hfresh]), if_pos (by rw [hfrags]; rfl), hfrags]
  exact ⟨_, congrArg _ (List.append_nil _)⟩

theorem SameMemory.applyTable {es : List (Nat × Word)} : SameMemory s (s.applyTable es) := (MemSame.refl.applyTable).sameMemory

theorem State.routed_spec {f : FabricInt} {first : Nat} {es : List Word} (hup : ∀ q < 16, s.portLinked q = true)
    (hc : s.fld R.RYF_STAT F.RYF_STAT_COORD = 0) :
    (∀ i < es.length, 1 ≤ first + i → first + i < 0x4000 → first + i ≠ s.ownAddr →
      ((s.withFabric f).applyTable (routeEntries first es)).reg (R.RYF_ROUTE (first + i)) = es.getD i 0) ∧
    ∀ a < 0x4000, (a < first ∨ first + es.length ≤ a ∨ a = s.ownAddr ∨ a = 0) →
      ((s.withFabric f).applyTable (routeEntries first es)).reg (R.RYF_ROUTE a) = 0 := by
  have net : NetFrame s (s.withFabric f) := .withFabric
  have applied := State.applyTable_frame (s := s.withFabric f) (es := routeEntries first es)
    (fun q hq => (net.portLinked q).trans (hup q hq)) ((net.fld _ _).trans hc)
  have own : (s.withFabric f).unrouted.ownAddr = s.ownAddr := (net.keepsReg.trans (State.unrouted_keeps (by decide))).ownAddr
  have mem {e : Nat × Word} (he : e ∈ routeEntries first es) : ∃ k < es.length, e = (first + k, es.getD k 0) := by
    obtain ⟨k, hk, rfl⟩ := List.mem_map.mp he
    exact ⟨k, List.mem_range.mp hk, rfl⟩
  refine ⟨fun i hi h1 ha ho => ?_, fun a ha h => ?_⟩
  · rw [applied.reg]
    refine State.reg_foldl_setRoute _ h1 ha (by rwa [own]) (fun e he hea => ?_) (.inl ⟨_, List.mem_map.mpr ⟨i, List.mem_range.mpr hi, rfl⟩, rfl⟩)
    obtain ⟨k, -, rfl⟩ := mem he
    obtain rfl : k = i := Nat.add_left_cancel hea
    rfl
  · rw [applied.reg, State.reg_foldl_setRoute_other, State.reg_unrouted ha]
    intro e he hea hvalid
    obtain ⟨k, hk, rfl⟩ := mem he
    rw [own] at hvalid
    dsimp only at hea
    omega

end Routes

/-! ### The member query (R310) -/

/-- What a write of RYF_MQ_ADDR leaves. -/
theorem State.mqWrite_spec {s : State} {v : Nat} {m : Member} (h : s.members.find? (fun x => x.addr == v % 65536) = some m) :
    (s.mqWrite v).fld R.RYF_MQ_ADDR F.RYF_MQ_ADDR_ADDR = v % 65536 ∧ (s.mqWrite v).reg R.RYF_MQ_SERIAL = BitVec.ofNat 64 m.serial ∧
    (s.mqWrite v).reg R.RYF_MQ_INCARN = BitVec.ofNat 64 m.incarn ∧
    SameRegsBut [R.RYF_MQ_ADDR, R.RYF_MQ_SERIAL, R.RYF_MQ_INFO, R.RYF_MQ_INCARN] s (s.mqWrite v) ∧ SameMemory s (s.mqWrite v) := by
  unfold State.mqWrite
  dsimp only
  rw [h, Option.getD_some]
  refine ⟨?_, ?_, State.reg_setReg_same _ _ _, ?_, .step (.step (.step (.setFld _ _ _ _) (.setReg _ _ _)) (.setReg _ _ _)) (.setReg _ _ _)⟩
  · rw [State.fld, State.reg_setReg_other _ _ _ _ (by decide), State.reg_setReg_other _ _ _ _ (by decide),
      State.reg_setReg_other _ _ _ _ (by decide), ← State.fld]
    exact State.fld_setFld_same _ _ _ _ (by decide) (Nat.mod_lt _ (by decide))
  · rw [State.reg_setReg_other _ _ _ _ (by decide), State.reg_setReg_other _ _ _ _ (by decide), State.reg_setReg_same]
  · exact .step (.step (.step (.setFld _ _ _ (by decide)) (.setReg _ _ (by decide))) (.setReg _ _ (by decide))) (.setReg _ _ (by decide))

/-- Settles O52. -/
theorem membershipEvents : Obligations.MembershipEvents := by
  refine ⟨fun p x s hm hc hl => ⟨fun h0 h => ?_, fun h => ?_⟩, fun s hm => ⟨fun he hc hlow ht => ?_, fun h => ?_, fun h => ?_, fun h => ?_,
    fun h => ?_, fun hd ht => ?_⟩, fun p seq co de e ms ex s hm => ⟨fun h => ?_, fun hl hs hel hlen => ?_⟩,
    fun p e first es s hm => ⟨fun hl => ?_, fun hl hup hc he => ?_⟩, fun v m s hm hf => ?_⟩
  · refine State.whenMain_eq hm ((if_pos hl).trans ?_)
    rw [State.electSelf_barred hc, State.electLearn_known h0 h]
  · refine ⟨(s.learnt x.toNat).floodVc0 16 tElect (leBytes x.toNat 8), State.whenMain_eq hm ((if_pos hl).trans ?_), ?_, ?_, ?_, ?_⟩
    · rw [State.electSelf_barred hc, State.electLearn_lower h]
    · rw [State.fabric_floodVc0, State.learnt, State.fabric_withFabric]
    · rw [State.fabric_floodVc0, State.learnt, State.fabric_withFabric]
    · exact (NetFrame.trans .withFabric .floodVc0).sameRegs
    · exact (NetFrame.trans .withFabric .floodVc0).sameMemory
  · obtain ⟨hcoord, helected, -, hreg, hmem⟩ := s.becomeCoord_spec
    exact ⟨_, State.whenMain_eq hm (if_pos ⟨he, hc, hlow, ht⟩), hcoord, helected, hreg, hmem⟩
  · exact State.whenMain_eq hm (if_neg fun ⟨_, _, hlow, _⟩ => h hlow)
  · exact State.whenMain_eq hm (if_pos h)
  · exact State.whenMain_eq hm (if_neg h)
  · exact State.whenMain_eq hm (if_neg fun ⟨hd, _⟩ => h hd)
  · obtain ⟨hcoord, -, hdeputy, hreg, hmem⟩ := s.becomeCoord_spec
    exact ⟨_, State.whenMain_eq hm (if_pos ⟨hd, .inl ht⟩), hcoord, hdeputy, hreg, hmem⟩
  · refine State.whenMain_eq hm ?_
    rcases h with h | h
    · rw [if_neg (by rw [h]; exact Bool.noConfusion)]
    · split
      · exact if_pos (.inl h)
      · rfl
  · obtain ⟨f, a, y, hnet⟩ := State.memberRx_taken (s := s) (deputy := de.toNat) (epoch := e.toNat) (ms := ms) (p := p.val) (seq := seq.toNat)
      (excl := ex.map BitVec.toNat) hs hel
    obtain ⟨hms, hco, hde, hcoord, helected, hepoch, hcount⟩ := s.copied_spec (f := f) (a := a) (x := y) (coord := co.toNat)
      (deputy := de.toNat) e.isLt hlen
    refine ⟨_, State.whenMain_eq hm (if_pos hl), ?_, ?_, ?_, ?_, ?_, ?_, ?_, (MemSame.refl.memberRx).sameMemory⟩
    · rw [hnet.members, hms]
    · rw [hnet.reg, hco, BitVec.ofNat_toNat, BitVec.setWidth_eq]
    · rw [hnet.reg, hde, BitVec.ofNat_toNat, BitVec.setWidth_eq]
    · rw [hnet.fld, hcoord]
    · rw [hnet.fld, helected]
    · rw [hnet.fld, hepoch]
    · rw [hnet.fld, hcount]
  · exact State.whenMain_eq hm (if_neg (by rw [hl]; exact Bool.noConfusion))
  · obtain ⟨f, hroute⟩ := State.routeRx_whole (s := s) (first := first.toNat) (es := es) he
    obtain ⟨hnamed, hother⟩ := s.routed_spec (f := f) (first := first.toNat) (es := es) hup hc
    exact ⟨_, State.whenMain_eq hm ((if_pos hl).trans hroute), hnamed, hother, .step NetFrame.withFabric.sameMemory .applyTable⟩
  · exact ⟨_, State.whenMain_eq hm rfl, State.mqWrite_spec hf⟩

end Sys2Proof.Machine
end

section
/-!
PROOFS. The fabric: requests in their turn, answers, packets for other modules, the escape channel, the end-to-end timeout, beat
tokens.
-/

namespace Sys2Proof.Machine

open Sys2Proof

/-! ### Addresses of consecutive bytes (R24) -/

section Keys
variable {s : State} {a n : Nat}

/-- The three places of memory: the interleaved view, the view of each stack, the SRAM. -/
theorem memKey_cases {x k : Nat} (h : memKey x = some k) : (x < 0x10000000000 ∧ k = x) ∨
    (0x10000000000 ≤ x ∧ x < 0x20000000000 ∧ k = hbmKey ((x - 0x10000000000) / 0x1000000000) (x % 0x1000000000)) ∨
    (0x100000000000 ≤ x ∧ x < 0x101000000000 ∧ (x - 0x100000000000) % 0x400000000 < sramSize ∧ k = x) := by
  unfold memKey at h
  split at h
  · next hx => exact .inl ⟨hx, (Option.some.inj h).symm⟩
  · next hx =>
    split at h
    · next hx' => exact .inr (.inl ⟨Nat.not_lt.mp hx, hx', (Option.some.inj h).symm⟩)
    · split at h
      · next hs =>
        split at h
        · next hoff => exact .inr (.inr ⟨hs.1, hs.2, hoff, (Option.some.inj h).symm⟩)
        · cases h
      · cases h

theorem memKey_hbm {x : Nat} (h : x < 0x20000000000) : ∃ k, memKey x = some k := by
  unfold memKey
  by_cases h' : x < 0x10000000000
  · exact ⟨x, if_pos h'⟩
  · exact ⟨hbmKey ((x - 0x10000000000) / 0x1000000000) (x % 0x1000000000), (if_neg h').trans (if_pos h)⟩

theorem memKey_sram {x : Nat} (h : 0x100000000000 ≤ x) (h' : x < 0x101000000000) (ho : (x - 0x100000000000) % 0x400000000 < sramSize) :
    ∃ k, memKey x = some k := by
  unfold memKey
  rw [if_neg (by omega), if_neg (by omega), if_pos ⟨h, h'⟩, if_pos ho]
  exact ⟨x, rfl⟩

/-- Two addresses that are less than a granule apart are of two bytes. -/
theorem memKey_inj {x y k : Nat} (hx : memKey x = some k) (hy : memKey y = some k) (h : x < y + 4096) (h' : y < x + 4096) : x = y := by
  have hx := memKey_cases hx
  have hy := memKey_cases hy
  unfold hbmKey at hx hy
  omega

theorem mod_le_mod_of_div_eq {x y m : Nat} (h : x ≤ y) (hd : x / m = y / m) : x % m ≤ y % m := by
  have hx := Nat.div_add_mod x m
  have hy := Nat.div_add_mod y m
  rw [hd] at hx
  omega

/-- Every byte of a mapped range has an address of its own. -/
theorem memKey_isSome_of_mappedRange (hm : s.mappedRange a n = true) {i : Nat} (hi : i < n) : ∃ k, memKey (a + i) = some k := by
  have hn : n ≠ 0 := by omega
  rw [State.mappedRange, Bool.or_eq_true, Bool.and_eq_true, Bool.and_eq_true] at hm
  obtain ⟨⟨hslot, hlast⟩, -⟩ := hm.resolve_left fun h => hn (beq_iff_eq.mp h)
  obtain ⟨k, hk⟩ := Option.isSome_iff_exists.mp hlast
  unfold sramSlot at hslot
  by_cases hs : 0x100000000000 ≤ a + n - 1 ∧ a + n - 1 < 0x101000000000
  · rw [if_pos hs] at hslot
    split at hslot
    · next ha =>
      rcases memKey_cases hk with h | h | ⟨-, -, hoff, -⟩
      · omega
      · omega
      · have slot := Option.some.inj (beq_iff_eq.mp hslot)
        clear hslot hk hlast
        have hle : a + i - 0x100000000000 ≤ a + n - 1 - 0x100000000000 := Nat.sub_le_sub_right (by omega) _
        have hge : a - 0x100000000000 ≤ a + i - 0x100000000000 := Nat.sub_le_sub_right (by omega) _
        have same := Nat.le_antisymm (Nat.div_le_div_right (c := 0x400000000) hle) (Nat.le_trans (Nat.le_of_eq slot.symm) (Nat.div_le_div_right hge))
        exact memKey_sram (by omega) (by omega) (Nat.lt_of_le_of_lt (mod_le_mod_of_div_eq hle same) hoff)
    · cases beq_iff_eq.mp hslot
  · rcases memKey_cases hk with h | h | h
    · exact memKey_hbm (by omega)
    · exact memKey_hbm (by omega)
    · exact absurd ⟨h.1, h.2.1⟩ hs

theorem mem_zip_keysOf {b : List Byte} {p : Nat × Byte} (h : p ∈ (keysOf a b.length).zip b) :
    ∃ i < b.length, p = ((memKey (a + i)).getD (a + i), b.getD i 0) := by
  obtain ⟨i, hi, rfl⟩ := List.mem_iff_getElem.mp h
  have hlt : i < b.length := by
    rw [List.length_zip] at hi
    omega
  refine ⟨i, hlt, ?_⟩
  rw [List.getElem_zip, List.getD_eq_getElem?_getD, List.getElem?_eq_getElem hlt, Option.getD_some]
  simp [keysOf]

theorem zip_keysOf_mem {b : List Byte} {i : Nat} (hi : i < b.length) :
    ((memKey (a + i)).getD (a + i), b.getD i 0) ∈ (keysOf a b.length).zip b := by
  have hz : i < ((keysOf a b.length).zip b).length := by simp [keysOf, hi]
  refine List.mem_iff_getElem.mpr ⟨i, hz, ?_⟩
  rw [List.getElem_zip, List.getD_eq_getElem?_getD, List.getElem?_eq_getElem hi, Option.getD_some]
  simp [keysOf]

/-- Bytes that are stored in a mapped range, and the bytes around them. -/
theorem State.memByte_stored {b : List Byte} (hm : s.mappedRange a b.length = true) (hb : b.length ≤ 256) :
    (∀ i < b.length, ∀ k, memKey (a + i) = some k → memByte (s.poke ((keysOf a b.length).zip b)).mem k = b.getD i 0) ∧
    ∀ k, k ∉ keysOf a b.length → memByte (s.poke ((keysOf a b.length).zip b)).mem k = memByte s.mem k := by
  refine ⟨fun i hi k hk => memByte_writes _ _ (fun p hp hpk => ?_) (.inl ⟨_, zip_keysOf_mem hi, by rw [hk, Option.getD_some]⟩),
    fun k hk => memByte_writes_other _ _ fun p hp hpk => hk ?_⟩
  · obtain ⟨j, hj, rfl⟩ := mem_zip_keysOf hp
    obtain ⟨k', hk'⟩ := memKey_isSome_of_mappedRange hm hj
    dsimp only at hpk
    rw [hk', Option.getD_some] at hpk
    subst hpk
    obtain rfl : j = i := by
      have := memKey_inj hk hk' (by omega) (by omega)
      omega
    rfl
  · obtain ⟨j, hj, rfl⟩ := mem_zip_keysOf hp
    exact List.mem_map.mpr ⟨j, List.mem_range.mpr hj, hpk⟩

/-- A write of sound memory stores its bytes. -/
theorem State.writeMem_sound (b : List Byte) (ha : s.altered = []) (hh : s.held = []) :
    s.writeMem a b = (s.poke ((keysOf a b.length).zip b), false) := by
  unfold State.writeMem State.writeKeys
  dsimp only
  rw [State.writeBackHeld, if_pos hh, ha]
  have all : ((keysOf a b.length).zip b).filter (fun q => !(([] : List Nat).contains (codeUnit q.1))) = (keysOf a b.length).zip b :=
    List.filter_eq_self.mpr fun _ _ => rfl
  exact congrArg (fun l => (s.poke l, false)) all

end Keys

/-! ### Requests (R299 to R301, R315, R316, R238) -/

section Requests
variable {s u : State} {h : Hdr} {type : Nat} {b : List Byte}

theorem InTurn.net (t : InTurn s h type u) : NetFrame s u := by
  rcases t.turn with ⟨-, rfl⟩ | ⟨-, -, rfl⟩
  · exact .refl
  · exact ⟨rfl⟩

theorem exec_of_requestRow {i : Instr} (hi : requestRow i = some (h, type, b)) (hd : h.dst ≠ 0xFFFF) :
    exec i s = s.whenServing (s.requestRx h type b) := by
  unfold requestRow at hi
  split at hi
  case h_4 => 
    obtain ⟨rfl, rfl, rfl⟩ := by simpa only [Option.some.injEq, Prod.mk.injEq] using hi
    exact congrArg s.whenServing (if_neg hd)
  case h_9 => cases hi
  all_goals
    obtain ⟨rfl, rfl, rfl⟩ := by simpa only [Option.some.injEq, Prod.mk.injEq] using hi
    rfl

theorem NetFrame.actsAlone (n : NetFrame s u) (h : ActsAlone s) : ActsAlone u := by
  unfold ActsAlone State.pairedFace State.holdsIngress State.mirror State.pairState State.role at h ⊢
  rwa [n.fld, n.fld, n.fld, n.pend]

/-- The types of requests that a module acts on itself. -/
def ownTypes : List Nat := [tWrite, tReadReq, tRegRd, tRegWr, tLockOp]

/-- A request to a module that acts alone acts at once. -/
theorem State.deliver_act (ha : ActsAlone u) (hm : u.mode ≠ mEarly) (hd : h.dst ≠ 0xFFFF) (hh : u.pend.heldIn = []) (ht : type ∈ ownTypes) :
    u.deliver { hdr := h, type := type, body := b } = u.requestAct false h type b := by
  have small : type < 64 ∧ type ≠ tRedHdr ∧ type ≠ tRedData ∧ type ≠ tRetract := by
    revert type
    decide
  obtain ⟨hlt, hhdr, hdata, hretract⟩ := small
  have follows : u.followsHeld h = false := by
    rw [State.followsHeld, hh]
    rfl
  have item : u.ingress (.request h (BitVec.ofNat 6 type) b) = u.requestAct false h type b := by
    rw [State.ingress, if_neg (by rw [ha.1]; exact Bool.noConfusion), if_neg (by rw [ha.2]; exact Bool.noConfusion), State.actItem,
      BitVec.toNat_ofNat, Nat.mod_eq_of_lt hlt]
  unfold State.deliver
  dsimp only
  rw [if_neg fun e => hm e.1, if_neg hhdr, if_neg hdata, if_neg hretract, if_neg hd, item, ite_self]

/-- A request of its own kind that is in turn acts at once at a module that acts alone. -/
theorem InTurn.acts {i : Instr} (t : InTurn s h type u) (hi : requestRow i = some (h, type, b)) (ha : ActsAlone s) (hm : s.mode ≠ mEarly)
    (hh : s.pend.heldIn = []) (ht : type ∈ ownTypes) : exec i s = .next (u.requestAct false h type b) := by
  rw [t.exec_request (exec_of_requestRow hi t.arrives.unicast),
    State.deliver_act (t.net.actsAlone ha) (t.mode ▸ hm) t.arrives.unicast (by rw [t.net.pend, hh]) ht]

theorem InTurn.rest (t : InTurn s h type u) : (∀ a n, u.mappedRange a n = s.mappedRange a n) ∧ (∀ l, u.evalRefuses l = s.evalRefuses l) ∧
    u.pendAreas = s.pendAreas ∧ u.altered = s.altered ∧ u.held = s.held ∧ u.mem = s.mem := by
  rcases t.turn with ⟨-, rfl⟩ | ⟨-, -, rfl⟩
  · exact ⟨fun _ _ => rfl, fun _ => rfl, rfl, rfl, rfl, rfl⟩
  · exact ⟨fun _ _ => rfl, fun _ => rfl, rfl, rfl, rfl, rfl⟩

theorem NetFrame.respond {t addr : Nat} {err : Bool} : NetFrame s (s.respond h t err addr b) := .trans .withFabric .sendRaw

/-- A WRITE of sound, mapped memory stores its bytes and is acknowledged. -/
theorem State.writeRx_stores (hm : u.mode ≠ mEarly) (h0 : 0 < b.length) (hn : b.length ≤ 256) (hw : inRegWindow h.addr.toNat = false)
    (hmap : u.mappedRange h.addr.toNat b.length = true) (he : u.evalRefuses [(h.addr.toNat, b.length)] = false) (hp : u.pendAreas = [])
    (ha : u.altered = []) (hh : u.held = []) :
    u.writeRx false h b = (u.poke ((keysOf h.addr.toNat b.length).zip b)).respond h tWriteAck false h.addr.toNat [] := by
  have guard : u.guardWrite h.addr.toNat b.length = (false, u) := by
    rw [State.guardWrite, if_neg (by rw [he]; exact Bool.noConfusion), hp]
    rfl
  have ok : ¬ (256 < b.length ∨ inRegWindow h.addr.toNat = true ∨ u.mappedRange h.addr.toNat b.length = false) := by
    simp [hw, hmap, hn]
  unfold State.writeRx
  dsimp only
  rw [if_neg hm, if_neg (Nat.ne_of_gt h0), if_neg ok, guard]
  dsimp only
  rw [State.writeMem_sound b ha hh]
  rfl

theorem State.readReqRx_reads {d : List Byte} {v : State} (hm : u.mode ≠ mEarly) (h0 : 0 < leField b 0 8) (hn : leField b 0 8 ≤ 256)
    (hw : inRegWindow h.addr.toNat = false) (hmap : u.mappedRange h.addr.toNat (leField b 0 8) = true)
    (hr : u.readMem fabWho h.addr.toNat (leField b 0 8) = (d, v, false)) :
    u.readReqRx h b = v.respond h tReadResp false h.addr.toNat d := by
  unfold State.readReqRx
  dsimp only
  rw [if_neg hm, if_neg (Nat.ne_of_gt h0), if_neg (Nat.not_lt.mpr hn), if_neg (by simp [hw, hmap]), hr]
  rfl

end Requests

/-! ### Answers (R302) -/

section Answers
variable {s : State} {h : Hdr} {type : Nat} {b : List Byte} {r : Request}

theorem exec_of_answerRow {i : Instr} (hi : answerRow i = some (h, type, b)) (a : Arrives s h type) :
    exec i s = .next (s.responseRx h type b) := by
  have row : exec i s = s.whenServing (s.responseRx h type b) := by
    unfold answerRow at hi
    split at hi
    case h_5 => cases hi
    all_goals
      obtain ⟨rfl, rfl, rfl⟩ := by simpa only [Option.some.injEq, Prod.mk.injEq] using hi
      rfl
  exact row.trans (State.whenServing_next _ a.serving)

theorem Arrives.responseRx_none (a : Arrives s h type) (hf : s.findReq h = none) : s.responseRx h type b = s := by
  rw [State.responseRx, a.packetRx]
  dsimp only
  rw [hf]

/-- Outside a pair's face an answer ends the request that it names. -/
theorem State.replyRx_alone {bad : Option Nat} (hp : s.pairedFace = false) (ho : ∀ q pc, r.owner ≠ .bcast q pc) :
    s.replyRx r bad b = s.answered r bad b := by
  have more (x : Bool) : (match r.owner with | .bcast _ _ => x | _ => false) = false := by
    split
    · next hb => exact absurd hb (ho _ _)
    · rfl
  unfold State.replyRx
  extract_lets more'
  have hmore : more' = false := more _
  rw [hmore, if_neg Bool.false_ne_true]
  split
  · rw [hp, if_neg Bool.false_ne_true]
  · rfl

theorem Arrives.responseRx_some (a : Arrives s h type) (hf : s.findReq h = some r) : s.responseRx h type b =
    if type ≠ answerType r.type then s
    else if type = tLockResp ∧ h.err = false ∧ leField b 0 1 = lockJoined then
      s.withFabric { s.fabric with requests := s.fabric.requests.map (fun x => if x = r then { x with joined := true } else x) }
    else s.replyRx r (if h.err then some (leField b 0 1) else none) b := by
  rw [State.responseRx, a.packetRx]
  dsimp only
  rw [hf]
  rfl

end Answers

/-! ### Packets that wait (R311, R312) -/

section Waiting
variable {s : State} {p : Nat} {r : RawPkt}

theorem State.flowWaits_none (h : s.fabric.bulkWait = []) : s.flowWaits r = false := by
  rw [State.flowWaits, h, List.any_nil, Bool.and_false]

theorem State.sendRaw_routed (hb : s.fabric.bulkWait = []) (hp : s.routePort r.hdr.dst.toNat r.hdr.vc.val r.body.length = some p) :
    s.sendRaw r = s.egress p r := by
  rw [State.sendRaw, State.flowWaits_none hb, if_neg Bool.false_ne_true, hp]

theorem State.routePort_withFabric (f : FabricInt) (dst vc len : Nat) : (s.withFabric f).routePort dst vc len = s.routePort dst vc len := rfl

theorem State.exec_vc15Escape (hm : s.mainUp = true) : exec .vc15Escape s = .next
    (s.withFabric { s.fabric with bulkWait := s.fabric.bulkWait.map (fun w =>
        if (decide (12 ≤ w.2.hdr.vc.val) && decide (w.2.hdr.vc.val ≤ 14) && decide (w.1 + 2 * usTicks ≤ s.now)) &&
            (s.routePort w.2.hdr.dst.toNat w.2.hdr.vc.val w.2.body.length).isNone then
          (w.1, { w.2 with hdr := { w.2.hdr with vc := 15 } })
        else w) }).releaseWaiting := State.whenMain_next _ hm

/-- A lone bulk packet that waits and can go, goes. -/
theorem State.releaseWaiting_one {at_ : Nat} (hb : s.fabric.bulkWait = [(at_, r)])
    (ht : s.now ≤ at_ + 2 * s.fld R.RYF_CFG F.RYF_CFG_E2E_US * usTicks)
    (hp : s.routePort r.hdr.dst.toNat r.hdr.vc.val r.body.length = some p) :
    s.releaseWaiting = (s.withFabric { s.fabric with bulkWait := [] }).egress p r := by
  unfold State.releaseWaiting
  dsimp only
  rw [hb, List.foldl_cons, List.foldl_nil, if_neg (Nat.not_lt.mpr ht)]
  have waits : (s.withFabric { s.fabric with bulkWait := [] }).flowWaits r = false := State.flowWaits_none rfl
  rw [← State.withFabric, waits, if_neg Bool.false_ne_true, State.routePort_withFabric, hp]

end Waiting

/-! ### The end-to-end timeout (R302, R240) -/

section Timeout
variable {s : State} {r : Request}

/-- What sending leaves of the requests, the segments and the packets held for a gap. -/
theorem State.lists_sendRaw (r : RawPkt) : (s.sendRaw r).fabric.requests = s.fabric.requests ∧ (s.sendRaw r).fabric.early = s.fabric.early := by
  unfold State.sendRaw
  split
  · rw [State.fabric_egress _ _]
    exact ⟨rfl, rfl⟩
  · split
    · exact ⟨rfl, rfl⟩
    · exact ⟨rfl, rfl⟩

theorem State.exec_e2eTimeout (hm : s.mainUp = true) (hx : s.redTx = []) :
    exec .e2eTimeout s = .next (s.fabric.requests.foldl State.reqTimeout s).giveUpGaps := by
  refine (State.whenMain_next _ hm).trans (congrArg Host.Outcome.next ?_)
  rw [hx]
  rfl

theorem State.reqTimeout_own (hr : s.fabric.requests = [r]) (hj : r.joined = false) (ho : r.owner = .none) (hs : s.silentBack = false) :
    s.reqTimeout r = if s.now < r.sentAt + s.e2e then s else if r.resent then s.linkEnd r else s.resend r := by
  have here : s.fabric.requests.contains r = true := by simp [hr]
  have free : s.replyHeld r = false := by
    unfold State.replyHeld
    rw [ho]
    rfl
  unfold State.reqTimeout
  rw [here, free, if_neg (by simp), if_neg (by simp [hs]), if_neg (by simp [hj])]

theorem State.dropReq_lone (hr : s.fabric.requests = [r]) : (s.dropReq r).fabric.requests = [] ∧ (s.dropReq r).fabric.early = s.fabric.early ∧
    NetFrame s (s.dropReq r) := by
  refine ⟨?_, rfl, .withFabric⟩
  have gone : s.fabric.requests.filter (fun x => !(x.dst == r.dst && x.vc == r.vc && x.seq == r.seq && x.addr == r.addr)) = [] := by
    rw [hr, List.filter_cons, if_neg (by simp)]
    rfl
  exact gone

/-- A request of no unit ends. -/
theorem State.linkEnd_own (hr : s.fabric.requests = [r]) (ho : r.owner = .none) : (s.linkEnd r).fabric.requests = [] ∧
    (s.linkEnd r).fabric.early = s.fabric.early ∧ SameRegsBut [R.RYF_CNT] s (s.linkEnd r) ∧ SameMemory s (s.linkEnd r) := by
  have counted : (s.count R.RYF_CNT F.RYF_CNT_E2E_FAIL 1).fabric = s.fabric := s.count_fabric _ _ _
  have ends : s.linkEnd r = (s.count R.RYF_CNT F.RYF_CNT_E2E_FAIL 1).dropReq r := by
    unfold State.linkEnd State.replyRx
    dsimp only
    rw [ho]
    dsimp only [ReqOwner.queue]
    rw [if_neg Bool.false_ne_true, State.answered, ho]
  obtain ⟨hgone, hearly, hnet⟩ := State.dropReq_lone (s := s.count R.RYF_CNT F.RYF_CNT_E2E_FAIL 1) (r := r) (by rw [counted, hr])
  rw [ends]
  exact ⟨hgone, hearly.trans (by rw [counted]), .step (.count _ _ _ (List.mem_singleton_self _)) hnet.sameRegs,
    .step (.count _ _ _ _) hnet.sameMemory⟩

/-- A request of no unit is sent again. -/
theorem State.resend_own (hr : s.fabric.requests = [r]) (ho : r.owner = .none) :
    (s.resend r).fabric.requests = [{ r with resent := true, sentAt := s.now }] ∧
    (s.resend r).fabric.early = s.fabric.early ∧ SameRegsBut [R.RYF_CNT] s (s.resend r) ∧ SameMemory s (s.resend r) := by
  unfold State.resend
  extract_lets again f t u h
  have hu : u.fabric = t.fabric := t.count_fabric _ _ _
  have ht : t.fabric.requests = [{ r with resent := true, sentAt := s.now }] := by
    have mine : again r = true := by simp [again]
    refine (congrArg (List.map fun x => if again x then { x with resent := true, sentAt := s.now } else x) hr).trans ?_
    rw [List.map_cons, if_pos mine]
    rfl
  have early : t.fabric.early = s.fabric.early := rfl
  have netT : NetFrame s t := ⟨rfl⟩
  split
  · next hb =>
    rw [ho] at hb
    cases hb
  refine ⟨?_, ?_, .step netT.sameRegs (.step (.count _ _ _ (List.mem_singleton_self _)) NetFrame.sendRaw.sameRegs),
    .step netT.sameMemory (.step (.count _ _ _ _) NetFrame.sendRaw.sameMemory)⟩
  · rw [(State.lists_sendRaw _).1, hu, ht]
  · rw [(State.lists_sendRaw _).2, hu, early]

end Timeout

/-! ### Beat tokens (R318, R319) -/

section Tokens
variable {s : State} {p : Nat} {h : Hdr} {res : Nat} {b : List Byte}

/-- A token that is not known yet is remembered, and sent on where it has hops left. -/
def State.tokenOn (s : State) (h : Hdr) (k n : Nat) (r : RawPkt) (but : Option Nat) : State :=
  if h.hops.val = 63 then (s.noteFlood k n).count R.RYF_CNT F.RYF_CNT_HOPS 1 else (s.noteFlood k n).bcastOut r but

theorem NetFrame.bcastOut {r : RawPkt} {but : Option Nat} : NetFrame s (s.bcastOut r but) := .foldl fun _ _ => .ite .egress .refl

theorem State.fabric_bcastOut (r : RawPkt) (but : Option Nat) : (s.bcastOut r but).fabric = s.fabric := by
  refine List.foldlRecOn (motive := fun t : State => t.fabric = s.fabric) _ _ rfl fun t ht p _ => ?_
  split
  · exact (State.fabric_egress _ _).trans ht
  · exact ht

theorem State.seenFlood_noteFlood (k n : Nat) : (s.noteFlood k n).seenFlood k n = true := by
  unfold State.seenFlood State.noteFlood
  simp

theorem State.tokenOn_spec (k n : Nat) (r : RawPkt) (but : Option Nat) : (s.tokenOn h k n r but).seenFlood k n = true ∧
    (s.tokenOn h k n r but).tracker = s.tracker ∧ SameMemory s (s.tokenOn h k n r but) ∧
    ∀ a f, a ≠ R.RYF_CNT → (s.tokenOn h k n r but).fld a f = s.fld a f := by
  have noted : NetFrame s (s.noteFlood k n) := .withFabric
  have seen {t : State} (ht : t.fabric = (s.noteFlood k n).fabric) : t.seenFlood k n = true := by
    rw [State.seenFlood, ht]
    exact State.seenFlood_noteFlood k n
  unfold State.tokenOn
  split
  · exact ⟨seen (State.count_fabric ..), (State.count_tracker ..).trans (by rw [noted.rest]), .step noted.sameMemory (.count _ _ _ _),
      fun a f ha => (State.fld_count_other _ _ _ _ _ _ ha.symm).trans (noted.fld _ _)⟩
  · have out := noted.trans (NetFrame.bcastOut (r := r) (but := but))
    exact ⟨seen (State.fabric_bcastOut _ _), by rw [out.rest], out.sameMemory, fun a f _ => out.fld _ _⟩

theorem State.jitter_free (hp : s.pert 0 = false) (e : Nat) : s.jitter e = (some e, s) := by
  unfold State.jitter
  rw [hp]
  exact if_neg Bool.false_ne_true

theorem State.tokenRx_ignored (hv : vcOk 0x10 h.vc.val = true)
    (hi : s.portV3 p = false ∨ b.length ≠ 32 ∨ leField b 8 8 = s.serial ∨ s.seenFlood (leField b 8 8) (leField b 0 6) = true) :
    s.tokenRx p h res b = s := by
  unfold State.tokenRx
  dsimp only
  rw [if_neg (by rw [hv]; exact Bool.noConfusion), if_pos hi]

/-- A token does not reach a tracker that listens to another source. -/
theorem State.tokenRx_unheard (hv : vcOk 0x10 h.vc.val = true) (h3 : s.portV3 p = true) (hb : b.length = 32) (hs : leField b 8 8 ≠ s.serial)
    (hn : s.seenFlood (leField b 8 8) (leField b 0 6) = false) (hsrc : s.fld R.BEAT_CFG F.BEAT_CFG_SOURCE ≠ 2) (hp : s.pert 0 = false) :
    ∃ r but, s.tokenRx p h res b = s.tokenOn h (leField b 8 8) (leField b 0 6) r but := by
  have new : ¬ (s.portV3 p = false ∨ b.length ≠ 32 ∨ leField b 8 8 = s.serial ∨ s.seenFlood (leField b 8 8) (leField b 0 6) = true) := by
    simp [h3, hb, hs, hn]
  unfold State.tokenRx
  extract_lets num serial rank corr t lat u
  rw [if_neg (by rw [hv]; exact Bool.noConfusion), if_neg new]
  refine ⟨_, _, (?_ : _ = u)⟩
  obtain ⟨-, -, -, hfld⟩ := s.tokenOn_spec (h := h) (leField b 8 8) (leField b 0 6)
    { hdr := { h with hops := h.hops + 1 }, type := 0x10, body := tokenBody num serial rank ((corr + lat + res) % 2 ^ 32) } (some p)
  have hu : ∀ a f, a ≠ R.RYF_CNT → u.fld a f = s.fld a f := hfld
  have pert : u.pert 0 = false := by
    rw [State.pert, hu _ _ (by decide), hu _ _ (by decide), ← State.pert, hp]
  rw [State.jitter_free pert]
  dsimp only
  rw [State.tokenEdge]
  dsimp only
  have other : u.fld R.BEAT_CFG F.BEAT_CFG_SOURCE ≠ 2 := by
    rw [hu _ _ (by decide)]
    exact hsrc
  rw [if_pos other, ite_self]

end Tokens

/-- Settles O53. -/
theorem fabricTraffic : Obligations.FabricTraffic := by
  refine ⟨fun i h type b s u hi t => t.exec_request (exec_of_requestRow hi t.arrives.unicast), fun h b s u ha hm hd hh => ⟨fun t => ⟨?_, ?_⟩,
    fun t p => ?_, fun t => ⟨?_, fun d v h0 hn hw hmap hr => ?_⟩, fun t => ?_, fun k w t => ?_⟩,
    fun i h type b r s hi a hp => ⟨fun hf => ?_, fun hf ho => ⟨fun hne => ?_, fun he hj => ?_⟩⟩,
    fun h type b s hm hv => ⟨fun hd => ?_, fun h1 h2 h3 => ⟨fun h63 => ?_, fun p hlt hb hroute => ?_⟩⟩, fun s hm hb => ?_,
    fun at_ p r s hm hb h12 h14 hold hage hnone hroute => ?_, fun s hm hr hx he => ?_,
    fun r s hm hr hx he hj ho hs => ⟨fun ht => ?_, fun ht => ?_⟩, fun p h res b s hm hv => ⟨fun hi => ?_, fun h3 hb hs hn hsrc hp => ?_⟩⟩
  · exact t.acts rfl ha hm hh (by decide)
  · intro h0 hn hw hmap he hp halt hheld
    obtain ⟨hmap', he', hp', halt', hheld', hmem'⟩ := t.rest
    have hmap'' : u.mappedRange h.addr.toNat b.length = true := (hmap' _ _).trans hmap
    obtain ⟨hin, hout⟩ := State.memByte_stored hmap'' hn
    rw [State.writeRx_stores (t.mode ▸ hm) h0 hn hw hmap'' ((he' _).trans he) (hp'.trans hp) (halt'.trans halt) (hheld'.trans hheld),
      NetFrame.respond.mem]
    exact ⟨hin, fun k hk => (hout k hk).trans (by rw [hmem'])⟩
  · exact t.acts rfl ha hm hh (by decide)
  · exact t.acts rfl ha hm hh (by decide)
  · exact State.readReqRx_reads (t.mode ▸ hm) h0 hn hw ((t.rest.1 _ _).trans hmap) hr
  · exact t.acts rfl ha hm hh (by decide)
  · exact t.acts rfl ha hm hh (by decide)
  · rw [exec_of_answerRow hi a, a.responseRx_none hf]
  · rw [exec_of_answerRow hi a, a.responseRx_some hf, if_pos hne]
  · have wait : ¬ (type = tLockResp ∧ h.err = false ∧ leField b 0 1 = lockJoined) := by
      rintro ⟨h1, h2, h3⟩
      rcases hj h1 with h | h
      · rw [h2] at h
        exact Bool.noConfusion h
      · exact h h3
    rw [exec_of_answerRow hi a, a.responseRx_some hf, if_neg (not_not_intro he), if_neg wait, State.replyRx_alone hp ho]
  · refine State.whenMain_eq hm ?_
    rw [if_neg (by rw [hv]; exact Bool.noConfusion), if_pos hd]
  · refine ⟨_, State.whenMain_eq hm ?_, State.fld_count_same _ _ _ _ (by decide), .count _ _ _ (List.mem_singleton_self _), State.count_out ..⟩
    rw [if_neg (by rw [hv]; exact Bool.noConfusion), if_neg (by simp [h1, h2, h3]), if_pos h63]
  · refine State.whenMain_eq hm ?_
    rw [if_neg (by rw [hv]; exact Bool.noConfusion), if_neg (by simp [h1, h2, h3]), if_neg (Nat.ne_of_lt hlt)]
    exact State.sendRaw_routed hb hroute
  · rw [State.exec_vc15Escape hm, hb, List.map_nil, State.releaseWaiting_none rfl, ← hb]
    exact congrArg Host.Outcome.next State.withFabric_self
  · have moves : (decide (12 ≤ r.hdr.vc.val) && decide (r.hdr.vc.val ≤ 14) && decide (at_ + 2 * usTicks ≤ s.now) &&
        (s.routePort r.hdr.dst.toNat r.hdr.vc.val r.body.length).isNone) = true := by simp [h12, h14, hold, hnone]
    rw [State.exec_vc15Escape hm, hb, List.map_cons, List.map_nil, if_pos moves]
    refine congrArg Host.Outcome.next ?_
    exact State.releaseWaiting_one (s := s.withFabric _) rfl hage ((State.routePort_withFabric _ _ _ _).trans hroute)
  · rw [State.exec_e2eTimeout hm hx, hr, List.foldl_nil, State.giveUpGaps_none he]
  · rw [State.exec_e2eTimeout hm hx, hr, List.foldl_cons, List.foldl_nil, State.reqTimeout_own hr hj ho hs, if_pos ht, State.giveUpGaps_none he]
  · have own := State.reqTimeout_own hr hj ho hs
    rw [if_neg (Nat.not_lt.mpr ht)] at own
    have hexec : exec .e2eTimeout s = .next (if r.resent then s.linkEnd r else s.resend r).giveUpGaps := by
      rw [State.exec_e2eTimeout hm hx, hr, List.foldl_cons, List.foldl_nil, own]
    cases hrs : r.resent
    · obtain ⟨hreqs, hearly, hregs, hmem⟩ := State.resend_own hr ho
      rw [hrs, if_neg Bool.false_ne_true, State.giveUpGaps_none (hearly.trans he)] at hexec
      exact ⟨_, hexec, hreqs, hregs, hmem⟩
    · obtain ⟨hreqs, hearly, hregs, hmem⟩ := State.linkEnd_own hr ho
      rw [hrs, if_pos rfl, State.giveUpGaps_none (hearly.trans he)] at hexec
      exact ⟨_, hexec, hreqs, hregs, hmem⟩
  · exact State.whenMain_eq hm (State.tokenRx_ignored hv hi)
  · obtain ⟨r, but, hrx⟩ := State.tokenRx_unheard (res := res.toNat) hv h3 hb hs hn hsrc hp
    obtain ⟨hseen, htracker, hmem, -⟩ := s.tokenOn_spec (h := h) (leField b 8 8) (leField b 0 6) r but
    exact ⟨_, State.whenMain_eq hm hrx, hseen, htracker, hmem⟩

end Sys2Proof.Machine
end

section
/-!
PROOFS. Traffic between the two modules of a pair: heartbeats, silence and its probe, the end of the pair, ingress, manifests,
digests, and the commands of the pendant engine.
-/

namespace Sys2Proof.Machine

open Sys2Proof

/-! ### The end of a pair (R375, R379) -/

section PairEnd
variable {s t u : State} {x : Nat}

/-- The registers that a change of the pair's state writes. -/
def IsPairReg (a : Nat) : Prop := IsModeReg a ∨ a = R.PEND_STAT

theorem State.pairSet_frame : BootFrame IsPairReg s (s.setPairState x) := .setFld _ _ _ (.inr rfl)

theorem State.pairChange_frame : BootFrame IsPairReg s (s.pairChange (fun s => s.setPairState x)) :=
  .ite State.pairSet_frame (State.pairSet_frame.trans (((State.hostEvent_frame _ _).trans (State.alert_frame _)).mono fun _ => .inl))

theorem not_isModeReg_pendStat : ¬ IsModeReg R.PEND_STAT := by
  unfold IsModeReg IsRecordReg
  decide

theorem not_isPairReg_pendCnt : ¬ IsPairReg R.PEND_CNT := by
  unfold IsPairReg IsModeReg IsRecordReg
  decide

theorem State.pairState_setPairState (hx : x < 8) : (s.setPairState x).pairState = x :=
  s.fld_setFld_same _ _ _ (by decide) (show x < 2 ^ 4 by omega)

theorem State.pairState_pairChange (hx : x < 8) : (s.pairChange (fun s => s.setPairState x)).pairState = x := by
  have told (t : State) (b : List Byte) : BootFrame IsModeReg t ((t.hostEvent 4 b).alert 3) :=
    (State.hostEvent_frame _ _).trans (State.alert_frame _)
  unfold State.pairChange
  extract_lets old t new
  have ht : t.pairState = x := State.pairState_setPairState hx
  split
  · exact ht
  · exact ((told t _).fld _ not_isModeReg_pendStat).trans ht

/-- `t` is `s` after a pair ended in state x, with no comparison waiting, no collective and nothing standing still. -/
structure PairEnded (x : Nat) (s t : State) : Prop where
  state : t.pairState = x
  regs : ∀ a, ¬ IsPairReg a → t.reg a = s.reg a
  cmds : t.cmds = s.cmds
  heldIn : t.pend.heldIn = s.pend.heldIn
  memory : SameMemory s t

/-- A pair ends quietly: nothing hangs on it. -/
structure QuietPair (s : State) : Prop where
  compares : s.pend.compares = []
  colls : s.colls = []
  quiesced : s.pend.quiesced = false

theorem QuietPair.of_eq (h : QuietPair s) (hp : t.pend.compares = s.pend.compares) (hc : t.colls = s.colls)
    (hq : t.pend.quiesced = s.pend.quiesced) : QuietPair t := ⟨hp.trans h.compares, hc.trans h.colls, hq.trans h.quiesced⟩

/-- The state without the digests of a pair that is no more. -/
def State.pairForgotten (s : State) : State :=
  { s.updPend (fun p => { p with compares := [], digests := [] }) with stepDigests := [] }

theorem State.pairTidy_quiet (q : QuietPair s) (h : s.pairState ≠ psPaired) : s.pairTidy = s.pairForgotten := by
  have dropped : (s.updPend (fun p => { p with compares := [], digests := [] })).dropChecks = s.pairForgotten := by
    unfold State.dropChecks
    extract_lets t
    rw [show t.colls = [] from q.colls]
    rfl
  unfold State.pairTidy
  rw [if_neg h, q.compares]
  extract_lets t u
  have ht : t = s := rfl
  clear_value t
  subst ht
  have hu : u = t.pairForgotten := dropped
  clear_value u
  subst hu
  rw [if_neg (by rw [show t.pairForgotten.pend.quiesced = false from q.quiesced]; exact Bool.noConfusion)]

theorem State.pairLeft (q : QuietPair s) (hx : x < 8) (hn : x ≠ psPaired) :
    PairEnded x s (s.pairChange (fun s => s.setPairState x)).pairTidy := by
  have f := s.pairChange_frame (x := x)
  have hs := s.pairState_pairChange hx
  have pend : (s.pairChange (fun s => s.setPairState x)).pend = s.pend := by rw [f.rest]
  generalize s.pairChange (fun s => s.setPairState x) = t at f hs pend
  have heldIn : t.pairForgotten.pend.heldIn = s.pend.heldIn := (congrArg PendInt.heldIn pend :)
  rw [State.pairTidy_quiet (q.of_eq (by rw [pend]) f.colls (by rw [pend])) (by rw [hs]; exact hn)]
  exact ⟨hs, f.regs, f.cmds, heldIn, f.sameMemory.step (.of_eq rfl rfl)⟩

theorem State.soloNow_spec (q : QuietPair s) : PairEnded psSolo s s.soloNow := State.pairLeft q (by decide) (by decide)

theorem State.brokenNow_spec (q : QuietPair s) : PairEnded psBroken s s.brokenNow := State.pairLeft q (by decide) (by decide)

theorem State.afterPair_none (h : s.pend.heldIn = []) (back : Bool) : s.afterPair back = s := by
  unfold State.afterPair
  rw [h]
  exact if_pos (.inl rfl)

theorem State.afterPair_paired (h : s.pairState = psPaired) (back : Bool) : s.afterPair back = s := if_pos (.inr (.inl h))

/-- What a module notes of a partner that it has no more: a counter, a record, the end of the probe. -/
def State.partnerNoted (s : State) (f : Field) (r : ErrRec) : State :=
  ((s.count R.PEND_CNT f 1).errRecord r).updPend (fun p => { p with probeAt := 0, probeAns := none })

/-- The entries staged for later epochs than the copy's are dropped. -/
def State.stagedUpTo (s : State) (copy : Nat) : State :=
  s.updPend (fun p => { p with staged := p.staged.filter (fun x => decide (x.epoch ≤ copy)) })

theorem State.partnerNoted_frame (f : Field) (r : ErrRec) : RecordFrame (s.count R.PEND_CNT f 1) ((s.count R.PEND_CNT f 1).errRecord r) :=
  State.errRecord_recordFrame _ _

theorem not_isRecordReg_pend : ¬ IsRecordReg R.PEND_STAT ∧ ¬ IsRecordReg R.PEND_CFG ∧ ¬ IsRecordReg R.PEND_CNT := by
  unfold IsRecordReg
  decide

theorem State.partnerNoted_reg (f : Field) (r : ErrRec) {a : Nat} (ha : ¬ IsRecordReg a) :
    (s.partnerNoted f r).reg a = (s.count R.PEND_CNT f 1).reg a := (State.partnerNoted_frame f r).regs a ha

theorem State.partnerNoted_kept (f : Field) (r : ErrRec) : (s.partnerNoted f r).mirror = s.mirror ∧ (s.partnerNoted f r).role = s.role := by
  have kept {a : Nat} (g : Field) (ha : ¬ IsRecordReg a) (h : R.PEND_CNT ≠ a) : (s.partnerNoted f r).fld a g = s.fld a g := by
    rw [State.fld, s.partnerNoted_reg f r ha, (KeepsReg.count h).2, State.fld]
  exact ⟨congrArg (· == mirrorMode) (kept _ not_isRecordReg_pend.2.1 (by decide)), kept _ not_isRecordReg_pend.1 (by decide)⟩

theorem State.partnerNoted_pend (f : Field) (r : ErrRec) : (s.partnerNoted f r).pend = { s.pend with probeAt := 0, probeAns := none } := by
  have h : ((s.count R.PEND_CNT f 1).errRecord r).pend = s.pend := by
    rw [(State.partnerNoted_frame f r).rest]
    exact State.count_pend s R.PEND_CNT f 1
  exact congrArg (fun p : PendInt => { p with probeAt := 0, probeAns := none }) h

theorem State.partnerNoted_quiet (q : QuietPair s) (f : Field) (r : ErrRec) : QuietPair (s.partnerNoted f r) := by
  refine q.of_eq (by rw [State.partnerNoted_pend]) ?_ (by rw [State.partnerNoted_pend])
  show ((s.count R.PEND_CNT f 1).errRecord r).colls = s.colls
  rw [(State.partnerNoted_frame f r).rest]
  exact State.count_colls s R.PEND_CNT f 1

theorem State.partnerNoted_sameMemory (f : Field) (r : ErrRec) : SameMemory s (s.partnerNoted f r) := by
  refine SameMemory.step (t := (s.count R.PEND_CNT f 1).errRecord r) ?_ (.of_eq rfl rfl)
  exact (SameMemory.count _ _ _ _).step (State.partnerNoted_frame f r).sameMemory

theorem State.partnerSplit_eq : ∃ r, s.partnerSplit = (if (s.partnerNoted F.PEND_CNT_SPLIT r).mirror &&
    (s.partnerNoted F.PEND_CNT_SPLIT r).role == roleBack then (s.partnerNoted F.PEND_CNT_SPLIT r).brokenNow
    else (s.partnerNoted F.PEND_CNT_SPLIT r).soloNow) := ⟨_, rfl⟩

theorem State.partnerSplit_broken (q : QuietPair s) (hm : s.mirror = true) (hr : s.role = roleBack) : s.partnerSplit.pairState = psBroken := by
  obtain ⟨r, e⟩ := s.partnerSplit_eq
  obtain ⟨mirror, role⟩ := s.partnerNoted_kept F.PEND_CNT_SPLIT r
  rw [e, mirror, role, hm, hr, if_pos (by decide)]
  exact (State.brokenNow_spec (State.partnerNoted_quiet q _ _)).state

theorem State.partnerSplit_solo (q : QuietPair s) (h : s.mirror = false ∨ s.role ≠ roleBack) : s.partnerSplit.pairState = psSolo := by
  obtain ⟨r, e⟩ := s.partnerSplit_eq
  obtain ⟨mirror, role⟩ := s.partnerNoted_kept F.PEND_CNT_SPLIT r
  rw [e, mirror, role, if_neg (by
    rw [Bool.and_eq_true, beq_iff_eq]
    rintro ⟨hm, hr⟩
    exact h.elim (fun h => Bool.noConfusion (h.symm.trans hm)) fun h => h hr)]
  exact (State.soloNow_spec (State.partnerNoted_quiet q _ _)).state

/-- A module that loses its partner and is not the back of a mirror serves alone. -/
theorem State.partnerLost_spec (q : QuietPair s) (why : Nat) (h : s.mirror = false ∨ s.role ≠ roleBack) :
    ∃ r, PairEnded psSolo (s.partnerNoted F.PEND_CNT_LOST r) (s.partnerLost why) := by
  have e : ∃ r, s.partnerLost why = (if (s.partnerNoted F.PEND_CNT_LOST r).mirror then
      (if (s.partnerNoted F.PEND_CNT_LOST r).role = roleBack then (s.partnerNoted F.PEND_CNT_LOST r).takeover
        else (s.partnerNoted F.PEND_CNT_LOST r).soloNow)
      else ((s.partnerNoted F.PEND_CNT_LOST r).stagedUpTo ((s.partnerNoted F.PEND_CNT_LOST r).fld R.PEND_COPY F.PEND_COPY_EPOCH)).soloNow) := by
    refine ⟨{ cls := clsDeferred, code := 0x0604, unit := 0xDC, info0 := (s.reg R.PEND_PEER_SERIAL).toNat, info1 := why }, ?_⟩
    unfold State.partnerLost State.partnerNoted
    rfl
  obtain ⟨r, e⟩ := e
  obtain ⟨mirror, role⟩ := s.partnerNoted_kept F.PEND_CNT_LOST r
  have quiet := State.partnerNoted_quiet q F.PEND_CNT_LOST r
  refine ⟨r, ?_⟩
  rw [e, mirror, role]
  generalize s.partnerNoted F.PEND_CNT_LOST r = t at quiet
  by_cases hm : s.mirror = true
  · rw [if_pos hm, if_neg (h.resolve_left fun h => Bool.noConfusion (hm.symm.trans h))]
    exact State.soloNow_spec quiet
  · rw [if_neg hm]
    have kept := (t.stagedUpTo (t.fld R.PEND_COPY F.PEND_COPY_EPOCH)).soloNow_spec (quiet.of_eq rfl rfl rfl)
    exact ⟨kept.state, kept.regs, kept.cmds, kept.heldIn, SameMemory.step (.of_eq rfl rfl) kept.memory⟩

theorem State.partnerLost_alone (q : QuietPair s) (hm : s.mirror = false) (hh : s.pend.heldIn = []) (why : Nat) :
    (s.partnerLost why).pairState = psSolo ∧ (s.partnerLost why).pend.heldIn = [] ∧ SameMemory s (s.partnerLost why) ∧
      (s.partnerLost why).fld R.PEND_CNT F.PEND_CNT_LOST = min (s.fld R.PEND_CNT F.PEND_CNT_LOST + 1) 255 := by
  obtain ⟨r, e⟩ := State.partnerLost_spec q why (.inl hm)
  refine ⟨e.state, e.heldIn.trans ?_, (State.partnerNoted_sameMemory _ _).step e.memory, ?_⟩
  · rw [State.partnerNoted_pend]
    exact hh
  · rw [State.fld, e.regs _ not_isPairReg_pendCnt, s.partnerNoted_reg _ _ not_isRecordReg_pend.2.2, ← State.fld]
    exact s.fld_count_same _ _ _ (by decide)

end PairEnd

/-! ### Heartbeats, silence and the probe (R366, R379) -/

section Silence
variable {s t : State}

theorem State.updPend_congr {f g : PendInt → PendInt} (h : f s.pend = g s.pend) : s.updPend f = s.updPend g :=
  congrArg (fun p => { s with pend := p }) h

theorem State.sendHeartbeat_spec : s.sendHeartbeat.out.length = s.out.length + ((List.range 2).filter s.pendUp).length ∧
    NetFrame s s.sendHeartbeat := by
  have sent (l : List Nat) (t : State) (h : ∀ p, t.pendUp p = s.pendUp p) :
      (l.foldl (fun s p => if s.pendUp p then s.emit { kind := .pendant, nums := [p, 0x30], bytes := s.heartbeatBytes } else s) t).out.length =
        t.out.length + (l.filter s.pendUp).length ∧
      NetFrame t (l.foldl (fun s p => if s.pendUp p then s.emit { kind := .pendant, nums := [p, 0x30], bytes := s.heartbeatBytes } else s) t) := by
    induction l generalizing t with
    | nil => exact ⟨rfl, .refl⟩
    | cons p l ih =>
      rw [List.foldl_cons]
      cases hp : s.pendUp p
      · rw [if_neg (by rw [h, hp]; exact Bool.noConfusion), List.filter_cons_of_neg (by rw [hp]; exact Bool.noConfusion)]
        exact ih t h
      · rw [if_pos ((h p).trans hp), List.filter_cons_of_pos hp]
        obtain ⟨len, frame⟩ := ih (t.emit { kind := .pendant, nums := [p, 0x30], bytes := t.heartbeatBytes }) h
        refine ⟨len.trans ?_, .trans .emit frame⟩
        rw [State.length_out_emit, List.length_cons]
        omega
  exact sent (List.range 2) s fun _ => rfl

theorem State.exec_heartbeatRx {p : Fin 2} {st : BitVec 8} {x sent : BitVec 64} (hm : s.mainUp = true) (hp : s.pendUp p.val = true)
    (hh : (s.heartbeat st.toNat x.toNat sent.toNat).pend.heldIn = []) :
    exec (.heartbeatRx p st x sent) s = .next (s.heartbeat st.toNat x.toNat sent.toNat) :=
  State.whenMain_eq hm ((if_pos hp).trans (State.afterPair_none hh _))

theorem State.not_mirrorBack (hm : s.mirror = false) : s.mirrorBack = false := by
  unfold State.mirrorBack
  rw [show (s.fld R.PEND_CFG F.PEND_CFG_MODE == mirrorMode) = false from hm]
  rfl

theorem State.not_silentBack (hm : s.mirror = false) : s.silentBack = false := by
  rw [State.silentBack, State.not_mirrorBack hm]
  rfl

theorem State.not_pairedFace (hm : s.mirror = false) : s.pairedFace = false := by
  rw [State.pairedFace, hm]
  rfl

/-- The state with a HEARTBEAT of the partner received now. -/
def State.heardNow (s : State) : State := s.updPend (fun p => { p with lastHb := s.now, probeAt := 0, probeAns := none })

/-- A HEARTBEAT of the partner's old incarnation, in a pair that is no mirror, ends the silence. -/
theorem State.heartbeat_known {st sent : Nat} (hp : s.pairState = psPaired) (hm : s.mirror = false) (hs : st ≠ psDetaching) :
    s.heartbeat st (s.reg R.PEND_PEER_INCARN).toNat sent = s.heardNow := by
  unfold State.heartbeat
  rw [if_neg (fun h => h hp), if_neg (fun h => h rfl)]
  extract_lets t u
  have ht : t = s.heardNow := rfl
  have hu : u = t := if_neg (by
    rw [show t.silentBack = s.silentBack from rfl, State.not_silentBack hm]
    exact Bool.noConfusion)
  rw [if_neg hs, if_neg (fun h => by
    rw [hu, show t.pairedFace = s.pairedFace from rfl, State.not_pairedFace hm] at h
    exact Bool.noConfusion h.2), hu, ht]

/-- The state with a probe of the partner under way. -/
def State.probing (s : State) : State := s.updPend (fun p => { p with probeAt := s.now + 1, probeAns := none })

/-- A request that no queue owns goes out, and is noted. -/
theorem State.sendReq_probe (dst addr : Nat) : NetFrame s (s.sendReq dst 1 tRegRd addr [] .probe).2 ∧
    ∃ r ∈ (s.sendReq dst 1 tRegRd addr [] .probe).2.fabric.requests, r.owner = .probe ∧ r.dst = dst ∧ r.vc = 1 ∧ r.type = tRegRd ∧
      r.addr = addr := by
  have sent : NetFrame s (s.sendPkt dst 1 tRegRd addr []).2 := .trans (t := (s.takeSeq dst 1).2) .withFabric .sendRaw
  unfold State.sendReq
  rw [if_neg fun h => h.2.2 rfl]
  generalize s.sendPkt dst 1 tRegRd addr [] = p at sent
  obtain ⟨n, t⟩ := p
  exact ⟨sent.trans .withFabric, _, List.mem_append_right _ (List.mem_singleton.mpr rfl), rfl, rfl, rfl, rfl, rfl⟩

theorem State.probeStart_idle (h : s.pairState ≠ psPaired ∨ s.pend.probeAt ≠ 0 ∨ s.now < s.pend.lastHb + 20 * usTicks) :
    s.probeStart = s :=
  if_neg fun ⟨hp, h0, ht⟩ => by
    rcases h with h | h | h
    · exact h hp
    · exact h h0
    · exact absurd h (Nat.not_lt.mpr ht)

theorem State.probeStart_silent (hp : s.pairState = psPaired) (h0 : s.pend.probeAt = 0) (ht : s.pend.lastHb + 20 * usTicks ≤ s.now) :
    s.probeStart = (s.probing.sendReq s.partnerAddr 1 tRegRd R.ID_INCARN [] .probe).2 := if_pos ⟨hp, h0, ht⟩

theorem State.exec_probeResult (hm : s.mainUp = true) {t : State} (h : s.probeOutcome = t) :
    exec .probeResult s = .next (t.afterPair (s.role == roleBack)) := by
  subst h
  exact State.whenMain_eq hm rfl

theorem State.probeOutcome_none (h : s.pairState ≠ psPaired ∨ s.pend.probeAt = 0) : s.probeOutcome = s := if_pos h

theorem State.probeOutcome_unlisted (hp : s.pairState = psPaired) (h0 : s.pend.probeAt ≠ 0) (h : s.memberIncarn s.partnerAddr = none) :
    s.probeOutcome = s.partnerLost 1 :=
  (if_neg fun h => h.elim (fun h => h hp) h0).trans (if_pos (by rw [h]; rfl))

theorem State.probeOutcome_answered {m i : Nat} (hp : s.pairState = psPaired) (h0 : s.pend.probeAt ≠ 0)
    (h : s.memberIncarn s.partnerAddr = some m) (ha : s.pend.probeAns = some i) :
    s.probeOutcome = if i = (s.reg R.PEND_PEER_INCARN).toNat then s.partnerSplit else s.partnerLost 4 := by
  unfold State.probeOutcome
  extract_lets since
  rw [if_neg fun h => h.elim (fun h => h hp) h0, if_neg (by rw [h]; exact Bool.noConfusion), ha]

theorem State.probeOutcome_unanswered {m : Nat} (hp : s.pairState = psPaired) (h0 : s.pend.probeAt ≠ 0)
    (h : s.memberIncarn s.partnerAddr = some m) (ha : s.pend.probeAns = none) :
    s.probeOutcome = if s.pend.probeAt - 1 + s.fld R.PEND_CFG F.PEND_CFG_PROBE_US * usTicks ≤ s.now then s.partnerLost 2 else s := by
  unfold State.probeOutcome
  extract_lets since
  rw [if_neg fun h => h.elim (fun h => h hp) h0, if_neg (by rw [h]; exact Bool.noConfusion), ha]

theorem State.advertise_frame : NetFrame s s.advertise := by
  have first (c : Prop) [Decidable c] (o : Out) : NetFrame s (if c then s else s.emit o) := .ite .refl .emit
  unfold State.advertise
  exact (first _ _).trans (.ite .emit .refl)

end Silence

/-! ### Ingress (R369) -/

section Ingress
variable {s : State} {n : Nat} {x : IngressItem}

theorem State.role_of_silentBack (h : s.silentBack = true) : (s.role == roleBack) = true :=
  (Bool.and_eq_true_iff.mp (Bool.and_eq_true_iff.mp h).1).2

theorem State.silentBack_sendPend (type : Nat) (nums : List Nat) (bytes : List Byte) :
    (s.sendPend type nums bytes).silentBack = s.silentBack := by
  have f : BootFrame (fun _ => False) s (s.sendPend type nums bytes) := .sendPend _ _ _
  unfold State.silentBack State.mirrorBack
  rw [f.fld _ id, f.fld _ id, f.fld _ id]

theorem State.actable_sendPend (type : Nat) (nums : List Nat) (bytes : List Byte) :
    (s.sendPend type nums bytes).actable x = s.actable x := by
  have f : (s.sendPend type nums bytes).fabric = s.fabric := by
    rw [(BootFrame.sendPend (s := s) (p := fun _ => False) type nums bytes).rest]
  unfold State.actable State.replyReq
  rw [f]

/-- The state of a back that holds one item. -/
def State.holding (s : State) (n : Nat) (x : IngressItem) : State := s.updPend (fun p => { p with heldIn := [(n, x)] })

theorem State.ingressRx_old (h : s.silentBack = true) (hh : s.pend.heldIn = []) (hn : n ≤ s.pend.ingDone) :
    s.ingressRx n x = s.sendPend 0x32 [s.pend.ingDone] [] := by
  have high : s.ingHigh = s.pend.ingDone := by
    rw [State.ingHigh, hh]
    rfl
  unfold State.ingressRx
  rw [if_pos h, if_pos hn]
  dsimp only
  rw [high, State.ingressGo, State.sendPend_pend, hh]
  rfl

theorem State.ingressRx_new (h : s.silentBack = true) (hh : s.pend.heldIn = []) (hn : s.pend.ingDone < n) :
    s.ingressRx n x = ((s.holding n x).sendPend 0x32 [(s.holding n x).ingHigh] []).ingressPump 1 := by
  have held : s.updPend (fun p => { p with heldIn := insertItem n x p.heldIn }) = s.holding n x := by
    refine State.updPend_congr ?_
    rw [hh]
    rfl
  unfold State.ingressRx
  rw [if_pos h, if_neg (Nat.not_le.mpr hn)]
  dsimp only
  rw [held, State.ingressGo, State.sendPend_pend]
  rfl

theorem State.ingHigh_holding : (s.holding n x).ingHigh = if n = s.pend.ingDone + 1 then n else s.pend.ingDone := rfl

/-- The state in which the back acts on the only item that it holds. -/
def State.itemTaken (s : State) (n : Nat) : State := s.updPend (fun p => { p with heldIn := [], ingDone := n })

theorem State.ingressPump_held {u : State} (h : u.silentBack = true) (hh : u.pend.heldIn = [(n, x)]) :
    u.ingressPump 1 = if n = u.pend.ingDone + 1 ∧ u.actable x = true then (u.itemTaken n).actItem true x else u := by
  unfold State.ingressPump
  rw [if_pos h, hh]
  rfl

/-- One held item that is acknowledged is acted on. -/
theorem State.actHeld_one {u : State} {m : Nat} (hh : u.pend.heldIn = [(m, x)]) (hm : m ≤ n) (mute : Bool) :
    u.actHeld mute n = (u.updPend (fun p => { p with heldIn := [], ingDone := max p.ingDone m })).actItem mute x := by
  have kept : (u.pend.heldIn.filter fun x => !(decide (x.1 ≤ n))) = [] := by
    rw [hh]
    simp [hm]
  have go : (u.pend.heldIn.filter fun x => decide (x.1 ≤ n)) = [(m, x)] := by
    rw [hh]
    simp [hm]
  unfold State.actHeld
  rw [go]
  dsimp only
  rw [State.updPend_congr (g := fun p => { p with heldIn := [] }) (by rw [kept])]
  rfl

theorem State.actHeld_none {u : State} (hh : u.pend.heldIn = []) (mute : Bool) : u.actHeld mute n = u := by
  unfold State.actHeld
  rw [hh]
  exact State.updPend_congr (g := fun p => p) (by
    rw [hh, List.filter_nil, ← hh])

end Ingress

/-! ### Manifests and digests (R371, R374) -/

section Digests
variable {s : State} {w : CompareWait} {c : Cmd} {dg : List Byte}

theorem State.gate_setGate (d g : Nat) (x : Gate) : (s.setGate d g x).gate d g = x :=
  sparseGet_set_same s.gates (4 * d + g) x Gate.fresh

theorem State.tryClose_none {d g : Nat} (h : (s.gate d g).waits = []) : s.tryClose d g = s := by
  unfold State.tryClose
  dsimp only
  rw [h]

theorem SameMemory.setGate {d g : Nat} {x : Gate} : SameMemory s (s.setGate d g x) :=
  SameMemory.step (.of_eq rfl rfl) (.setFld { s with gates := sparseSet s.gates (4 * d + g) x Gate.fresh } _ _ _)

theorem State.manifestRx_queued {d g n : Nat} {b : List Byte} (h : s.silentBack = true) (hf : s.follows d g = true)
    (hw : (s.gate d g).waits = []) : s.manifestRx d g n b =
    s.setGate d g { s.gate d g with masks := (s.gate d g).masks ++ [(n, leField b 0 32)] } := by
  unfold State.manifestRx
  rw [h, hf, if_pos (by decide)]
  refine State.tryClose_none ?_
  rw [State.gate_setGate]
  exact hw

/-- The state without the only comparison that waited. -/
def State.compared (s : State) : State := s.updPend (fun p => { p with compares := [] })

theorem compares_found (l : List CompareWait) (h : l = [w]) : (l.find? fun x => x.queue == w.queue && x.seq == w.seq) = some w ∧
    (l.filter fun x => x != w) = [] := by
  subst h
  simp

theorem State.taken_compare (h : s.pend.compares = [w]) :
    (s.updPend fun p => { p with compares := p.compares.filter fun x => x != w }) = s.compared := by
  refine State.updPend_congr ?_
  rw [(compares_found _ h).2]

theorem State.digestRx_waiting {q : Fin 240} (hp : s.pairState = psPaired) (hm : s.mirror = true) (h : s.pend.compares = [w])
    (hq : w.queue = q.val) (hc : s.findCmd q.val w.seq = some c) :
    s.digestRx (.replicate q w.seq) dg = s.compared.compareDone c w.own dg := by
  unfold State.digestRx
  rw [if_neg fun h => h.elim (fun h => h hp) fun h => Bool.noConfusion (hm.symm.trans h)]
  dsimp only
  rw [← hq, (compares_found _ h).1]
  dsimp only
  rw [State.taken_compare h, show s.compared.findCmd w.queue w.seq = some c by rw [hq]; exact hc]

theorem State.compareDone_alike {own : List Byte} : s.compareDone c own own =
    (s.count R.PEND_CMP F.PEND_CMP_COMPARED 1).finish c stDone own.length 0 (s.count R.PEND_CMP F.PEND_CMP_COMPARED 1).now := if_pos rfl

theorem State.compareDone_alike_spec (own : List Byte) (hc : s.findCmd c.queue c.seq ≠ none) :
    CmdFinished (s.compareDone c own own) c.queue c.seq stDone own.length 0 s.now ∧ (s.compareDone c own own).pend = s.pend ∧
    (s.compareDone c own own).fld R.PEND_CMP F.PEND_CMP_COMPARED = min (s.fld R.PEND_CMP F.PEND_CMP_COMPARED + 1) (2 ^ 32 - 1) ∧
    SameRegsBut [R.PEND_CMP] s (s.compareDone c own own) ∧ SameMemory s (s.compareDone c own own) := by
  have counted := s.fld_count_same R.PEND_CMP F.PEND_CMP_COMPARED 1 (by decide)
  have regs : SameRegsBut [R.PEND_CMP] s (s.count R.PEND_CMP F.PEND_CMP_COMPARED 1) := .count _ _ _ (List.mem_singleton.mpr rfl)
  have mem : SameMemory s (s.count R.PEND_CMP F.PEND_CMP_COMPARED 1) := .count _ _ _ _
  have pend := s.count_pend R.PEND_CMP F.PEND_CMP_COMPARED 1
  have now := s.count_now R.PEND_CMP F.PEND_CMP_COMPARED 1
  have cmds := s.count_cmds R.PEND_CMP F.PEND_CMP_COMPARED 1
  rw [State.compareDone_alike]
  generalize s.count R.PEND_CMP F.PEND_CMP_COMPARED 1 = t at counted regs mem pend now cmds
  rw [now]
  exact ⟨State.finish_finished (by rw [State.findCmd, cmds]; exact hc), pend, counted, regs.step (.of_eq rfl rfl), mem.step (.of_eq rfl rfl)⟩

/-- The state in which a difference has been counted and recorded, and the command has ended. -/
def State.mismatched (s : State) (c : Cmd) (own : List Byte) : State :=
  let t := ((s.count R.PEND_CMP F.PEND_CMP_COMPARED 1).count R.PEND_CMP F.PEND_CMP_MISMATCH 1).errRecord
    { cls := clsDeferred, code := 0x0602, unit := 0xDC, info0 := c.seq, info1 := c.queue }
  t.finish c stMismatch own.length 0 t.now

theorem State.compareDone_differ {own : List Byte} (h : own ≠ dg) : s.compareDone c own dg =
    if (s.mismatched c own).role = roleBack then (s.mismatched c own).brokenNow else (s.mismatched c own).soloNow := if_neg h

theorem CmdFinished.of_cmds {t u : State} {q n status res0 res1 due : Nat} (h : CmdFinished t q n status res0 res1 due)
    (e : u.cmds = t.cmds) : CmdFinished u q n status res0 res1 due := by
  obtain ⟨x, hx, rest⟩ := h
  exact ⟨x, by rw [State.findCmd, e]; exact hx, rest⟩

theorem State.mismatched_spec {own : List Byte} (q : QuietPair s) (hc : s.findCmd c.queue c.seq ≠ none) :
    CmdFinished (s.mismatched c own) c.queue c.seq stMismatch own.length 0 s.now ∧ QuietPair (s.mismatched c own) ∧
    (s.mismatched c own).role = s.role ∧ (s.mismatched c own).pend = s.pend ∧ SameMemory s (s.mismatched c own) := by
  unfold State.mismatched
  extract_lets t
  have f : RecordFrame ((s.count R.PEND_CMP F.PEND_CMP_COMPARED 1).count R.PEND_CMP F.PEND_CMP_MISMATCH 1) t := State.errRecord_recordFrame _ _
  have kept : KeepsReg R.PEND_STAT s t := .trans (.trans (.count (by decide)) (.count (by decide))) (.errRecord not_isRecordReg_pend.1)
  have mem : SameMemory s t := ((SameMemory.count s _ _ _).step (.count _ _ _ _)).step f.sameMemory
  have pend : t.pend = s.pend := by rw [f.rest]; simp only [State.count_pend]
  have now : t.now = s.now := by rw [f.rest]; simp only [State.count_now]
  have cmds : t.cmds = s.cmds := by rw [f.rest]; simp only [State.count_cmds]
  have colls : t.colls = s.colls := by rw [f.rest]; simp only [State.count_colls]
  clear_value t
  have role : t.role = s.role := by rw [State.role, State.fld, kept.2, State.role, State.fld]
  refine ⟨?_, q.of_eq (by rw [← pend]; rfl) colls (by rw [← pend]; rfl), role, pend, mem.step (.of_eq rfl rfl)⟩
  rw [now]
  exact State.finish_finished (by rw [State.findCmd, cmds]; exact hc)

/-- A difference breaks the back of the pair; the face serves alone. -/
theorem State.compareDone_differ_spec {own : List Byte} (q : QuietPair s) (hd : own ≠ dg) (hc : s.findCmd c.queue c.seq ≠ none) :
    CmdFinished (s.compareDone c own dg) c.queue c.seq stMismatch own.length 0 s.now ∧
    (s.compareDone c own dg).pairState = (if s.role = roleBack then psBroken else psSolo) ∧
    (s.compareDone c own dg).pend.heldIn = s.pend.heldIn ∧ SameMemory s (s.compareDone c own dg) := by
  obtain ⟨fin, quiet, role, pend, mem⟩ := State.mismatched_spec (own := own) q hc
  have ended : PairEnded (if s.role = roleBack then psBroken else psSolo) (s.mismatched c own) (s.compareDone c own dg) := by
    rw [State.compareDone_differ hd, role]
    split
    · exact State.brokenNow_spec quiet
    · exact State.soloNow_spec quiet
  exact ⟨fin.of_cmds ended.cmds, ended.state, ended.heldIn.trans (by rw [pend]), mem.step ended.memory⟩

/-- A comparison whose digest has not come ends with its command. -/
theorem State.exec_digestTimeout {q : Fin 240} (hm : s.mainUp = true) (h : s.pend.compares = [w]) (hq : w.queue = q.val)
    (hc : s.findCmd q.val w.seq = some c) : exec (.digestTimeout q w.seq) s = .next (if s.now < w.since + msTicks then s else
      (s.compared.count R.PEND_CMP F.PEND_CMP_MISSING 1).fail c stMissing) := by
  refine State.whenMain_eq hm ?_
  rw [← hq, (compares_found _ h).1]
  dsimp only
  rw [State.taken_compare h, State.findCmd, State.count_cmds, show s.compared.cmds.find? (fun c => c.is w.queue w.seq) = some c by
    rw [hq]; exact hc]

end Digests

/-! ### The commands of the pendant engine (R374, R377, R385) -/

/-- DELTA and RESYNC in a module that runs no shadow copy are malformed. -/
theorem State.pendBody_unshadowed {s : State} {c : Cmd} (hs : s.shadow = false) (hc : c.code ≠ 0x40) :
    s.pendBody c = s.fail c stDescriptor := by
  unfold State.pendBody
  extract_lets shadowCmd
  have h : shadowCmd = true := bne_iff_ne.mpr hc
  rw [if_pos (.inr (.inr (.inl ⟨h, hs⟩)))]


/-- Settles O55. -/
theorem pairTraffic : Obligations.PairTraffic := by
  refine ⟨fun s hm => ?_, fun p st x sent s hm => ?_, fun s hm => ?_, fun s hm => ?_, fun s hc hl hq => ?_, fun s hm => ?_,
    fun n x s hs => ?_, fun n s hs => ?_, fun d g n b s hs => ?_, fun k dg s hs hh => ?_, fun q n s hm => ?_, fun b s hm => ?_,
    fun e a b s hsh hp => ?_, fun s hs => ?_, fun q n c s hs hcl => ?_⟩
  · obtain ⟨len, frame⟩ := s.sendHeartbeat_spec
    exact ⟨_, State.whenMain_eq hm rfl, len, frame.sameRegs, frame.sameMemory⟩
  · refine ⟨fun hp => State.whenMain_eq hm (if_neg (by rw [hp]; exact Bool.noConfusion)), fun hp hh => ⟨fun hn => ?_, fun hpair hmir => ⟨?_, ?_⟩⟩⟩
    · have old : s.heartbeat st.toNat x.toNat sent.toNat = s.updPend (fun p => { p with lastHb := s.now }) := if_pos hn
      rw [State.exec_heartbeatRx hm hp (by rw [old]; exact hh), old]
      rfl
    · rintro rfl hst
      have known := State.heartbeat_known (st := st.toNat) (sent := sent.toNat) hpair hmir hst
      rw [State.exec_heartbeatRx hm hp (by rw [known]; exact hh), known]
      rfl
    · intro hx hc hl hq
      have new : s.heartbeat st.toNat x.toNat sent.toNat = s.partnerLost 4 :=
        (if_neg fun h => h hpair).trans (if_pos fun h => hx (BitVec.eq_of_toNat_eq h))
      obtain ⟨solo, held, mem, lost⟩ := State.partnerLost_alone ⟨hc, hl, hq⟩ hmir hh 4
      exact ⟨_, State.exec_heartbeatRx hm hp (by rw [new]; exact held), by rw [new]; exact solo, by rw [new]; exact lost, by rw [new]; exact mem⟩
  · refine ⟨fun h => State.whenMain_eq hm (State.probeStart_idle h), fun hp h0 ht => ?_⟩
    obtain ⟨frame, req⟩ := s.probing.sendReq_probe s.partnerAddr R.ID_INCARN
    refine ⟨_, State.whenMain_eq hm (State.probeStart_silent hp h0 ht), by rw [frame.pend]; rfl, ?_, ?_, req⟩
    · exact SameRegsBut.step (.of_eq rfl rfl) frame.sameRegs
    · exact SameMemory.step (.of_eq rfl rfl) frame.sameMemory
  · refine ⟨fun hh h => ?_, fun hp h0 => ⟨fun h => State.exec_probeResult hm (State.probeOutcome_unlisted hp h0 h), fun m h =>
      ⟨fun i ha hi => ?_, fun i ha hi => ?_, fun ha ht => ?_, fun ha ht => ?_⟩⟩⟩
    · rw [State.exec_probeResult hm (State.probeOutcome_none h), State.afterPair_none hh]
    · exact State.exec_probeResult hm ((State.probeOutcome_answered hp h0 h ha).trans (if_pos hi))
    · exact State.exec_probeResult hm ((State.probeOutcome_answered hp h0 h ha).trans (if_neg hi))
    · rw [State.exec_probeResult hm ((State.probeOutcome_unanswered hp h0 h ha).trans (if_neg (Nat.not_le.mpr ht))), State.afterPair_paired hp]
    · exact State.exec_probeResult hm ((State.probeOutcome_unanswered hp h0 h ha).trans (if_pos ht))
  · have quiet : QuietPair s := ⟨hc, hl, hq⟩
    exact ⟨State.partnerSplit_broken quiet, fun h => ⟨State.partnerSplit_solo quiet h, (State.partnerLost_spec quiet 1 h).choose_spec.state⟩⟩
  · refine ⟨fun h => State.whenMain_eq hm (if_pos h), fun h0 ht => ?_⟩
    refine ⟨_, State.whenMain_eq hm (if_neg fun h => h.elim h0 (Nat.not_lt.mpr ht)), ?_, ?_, ?_, ?_⟩
    · rw [State.advertise_frame.pend]
      rfl
    · rw [State.advertise_frame.pend]
      rfl
    · exact SameRegsBut.step (.of_eq rfl rfl) State.advertise_frame.sameRegs
    · exact SameMemory.step (.of_eq rfl rfl) State.advertise_frame.sameMemory
  · refine ⟨fun h => State.whenServing_eq hs (if_neg (by rw [h]; exact Bool.noConfusion)), fun h hh => ⟨fun hn =>
      State.whenServing_eq hs (State.ingressRx_old h hh hn), fun hn => ?_, fun hn => ?_⟩⟩
    · have back := (s.holding n.toNat x).silentBack_sendPend 0x32 [(s.holding n.toNat x).ingHigh] []
      have pend := (s.holding n.toNat x).sendPend_pend 0x32 [(s.holding n.toNat x).ingHigh] []
      have kept : s.ingressRx n.toNat x = (s.holding n.toNat x).sendPend 0x32 [(s.holding n.toNat x).ingHigh] [] := by
        refine (State.ingressRx_new h hh (by omega)).trans ((State.ingressPump_held (back.trans h) (by rw [pend]; rfl)).trans (if_neg ?_))
        rw [pend]
        exact fun hp => Nat.ne_of_gt hn hp.1
      refine ⟨_, State.whenServing_eq hs kept, by rw [pend]; rfl, by rw [pend]; rfl, ?_, ?_⟩
      · exact SameRegsBut.step (.of_eq rfl rfl) (State.sendPend_sameRegs _ _ _ _)
      · exact SameMemory.step (.of_eq rfl rfl) (State.sendPend_sameMemory _ _ _ _)
    · intro u hu
      have back := (s.holding n.toNat x).silentBack_sendPend 0x32 [n.toNat] []
      have pend := (s.holding n.toNat x).sendPend_pend 0x32 [n.toNat] []
      have high : (s.holding n.toNat x).ingHigh = n.toNat := State.ingHigh_holding.trans (if_pos hn)
      refine State.whenServing_eq hs ((State.ingressRx_new h hh (by omega)).trans ?_)
      rw [high]
      refine (State.ingressPump_held (back.trans h) (by rw [pend]; rfl)).trans (if_pos ⟨?_, hu⟩)
      rw [pend]
      exact hn
  · refine ⟨fun h => State.whenServing_eq hs (if_neg (by rw [h]; exact Bool.noConfusion)), fun h => ⟨fun hh => ?_, fun m x hh hm => ?_⟩⟩
    · refine ⟨s.setFld R.PEND_ING F.PEND_ING_ACKED (n.toNat % 2 ^ 32), State.whenServing_eq hs ((if_pos h).trans ?_), ?_, ?_, ?_⟩
      · exact State.actHeld_none (by rw [State.setFld_pend]; exact hh) _
      · exact s.fld_setFld_same _ _ _ (by decide) (Nat.mod_lt _ (by decide))
      · exact .setFld _ _ _ (List.mem_singleton.mpr rfl)
      · exact .setFld _ _ _ _
    · exact State.whenServing_eq hs ((if_pos h).trans (State.actHeld_one (by rw [State.setFld_pend]; exact hh) hm _))
  · refine ⟨fun h => State.whenServing_eq hs (if_neg fun hb => ?_), fun h hf hw => ?_⟩
    · rw [Bool.and_eq_true] at hb
      exact h.elim (fun h => Bool.noConfusion (h.symm.trans hb.1)) fun h => Bool.noConfusion (h.symm.trans hb.2)
    · exact ⟨_, State.whenServing_eq hs (State.manifestRx_queued h hf hw), by rw [State.gate_setGate], .setGate⟩
  · have run {t : State} (h : s.digestRx k dg = t) (ht : t.pend.heldIn = []) : exec (.pendDigest k dg) s = .next t := by
      subst h
      exact State.whenServing_eq hs (State.afterPair_none ht _)
    refine ⟨fun h => run (if_pos h) hh, fun hp hmir q n hk => ?_⟩
    subst hk
    refine ⟨fun h => ⟨s.updPend (fun p => { p with digests := p.digests ++ [(q.val, n, dg)] }), run ?_ hh, rfl, .of_eq rfl rfl, .of_eq rfl rfl⟩,
      fun w c h hq hn hc hd => ?_, fun w c h hq hn hc hd hl hqu => ?_⟩
    · refine (if_neg fun h => h.elim (fun h => h hp) fun h => Bool.noConfusion (hmir.symm.trans h)).trans ?_
      dsimp only
      rw [h]
      rfl
    · subst hn hd
      obtain ⟨hcq, hcn⟩ := State.findCmd_is hc
      have found : s.compared.findCmd c.queue c.seq ≠ none := by rw [hcq, hcn]; exact Option.ne_none_iff_exists'.mpr ⟨c, hc⟩
      obtain ⟨fin, pend, counted, regs, mem⟩ := State.compareDone_alike_spec w.own found
      rw [hcq, hcn] at fin
      exact ⟨_, run (State.digestRx_waiting hp hmir h hq hc) (by rw [pend]; exact hh), fin, by rw [pend]; rfl, counted,
        SameRegsBut.step (.of_eq rfl rfl) regs, SameMemory.step (.of_eq rfl rfl) mem⟩
    · subst hn
      obtain ⟨hcq, hcn⟩ := State.findCmd_is hc
      have found : s.compared.findCmd c.queue c.seq ≠ none := by rw [hcq, hcn]; exact Option.ne_none_iff_exists'.mpr ⟨c, hc⟩
      obtain ⟨fin, state, held, mem⟩ := State.compareDone_differ_spec (s := s.compared) ⟨rfl, hl, hqu⟩ hd found
      rw [hcq, hcn] at fin
      exact ⟨_, run (State.digestRx_waiting hp hmir h hq hc) (held.trans hh), fin, state, SameMemory.step (.of_eq rfl rfl) mem⟩
  · refine ⟨fun h => State.whenMain_eq hm (by rw [h]; rfl), fun w c h hq hn hc => ?_⟩
    subst hn
    have run := State.exec_digestTimeout hm h hq hc
    refine ⟨fun ht => run.trans (congrArg Host.Outcome.next (if_pos ht)), fun ht =>
      ⟨_, run.trans (congrArg Host.Outcome.next (if_neg (Nat.not_lt.mpr ht))), ?_⟩⟩
    obtain ⟨hcq, hcn⟩ := State.findCmd_is hc
    have counted := s.compared.fld_count_same R.PEND_CMP F.PEND_CMP_MISSING 1 (by decide)
    have regs : SameRegsBut [R.PEND_CMP] s (s.compared.count R.PEND_CMP F.PEND_CMP_MISSING 1) :=
      SameRegsBut.step (.of_eq rfl rfl) (.count s.compared _ _ (List.mem_singleton.mpr rfl))
    have mem : SameMemory s (s.compared.count R.PEND_CMP F.PEND_CMP_MISSING 1) :=
      SameMemory.step (.of_eq rfl rfl) (.count s.compared _ _ _)
    have now := s.compared.count_now R.PEND_CMP F.PEND_CMP_MISSING 1
    have cmds := s.compared.count_cmds R.PEND_CMP F.PEND_CMP_MISSING 1
    generalize s.compared.count R.PEND_CMP F.PEND_CMP_MISSING 1 = t at counted regs mem now cmds
    have fin := t.finish_finished (c := c) (status := stMissing) (res0 := 0) (res1 := 0) (due := t.now)
      (by rw [hcq, hcn, State.findCmd, cmds]; exact Option.ne_none_iff_exists'.mpr ⟨c, hc⟩)
    rw [hcq, hcn, now] at fin
    exact ⟨by rw [State.fail, now]; exact fin, counted, regs.step (.of_eq rfl rfl), mem.step (.of_eq rfl rfl)⟩
  · exact State.whenMain_eq hm rfl
  · have e : s.bulkRx (.delta e a b) = s.updPend (fun p => { p with staged := p.staged ++ [⟨e.toNat, a.toNat, b⟩] }) :=
      if_pos (by rw [hsh, hp]; rfl)
    rw [e]
    exact ⟨rfl, .of_eq rfl rfl, .of_eq rfl rfl⟩
  · refine ⟨fun h => State.whenServing_eq hs (if_neg (by rw [h]; exact Bool.noConfusion)), fun h => State.whenServing_eq hs ((if_pos h).trans ?_)⟩
    rw [State.pairRow, State.role_of_silentBack h]
  · have unshadowed (h : (s.begun q.val n).shadow = false) (h' : c.code ≠ 0x40) (hf : s.findCmd q.val n = some c) :
        CmdFinished ((s.begun q.val n).pendBody c) q.val n stDescriptor 0 0 s.now := by
      obtain ⟨hcq, hcn⟩ := State.findCmd_is hf
      have fin := (s.begun q.val n).finish_finished (c := c) (status := stDescriptor) (res0 := 0) (res1 := 0) (due := s.now)
        (by rw [hcq, hcn, State.findCmd_begun hf]; exact Option.some_ne_none _)
      rw [hcq, hcn] at fin
      rw [State.pendBody_unshadowed h h']
      exact fin
    refine ⟨fun h => State.whenServing_eq hs ?_, fun h => ⟨State.whenServing_eq hs (State.starting_go h hcl), fun hsh => ?_⟩,
      fun h => ⟨State.whenServing_eq hs (State.starting_go h hcl), fun hsh => ?_⟩⟩
    · rw [State.pairRow, State.starting_go h hcl]
      rfl
    · obtain ⟨hf, hcode⟩ := State.startOf_go h
      exact unshadowed hsh (by rw [hcode]; decide) hf
    · obtain ⟨hf, hcode⟩ := State.startOf_go h
      exact unshadowed hsh (by rw [hcode]; decide) hf

end Sys2Proof.Machine
end

section
/-!
PROOFS. The states of a pair: a join begins, fails and resumes, the face copies and quiesces, a module detaches, a shadow copy is
confirmed, merged, restored and forgotten.
-/

namespace Sys2Proof.Machine

open Sys2Proof

/-! ### Joins (R367, R384) -/

section Join
variable {s t : State} {x : Nat}

theorem BootFrame.reg {p : Nat → Prop} (h : BootFrame p s t) {a : Nat} (ha : ¬ p a) : t.reg a = s.reg a := h.regs a ha

/-- The other fields of PEND_STAT stay as the pair's state changes. -/
theorem State.pairChange_stat {f : Field} (hf : f.fits) (h : 4 ≤ f.lo) :
    (s.pairChange (fun s => s.setPairState x)).fld R.PEND_STAT f = s.fld R.PEND_STAT f := by
  have told (t : State) (b : List Byte) : BootFrame IsModeReg t ((t.hostEvent 4 b).alert 3) :=
    (State.hostEvent_frame _ _).trans (State.alert_frame _)
  unfold State.pairChange
  extract_lets old t new
  have ht : t.fld R.PEND_STAT f = s.fld R.PEND_STAT f := s.fld_setFld_apart _ _ f _ hf (.inr h)
  split
  · exact ht
  · exact ((told t _).fld _ not_isModeReg_pendStat).trans ht

theorem State.pairLeft_stat (q : QuietPair s) (hx : x < 8) (hn : x ≠ psPaired) {f : Field} (hf : f.fits) (h : 4 ≤ f.lo) :
    (s.pairChange (fun s => s.setPairState x)).pairTidy.fld R.PEND_STAT f = s.fld R.PEND_STAT f := by
  have stat := s.pairChange_stat (x := x) hf h
  have frame := s.pairChange_frame (x := x)
  have pend : (s.pairChange (fun s => s.setPairState x)).pend = s.pend := by rw [frame.rest]
  have state := s.pairState_pairChange hx
  generalize s.pairChange (fun s => s.setPairState x) = t at stat frame pend state
  rw [State.pairTidy_quiet (q.of_eq (by rw [pend]) frame.colls (by rw [pend])) (by rw [state]; exact hn)]
  exact stat

/-- The state in which a join has just been asked for. -/
def State.joinAsked (s : State) : State :=
  (s.updPend (fun p => { p with prev := s.pairState })).setFld R.PEND_STAT F.PEND_STAT_JOIN_FAIL 0

theorem State.joinAsked_spec : s.joinAsked.partnerSeen = s.partnerSeen ∧ s.joinAsked.pend = { s.pend with prev := s.pairState } ∧
    s.joinAsked.colls = s.colls ∧ s.joinAsked.role = s.role ∧ s.joinAsked.fld R.PEND_STAT F.PEND_STAT_JOIN_FAIL = 0 ∧
    SameMemory s s.joinAsked := by
  have other {a : Nat} (f : Field) (h : R.PEND_STAT ≠ a) : s.joinAsked.fld a f = s.fld a f := State.fld_setFld_other _ _ _ _ f _ h
  have apart {f : Field} (hf : f.fits) (h : f.lo + f.width ≤ 40 ∨ 44 ≤ f.lo) : s.joinAsked.fld R.PEND_STAT f = s.fld R.PEND_STAT f :=
    State.fld_setFld_apart _ _ F.PEND_STAT_JOIN_FAIL f _ hf h
  have links (p : Nat) : s.joinAsked.pendUp p = s.pendUp p := by
    unfold State.pendUp State.bit
    rw [apart (by decide) (by decide)]
  refine ⟨?_, State.setFld_pend _ _ _ _, State.setFld_colls _ _ _ _, apart (by decide) (by decide), ?_, ?_⟩
  · have id : s.joinAsked.pairId = s.pairId := by
      unfold State.pairId
      rw [other _ (by decide), other _ (by decide), other _ (by decide), other _ (by decide)]
    have link (p : Nat) : s.joinAsked.link p = s.link p := State.link_setFld _ _ _
    unfold State.partnerSeen
    rw [id]
    refine congrArg (_ && ·) (List.any_congr rfl fun p => ?_)
    rw [links, link]
  · exact State.fld_setFld_same _ _ _ _ (by decide) (by decide)
  · exact SameMemory.step (.of_eq rfl rfl) (.setFld (s.updPend (fun p => { p with prev := s.pairState })) _ _ _)

/-- A join that fails at once goes back to the state before it. -/
theorem State.joinFailed_spec (q : QuietPair s) (code : Nat) (hc : code < 16) (hx : s.pend.prev < 8) (hn : s.pend.prev ≠ psPaired) :
    (s.joinFailed code).pairState = s.pend.prev ∧ (s.joinFailed code).role = s.role ∧
    (s.joinFailed code).fld R.PEND_STAT F.PEND_STAT_JOIN_FAIL = code ∧ SameMemory s (s.joinFailed code) := by
  have failed := s.fld_setFld_same R.PEND_STAT F.PEND_STAT_JOIN_FAIL code (by decide) hc
  have role := s.fld_setFld_apart R.PEND_STAT F.PEND_STAT_JOIN_FAIL F.PEND_STAT_ROLE code (by decide) (by decide)
  have mem : SameMemory s (s.setFld R.PEND_STAT F.PEND_STAT_JOIN_FAIL code) := .setFld _ _ _ _
  have pend := s.setFld_pend R.PEND_STAT F.PEND_STAT_JOIN_FAIL code
  have colls := s.setFld_colls R.PEND_STAT F.PEND_STAT_JOIN_FAIL code
  unfold State.joinFailed
  generalize s.setFld R.PEND_STAT F.PEND_STAT_JOIN_FAIL code = t at failed role mem pend colls
  extract_lets _ u v w
  have f : RecordFrame t u := State.errRecord_recordFrame _ _
  have fld (f' : Field) : u.fld R.PEND_STAT f' = t.fld R.PEND_STAT f' := by
    rw [State.fld, f.regs _ not_isRecordReg_pend.1, State.fld]
  have pend' : u.pend = s.pend := by rw [f.rest]; exact pend
  have colls' : u.colls = s.colls := by rw [f.rest]; exact colls
  have mem' : SameMemory s u := mem.step f.sameMemory
  clear_value u
  have wp : w.pend.prev = s.pend.prev := by
    show u.pend.prev = _
    rw [pend']
  have quiet : QuietPair w := q.of_eq (by rw [← pend']; rfl) colls' (by rw [← pend']; rfl)
  have keep (f' : Field) : w.fld R.PEND_STAT f' = t.fld R.PEND_STAT f' := fld f'
  have mem'' : SameMemory s w := mem'.step (.of_eq rfl rfl)
  clear_value w
  have e : w.pairChange (fun s => s.setPairState s.pend.prev) = w.pairChange (fun t => t.setPairState s.pend.prev) := by
    rw [← wp]
    rfl
  rw [e]
  have left := State.pairLeft quiet hx hn
  refine ⟨left.state, ?_, ?_, mem''.step left.memory⟩
  · exact (State.pairLeft_stat quiet hx hn (by decide) (by decide)).trans ((keep _).trans role)
  · exact (State.pairLeft_stat quiet hx hn (by decide) (by decide)).trans ((keep _).trans failed)

theorem State.joinWrite_asked (h : s.pairState = psUnpaired ∨ s.pairState = psSolo ∨ s.pairState = psBroken) : s.joinWrite =
    if s.partnerSeen = false then s.joinAsked.joinFailed 6 else
      (((s.joinAsked.updPend (fun p => { p with attested := false, blocksDone := false, quiesced := false })).pairChange
        (fun s => s.setPairState psJoining)).sendInfo).joinGoOn := by
  unfold State.joinWrite
  extract_lets st t u
  have ht : u = s.joinAsked := rfl
  clear_value u
  subst ht
  rw [if_neg (fun ⟨h1, h2, h3⟩ => by
    rcases h with h | h | h
    · exact h1 h
    · exact h2 h
    · exact h3 h), s.joinAsked_spec.1]

/-- The state with a fresh nonce, after some draws. -/
def State.withNonce (s : State) (draws : Nat) (nonce : List Byte) : State :=
  { s with draws := draws, pend := { s.pend with nonce := nonce } }

theorem State.sendInfo_spec : s.sendInfo.regs = s.regs ∧ (∃ b, s.sendInfo.pend = { s.pend with nonce := b }) ∧ SameMemory s s.sendInfo := by
  have e : ∃ d b nums, s.sendInfo = (s.withNonce d b).sendPend 0x35 nums b := by
    unfold State.sendInfo
    exact ⟨_, _, _, rfl⟩
  obtain ⟨d, b, nums, e⟩ := e
  rw [e]
  refine ⟨?_, ⟨b, State.sendPend_pend _ _ _ _⟩, SameMemory.step (.of_eq rfl rfl) (State.sendPend_sameMemory _ _ _ _)⟩
  unfold State.sendPend
  split
  · rfl
  · rfl


theorem State.joinGoOn_alone (h : s.pend.partner = none) : s.joinGoOn = s := by
  unfold State.joinGoOn
  rw [h]

/-- A join with a partner in sight begins. -/
theorem State.joinBegun_spec (hp : s.pend.partner = none) :
    let t := (((s.updPend (fun p => { p with attested := false, blocksDone := false, quiesced := false })).pairChange
      (fun s => s.setPairState psJoining)).sendInfo).joinGoOn
    t.pairState = psJoining ∧ t.fld R.PEND_STAT F.PEND_STAT_JOIN_FAIL = s.fld R.PEND_STAT F.PEND_STAT_JOIN_FAIL ∧
      t.pend.prev = s.pend.prev ∧ SameMemory s t := by
  dsimp only
  have mem : SameMemory s (s.updPend (fun p => { p with attested := false, blocksDone := false, quiesced := false })) := .of_eq rfl rfl
  have fld : (s.updPend (fun p => { p with attested := false, blocksDone := false, quiesced := false })).fld R.PEND_STAT
    F.PEND_STAT_JOIN_FAIL = s.fld R.PEND_STAT F.PEND_STAT_JOIN_FAIL := rfl
  have prev : (s.updPend (fun p => { p with attested := false, blocksDone := false, quiesced := false })).pend.prev = s.pend.prev := rfl
  have alone : (s.updPend (fun p => { p with attested := false, blocksDone := false, quiesced := false })).pend.partner = none := hp
  generalize s.updPend (fun p => { p with attested := false, blocksDone := false, quiesced := false }) = u at mem fld prev alone
  have state := u.pairState_pairChange (x := psJoining) (by decide)
  have stat := u.pairChange_stat (x := psJoining) (f := F.PEND_STAT_JOIN_FAIL) (by decide) (by decide)
  have frame := u.pairChange_frame (x := psJoining)
  generalize u.pairChange (fun s => s.setPairState psJoining) = v at state stat frame
  have vp : v.pend = u.pend := by rw [frame.rest]
  obtain ⟨regs, ⟨b, pend⟩, sent⟩ := v.sendInfo_spec
  have kept (f : Field) : v.sendInfo.fld R.PEND_STAT f = v.fld R.PEND_STAT f := by
    rw [State.fld, State.reg, regs, State.fld, State.reg]
  rw [State.joinGoOn_alone (by rw [pend, ← alone, ← vp])]
  exact ⟨(kept _).trans state, (kept _).trans (stat.trans fld), by rw [pend, ← prev, ← vp], (mem.step frame.sameMemory).step sent⟩

end Join

/-! ### The passes of the join transfer, the quiesce and the resume (R384) -/

section Transfer
variable {s t : State}

theorem NetFrame.sendPend {type : Nat} {nums : List Nat} {bytes : List Byte} : NetFrame s (s.sendPend type nums bytes) := by
  unfold State.sendPend
  split
  · exact .emit
  · exact .refl

/-- The granules of a pass go out. -/
theorem NetFrame.granules {l : List Nat} {to_ : Nat → Nat} : NetFrame s (l.foldl (fun s g => s.sendGranule g (to_ g)) s) :=
  .foldl fun _ _ => .sendPend

/-- The numbers of a pass that has gone out. -/
def State.passCounted (s : State) (n : Nat) : State :=
  (s.setReg R.PEND_SYNC (F.PEND_SYNC_BYTES.put (s.reg R.PEND_SYNC) n)).setFld R.PEND_SYNC F.PEND_SYNC_PASS
    (min 255 ((s.setReg R.PEND_SYNC (F.PEND_SYNC_BYTES.put (s.reg R.PEND_SYNC) n)).fld R.PEND_SYNC F.PEND_SYNC_PASS + 1))

theorem State.passCounted_spec (n : Nat) : (s.passCounted n).fld R.PEND_SYNC F.PEND_SYNC_PASS =
      min 255 (s.fld R.PEND_SYNC F.PEND_SYNC_PASS + 1) ∧
    (s.passCounted n).pend = s.pend ∧ (s.passCounted n).mem = s.mem ∧ SameRegsBut [R.PEND_SYNC] s (s.passCounted n) ∧
    SameMemory s (s.passCounted n) := by
  have same : (s.setReg R.PEND_SYNC (F.PEND_SYNC_BYTES.put (s.reg R.PEND_SYNC) n)).fld R.PEND_SYNC F.PEND_SYNC_PASS =
      s.fld R.PEND_SYNC F.PEND_SYNC_PASS := s.fld_setFld_apart R.PEND_SYNC F.PEND_SYNC_BYTES F.PEND_SYNC_PASS n (by decide) (by decide)
  unfold State.passCounted
  rw [same]
  refine ⟨State.fld_setFld_same _ _ _ _ (by decide) ?_, ?_, ?_, ?_, ?_⟩
  · exact Nat.lt_of_le_of_lt (Nat.min_le_left _ _) (by decide)
  · rw [State.setFld_pend, State.setReg_pend]
  · rw [State.setFld_mem, State.setReg_mem]
  · exact SameRegsBut.step (.setReg _ _ (List.mem_singleton.mpr rfl)) (.setFld _ _ _ (List.mem_singleton.mpr rfl))
  · exact SameMemory.step (.setReg _ _ _) (.setFld _ _ _ _)

theorem State.syncingFace (hp : s.pairState = psSyncing) (hr : s.role = roleFace) (hb : s.pend.blocksDone = false) :
    ¬ (s.pairState ≠ psSyncing ∨ s.role ≠ roleFace ∨ s.pend.blocksDone = true) := by
  rintro (h | h | h)
  · exact h hp
  · exact h hr
  · exact Bool.noConfusion (h.symm.trans hb)

theorem State.lastPass (h : s.pend.quiesced = true ∨ s.marked.length < s.fld R.PEND_CFG F.PEND_CFG_QUIESCE_MIB * 256) :
    ¬ (s.pend.quiesced = false ∧ s.fld R.PEND_CFG F.PEND_CFG_QUIESCE_MIB * 256 ≤ s.marked.length) := fun ⟨hq, hn⟩ =>
  h.elim (fun h => Bool.noConfusion (h.symm.trans hq)) fun h => absurd hn (Nat.not_le.mpr h)

/-- The face stands still. -/
def State.still (s : State) : State := s.updPend (fun p => { p with quiesced := true })

theorem State.joinQuiesce_pass (hp : s.pairState = psSyncing) (hr : s.role = roleFace) (hb : s.pend.blocksDone = false)
    (hq : s.pend.quiesced = false) (hn : s.fld R.PEND_CFG F.PEND_CFG_QUIESCE_MIB * 256 ≤ s.marked.length) :
    ∃ u, NetFrame s u ∧ s.joinQuiesce = (u.passCounted (4096 * s.marked.length)).updPend
      (fun p => { p with synced := (u.passCounted (4096 * s.marked.length)).mem }) := by
  refine ⟨s.marked.foldl (fun s g => s.sendGranule g (4096 * g)) s, .granules, ?_⟩
  unfold State.joinQuiesce
  rw [if_neg (State.syncingFace hp hr hb)]
  exact if_pos ⟨hq, hn⟩

theorem State.joinQuiesce_busy (hp : s.pairState = psSyncing) (hr : s.role = roleFace) (hb : s.pend.blocksDone = false)
    (h : s.pend.quiesced = true ∨ s.marked.length < s.fld R.PEND_CFG F.PEND_CFG_QUIESCE_MIB * 256) (hi : s.joinIdle = false) :
    s.joinQuiesce = s.still := by
  unfold State.joinQuiesce
  rw [if_neg (State.syncingFace hp hr hb)]
  exact (if_neg (State.lastPass h)).trans (if_pos hi)

theorem State.foldl_quiesceQueue_none (l : List Nat) (h : ∀ q ∈ l, (s.qint q).wait = none) :
    l.foldl (fun s q => s.quiesceQueue q) s = s := by
  induction l with
  | nil => rfl
  | cons q l ih =>
    have none : s.quiesceQueue q = s := by
      unfold State.quiesceQueue
      rw [h q List.mem_cons_self]
    rw [List.foldl_cons, none]
    exact ih fun p hp => h p (List.mem_cons_of_mem _ hp)

/-- The last pass has gone out. -/
def State.lastSent (s : State) : State := s.marked.foldl (fun s g => s.sendGranule g (4096 * g)) s.still

theorem State.lastSent_frame : NetFrame s.still s.lastSent := .granules

/-- The blocks' state has gone out, with these numbers. -/
def State.blocksSent (s : State) (nums : List Nat) : State :=
  (s.sendBulk blkBlocks nums []).updPend (fun p => { p with blocksDone := true, synced := s.mem })

theorem State.blocksSent_spec (nums : List Nat) : (s.blocksSent nums).pend = { s.pend with blocksDone := true, synced := s.mem } ∧
    SameRegsBut [] s (s.blocksSent nums) ∧ SameMemory s (s.blocksSent nums) :=
  ⟨congrArg (fun p : PendInt => { p with blocksDone := true, synced := s.mem }) (State.sendPend_pend _ _ _ _),
    SameRegsBut.step (State.sendPend_sameRegs s 0x35 (blkBlocks :: nums) []) (.of_eq rfl rfl),
    SameMemory.step (State.sendPend_sameMemory s 0x35 (blkBlocks :: nums) []) (.of_eq rfl rfl)⟩

theorem State.joinQuiesce_idle (hp : s.pairState = psSyncing) (hr : s.role = roleFace) (hb : s.pend.blocksDone = false)
    (h : s.pend.quiesced = true ∨ s.marked.length < s.fld R.PEND_CFG F.PEND_CFG_QUIESCE_MIB * 256) (hi : s.joinIdle = true)
    (hw : ∀ q < 240, (s.qint q).wait = none) : ∃ nums, s.joinQuiesce = s.lastSent.blocksSent nums := by
  have waits : ∀ q ∈ List.range 240, (s.lastSent.qint q).wait = none := fun q hq => by
    rw [State.qint, State.lastSent_frame.queues]
    exact hw q (List.mem_range.mp hq)
  have stood : (List.range 240).foldl (fun s q => s.quiesceQueue q) s.lastSent = s.lastSent := State.foldl_quiesceQueue_none _ waits
  have e : ∃ nums, s.joinQuiesce = ((List.range 240).foldl (fun s q => s.quiesceQueue q) s.lastSent).blocksSent nums := by
    unfold State.joinQuiesce
    rw [if_neg (State.syncingFace hp hr hb)]
    exact ⟨_, (if_neg (State.lastPass h)).trans (if_neg fun h => Bool.noConfusion (hi.symm.trans h))⟩
  obtain ⟨nums, e⟩ := e
  exact ⟨nums, e.trans (by rw [stood])⟩

theorem State.foldl_resume_none (h : ∀ q < 240, (s.qint q).wait = none) : s.resumeQueues = s := by
  unfold State.resumeQueues
  refine List.foldlRecOn (motive := fun t => t = s) _ _ rfl fun t ht q hq => ?_
  subst ht
  rw [h q (List.mem_range.mp hq)]

/-- The gates of a pair that is made: whether they follow, and their counts. -/
def State.gatesPaired (s : State) (follow : Bool) : State :=
  (List.range 4).foldl (fun s d => (List.range 4).foldl (fun s g =>
    let s := s.setFld (R.CANV_GATE_CFG d) (F.CANV_GATE_CFG_FOLLOW g) (b2n follow)
    s.setGate d g { s.gate d g with closes := 0, masks := [] }) s) s

/-- `t` is `s` but for the gates and registers below the hub's. -/
structure GatesFrame (s t : State) : Prop where
  rest : t = { s with regs := t.regs, gates := t.gates }
  hub : ∀ a < 0x200001000000, t.reg a = s.reg a

namespace GatesFrame
variable {u : State}

theorem refl : GatesFrame s s := ⟨rfl, fun _ _ => rfl⟩

theorem trans (h : GatesFrame s t) (g : GatesFrame t u) : GatesFrame s u where
  rest := g.rest.trans (congrArg (fun x : State => { x with regs := u.regs, gates := u.gates }) h.rest)
  hub a ha := (g.hub a ha).trans (h.hub a ha)

theorem foldl {α : Type} {g : State → α → State} {l : List α} (hg : ∀ t, ∀ x ∈ l, GatesFrame t (g t x)) : GatesFrame s (l.foldl g s) :=
  List.foldlRecOn (motive := GatesFrame s) _ _ refl fun t ht x hx => ht.trans (hg t x hx)

theorem setFld {v : Nat} {f : Field} {a : Nat} (ha : 0x200001000000 ≤ a) : GatesFrame s (s.setFld a f v) :=
  ⟨rfl, fun _ hb => s.reg_setFld_other _ _ _ _ (by omega)⟩

theorem withGates {l : Sparse Gate} : GatesFrame s { s with gates := l } := ⟨rfl, fun _ _ => rfl⟩

theorem die_le (d off : Nat) : 0x200001000000 ≤ dieBlk d off := by
  unfold dieBlk
  omega

theorem setGate {d g : Nat} {x : Gate} : GatesFrame s (s.setGate d g x) :=
  trans withGates (setFld (Nat.le_trans (die_le d 0) (Nat.le_add_right _ _)))

theorem gatesPaired {follow : Bool} : GatesFrame s (s.gatesPaired follow) :=
  foldl fun _ d _ => foldl fun _ _ _ => trans (setFld (Nat.le_trans (die_le d 0) (Nat.le_add_right _ _))) setGate

theorem fld (h : GatesFrame s t) {a : Nat} (f : Field) (ha : a < 0x200001000000) : t.fld a f = s.fld a f := by
  rw [State.fld, h.hub a ha, State.fld]

theorem pend (h : GatesFrame s t) : t.pend = s.pend := by rw [h.rest]

theorem now (h : GatesFrame s t) : t.now = s.now := by rw [h.rest]

theorem queues (h : GatesFrame s t) : t.queues = s.queues := by rw [h.rest]

theorem sameMemory (h : GatesFrame s t) : SameMemory s t := .of_eq (by rw [h.rest]) (by rw [h.rest])

end GatesFrame

/-- The pair's own state as it is made. -/
def State.pairFresh (s : State) : State :=
  let t := s.updPend (fun p => { p with lastHb := s.now, heldIn := [], ingSent := 0, ingDone := 0, compares := [], digests := [],
                                        syncing := false, synced := [], quiesced := false, probeAt := 0, probeAns := none, adverts := 0 })
  { t with egSent := 0, replayBuf := [], fabric := { t.fabric with issued := [] } }

theorem not_isPairReg_pendIng : ¬ IsPairReg R.PEND_ING := by
  unfold IsPairReg IsModeReg IsRecordReg
  decide

/-- A pair is made. -/
theorem State.pairNow_spec : s.pairNow.pairState = psPaired ∧ s.pairNow.reg R.PEND_ING = 0 ∧ s.pairNow.pend.ingSent = 0 ∧
    s.pairNow.pend.ingDone = 0 ∧ s.pairNow.pend.lastHb = s.now ∧ s.pairNow.role = s.role ∧ s.pairNow.queues = s.queues ∧
    SameMemory s s.pairNow := by
  have e : s.pairNow = ((((if s.mirror then s.gatesPaired (s.mirror && s.role == roleBack) else s).setReg R.PEND_ING 0).setFld R.HOSTP_STAT
      F.HOSTP_STAT_SILENT (b2n (s.mirror && s.role == roleBack))).pairFresh).pairChange (fun s => s.setPairState psPaired) := rfl
  have gates : GatesFrame s (if s.mirror then s.gatesPaired (s.mirror && s.role == roleBack) else s) := by
    split
    · exact .gatesPaired
    · exact .refl
  generalize (if s.mirror then s.gatesPaired (s.mirror && s.role == roleBack) else s) = t at e gates
  have role : ((t.setReg R.PEND_ING 0).setFld R.HOSTP_STAT F.HOSTP_STAT_SILENT (b2n (s.mirror && s.role == roleBack))).role = s.role := by
    unfold State.role
    rw [State.fld_setFld_other _ _ _ _ _ _ (by decide), State.fld, State.reg_setReg_other _ _ _ _ (by decide), ← State.fld]
    exact gates.fld _ (by decide)
  have ing : ((t.setReg R.PEND_ING 0).setFld R.HOSTP_STAT F.HOSTP_STAT_SILENT (b2n (s.mirror && s.role == roleBack))).reg R.PEND_ING = 0 := by
    rw [State.reg_setFld_other _ _ _ _ _ (by decide), State.reg_setReg_same]
  have queues : ((t.setReg R.PEND_ING 0).setFld R.HOSTP_STAT F.HOSTP_STAT_SILENT (b2n (s.mirror && s.role == roleBack))).queues = s.queues := by
    rw [State.setFld_queues, State.setReg_queues, gates.queues]
  have now : ((t.setReg R.PEND_ING 0).setFld R.HOSTP_STAT F.HOSTP_STAT_SILENT (b2n (s.mirror && s.role == roleBack))).now = s.now := by
    rw [State.setFld_now, State.setReg_now, gates.now]
  have mem : SameMemory s ((t.setReg R.PEND_ING 0).setFld R.HOSTP_STAT F.HOSTP_STAT_SILENT (b2n (s.mirror && s.role == roleBack))) :=
    (gates.sameMemory.step (.setReg _ _ _)).step (.setFld _ _ _ _)
  generalize (t.setReg R.PEND_ING 0).setFld R.HOSTP_STAT F.HOSTP_STAT_SILENT (b2n (s.mirror && s.role == roleBack)) = u at e role ing queues now mem
  have frame := u.pairFresh.pairChange_frame (x := psPaired)
  have pend : (u.pairFresh.pairChange (fun s => s.setPairState psPaired)).pend = u.pairFresh.pend := by rw [frame.rest]
  rw [e]
  refine ⟨State.pairState_pairChange (by decide), (frame.reg not_isPairReg_pendIng).trans ing, by rw [pend]; rfl, by rw [pend]; rfl,
    by rw [pend, ← now]; rfl, ?_, frame.queues.trans queues, (mem.step (.of_eq rfl rfl)).step frame.sameMemory⟩
  exact (State.pairChange_stat (f := F.PEND_STAT_ROLE) (by decide) (by decide)).trans role

/-- The queues of a pair that is made stand where they stood. -/
theorem State.pairNow_resumed (hw : ∀ q < 240, (s.qint q).wait = none) : s.pairNow.resumeQueues = s.pairNow :=
  State.foldl_resume_none fun q hq => by
    rw [State.qint, State.pairNow_spec.2.2.2.2.2.2.1]
    exact hw q hq

theorem State.exec_joinResume (hs : s.serving = true) (hp : s.pairState = psSyncing) (hb : s.pend.blocksDone = true)
    (hh : s.pend.heldIn = []) : exec .joinResume s = .next s.pairNow.resumeQueues :=
  State.whenServing_eq hs ((if_pos ⟨hp, hb⟩).trans (by
    dsimp only
    rw [hh, List.foldl_nil]))

end Transfer

/-! ### Detach (R386, R428, R445) -/

section Detach
variable {s t : State}

/-- The registers that the end of a detach writes. -/
def detachRegs : List Nat := [R.PEND_CNT, R.PWR_DOM_CLOSING, R.PWR_DOM_STAT]

/-- `t` keeps memory, and the registers that a detach does not write. -/
def DetachFrame (s t : State) : Prop := t.mem = s.mem ∧ t.pend.prev = s.pend.prev ∧ ∀ a ∉ detachRegs, t.reg a = s.reg a

namespace DetachFrame
variable {u : State}

theorem trans (h : DetachFrame s t) (g : DetachFrame t u) : DetachFrame s u :=
  ⟨g.1.trans h.1, g.2.1.trans h.2.1, fun a ha => (g.2.2 a ha).trans (h.2.2 a ha)⟩

theorem refl : DetachFrame s s := ⟨rfl, rfl, fun _ _ => rfl⟩

theorem ite {c : Prop} [Decidable c] (ht : DetachFrame s t) (hu : DetachFrame s u) : DetachFrame s (if c then t else u) := by
  split
  · exact ht
  · exact hu

theorem pairForgotten : DetachFrame s s.pairForgotten := ⟨rfl, rfl, fun _ _ => rfl⟩

theorem net (h : NetFrame s t) : DetachFrame s t := ⟨h.mem, by rw [h.pend], fun a _ => h.reg a⟩

theorem setFld {a v : Nat} {f : Field} (ha : a ∈ detachRegs) : DetachFrame s (s.setFld a f v) :=
  ⟨rfl, rfl, fun _ hb => s.reg_setFld_other _ _ _ _ fun e => hb (e ▸ ha)⟩

theorem writeBackHeld {hit : Nat → Bool} : DetachFrame s (s.writeBackHeld hit) := by
  unfold State.writeBackHeld
  split
  · exact refl
  · exact ⟨rfl, rfl, fun _ _ => rfl⟩

theorem closeDomains {m : Nat} : DetachFrame s (s.closeDomains m) :=
  trans (trans (setFld (by decide)) (setFld (by decide))) writeBackHeld

theorem detachStage : DetachFrame s s.detachStage := by
  unfold State.detachStage
  split
  · extract_lets on
    split
    · exact closeDomains
    · exact refl
  · exact refl

theorem detachStep : DetachFrame s s.detachStep := by
  have told (c : Prop) [Decidable c] : DetachFrame s (if c then (s.sendPend 0x37 [] []).count R.PEND_CNT F.PEND_CNT_HANDOVER 1 else s) :=
    ite (trans (net .sendPend) (setFld (by decide))) refl
  refine ite ?_ refl
  exact trans (told _) (trans (trans (net State.sendHeartbeat_spec.2) ⟨rfl, rfl, fun _ _ => rfl⟩) detachStage)

end DetachFrame

/-- A detach begins: the pair's state and the module's. -/
def State.detachBegun (s : State) : State :=
  ((s.updPend (fun p => { p with prev := s.pairState, detached := false })).pairChange (fun s => s.setPairState psDetaching)).enterMode mDetaching

theorem not_enterModeReg_pendStat : ¬ (IsModeReg R.PEND_STAT ∨ R.PEND_STAT = R.ID_STATE) := fun h =>
  h.elim not_isModeReg_pendStat (by decide)

theorem State.detachBegun_spec (q : QuietPair s) : s.detachBegun.mode = mDetaching ∧ s.detachBegun.pairState = psDetaching ∧
    s.detachBegun.pend.prev = s.pairState ∧ QuietPair s.detachBegun ∧ s.detachBegun.mem = s.mem := by
  have prev : (s.updPend (fun p => { p with prev := s.pairState, detached := false })).pend.prev = s.pairState := rfl
  have quiet : QuietPair (s.updPend (fun p => { p with prev := s.pairState, detached := false })) := q.of_eq rfl rfl rfl
  have mem : (s.updPend (fun p => { p with prev := s.pairState, detached := false })).mem = s.mem := rfl
  unfold State.detachBegun
  generalize s.updPend (fun p => { p with prev := s.pairState, detached := false }) = u at prev quiet mem
  have changed := u.pairChange_frame (x := psDetaching)
  have state := u.pairState_pairChange (x := psDetaching) (by decide)
  generalize u.pairChange (fun s => s.setPairState psDetaching) = v at changed state
  have entered := v.enterMode_rest (m := mDetaching)
  have pend : (v.enterMode mDetaching).pend = u.pend := by rw [entered.rest, changed.rest]
  exact ⟨State.mode_enterMode (by decide), (entered.fld _ not_enterModeReg_pendStat).trans state, by rw [pend]; exact prev,
    quiet.of_eq (by rw [pend]) (entered.colls.trans changed.colls) (by rw [pend]), entered.mem.trans (changed.mem.trans mem)⟩

theorem State.detachWrite_spec (q : QuietPair s) (h : s.mode = mFull ∨ s.mode = mDegraded) : s.detachWrite.mode = mDetaching ∧
    s.detachWrite.pairState = psDetaching ∧ s.detachWrite.pend.prev = s.pairState ∧ s.detachWrite.mem = s.mem := by
  obtain ⟨mode, state, prev, quiet, mem⟩ := State.detachBegun_spec q
  have e : s.detachWrite = s.detachBegun.pairTidy.detachStep :=
    if_neg fun ⟨h1, h2⟩ => h.elim (fun h => h1 h) fun h => h2 h
  rw [e, State.pairTidy_quiet quiet (by rw [state]; decide)]
  have f : DetachFrame s.detachBegun s.detachBegun.pairForgotten.detachStep :=
    .trans .pairForgotten .detachStep
  generalize s.detachBegun.pairForgotten.detachStep = t at f
  obtain ⟨fmem, fprev, fregs⟩ := f
  refine ⟨?_, ?_, fprev.trans prev, fmem.trans mem⟩
  · rw [State.mode, State.fld, fregs _ (by decide)]
    exact mode
  · rw [State.pairState, State.fld, fregs _ (by decide)]
    exact state

end Detach

/-! ### Shadow copies (R376 to R378, R386) -/

section Shadow
variable {s t : State} {k : Nat}

theorem State.fld_updPend (f : PendInt → PendInt) (a : Nat) (g : Field) : (s.updPend f).fld a g = s.fld a g := rfl

theorem SameRegsBut.updPend {l : List Nat} {f : PendInt → PendInt} : SameRegsBut l s (s.updPend f) := .of_eq rfl rfl

theorem SameMemory.updPend {f : PendInt → PendInt} : SameMemory s (s.updPend f) := .of_eq rfl rfl

theorem State.mergeEnd_idle (h : s.pend.merging = 0) : s.mergeEnd = s := if_pos h

/-- PEND_COPY of a copy that merges to an epoch. -/
def State.copySet (s : State) (k : Nat) : State :=
  (s.setFld R.PEND_COPY F.PEND_COPY_STATE cpMerging).setFld R.PEND_COPY F.PEND_COPY_EPOCH k

/-- The copy enters MERGING at an epoch. -/
def State.copyMerging (s : State) (k : Nat) : State := (s.copySet k).updPend (fun p => { p with merging := k + 1, filled := 0 })

theorem State.epoch_copySet (hk : k < 2 ^ 48) : (s.copySet k).fld R.PEND_COPY F.PEND_COPY_EPOCH = k :=
  State.fld_setFld_same _ _ F.PEND_COPY_EPOCH k (by decide) hk

theorem State.state_copySet : (s.copySet k).fld R.PEND_COPY F.PEND_COPY_STATE = cpMerging :=
  (State.fld_setFld_apart _ _ F.PEND_COPY_EPOCH F.PEND_COPY_STATE k (by decide) (by decide)).trans
    (s.fld_setFld_same R.PEND_COPY F.PEND_COPY_STATE cpMerging (by decide) (by decide))

theorem State.copySet_sameRegs : SameRegsBut [R.PEND_COPY] s (s.copySet k) :=
  SameRegsBut.step (.setFld _ _ _ (List.mem_singleton.mpr rfl)) (.setFld _ _ _ (List.mem_singleton.mpr rfl))

theorem State.copySet_sameMemory : SameMemory s (s.copySet k) := SameMemory.step (.setFld _ _ _ _) (.setFld _ _ _ _)

theorem State.state_copyMerging : (s.copyMerging k).fld R.PEND_COPY F.PEND_COPY_STATE = cpMerging :=
  (State.fld_updPend _ _ _).trans s.state_copySet

theorem State.epoch_copyMerging (hk : k < 2 ^ 48) : (s.copyMerging k).fld R.PEND_COPY F.PEND_COPY_EPOCH = k :=
  (State.fld_updPend _ _ _).trans (s.epoch_copySet hk)

theorem State.merging_copyMerging : (s.copyMerging k).pend.merging = k + 1 := rfl

theorem State.copyMerging_sameRegs : SameRegsBut [R.PEND_COPY] s (s.copyMerging k) := s.copySet_sameRegs.step .updPend

theorem State.copyMerging_sameMemory : SameMemory s (s.copyMerging k) := s.copySet_sameMemory.step .updPend

theorem State.confirmRx_valid (hs : s.shadow = true) (hp : s.pairState = psPaired) (hm : s.pend.merging = 0)
    (hv : s.fld R.PEND_COPY F.PEND_COPY_STATE = cpValid) : s.confirmRx k = (s.copyMerging k).sendPend 0x36 [1, k] [] := by
  unfold State.confirmRx
  rw [if_neg (fun h => h.elim (fun h => Bool.noConfusion (hs.symm.trans h)) fun h => h hp), State.mergeEnd_idle hm]
  extract_lets t st go u
  have hg : go := .inl hv
  have hu : u = s.copySet k := if_pos hg
  rw [hu]
  refine congrArg (fun x : State => x.sendPend 0x36 [1, k] []) (State.updPend_congr ?_)
  rw [if_pos hg]

/-- The checkpoint of an epoch is accepted. -/
def State.confirmTaken (s : State) (k : Nat) : State :=
  s.updPend (fun p => { p with confirm := none, taken := p.taken.filter (fun t => decide (k < t.1)) })

theorem State.confirmAck_taken {t0 : Nat} (h : s.pend.confirm = some (k, t0)) :
    s.confirmAck k = (s.confirmTaken k).setReg R.TRN_CKPT (BitVec.ofNat 64 k) := by
  unfold State.confirmAck
  rw [h]
  exact if_pos rfl

theorem State.confirmAck_other {v t0 : Nat} (h : s.pend.confirm = some (v, t0)) (hv : v ≠ k) : s.confirmAck k = s := by
  unfold State.confirmAck
  rw [h]
  exact if_neg hv

/-- The merge ends, with its epoch's entries freed. -/
def State.mergeFreed (s : State) (k : Nat) : State :=
  s.updPend (fun p => { p with staged := p.staged.filter (fun x => decide (k < x.epoch)), merging := 0 })

theorem State.mergeEnd_spec (hm : s.pend.merging ≠ 0) (he : ∀ x ∈ s.pend.staged, s.pend.merging ≤ x.epoch)
    (hs : s.fld R.PEND_COPY F.PEND_COPY_STATE = cpMerging) :
    s.mergeEnd = (s.mergeFreed (s.pend.merging - 1)).setFld R.PEND_COPY F.PEND_COPY_STATE cpValid := by
  have none : s.pend.staged.filter (fun x => decide (x.epoch ≤ s.pend.merging - 1)) = [] := by
    refine List.filter_eq_nil_iff.mpr fun x hx => ?_
    have := he x hx
    rw [decide_eq_true_eq]
    omega
  unfold State.mergeEnd
  rw [if_neg hm]
  dsimp only
  rw [none]
  exact if_pos hs

end Shadow

section Restore
variable {s t : State} {p : Partner}

/-- A request of a restore is refused. -/
def State.restoreRefused (s : State) : State := s.setFld R.PEND_STAT F.PEND_STAT_JOIN_FAIL 7

theorem State.restoreWrite_refused (h : s.shadow = false ∨ s.pairState ≠ psPaired ∨ (s.fld R.PEND_COPY F.PEND_COPY_STATE ≠ cpValid ∧
    s.fld R.PEND_COPY F.PEND_COPY_STATE ≠ cpMerging) ∨
    s.fld R.PEND_RESTORE_EPOCH F.PEND_RESTORE_EPOCH_EPOCH ≠ s.fld R.PEND_COPY F.PEND_COPY_EPOCH) : s.restoreWrite = s.restoreRefused := by
  unfold State.restoreWrite
  extract_lets refuse st
  split
  · rfl
  · exact if_pos h

/-- What a restore sends first: that the window is zero. -/
def State.restoreZero (s : State) (p : Partner) : State := s.sendBulk blkZero [p.winBase, min s.pendResv.2 p.winSize] []

theorem State.restoreWrite_sent (hp : s.pend.partner = some p) (hs : s.shadow = true) (hpair : s.pairState = psPaired)
    (hv : s.fld R.PEND_COPY F.PEND_COPY_STATE = cpValid)
    (he : s.fld R.PEND_RESTORE_EPOCH F.PEND_RESTORE_EPOCH_EPOCH = s.fld R.PEND_COPY F.PEND_COPY_EPOCH) (hm : s.pend.merging = 0) :
    ∃ gs : List Nat, s.restoreWrite =
      gs.foldl (fun t g => t.sendGranule g (p.winBase + (4096 * g - s.pendResv.1))) (s.restoreZero p) := by
  unfold State.restoreWrite
  rw [hp]
  dsimp only
  rw [if_neg (fun h => by
    rcases h with h | h | h | h
    · exact Bool.noConfusion (hs.symm.trans h)
    · exact h hpair
    · exact h.1 hv
    · exact h he), State.mergeEnd_idle hm]
  exact ⟨_, rfl⟩

theorem State.le_out_sendPend (type : Nat) (nums : List Nat) (bytes : List Byte) :
    s.out.length ≤ (s.sendPend type nums bytes).out.length := by
  unfold State.sendPend
  split
  · exact Nat.le_of_lt (by rw [State.length_out_emit]; exact Nat.lt_succ_self _)
  · exact Nat.le_refl _

theorem State.lt_out_sendPend (h : s.pendPort ≠ none) (type : Nat) (nums : List Nat) (bytes : List Byte) :
    s.out.length < (s.sendPend type nums bytes).out.length := by
  obtain ⟨p, hp⟩ := Option.ne_none_iff_exists'.mp h
  unfold State.sendPend
  rw [hp]
  exact Nat.lt_succ_self _

theorem State.le_out_granules (l : List Nat) (to_ : Nat → Nat) :
    s.out.length ≤ (l.foldl (fun s g => s.sendGranule g (to_ g)) s).out.length :=
  List.foldlRecOn (motive := fun t : State => s.out.length ≤ t.out.length) _ _ (Nat.le_refl _)
    fun _ ht _ _ => Nat.le_trans ht (State.le_out_sendPend _ _ _)

end Restore

/-- Settles O56. -/
theorem pairStates : Obligations.PairStates := by
  refine ⟨fun s hs => ⟨fun h1 h2 h3 => State.whenServing_eq hs (if_pos ⟨h1, h2, h3⟩), fun h hc hl hq => ⟨fun hp => ?_, fun hp hn => ?_⟩⟩,
    fun s hs => ⟨fun h => State.whenServing_eq hs (if_pos h), fun hp hr hb => ⟨fun hq hn => ?_, fun h => ⟨fun hi =>
      State.whenServing_eq hs (State.joinQuiesce_busy hp hr hb h hi), fun hi hw => ?_⟩⟩⟩,
    fun s hs => ⟨fun h => State.whenServing_eq hs (if_neg fun ⟨hp, hb⟩ => h.elim (fun h => h hp) fun h => Bool.noConfusion (h.symm.trans hb)),
      fun hp hb hh => ⟨State.exec_joinResume hs hp hb hh, fun hw => ?_⟩⟩,
    fun s hm => ⟨fun h1 h2 => State.whenMain_eq hm (if_pos ⟨h1, h2⟩), fun h hc hl hq => ?_⟩,
    fun s hm => ⟨fun h => State.whenMain_eq hm (if_neg ?_), fun h1 h2 h3 => ?_⟩,
    fun k s hm => ⟨fun h => State.whenMain_eq hm (if_pos h), fun hs hp hg hv => ?_⟩,
    fun k s hm => ⟨fun h => ⟨?_, ?_⟩, fun v t0 h => ⟨fun hv => State.whenMain_eq hm (State.confirmAck_other h hv), fun hv => ?_, fun ht => ?_,
      fun ht => ?_⟩⟩,
    fun s hm => ⟨fun h => State.whenMain_eq hm (State.mergeEnd_idle h), fun hg he hs => ?_⟩,
    fun s hm => ⟨fun h => ?_, fun p hp hs hpair hv he hg => ?_, ?_⟩⟩
  · obtain ⟨-, pend, colls, role, -, mem⟩ := s.joinAsked_spec
    have quiet : QuietPair s.joinAsked := ⟨by rw [pend]; exact hc, colls.trans hl, by rw [pend]; exact hq⟩
    have prev : s.joinAsked.pend.prev = s.pairState := by rw [pend]
    have small : s.pairState < 8 ∧ s.pairState ≠ psPaired := by
      rcases h with h | h | h <;> exact h ▸ by decide
    obtain ⟨state, role', failed, mem'⟩ := State.joinFailed_spec quiet 6 (by decide) (prev ▸ small.1) (prev ▸ small.2)
    exact ⟨_, State.whenServing_eq hs ((State.joinWrite_asked h).trans (if_pos hp)), failed, state.trans prev, role'.trans role, mem.step mem'⟩
  · obtain ⟨-, pend, -, -, failed, mem⟩ := s.joinAsked_spec
    obtain ⟨state, stat, prev, mem'⟩ := s.joinAsked.joinBegun_spec (by rw [pend]; exact hn)
    exact ⟨_, State.whenServing_eq hs ((State.joinWrite_asked h).trans (if_neg (by rw [hp]; exact Bool.noConfusion))), state,
      stat.trans failed, prev.trans (by rw [pend]), mem.step mem'⟩
  · obtain ⟨u, net, e⟩ := State.joinQuiesce_pass hp hr hb hq hn
    obtain ⟨pass, pend, mem, regs, memory⟩ := u.passCounted_spec (4096 * s.marked.length)
    refine ⟨_, State.whenServing_eq hs e, ?_, mem.trans net.mem, ?_, (net.sameRegs.step regs).step .updPend, (net.sameMemory.step memory).step .updPend⟩
    · rw [State.fld_updPend, pass, net.fld]
    · show (u.passCounted (4096 * s.marked.length)).pend.quiesced = false
      rw [pend, net.pend]
      exact hq
  · obtain ⟨nums, e⟩ := State.joinQuiesce_idle hp hr hb h hi hw
    obtain ⟨pend, regs, memory⟩ := s.lastSent.blocksSent_spec nums
    have frame := s.lastSent_frame
    refine ⟨_, State.whenServing_eq hs e, by rw [pend], ?_, by rw [pend]; exact frame.mem, ?_, ?_⟩
    · rw [pend, frame.pend]
      rfl
    · exact (SameRegsBut.step SameRegsBut.updPend frame.sameRegs).step regs
    · exact (SameMemory.step SameMemory.updPend frame.sameMemory).step memory
  · obtain ⟨state, ing, sent, done, hb', role, -, mem⟩ := s.pairNow_spec
    exact ⟨_, (State.exec_joinResume hs hp hb hh).trans (by rw [State.pairNow_resumed hw]), state, ing, sent, done, hb', role, mem⟩
  · obtain ⟨mode, state, prev, mem⟩ := State.detachWrite_spec ⟨hc, hl, hq⟩ h
    exact ⟨_, State.whenMain_eq hm rfl, mode, state, prev, fun k => by rw [mem]⟩
  · rintro ⟨h1, h2, h3⟩
    rcases h with h | h | h
    · exact h h1
    · exact Bool.noConfusion (h.symm.trans h2)
    · exact h h3
  · exact ⟨_, State.whenMain_eq hm (if_pos ⟨h1, h2, h3⟩), State.mode_enterMode (by decide), State.enterMode_rest.sameMemory⟩
  · refine ⟨_, State.whenMain_eq hm (State.confirmRx_valid hs hp hg hv), ?_, ?_, ?_, ?_, ?_⟩
    · rw [NetFrame.sendPend.fld]
      exact State.state_copyMerging
    · rw [NetFrame.sendPend.fld]
      exact State.epoch_copyMerging k.isLt
    · rw [State.sendPend_pend]
      exact State.merging_copyMerging
    · exact State.copyMerging_sameRegs.step NetFrame.sendPend.sameRegs
    · exact State.copyMerging_sameMemory.step (State.sendPend_sameMemory _ _ _ _)
  · refine State.whenMain_eq hm ?_
    unfold State.confirmAck
    rw [h]
  · refine State.whenMain_eq hm ?_
    rw [h]
  · subst hv
    refine ⟨_, State.whenMain_eq hm (State.confirmAck_taken h), ?_, ?_, ?_, ?_⟩
    · exact (State.fld_setReg_same _ _ _ _).trans (Field.get_ofNat_low F.TRN_CKPT_LAST (by decide) rfl k.isLt)
    · rw [State.setReg_pend]
      rfl
    · exact SameRegsBut.updPend.step (.setReg _ _ (List.mem_singleton.mpr rfl))
    · exact SameMemory.updPend.step (.setReg _ _ _)
  · refine State.whenMain_eq hm ?_
    rw [h]
    exact if_neg (Nat.not_le.mpr ht)
  · refine ⟨(s.updPend (fun p => { p with confirm := none })).count R.PEND_CNT F.PEND_CNT_CONFIRM_FAIL 1, State.whenMain_eq hm ?_, ?_, ?_, ?_, ?_⟩
    · rw [h]
      exact if_pos ht
    · rw [State.count_pend]
      rfl
    · exact State.fld_count_same (s.updPend (fun p => { p with confirm := none })) _ _ _ (by decide)
    · exact SameRegsBut.updPend.step (.count _ _ _ (List.mem_singleton.mpr rfl))
    · exact SameMemory.updPend.step (.count _ _ _ _)
  · refine ⟨_, State.whenMain_eq hm (State.mergeEnd_spec hg he hs), ?_, ?_, ?_, ?_, ?_⟩
    · exact State.fld_setFld_same _ _ _ _ (by decide) (by decide)
    · exact State.fld_setFld_apart (s.mergeFreed (s.pend.merging - 1)) _ F.PEND_COPY_STATE _ _ (by decide) (by decide)
    · rw [State.setFld_pend]
      rfl
    · exact SameRegsBut.updPend.step (.setFld _ _ _ (List.mem_singleton.mpr rfl))
    · exact SameMemory.updPend.step (.setFld _ _ _ _)
  · exact ⟨_, State.whenMain_eq hm (State.restoreWrite_refused h), State.fld_setFld_same _ _ _ _ (by decide) (by decide), State.setFld_out _ _ _ _,
      .setFld _ _ _ (List.mem_singleton.mpr rfl), .setFld _ _ _ _⟩
  · obtain ⟨gs, e⟩ := State.restoreWrite_sent hp hs hpair hv he hg
    have net : NetFrame s (gs.foldl (fun t g => t.sendGranule g (p.winBase + (4096 * g - s.pendResv.1))) (s.restoreZero p)) :=
      .trans .sendPend .granules
    exact ⟨_, State.whenMain_eq hm e, fun h => Nat.lt_of_lt_of_le (State.lt_out_sendPend h _ _ _) (State.le_out_granules gs _),
      net.sameRegs, net.sameMemory⟩
  · refine ⟨_, State.whenMain_eq hm rfl, State.fld_setFld_same _ _ _ _ (by decide) (by decide), ?_, ?_, ?_⟩
    · rw [State.forgetWrite, State.setFld_pend]
      rfl
    · exact SameRegsBut.updPend.step (.setFld _ _ _ (List.mem_singleton.mpr rfl))
    · exact SameMemory.updPend.step (.setFld _ _ _ _)

end Sys2Proof.Machine
end

section
/-!
PROOFS. The host port: its link, the frames that it drops, RDMA, TCT messages, held doorbells, events sent again.
-/

namespace Sys2Proof.Machine

open Sys2Proof

/-! ### What goes out to the host (R368, R373) -/

section Out
variable {s t : State} {o : Out}

/-- The host hears the module: it is no silent back, and its port is not silent. -/
structure Loud (s : State) : Prop where
  back : s.silentBack = false
  port : s.fld R.HOSTP_STAT F.HOSTP_STAT_SILENT ≠ 1

theorem HostServes.isLoud (h : HostServes s) : Loud s := ⟨h.face, h.loud⟩

/-- The registers that decide whether the host hears the module. -/
def loudRegs : List Nat := [R.HOSTP_STAT, R.PEND_CFG, R.PEND_STAT]

theorem Loud.of_regs (h : Loud s) (k : ∀ a ∈ loudRegs, t.reg a = s.reg a) : Loud t := by
  have fld {a : Nat} (f : Field) (ha : a ∈ loudRegs) : t.fld a f = s.fld a f := by rw [State.fld, k a ha, State.fld]
  refine ⟨?_, by rw [fld _ (by decide)]; exact h.port⟩
  have back := h.back
  unfold State.silentBack State.mirrorBack at back ⊢
  rw [fld _ (by decide), fld _ (by decide), fld _ (by decide)]
  exact back

theorem Loud.same {l : List Nat} (h : Loud s) (k : SameRegsBut l s t) (hl : ∀ a ∈ loudRegs, a ∉ l) : Loud t :=
  h.of_regs fun a ha => k.1 a (hl a ha)

theorem Loud.count {a n : Nat} {f : Field} (h : Loud s) (ha : ∀ b ∈ loudRegs, a ≠ b) : Loud (s.count a f n) :=
  h.of_regs fun b hb => s.reg_setFld_other _ _ _ _ (ha b hb)

theorem Loud.setQp {n : Nat} {x : Qp} (h : Loud s) : Loud (s.setQp n x) := h.of_regs fun _ _ => rfl

theorem Loud.poke {l : List (Nat × Byte)} (h : Loud s) : Loud (s.poke l) := h.of_regs fun _ _ => rfl

/-- A frame has gone out to the host. -/
def State.sentHost (s : State) (o : Out) : State := { s with egSent := s.egSent + 1, out := o :: s.out }

theorem Loud.hostOut (h : Loud s) : s.hostOut o = s.sentHost o := by
  have back : ({ s with egSent := s.egSent + 1 } : State).silentBack = s.silentBack := rfl
  unfold State.hostOut
  dsimp only
  rw [back, if_neg (by rw [h.back]; exact Bool.noConfusion)]
  exact if_neg h.port

theorem SameRegsBut.sentHost {l : List Nat} : SameRegsBut l s (s.sentHost o) := .of_eq rfl rfl

theorem SameMemory.sentHost : SameMemory s (s.sentHost o) := .of_eq rfl rfl

theorem SameRegsBut.setQp {l : List Nat} {n : Nat} {x : Qp} : SameRegsBut l s (s.setQp n x) := .of_eq rfl rfl

theorem SameMemory.setQp {n : Nat} {x : Qp} : SameMemory s (s.setQp n x) := .of_eq rfl rfl

theorem State.qp_setQp (n : Nat) (x : Qp) : (s.setQp n x).qp n = x := sparseGet_set_same _ _ _ _

/-- What arrives at a module that acts alone acts. -/
theorem State.ingress_alone (h : ActsAlone s) (x : IngressItem) : s.ingress x = s.actItem false x := by
  unfold State.ingress
  rw [if_neg (by rw [h.1]; exact Bool.noConfusion), if_neg (by rw [h.2]; exact Bool.noConfusion)]

end Out

/-! ### Sound memory -/

section Sound
variable {s : State}

theorem State.readMem_sound (h : SoundMemory s) (w : Who) (a n : Nat) : s.readMem w a n = (s.peek a n, s, false) := by
  unfold State.readMem State.readKeys
  dsimp only
  rw [State.writeBackHeld, if_pos h.2, h.1]
  rfl

theorem SoundMemory.poke {l : List (Nat × Byte)} (h : SoundMemory s) : SoundMemory (s.poke l) := h

theorem guardWrite_free {a n : Nat} (h : s.guardWrite a n = (false, s)) :
    s.evalRefuses [(a, n)] = false ∧ s.pendAreas.any (fun r => rangesMeet r (a, n)) = false := by
  unfold State.guardWrite at h
  split at h
  · cases congrArg Prod.fst h
  · next he => exact ⟨Bool.eq_false_iff.mpr he, congrArg Prod.fst h⟩

/-- A write of sound memory changes no byte outside its range. -/
theorem State.memByte_writeMem_other (h : SoundMemory s) {a k : Nat} (b : List Byte) (hk : k ∉ keysOf a b.length) :
    memByte (s.writeMem a b).1.mem k = memByte s.mem k := by
  rw [State.writeMem_sound b h.1 h.2]
  refine memByte_writes_other _ _ fun p hp hpk => hk ?_
  obtain ⟨j, hj, rfl⟩ := mem_zip_keysOf hp
  exact List.mem_map.mpr ⟨j, List.mem_range.mpr hj, hpk⟩

end Sound

/-! ### The link, and frames (R389 to R391) -/

section Link
variable {s : State}

/-- The link is up, at a rate. -/
def State.linkTrained (s : State) (rate : Nat) : State :=
  ((s.setFld R.HOSTP_STAT F.HOSTP_STAT_LINK 2).setFld R.HOSTP_STAT F.HOSTP_STAT_RATE rate).setFld R.HOSTP_STAT F.HOSTP_STAT_LANES
    (if rate = 0 then 2 else if rate = 1 then 4 else 8)

theorem State.linkTrained_spec {rate : Nat} (h : rate < 4) : (s.linkTrained rate).fld R.HOSTP_STAT F.HOSTP_STAT_LINK = 2 ∧
    (s.linkTrained rate).fld R.HOSTP_STAT F.HOSTP_STAT_RATE = rate := by
  unfold State.linkTrained
  constructor
  · rw [State.fld_setFld_apart _ _ _ F.HOSTP_STAT_LINK _ (by decide) (by decide),
      State.fld_setFld_apart _ _ _ F.HOSTP_STAT_LINK _ (by decide) (by decide)]
    exact State.fld_setFld_same _ _ _ _ (by decide) (by decide)
  · rw [State.fld_setFld_apart _ _ _ F.HOSTP_STAT_RATE _ (by decide) (by decide)]
    exact State.fld_setFld_same _ _ _ _ (by decide) h

theorem State.linkTrained_sameRegs {rate : Nat} : SameRegsBut [R.HOSTP_STAT] s (s.linkTrained rate) :=
  (SameRegsBut.step (.setFld _ _ _ (List.mem_singleton.mpr rfl)) (.setFld _ _ _ (List.mem_singleton.mpr rfl))).step
    (.setFld _ _ _ (List.mem_singleton.mpr rfl))

theorem State.linkTrained_sameMemory {rate : Nat} : SameMemory s (s.linkTrained rate) :=
  (SameMemory.step (.setFld _ _ _ _) (.setFld _ _ _ _)).step (.setFld _ _ _ _)

theorem State.hostTrain_spec : s.hostTrain.fld R.HOSTP_STAT F.HOSTP_STAT_LINK = 1 ∧ s.hostTrain.mirror = s.mirror ∧
    SameRegsBut [R.HOSTP_STAT] s s.hostTrain ∧ SameMemory s s.hostTrain := by
  have regs : SameRegsBut [R.HOSTP_STAT] s s.hostTrain :=
    (SameRegsBut.step (.setFld _ _ _ (List.mem_singleton.mpr rfl)) (.setFld _ _ _ (List.mem_singleton.mpr rfl))).step
      (.setFld _ _ _ (List.mem_singleton.mpr rfl))
  refine ⟨?_, ?_, regs, (SameMemory.step (.setFld _ _ _ _) (.setFld _ _ _ _)).step (.setFld _ _ _ _)⟩
  · unfold State.hostTrain
    rw [State.fld_setFld_apart _ _ _ F.HOSTP_STAT_LINK _ (by decide) (by decide),
      State.fld_setFld_apart _ _ _ F.HOSTP_STAT_LINK _ (by decide) (by decide)]
    exact State.fld_setFld_same _ _ _ _ (by decide) (by decide)
  · exact congrArg (· == mirrorMode) (regs.fld _ (by decide))

theorem State.faultHandover_single (h : s.mirror = false) : s.faultHandover = s := by
  unfold State.faultHandover
  rw [h]
  rfl

end Link

/-! ### RDMA (R392 to R396) -/

section Rdma
variable {s : State} {n psn : Nat} {f : State → State}

theorem State.inOrder_idle (h : (s.qp n).state ≠ 1) (ce : Bool) : s.inOrder n psn ce f = s := by
  unfold State.inOrder
  dsimp only
  rw [if_pos h]
  exact ite_self s

theorem State.inOrder_ready (hn : n < 4096) (h : (s.qp n).state = 1) : s.inOrder n psn false f =
    if psn = (s.qp n).rqPsn then f s
    else if psnLe psn (s.qp n).rqPsn then s.hostOut (ackOut n (s.qp n).rqPsn) else s.nak n (s.qp n).rqPsn nakSeq := by
  have quiet : s.cePacket n false = s := rfl
  unfold State.inOrder
  dsimp only
  rw [if_neg (Nat.not_le.mpr hn), if_neg (fun g => g h), quiet]

theorem State.roceRow_acts (h : HostServes s) (f : FrameBody) : s.roceRow f = s.frameAct f := by
  unfold State.roceRow
  rw [if_neg (by rw [h.up]; exact Bool.noConfusion), if_neg h.loud]
  exact State.ingress_alone h.alone _

theorem State.roceRow_down (h : s.hostUp = false) (f : FrameBody) : s.roceRow f = s := if_pos h

theorem State.roceRow_silent (h : s.hostUp = true) (hs : s.fld R.HOSTP_STAT F.HOSTP_STAT_SILENT = 1) (f : FrameBody) :
    s.roceRow f = s.count R.PEND_CNT F.PEND_CNT_BACK_DROP 1 :=
  (if_neg (by rw [h]; exact Bool.noConfusion)).trans (if_pos hs)

theorem State.releaseBells_none (h : s.bells = []) : s.releaseBells = s := by
  unfold State.releaseBells
  rw [h, List.foldl_nil]

/-- The state after k packets of a queue pair have been taken and answered. -/
def State.psnTaken (s : State) (n k : Nat) (o : Out) : State :=
  (s.setQp n { s.qp n with rqPsn := ((s.qp n).rqPsn + k) % 2 ^ 24 }).sentHost o

theorem State.ackTo_loud (h : Loud s) (hb : s.bells = []) (k : Nat) (o : Out) : s.ackTo n k o = s.psnTaken n k o := by
  unfold State.ackTo
  dsimp only
  rw [h.setQp.hostOut]
  exact State.releaseBells_none hb

theorem State.psnTaken_spec (k : Nat) (o : Out) : ((s.psnTaken n k o).qp n) = { s.qp n with rqPsn := ((s.qp n).rqPsn + k) % 2 ^ 24 } ∧
    (s.psnTaken n k o).out = o :: s.out ∧ (s.psnTaken n k o).mem = s.mem ∧ SameRegsBut [] s (s.psnTaken n k o) ∧
    SameMemory s (s.psnTaken n k o) :=
  ⟨State.qp_setQp _ _, rfl, rfl, .of_eq rfl rfl, .of_eq rfl rfl⟩

theorem State.nak_seq (h : Loud s) : s.nak n psn nakSeq = (s.count R.HOSTP_ROCE_CNT F.HOSTP_ROCE_CNT_SEQ_NAK 1).sentHost
    (roceOut n 4 psn nakSeq []) := by
  unfold State.nak
  rw [if_pos rfl]
  exact Loud.hostOut (h.count (f := F.HOSTP_ROCE_CNT_SEQ_NAK) (by decide))

theorem State.nak_access (h : Loud s) : s.nak n psn nakAccess = (s.count R.HOSTP_ROCE_CNT F.HOSTP_ROCE_CNT_NAK_ACCESS 1).sentHost
    (roceOut n 4 psn nakAccess []) := by
  unfold State.nak
  rw [if_neg (by decide), if_pos rfl]
  exact Loud.hostOut (h.count (f := F.HOSTP_ROCE_CNT_NAK_ACCESS) (by decide))

theorem State.nak_invalid (h : Loud s) : s.nak n psn nakInvalid = s.sentHost (roceOut n 4 psn nakInvalid []) := by
  unfold State.nak
  rw [if_neg (by decide), if_neg (by decide)]
  exact h.hostOut

theorem State.nakCounted_spec (f : Field) (o : Out) : ((s.count R.HOSTP_ROCE_CNT f 1).sentHost o).out = o :: s.out ∧
    ((s.count R.HOSTP_ROCE_CNT f 1).sentHost o).qps = s.qps ∧
    SameRegsBut [R.HOSTP_ROCE_CNT] s ((s.count R.HOSTP_ROCE_CNT f 1).sentHost o) ∧
    SameMemory s ((s.count R.HOSTP_ROCE_CNT f 1).sentHost o) ∧
    ((s.count R.HOSTP_ROCE_CNT f 1).sentHost o).fld R.HOSTP_ROCE_CNT f = (s.count R.HOSTP_ROCE_CNT f 1).fld R.HOSTP_ROCE_CNT f := by
  have out := s.count_out R.HOSTP_ROCE_CNT f 1
  have qps := s.count_qps R.HOSTP_ROCE_CNT f 1
  have regs : SameRegsBut [R.HOSTP_ROCE_CNT] s (s.count R.HOSTP_ROCE_CNT f 1) := .count _ _ _ (List.mem_singleton.mpr rfl)
  have mem : SameMemory s (s.count R.HOSTP_ROCE_CNT f 1) := .count _ _ _ _
  generalize s.count R.HOSTP_ROCE_CNT f 1 = t at out qps regs mem
  exact ⟨congrArg (o :: ·) out, qps, regs.step .sentHost, mem.step .sentHost, rfl⟩

theorem State.regionOk_state (h : SoundMemory s) (rkey va len access : Nat) : (s.regionOk rkey va len access).1 = s := by
  unfold State.regionOk
  extract_lets i a
  split
  · rfl
  · rw [State.readMem_sound h]

theorem State.regionOk_eq (h : SoundMemory s) {rkey va len access : Nat} {b : Bool} (hb : (s.regionOk rkey va len access).2 = b) :
    s.regionOk rkey va len access = (s, b) := Prod.ext (State.regionOk_state h _ _ _ _) hb

variable {rkey va len : Nat} {data : List Byte}

theorem State.rdmaWriteRx_stores (hl : Loud s) (hn : n < 4096) (h : (s.qp n).state = 1) (hp : psn = (s.qp n).rqPsn) (hs : SoundMemory s)
    (hb : s.bells = []) (hr : (s.regionOk rkey va data.length 1).2 = true) (hg : s.guardWrite va data.length = (false, s))
    (hlen : data.length ≤ 2 ^ 31) : s.rdmaWriteRx n psn rkey va data false =
      (s.writeMem va data).1.psnTaken n ((s.qp n).packets data.length) (ackOut n (psn + (s.qp n).packets data.length)) := by
  unfold State.rdmaWriteRx
  rw [State.inOrder_ready hn h, if_pos hp, if_neg (Nat.not_lt.mpr hlen), State.regionOk_eq hs hr]
  dsimp only
  rw [if_pos rfl, hg]
  dsimp only
  rw [if_neg Bool.false_ne_true, State.writeMem_sound data hs.1 hs.2]
  dsimp only
  exact State.ackTo_loud hl.poke (by rw [State.poke_bells]; exact hb) _ _

theorem State.rdmaReadRx_reads (hl : Loud s) (hn : n < 4096) (h : (s.qp n).state = 1) (hp : psn = (s.qp n).rqPsn) (hs : SoundMemory s)
    (hb : s.bells = []) (hr : (s.regionOk rkey va len 2).2 = true) (hlen : len ≤ 2 ^ 31) : s.rdmaReadRx n psn rkey va len false =
      s.psnTaken n ((s.qp n).packets len) (roceOut n 2 psn 0 (s.peek va len)) := by
  unfold State.rdmaReadRx
  rw [State.inOrder_ready hn h, if_pos hp, if_neg (Nat.not_lt.mpr hlen), State.regionOk_eq hs hr]
  dsimp only
  rw [if_pos rfl, State.readMem_sound hs]
  dsimp only
  rw [if_neg Bool.false_ne_true]
  exact State.ackTo_loud hl hb _ _

theorem State.rdmaReadRx_barred (hl : Loud s) (hn : n < 4096) (h : (s.qp n).state = 1) (hp : psn = (s.qp n).rqPsn) (hs : SoundMemory s)
    (hr : (s.regionOk rkey va len 2).2 = false) (hlen : len ≤ 2 ^ 31) : s.rdmaReadRx n psn rkey va len false =
      (s.count R.HOSTP_ROCE_CNT F.HOSTP_ROCE_CNT_NAK_ACCESS 1).sentHost (roceOut n 4 psn nakAccess []) := by
  unfold State.rdmaReadRx
  rw [State.inOrder_ready hn h, if_pos hp, if_neg (Nat.not_lt.mpr hlen), State.regionOk_eq hs hr]
  dsimp only
  rw [if_neg Bool.false_ne_true]
  exact State.nak_access hl

theorem State.sendRx_invalid (hl : Loud s) (hn : n < 4096) (h : (s.qp n).state = 1) (hp : psn = (s.qp n).rqPsn)
    (hi : (s.qp n).at 48 8 = 0 ∨ 4088 < data.length) : s.sendRx n psn data false = s.sentHost (roceOut n 4 psn nakInvalid []) := by
  unfold State.sendRx
  rw [State.inOrder_ready hn h, if_pos hp]
  dsimp only
  rw [if_pos hi]
  exact State.nak_invalid hl

/-- The state with a SEND in its slot a: the data, its length, and the count of SENDs. -/
def State.sendStored (s : State) (a : Nat) (data : List Byte) (sends : Nat) : State :=
  (((s.writeMem a data).1.writeMem (a + 4088) (leBytes data.length 4)).1.writeMem (a + 4092) (leBytes (sends + 1) 4)).1

/-- A SEND counted on its queue pair. -/
def State.sendCounted (s : State) (n sends : Nat) : State := s.setQp n { s.qp n with sends := (sends + 1) % 2 ^ 32 }

end Rdma

section Send
variable {s : State} {n psn a : Nat} {data : List Byte}

/-- What a poke of memory leaves alone. -/
structure PokeFrame (s t : State) : Prop where
  rest : t = { s with mem := t.mem }

theorem PokeFrame.refl : PokeFrame s s := ⟨rfl⟩

theorem PokeFrame.writeMem {t : State} (f : PokeFrame s t) (h : SoundMemory s) (b : List Byte) : PokeFrame s (t.writeMem a b).1 := by
  have sound : t.altered = [] ∧ t.held = [] := by
    rw [f.rest]
    exact h
  rw [State.writeMem_sound b sound.1 sound.2]
  refine ⟨?_⟩
  rw [f.rest]
  rfl

theorem PokeFrame.sound {t : State} (f : PokeFrame s t) (h : SoundMemory s) : SoundMemory t := by
  rw [f.rest]
  exact h

theorem State.sendStored_frame (h : SoundMemory s) (sends : Nat) : PokeFrame s (s.sendStored a data sends) :=
  ((PokeFrame.refl.writeMem h _).writeMem h _).writeMem h _

theorem length_leBytes (x k : Nat) : (leBytes x k).length = k := by
  rw [leBytes, List.length_map, List.length_range]

theorem keysOf_sub {b m i : Nat} {k : Nat} (hk : k ∉ keysOf b m) (j : Nat) (hj : j + i ≤ m) : k ∉ keysOf (b + j) i := fun h => by
  obtain ⟨x, hx, rfl⟩ := List.mem_map.mp h
  have hx := List.mem_range.mp hx
  exact hk (List.mem_map.mpr ⟨j + x, List.mem_range.mpr (by omega), by rw [Nat.add_assoc]⟩)

theorem State.sendStored_other (h : SoundMemory s) (sends : Nat) {k : Nat} (hk : k ∉ keysOf a data.length) (hk' : k ∉ keysOf (a + 4088) 8) :
    memByte (s.sendStored a data sends).mem k = memByte s.mem k := by
  have first := PokeFrame.refl.writeMem (a := a) h data
  have second := first.writeMem (a := a + 4088) h (leBytes data.length 4)
  unfold State.sendStored
  rw [State.memByte_writeMem_other (second.sound h) _ (by rw [length_leBytes]; exact keysOf_sub hk' 4 (by decide)),
    State.memByte_writeMem_other (first.sound h) _ (by rw [length_leBytes]; exact keysOf_sub hk' 0 (by decide)),
    State.memByte_writeMem_other h _ hk]

theorem Loud.poked {t : State} (h : Loud s) (f : PokeFrame s t) : Loud t := h.of_regs fun a _ => by rw [f.rest]; rfl

theorem State.sendRx_stores (hl : Loud s) (hn : n < 4096) (h : (s.qp n).state = 1) (hp : psn = (s.qp n).rqPsn) (hs : SoundMemory s)
    (hb : s.bells = []) (hbase : (s.qp n).at 48 8 ≠ 0) (hlen : data.length ≤ 4088) (hown : s.isOwn ((s.qp n).at 48 8) = true)
    (hown' : s.isOwn ((s.qp n).at 56 8) = true) (hmap : s.mappedRange (gaLocal ((s.qp n).at 56 8)) 4 = true)
    (ha : a = gaLocal ((s.qp n).at 48 8) + 4096 * ((s.qp n).sends % 2 ^ ((s.qp n).at 47 1)))
    (hroom : ((s.qp n).sends + 2 ^ 32 - ofLe (s.peek (gaLocal ((s.qp n).at 56 8)) 4)) % 2 ^ 32 < 2 ^ ((s.qp n).at 47 1))
    (hmap' : s.mappedRange a 4096 = true) (hg : s.guardWrite a 4096 = (false, s)) : s.sendRx n psn data false =
      ((s.sendStored a data (s.qp n).sends).sendCounted n (s.qp n).sends).psnTaken n ((s.qp n).packets data.length)
        (ackOut n (psn + (s.qp n).packets data.length)) := by
  subst ha
  unfold State.sendRx
  rw [State.inOrder_ready hn h, if_pos hp]
  dsimp only
  rw [if_neg (fun h => h.elim hbase (Nat.not_lt.mpr hlen)), if_neg (by rw [hown, hown', hmap]; decide), State.readMem_sound hs]
  dsimp only
  rw [if_neg Bool.false_ne_true, if_neg (Nat.not_le.mpr hroom), if_neg (by
    rw [hmap', hg]
    rintro (h | h)
    · exact Bool.noConfusion h
    · exact Bool.noConfusion h)]
  have frame := s.sendStored_frame (a := gaLocal ((s.qp n).at 48 8) + 4096 * ((s.qp n).sends % 2 ^ ((s.qp n).at 47 1))) (data := data) hs
    (s.qp n).sends
  have loud := (hl.poked frame).setQp (n := n) (x := { (s.sendStored (gaLocal ((s.qp n).at 48 8) + 4096 * ((s.qp n).sends %
    2 ^ ((s.qp n).at 47 1))) data (s.qp n).sends).qp n with sends := ((s.qp n).sends + 1) % 2 ^ 32 })
  have bells : (s.sendStored (gaLocal ((s.qp n).at 48 8) + 4096 * ((s.qp n).sends % 2 ^ ((s.qp n).at 47 1))) data (s.qp n).sends).bells =
      [] := by
    rw [frame.rest]
    exact hb
  unfold State.sendCounted
  unfold State.sendStored at loud bells ⊢
  exact State.ackTo_loud loud bells _ _

end Send

/-! ### The requester, and queue pairs (R392, R393) -/

section Requester
variable {s : State} {n psn : Nat}

theorem State.roceAck_spec (hn : n < 4096) (h : (s.qp n).state = 1) :
    ((s.roceAck n psn false).qp n).unacked = (s.qp n).unacked.filter (fun m => !(psnLe ((m.psn + m.count - 1) % 2 ^ 24) psn)) ∧
      SameRegsBut [] s (s.roceAck n psn false) ∧ SameMemory s (s.roceAck n psn false) := by
  have cases' (c : Prop) [Decidable c] (l : List RoceTx) (hc : ¬ c → l = (s.qp n).unacked) (t : State)
      (ht : t = if c then s.setQp n { s.qp n with unacked := l, tries := 0, sentAt := s.now } else s) :
      (t.qp n).unacked = l ∧ SameRegsBut [] s t ∧ SameMemory s t := by
    subst ht
    split
    · exact ⟨by rw [State.qp_setQp], .setQp, .setQp⟩
    · next h => exact ⟨(hc h).symm, .refl _ _, .refl _⟩
  refine cases' (((s.qp n).unacked.filter (fun m => !(psnLe ((m.psn + m.count - 1) % 2 ^ 24) psn))).length < (s.qp n).unacked.length) _
    (fun hlen => List.filter_eq_self.mpr fun m hm => ?_) _ ?_
  · exact (List.length_filter_eq_length_iff.mp (Nat.le_antisymm (List.length_filter_le _ _) (Nat.not_lt.mp hlen))) m hm
  · unfold State.roceAck
    dsimp only
    rw [if_neg (fun g => g.elim (fun g => absurd g (Nat.not_le.mpr hn)) fun g => g h)]
    rfl

theorem State.roceAck_idle (h : (s.qp n).state ≠ 1) (nak : Bool) : s.roceAck n psn nak = s := if_pos (.inr h)

theorem State.cnpRx_spec (hn : n < 4096) (h : (s.qp n).state = 1) :
    ((s.cnpRx n).qp n).rate = (if (s.qp n).cutAt = 0 ∨ (s.qp n).cutAt + 50 * usTicks ≤ s.now + 1 then (s.qp n).rate / 2 else (s.qp n).rate) ∧
      (s.cnpRx n).fld R.HOSTP_ROCE_CNT F.HOSTP_ROCE_CNT_CNP_RX = min (s.fld R.HOSTP_ROCE_CNT F.HOSTP_ROCE_CNT_CNP_RX + 1) 65535 ∧
      SameRegsBut [R.HOSTP_ROCE_CNT] s (s.cnpRx n) ∧ SameMemory s (s.cnpRx n) := by
  have counted := s.fld_count_same R.HOSTP_ROCE_CNT F.HOSTP_ROCE_CNT_CNP_RX 1 (by decide)
  have regs : SameRegsBut [R.HOSTP_ROCE_CNT] s (s.count R.HOSTP_ROCE_CNT F.HOSTP_ROCE_CNT_CNP_RX 1) := .count _ _ _ (List.mem_singleton.mpr rfl)
  have mem : SameMemory s (s.count R.HOSTP_ROCE_CNT F.HOSTP_ROCE_CNT_CNP_RX 1) := .count _ _ _ _
  have now := s.count_now R.HOSTP_ROCE_CNT F.HOSTP_ROCE_CNT_CNP_RX 1
  unfold State.cnpRx
  dsimp only
  rw [if_neg (fun g => g.elim (fun g => absurd g (Nat.not_le.mpr hn)) fun g => g h), now]
  generalize s.count R.HOSTP_ROCE_CNT F.HOSTP_ROCE_CNT_CNP_RX 1 = t at counted regs mem
  by_cases hc : (s.qp n).cutAt = 0 ∨ (s.qp n).cutAt + 50 * usTicks ≤ s.now + 1
  · rw [if_pos hc, if_pos hc]
    exact ⟨by rw [State.qp_setQp], counted, regs.step .setQp, mem.step .setQp⟩
  · rw [if_neg hc, if_neg hc]
    exact ⟨by rw [State.qp_setQp], counted, regs.step .setQp, mem.step .setQp⟩

/-- The state without held doorbells of a queue pair. -/
def State.bellsDropped (s : State) (n : Nat) : State := { s with bells := s.bells.filter (fun b => b.qpn != n) }

theorem State.dropBells_none (h : s.bells = []) : s.dropBells n = s.bellsDropped n := by
  unfold State.dropBells State.bellsDropped
  dsimp only
  rw [h]
  rfl

theorem SameRegsBut.bellsDropped {l : List Nat} : SameRegsBut l s (s.bellsDropped n) := .of_eq rfl rfl

theorem SameMemory.bellsDropped : SameMemory s (s.bellsDropped n) := .of_eq rfl rfl

theorem State.goBack_error (hu : (s.qp n).unacked ≠ []) (ht : (s.qp n).at 44 1 % 8 ≤ (s.qp n).tries) (hb : s.bells = []) :
    s.goBack n = (s.setQp n { s.qp n with state := 2, unacked := [] }).bellsDropped n := by
  unfold State.goBack
  dsimp only
  rw [if_neg (by rw [List.isEmpty_iff]; exact hu), if_pos ht]
  exact State.dropBells_none hb

theorem State.qps_leaveLockstep : s.leaveLockstep.qps = s.qps := by
  have f := s.pairChange_frame (x := psBroken)
  unfold State.leaveLockstep
  rw [f.rest]

theorem State.qps_hostOut (o : Out) : (s.hostOut o).qps = s.qps := by
  unfold State.hostOut
  dsimp only
  split
  · split
    · exact State.qps_leaveLockstep
    · rfl
  · split
    · rfl
    · rfl

theorem State.goBack_retry (hu : (s.qp n).unacked ≠ []) (ht : (s.qp n).tries < (s.qp n).at 44 1 % 8) :
    (s.goBack n).qp n = { s.qp n with tries := (s.qp n).tries + 1, sentAt := s.now } := by
  have sent (l : List RoceTx) (t : State) : (l.foldl (fun s m => (s.count R.HOSTP_ROCE_CNT F.HOSTP_ROCE_CNT_RETRANSMIT m.count).hostOut
      { kind := .roce, nums := [n, 1, m.psn, m.rkey, m.va], bytes := m.bytes }) t).qps = t.qps :=
    List.foldlRecOn (motive := fun u : State => u.qps = t.qps) _ _ rfl fun u hu m _ => by
      rw [State.qps_hostOut, State.count_qps, hu]
  unfold State.goBack
  dsimp only
  rw [if_neg (by rw [List.isEmpty_iff]; exact hu), if_neg (Nat.not_le.mpr ht), State.qp, sent]
  exact State.qp_setQp n _

theorem qpctl_get {op : Nat} (hn : n < 2 ^ 12) (ho : op < 4) : F.HOSTP_QPCTL_QPN.get (BitVec.ofNat 64 (n + op * 2 ^ 16)) = n ∧
    F.HOSTP_QPCTL_OP.get (BitVec.ofNat 64 (n + op * 2 ^ 16)) = op := by
  have small : n + op * 2 ^ 16 < 2 ^ 64 := by omega
  unfold Field.get bitsOf F.HOSTP_QPCTL_QPN F.HOSTP_QPCTL_OP
  rw [BitVec.toNat_ofNat, Nat.mod_eq_of_lt small]
  dsimp only
  rw [Nat.shiftRight_zero, Nat.shiftRight_eq_div_pow]
  constructor
  · omega
  · omega

/-- HOSTP_QPCTL names an operation and its queue pair. -/
def State.qpNamed (s : State) (n op : Nat) : State := (s.setFld R.HOSTP_QPCTL F.HOSTP_QPCTL_OP op).setFld R.HOSTP_QPCTL F.HOSTP_QPCTL_QPN n

theorem State.qpNamed_spec {op : Nat} (hn : n < 2 ^ 12) : (s.qpNamed n op).fld R.HOSTP_QPCTL F.HOSTP_QPCTL_QPN = n ∧
    SameRegsBut [R.HOSTP_QPCTL] s (s.qpNamed n op) ∧ SameMemory s (s.qpNamed n op) ∧ (s.qpNamed n op).bells = s.bells ∧
    (s.qpNamed n op).powered = s.powered ∧ (SoundMemory s → SoundMemory (s.qpNamed n op)) := by
  have mem : SameMemory s (s.qpNamed n op) := SameMemory.step (.setFld _ _ _ _) (.setFld _ _ _ _)
  refine ⟨State.fld_setFld_same _ _ _ _ (by decide) hn,
    SameRegsBut.step (.setFld _ _ _ (List.mem_singleton.mpr rfl)) (.setFld _ _ _ (List.mem_singleton.mpr rfl)), mem, ?_, ?_, fun h => ⟨?_, ?_⟩⟩
  · rw [State.qpNamed, State.setFld_bells, State.setFld_bells]
  · rw [State.qpNamed, State.setFld_powered, State.setFld_powered]
  · rw [State.qpNamed, State.setFld_altered, State.setFld_altered]
    exact h.1
  · rw [State.qpNamed, State.setFld_held, State.setFld_held]
    exact h.2

theorem State.qpctlWrite_load (hn : n < 2 ^ 12) : s.qpctlWrite (BitVec.ofNat 64 (n + 2 ^ 16)) = (s.qpNamed n 1).qpLoad n := by
  obtain ⟨qpn, op⟩ := qpctl_get (op := 1) hn (by decide)
  rw [Nat.one_mul] at qpn op
  unfold State.qpctlWrite
  dsimp only
  rw [qpn, op]
  rfl

theorem State.qpctlWrite_reset (hn : n < 2 ^ 12) : s.qpctlWrite (BitVec.ofNat 64 (n + 2 ^ 17)) =
    ((s.qpNamed n 2).qpReset n).setFld R.HOSTP_QPCTL F.HOSTP_QPCTL_STATUS stDone := by
  obtain ⟨qpn, op⟩ := qpctl_get (op := 2) hn (by decide)
  rw [show 2 * 2 ^ 16 = 2 ^ 17 by decide] at qpn op
  unfold State.qpctlWrite
  dsimp only
  rw [qpn, op]
  rfl

theorem State.qpReset_spec (h : s.bells = []) : (s.qpReset n).qp n = Qp.reset ∧ SameRegsBut [] s (s.qpReset n) ∧ SameMemory s (s.qpReset n) ∧
    (SoundMemory s → SoundMemory (s.qpReset n)) := by
  unfold State.qpReset
  rw [State.dropBells_none (s := s.setQp n Qp.reset) h]
  exact ⟨show (s.setQp n Qp.reset).qp n = Qp.reset from State.qp_setQp _ _, SameRegsBut.setQp.step .bellsDropped, SameMemory.setQp.step .bellsDropped, fun h => h⟩

/-- The status of an operation on a queue pair. -/
def State.qpStatus (s : State) (st : Nat) : State := s.setFld R.HOSTP_QPCTL F.HOSTP_QPCTL_STATUS st

/-- A queue pair ready to be loaded: in RESET. -/
def State.qpCleared (s : State) (n : Nat) : State := if (s.qp n).state = 0 then s else s.qpReset n

/-- The registers that decide what memory serves. -/
def servingRegs : List Nat := [R.ID_STATE, R.ID_UNITS, R.PWR_DOM_STAT, R.PWR_DOM_CLOSING]

theorem State.mappedRange_same {t : State} {l : List Nat} (h : SameRegsBut l s t) (hp : t.powered = s.powered)
    (hl : ∀ a ∈ servingRegs, a ∉ l) (a k : Nat) : t.mappedRange a k = s.mappedRange a k := by
  have fld {b : Nat} (f : Field) (hb : b ∈ servingRegs) : t.fld b f = s.fld b f := h.fld f (hl b hb)
  have mode : t.mode = s.mode := fld _ (by decide)
  have inService (f : Field) (i : Nat) : t.bit R.ID_UNITS f i = s.bit R.ID_UNITS f i := by
    rw [State.bit, fld _ (by decide), State.bit]
  have domUp (i : Nat) : t.domUp i = s.domUp i := by
    rw [State.domUp, State.bit, State.bit, fld _ (by decide), fld _ (by decide), State.domUp, State.bit, State.bit]
  have keyUp (x : Nat) : t.keyUp x = s.keyUp x := by
    simp only [State.keyUp, State.stackUp, mode, inService, domUp, hp]
  have byte (x : Nat) : t.mappedByte x = s.mappedByte x := by
    simp only [State.mappedByte, keyUp]
  simp only [State.mappedRange, byte]

theorem State.qpCleared_spec (h : s.bells = []) : SameRegsBut [] s (s.qpCleared n) ∧ SameMemory s (s.qpCleared n) ∧
    (s.qpCleared n).powered = s.powered ∧ (SoundMemory s → SoundMemory (s.qpCleared n)) := by
  obtain ⟨-, regs, mem, sound⟩ := s.qpReset_spec (n := n) h
  unfold State.qpCleared
  split
  · exact ⟨.refl _ _, .refl _, rfl, id⟩
  · refine ⟨regs, mem, ?_, sound⟩
    unfold State.qpReset
    rw [State.dropBells_none (s := s.setQp n Qp.reset) h]
    rfl

theorem State.qpLoad_beyond (h : (s.qpCleared n).fld R.HOSTP_QPC F.HOSTP_QPC_COUNT ≤ n) :
    s.qpLoad n = (s.qpCleared n).qpStatus stDescriptor := if_pos h

/-- A queue pair with a context loaded. -/
def State.qpReady (s : State) (n : Nat) (b : List Byte) : State :=
  s.setQp n { Qp.reset with state := 1, ctx := b, rqPsn := leField b 12 3, sqPsn := leField b 16 3, rate := lineRate }

theorem State.qpLoad_done {a : Nat} (h : n < (s.qpCleared n).fld R.HOSTP_QPC F.HOSTP_QPC_COUNT)
    (ha : (s.qpCleared n).fld R.HOSTP_QPC F.HOSTP_QPC_BASE + 64 * n = a) (hm : (s.qpCleared n).mappedRange a 64 = true)
    (hs : SoundMemory (s.qpCleared n)) (hc : qpCtxOk ((s.qpCleared n).peek a 64) = true) :
    s.qpLoad n = ((s.qpCleared n).qpReady n ((s.qpCleared n).peek a 64)).qpStatus stDone := by
  unfold State.qpLoad
  extract_lets t addr fin
  have ht : t = s.qpCleared n := rfl
  clear_value t
  subst ht
  have haddr : addr = a := ha
  clear_value addr
  subst haddr
  rw [if_neg (Nat.not_le.mpr h), if_neg (by rw [hm]; exact Bool.noConfusion), State.readMem_sound hs]
  dsimp only
  rw [if_neg Bool.false_ne_true, if_neg (by rw [hc]; exact Bool.noConfusion)]
  rfl

end Requester

/-! ### TCT messages (R398 to R401) -/

section Tct
variable {s : State} {m : TctHead} {ty : Nat} {p : List Byte}

theorem exec_of_tctMessage {i : Instr} (hi : tctMessage i = some (m, ty, p)) : exec i s = s.whenServing (s.tctRow m ty p) := by
  unfold tctMessage at hi
  split at hi
  case h_7 => cases hi
  all_goals
    obtain ⟨rfl, rfl, rfl⟩ := by simpa only [Option.some.injEq, Prod.mk.injEq] using hi
    rfl

/-- The message that a row is, as the module takes it. -/
def tctMsg (m : TctHead) (ty : Nat) (p : List Byte) : TctMsg := ⟨m.src, m.session, m.key, m.seq, BitVec.ofNat 8 ty, p⟩

theorem State.tctRow_down (h : s.hostUp = false) : s.tctRow m ty p = s := if_pos h

theorem State.tctRow_silent (h : s.hostUp = true) (hs : s.fld R.HOSTP_STAT F.HOSTP_STAT_SILENT = 1) :
    s.tctRow m ty p = s.count R.PEND_CNT F.PEND_CNT_BACK_DROP 1 := (if_neg (by rw [h]; exact Bool.noConfusion)).trans (if_pos hs)

theorem State.tctRow_bad (h : HostServes s) (hb : s.keyLoaded m.key.val = false ∨ tctLenOk ty p.length = false) :
    s.tctRow m ty p = s.count R.HOSTP_TCT_CNT F.HOSTP_TCT_CNT_TAG_BAD 1 := by
  unfold State.tctRow
  rw [if_neg (by rw [h.up]; exact Bool.noConfusion), if_neg h.loud, if_pos hb]

theorem State.tctRow_acts (h : HostServes s) (hk : s.keyLoaded m.key.val = true) (hl : tctLenOk ty p.length = true) :
    s.tctRow m ty p = s.tctExec (tctMsg m ty p) := by
  unfold State.tctRow
  rw [if_neg (by rw [h.up]; exact Bool.noConfusion), if_neg h.loud, if_neg (by rw [hk, hl]; decide)]
  exact State.ingress_alone h.alone _

/-- The session of a message whose SEQ is new. -/
def State.seqTaken (s : State) (m : TctHead) : State := s.setSession m.session.val
  ⟨m.seq.toNat, (m.seq.toNat, none) :: (s.session m.session.val).seen.filter (fun r => decide (m.seq.toNat < r.1 + 64)), m.src.toNat, m.key.val⟩

theorem State.tctExec_new (h : (s.session m.session.val).high < m.seq.toNat) :
    s.tctExec (tctMsg m ty p) = (s.seqTaken m).tctAct (tctMsg m ty p) := if_pos h

theorem State.tctExec_unknown (h : m.seq.toNat ≤ (s.session m.session.val).high)
    (hf : (s.session m.session.val).seen.find? (fun r => r.1 == m.seq.toNat) = none) :
    s.tctExec (tctMsg m ty p) = s.count R.HOSTP_TCT_CNT F.HOSTP_TCT_CNT_REPLAY 1 := by
  unfold State.tctExec tctMsg
  dsimp only
  rw [if_neg (Nat.not_lt.mpr h), hf]

theorem State.tctExec_again {b : Byte} {r : List Byte} (h : m.seq.toNat ≤ (s.session m.session.val).high)
    (hf : (s.session m.session.val).seen.find? (fun r => r.1 == m.seq.toNat) = some (m.seq.toNat, some (b :: r))) :
    s.tctExec (tctMsg m ty p) = s.tctSend m.session.val m.key.val m.seq.toNat (BitVec.ofNat 8 ty).toNat (b :: r) := by
  unfold State.tctExec tctMsg
  dsimp only
  rw [if_neg (Nat.not_lt.mpr h), hf]

theorem State.tctSend_loud (h : Loud s) {i k q t : Nat} (hk : s.keyLoaded k = true) (b : List Byte) :
    ∃ o, s.tctSend i k q t b = s.sentHost o := by
  unfold State.tctSend
  rw [if_neg (by rw [hk]; exact Bool.noConfusion)]
  exact ⟨_, h.hostOut⟩

/-- The session of an answered request. -/
def State.answerKept (s : State) (i q : Nat) (b : List Byte) : State :=
  s.setSession i { s.session i with seen := (s.session i).seen.map (fun r => if r.1 = q then (q, some b) else r) }

theorem State.tctRespond_loud (h : Loud s) {i k q t st : Nat} (hk : s.keyLoaded k = true) (b : List Byte) :
    ∃ o, s.tctRespond i k q t st b = (s.answerKept i q (BitVec.ofNat 8 st :: b)).sentHost o :=
  State.tctSend_loud (s := s.answerKept i q (BitVec.ofNat 8 st :: b)) (h.of_regs fun _ _ => rfl) hk _

theorem State.answerKept_kept (i q : Nat) (b : List Byte) : SameRegsBut [] s (s.answerKept i q b) ∧ SameMemory s (s.answerKept i q b) ∧
    (s.answerKept i q b).mem = s.mem ∧ (s.answerKept i q b).out = s.out := ⟨.of_eq rfl rfl, .of_eq rfl rfl, rfl, rfl⟩

theorem State.session_setSession (i : Nat) (x : TctSession) : (s.setSession i x).session i = x := sparseGet_set_same _ _ _ _

theorem State.seen_answered (b : List Byte) : (((s.seqTaken m).answerKept m.session.val m.seq.toNat b).session m.session.val).seen.find?
    (fun r => r.1 == m.seq.toNat) = some (m.seq.toNat, some b) := by
  unfold State.answerKept State.seqTaken
  rw [State.session_setSession, State.session_setSession]
  dsimp only
  rw [List.map_cons, if_pos rfl]
  exact List.find?_cons_of_pos (beq_self_eq_true _)

theorem State.tctAct_refused (ht : ty = tctRegRd ∨ ty = tctRegWr) (hk : s.keyPriv m.key.val = false) : s.tctAct (tctMsg m ty p) =
    (s.count R.HOSTP_TCT_CNT F.HOSTP_TCT_CNT_REFUSED 1).tctRespond m.session.val m.key.val m.seq.toNat (BitVec.ofNat 8 ty).toNat
      stDescriptor [] := by
  have small : (BitVec.ofNat 8 ty).toNat = ty := by
    rcases ht with rfl | rfl
    · rfl
    · rfl
  unfold State.tctAct tctMsg
  dsimp only
  rw [if_pos ⟨by rw [small]; exact ht, hk⟩]

theorem ofLe_leBytes {v k : Nat} (h : v < 2 ^ (8 * k)) : ofLe (leBytes v k) = v := by
  refine Nat.eq_of_testBit_eq fun j => ?_
  rw [testBit_ofLe]
  by_cases hj : j / 8 < k
  · have byte : (leBytes v k).getD (j / 8) 0 = byteN v (j / 8) := by
      rw [leBytes, List.getD_eq_getElem?_getD, List.getElem?_map, List.getElem?_range hj]
      rfl
    rw [byte, testBit_byteN _ _ (Nat.mod_lt _ (by decide)), Nat.div_add_mod]
  · have out : (leBytes v k).getD (j / 8) 0 = 0 := by
      rw [List.getD_eq_getElem?_getD, List.getElem?_eq_none (by rw [length_leBytes]; omega)]
      rfl
    have high : v < 2 ^ j := Nat.lt_of_lt_of_le h (Nat.pow_le_pow_right (by decide) (by omega))
    rw [out, Nat.testBit_lt_two_pow high]
    exact Nat.zero_testBit _

theorem leField_leBytes8 (v : BitVec 64) (r : List Byte) : leField (leBytes v.toNat 8 ++ r) 0 8 = v.toNat := by
  rw [leField, List.drop_zero, List.take_left' (length_leBytes _ 8), ofLe_leBytes v.isLt]

theorem leField_after8 (v : BitVec 64) (n : BitVec 32) : leField (leBytes v.toNat 8 ++ leBytes n.toNat 4) 8 4 = n.toNat := by
  rw [leField, List.drop_left' (length_leBytes _ 8), List.take_of_length_le (Nat.le_of_eq (length_leBytes _ 4)), ofLe_leBytes n.isLt]

theorem drop_leBytes8 (v : Nat) (d : List Byte) : (leBytes v 8 ++ d).drop 8 = d := List.drop_left' (length_leBytes v 8)

theorem State.tctAct_read {a : BitVec 64} {n : BitVec 32} (hs : SoundMemory s) (h1 : 1 ≤ n.toNat) (h2 : n.toNat ≤ 8192)
    (hm : s.mappedRange a.toNat n.toNat = true) : s.tctAct (tctMsg m tctMemRd (leBytes a.toNat 8 ++ leBytes n.toNat 4)) =
      s.tctRespond m.session.val m.key.val m.seq.toNat tctMemRd stDone (s.peek a.toNat n.toNat) := by
  unfold State.tctAct tctMsg
  dsimp only
  rw [leField_leBytes8, leField_after8, show (BitVec.ofNat 8 tctMemRd).toNat = tctMemRd from rfl,
    if_neg (by rintro ⟨h | h, -⟩ <;> exact absurd h (by decide)), if_neg (by decide), if_neg (by decide), if_pos rfl,
    if_neg (by omega), if_neg (by rw [hm]; exact Bool.noConfusion), State.readMem_sound hs]
  dsimp only
  rw [if_neg Bool.false_ne_true]

theorem State.tctAct_write {a : BitVec 64} {d : List Byte} (hs : SoundMemory s) (hm : s.mappedRange a.toNat d.length = true)
    (hg : s.guardWrite a.toNat d.length = (false, s)) : s.tctAct (tctMsg m tctMemWr (leBytes a.toNat 8 ++ d)) =
      (s.writeMem a.toNat d).1.tctRespond m.session.val m.key.val m.seq.toNat tctMemWr stDone [] := by
  unfold State.tctAct tctMsg
  dsimp only
  rw [leField_leBytes8, drop_leBytes8, show (BitVec.ofNat 8 tctMemWr).toNat = tctMemWr from rfl,
    if_neg (by rintro ⟨h | h, -⟩ <;> exact absurd h (by decide)), if_neg (by decide), if_neg (by decide), if_neg (by decide), if_pos rfl,
    if_neg (by rw [hm]; exact Bool.noConfusion), hg]
  dsimp only
  rw [State.writeMem_sound d hs.1 hs.2]

theorem State.guardWrite_of_regs {t : State} {a n : Nat} (hr : t.regs = s.regs) (h : s.guardWrite a n = (false, s)) :
    t.guardWrite a n = (false, t) := by
  obtain ⟨he, hp⟩ := guardWrite_free h
  have fld (a : Nat) (f : Field) : t.fld a f = s.fld a f := by rw [State.fld, State.reg, hr, State.fld, State.reg]
  have eval : t.evalRefuses [(a, n)] = s.evalRefuses [(a, n)] := by
    simp only [State.evalRefuses, fld]
  have areas : t.pendAreas = s.pendAreas := by
    unfold State.pendAreas State.shadow State.gibRange
    rw [fld, fld, fld, fld, fld]
  rw [State.guardWrite, eval, he, areas, hp]
  rfl

/-- A row whose answer goes out leaves the counters' register and memory. -/
theorem State.tctRespond_spec (h : Loud s) {i k q t st : Nat} (hk : s.keyLoaded k = true) (b : List Byte) :
    SameRegsBut [] s (s.tctRespond i k q t st b) ∧ SameMemory s (s.tctRespond i k q t st b) ∧
      (s.tctRespond i k q t st b).mem = s.mem ∧ (s.tctRespond i k q t st b).out.length = s.out.length + 1 ∧
      (s.tctRespond i k q t st b).sessions = (s.answerKept i q (BitVec.ofNat 8 st :: b)).sessions := by
  obtain ⟨o, e⟩ := State.tctRespond_loud (i := i) (q := q) (t := t) (st := st) h hk b
  rw [e]
  exact ⟨.of_eq rfl rfl, .of_eq rfl rfl, rfl, rfl, rfl⟩

theorem State.keyLoaded_of_regs {t : State} {l : List Nat} (h : SameRegsBut l s t) (hl : R.HOSTP_KEYSTAT ∉ l) (k : Nat) :
    t.keyLoaded k = s.keyLoaded k := by
  rw [State.keyLoaded, State.bit, h.fld _ hl, State.keyLoaded, State.bit]

/-- Events go out again, each one counted. -/
theorem State.foldl_resend (l : List HostEvent) :
    (l.foldl (fun s e => (s.count R.HOSTP_EVT_CNT F.HOSTP_EVT_CNT_RESENT 1).emit
      { kind := .event, nums := [e.seq, 1, s.fld R.HOSTP_EVT F.HOSTP_EVT_SESSION], bytes := e.payload }) s).out.length =
      s.out.length + l.length ∧
    (l.foldl (fun s e => (s.count R.HOSTP_EVT_CNT F.HOSTP_EVT_CNT_RESENT 1).emit
      { kind := .event, nums := [e.seq, 1, s.fld R.HOSTP_EVT F.HOSTP_EVT_SESSION], bytes := e.payload }) s).events = s.events ∧
    SameRegsBut [R.HOSTP_EVT_CNT] s (l.foldl (fun s e => (s.count R.HOSTP_EVT_CNT F.HOSTP_EVT_CNT_RESENT 1).emit
      { kind := .event, nums := [e.seq, 1, s.fld R.HOSTP_EVT F.HOSTP_EVT_SESSION], bytes := e.payload }) s) ∧
    SameMemory s (l.foldl (fun s e => (s.count R.HOSTP_EVT_CNT F.HOSTP_EVT_CNT_RESENT 1).emit
      { kind := .event, nums := [e.seq, 1, s.fld R.HOSTP_EVT F.HOSTP_EVT_SESSION], bytes := e.payload }) s) := by
  induction l generalizing s with
  | nil => exact ⟨rfl, rfl, .refl _ _, .refl _⟩
  | cons e l ih =>
    rw [List.foldl_cons]
    obtain ⟨len, events, regs, mem⟩ := ih (s := (s.count R.HOSTP_EVT_CNT F.HOSTP_EVT_CNT_RESENT 1).emit
      { kind := .event, nums := [e.seq, 1, s.fld R.HOSTP_EVT F.HOSTP_EVT_SESSION], bytes := e.payload })
    refine ⟨?_, ?_, (SameRegsBut.step (.count _ _ _ (List.mem_singleton.mpr rfl)) (.emit _ _)).step regs,
      (SameMemory.step (.count _ _ _ _) (.emit _ _)).step mem⟩
    · rw [len, State.length_out_emit, State.count_out, List.length_cons]
      omega
    · rw [events, State.emit_events, State.count_events]

end Tct

/-- Settles O57. -/
theorem hostPort : Obligations.HostPort := by
  refine ⟨fun s hm => ⟨fun h => State.whenMain_eq hm (if_neg ?_), fun hd hl => ?_, fun h => State.whenMain_eq hm (if_neg h), fun h hmir => ?_⟩,
    fun size fcs tag f s hpow => ?_, fun qp psn rkey va data len ce nak s hs => ⟨fun i hi => ?_, fun h hn => ?_⟩, fun qp s hm => ?_,
    fun qp s hm => ?_, fun i m ty p s hi hs => ?_, fun m a n s h hk hq hsound h1 h2 hmap => ?_,
    fun m a d s h hk hq hsound h1 h2 hmap hg => ?_, fun s hm => ⟨fun h => State.whenMain_eq hm (State.releaseBells_none h), fun b h => ⟨fun hf => ?_, fun hf => ?_⟩⟩,
    fun s hm => ⟨fun h => State.whenMain_eq hm (if_pos h), fun h => ?_⟩⟩
  · rintro ⟨hd, hl⟩
    exact h.elim (fun h => Bool.noConfusion (h.symm.trans hd)) fun h => h hl
  · have rate : (if s.mode = mFull ∨ s.mode = mDegraded ∨ s.mode = mDetaching then s.fld R.HOSTP_CFG F.HOSTP_CFG_RATE else 0) < 4 := by
      split
      · exact s.fld_lt _ F.HOSTP_CFG_RATE
      · decide
    obtain ⟨link, shown⟩ := s.linkTrained_spec rate
    exact ⟨_, State.whenMain_eq hm (if_pos ⟨hd, hl⟩), link, shown, State.linkTrained_sameRegs, State.linkTrained_sameMemory⟩
  · obtain ⟨link, mirror, regs, mem⟩ := s.hostTrain_spec
    exact ⟨_, State.whenMain_eq hm ((if_pos h).trans (State.faultHandover_single (mirror.trans hmir))), link, regs, mem⟩
  · have run {t : State} (h : (if s.hostUp = false then s else if s.serving then s.frameRx size.toNat fcs tag f
        else if s.recovering then s.frameRecovery size.toNat fcs tag f else s) = t) : exec (.hostFrameRx size fcs tag f) s = .next t := by
      rw [← h]
      exact State.alive_next _ hpow
    have taken (hu : s.hostUp = true) (hserve : s.serving = true) : exec (.hostFrameRx size fcs tag f) s =
        .next (s.frameRx size.toNat fcs tag f) := run ((if_neg (by rw [hu]; exact Bool.noConfusion)).trans (if_pos hserve))
    have drop {a : Nat} {x : Field} (hf : x.fits) (hx : 2 ^ x.width - 1 = 65535) (hu : s.hostUp = true) (hserve : s.serving = true)
        (h : s.frameRx size.toNat fcs tag f = s.count a x 1) : ∃ t, exec (.hostFrameRx size fcs tag f) s = .next t ∧
        t.fld a x = min (s.fld a x + 1) 65535 ∧ SameRegsBut [a] s t ∧ SameMemory s t :=
      ⟨_, (taken hu hserve).trans (congrArg Host.Outcome.next h), (s.fld_count_same a x 1 hf).trans (by rw [hx]),
        .count _ _ _ (List.mem_singleton.mpr rfl), .count _ _ _ _⟩
    refine ⟨fun h => run (if_pos h), fun hu hserve => ⟨fun hsil => ?_, fun hl hfcs => ?_, fun hl hfcs hsize => ?_, fun hl hfcs h64 h92 htag hf => ?_⟩,
      fun h hfcs h64 h92 htag b hf => ?_⟩
    · exact drop (by decide) (by decide) hu hserve (if_pos (beq_iff_eq.mpr (Decidable.not_not.mp hsil)))
    · exact drop (by decide) (by decide) hu hserve ((if_neg (by rw [beq_iff_eq]; exact hl)).trans (if_pos hfcs))
    · exact drop (by decide) (by decide) hu hserve ((if_neg (by rw [beq_iff_eq]; exact hl)).trans
        ((if_neg (by rw [hfcs]; exact Bool.noConfusion)).trans (if_pos hsize)))
    · subst htag hf
      exact drop (by decide) (by decide) hu hserve ((if_neg (by rw [beq_iff_eq]; exact hl)).trans
        ((if_neg (by rw [hfcs]; exact Bool.noConfusion)).trans ((if_neg (by omega)).trans rfl)))
    · subst htag hf
      have acts : s.frameRx size.toNat fcs none (.echo false b) = s.sentHost { kind := .host, nums := [1, b2n false], bytes := b } := by
        unfold State.frameRx
        dsimp only
        rw [if_neg (by rw [beq_iff_eq]; exact h.loud), if_neg (by rw [hfcs]; exact Bool.noConfusion), if_neg (by omega)]
        exact (State.ingress_alone h.alone _).trans h.isLoud.hostOut
      exact ⟨_, (taken h.up h.serving).trans (congrArg Host.Outcome.next acts), rfl, .sentHost, .sentHost⟩
  · have row : ∃ f, exec i s = s.whenServing (s.roceRow f) := by
      simp only [List.mem_cons, List.not_mem_nil, or_false] at hi
      rcases hi with rfl | rfl | rfl | rfl | rfl
      all_goals exact ⟨_, rfl⟩
    obtain ⟨f, row⟩ := row
    refine ⟨fun h => row.trans (State.whenServing_eq hs (State.roceRow_down h f)), fun h hsil => ?_⟩
    exact ⟨_, row.trans (State.whenServing_eq hs (State.roceRow_silent h hsil f)), s.fld_count_same _ _ _ (by decide),
      .count _ _ _ (List.mem_singleton.mpr rfl), .count _ _ _ _⟩
  · have loud := h.isLoud
    intro x
    have write : exec (.rdmaWrite qp psn rkey va data ce) s = .next (s.rdmaWriteRx qp.toNat psn.toNat rkey.toNat va.toNat data ce) :=
      State.whenServing_eq hs (State.roceRow_acts h _)
    have read : exec (.rdmaRead qp psn rkey va len ce) s = .next (s.rdmaReadRx qp.toNat psn.toNat rkey.toNat va.toNat len.toNat ce) :=
      State.whenServing_eq hs (State.roceRow_acts h _)
    have send : exec (.rdmaSend qp psn data ce) s = .next (s.sendRx qp.toNat psn.toNat data ce) :=
      State.whenServing_eq hs (State.roceRow_acts h _)
    have ack : exec (.roceAckRx qp psn nak) s = .next (s.roceAck qp.toNat psn.toNat nak) := State.whenServing_eq hs (State.roceRow_acts h _)
    refine ⟨fun hx => ⟨write.trans (congrArg _ (State.inOrder_idle hx ce)), read.trans (congrArg _ (State.inOrder_idle hx ce)),
      send.trans (congrArg _ (State.inOrder_idle hx ce)), ack.trans (congrArg _ (State.roceAck_idle hx nak))⟩, fun hx hce => ?_, fun hx hnak => ?_, fun hx => ?_⟩
    · subst hce
      refine ⟨fun i hi => ?_, fun hpsn hsound hb => ⟨fun hr hg hlen => ?_, fun hr hlen => ?_, fun hr hlen => ?_, fun hbad => ?_,
        fun hbase hlen hown hown' hmap => ?_⟩⟩
      · have row : ∃ g, exec i s = .next (s.inOrder qp.toNat psn.toNat false g) := by
          simp only [List.mem_cons, List.not_mem_nil, or_false] at hi
          rcases hi with rfl | rfl | rfl
          · exact ⟨_, write⟩
          · exact ⟨_, read⟩
          · exact ⟨_, send⟩
        obtain ⟨g, row⟩ := row
        rw [State.inOrder_ready hn hx] at row
        refine ⟨fun hne hle => ?_, fun hne hle => ?_⟩
        · rw [if_neg hne, if_pos hle, loud.hostOut] at row
          exact row
        · rw [if_neg hne, if_neg (by rw [hle]; exact Bool.noConfusion), State.nak_seq loud] at row
          obtain ⟨out, qps, regs, mem, fld⟩ := s.nakCounted_spec F.HOSTP_ROCE_CNT_SEQ_NAK (roceOut qp.toNat 4 (s.qp qp.toNat).rqPsn nakSeq [])
          exact ⟨_, row, out, fld.trans (s.fld_count_same _ _ _ (by decide)), qps, regs, mem⟩
      · rw [State.rdmaWriteRx_stores loud hn hx hpsn hsound hb hr hg hlen] at write
        have frame := PokeFrame.refl.writeMem (a := va.toNat) hsound data
        generalize hw : (s.writeMem va.toNat data).1 = u at write frame
        have keep : u.qp qp.toNat = s.qp qp.toNat := by rw [frame.rest]; rfl
        have regs : SameRegsBut [] s u := .of_eq (by rw [frame.rest]) (by rw [frame.rest])
        have out : u.out = s.out := by rw [frame.rest]
        obtain ⟨taken, sent, mem, same, -⟩ := u.psnTaken_spec (n := qp.toNat) ((s.qp qp.toNat).packets data.length)
          (ackOut qp.toNat (psn.toNat + (s.qp qp.toNat).packets data.length))
        exact ⟨_, write, mem, by rw [taken, keep], by rw [sent, out], regs.step same⟩
      · rw [State.rdmaReadRx_reads loud hn hx hpsn hsound hb hr hlen] at read
        obtain ⟨taken, sent, -, same, mem⟩ := s.psnTaken_spec (n := qp.toNat) ((s.qp qp.toNat).packets len.toNat)
          (roceOut qp.toNat 2 psn.toNat 0 (s.peek va.toNat len.toNat))
        exact ⟨_, read, by rw [taken], sent, same, mem⟩
      · rw [State.rdmaReadRx_barred loud hn hx hpsn hsound hr hlen] at read
        obtain ⟨out, qps, regs, mem, -⟩ := s.nakCounted_spec F.HOSTP_ROCE_CNT_NAK_ACCESS (roceOut qp.toNat 4 psn.toNat nakAccess [])
        exact ⟨_, read, out, qps, regs, mem⟩
      · exact ⟨_, send.trans (congrArg _ (State.sendRx_invalid loud hn hx hpsn hbad)), rfl, rfl, .sentHost, .sentHost⟩
      · intro a hroom hmap' hg
        rw [State.sendRx_stores loud hn hx hpsn hsound hb hbase hlen hown hown' hmap rfl hroom hmap' hg] at send
        have frame := s.sendStored_frame (a := a) (data := data) hsound (s.qp qp.toNat).sends
        have other {k : Nat} (hk : k ∉ keysOf a data.length) (hk' : k ∉ keysOf (a + 4088) 8) :=
          s.sendStored_other hsound (s.qp qp.toNat).sends hk hk'
        change exec (.rdmaSend qp psn data false) s = .next (((s.sendStored a data (s.qp qp.toNat).sends).sendCounted qp.toNat
          (s.qp qp.toNat).sends).psnTaken qp.toNat ((s.qp qp.toNat).packets data.length)
          (ackOut qp.toNat (psn.toNat + (s.qp qp.toNat).packets data.length))) at send
        generalize s.sendStored a data (s.qp qp.toNat).sends = u at send frame other
        have keep : u.qp qp.toNat = s.qp qp.toNat := by rw [frame.rest]; rfl
        have regs : SameRegsBut [] s u := .of_eq (by rw [frame.rest]) (by rw [frame.rest])
        have out : u.out = s.out := by rw [frame.rest]
        have counted : (u.sendCounted qp.toNat (s.qp qp.toNat).sends).qp qp.toNat =
            { s.qp qp.toNat with sends := ((s.qp qp.toNat).sends + 1) % 2 ^ 32 } := by rw [State.sendCounted, State.qp_setQp, keep]
        obtain ⟨taken, sent, mem, same, -⟩ := (u.sendCounted qp.toNat (s.qp qp.toNat).sends).psnTaken_spec (n := qp.toNat)
          ((s.qp qp.toNat).packets data.length) (ackOut qp.toNat (psn.toNat + (s.qp qp.toNat).packets data.length))
        refine ⟨_, send, by rw [taken, counted], by rw [taken, counted], sent.trans (congrArg (_ :: ·) out), ?_, fun k hk hk' => ?_⟩
        · exact (regs.step .setQp).step same
        · rw [mem]
          exact other hk hk'
    · subst hnak
      obtain ⟨rest, regs, mem⟩ := State.roceAck_spec (psn := psn.toNat) hn hx
      exact ⟨_, ack, rest, regs, mem⟩
    · obtain ⟨rate, cnt, regs, mem⟩ := State.cnpRx_spec hn hx
      exact ⟨_, State.whenServing_eq hs (State.roceRow_acts h _), rate, cnt, regs, mem⟩
  · intro x due
    have fires (h : due) : exec (.roceRetransmitTimeout qp) s = .next (s.goBack qp.val) :=
      State.whenMain_eq hm (if_pos ⟨h.1, by rw [Bool.eq_false_iff, ne_eq, List.isEmpty_iff]; exact h.2.1, h.2.2⟩)
    refine ⟨fun h => State.whenMain_eq hm (if_neg fun g => h ⟨g.1, ?_, g.2.2⟩), fun h ht hb => ?_, fun h ht => ?_,
      fun h => State.whenMain_eq hm (if_neg h), fun h1 h2 h3 => ?_⟩
    · have := g.2.1
      rwa [Bool.eq_false_iff, ne_eq, List.isEmpty_iff] at this
    · rw [fires h, State.goBack_error h.2.1 ht hb]
      have error : ((s.setQp qp.val { s.qp qp.val with state := 2, unacked := [] }).bellsDropped qp.val).qp qp.val =
        { s.qp qp.val with state := 2, unacked := [] } :=
        show (s.setQp qp.val { s.qp qp.val with state := 2, unacked := [] }).qp qp.val = _ from State.qp_setQp _ _
      exact ⟨_, rfl, by rw [error], by rw [error], SameRegsBut.setQp.step .bellsDropped, SameMemory.setQp.step .bellsDropped⟩
    · have again := State.goBack_retry h.2.1 ht
      exact ⟨_, fires h, by rw [again], by rw [again]⟩
    · exact ⟨_, State.whenMain_eq hm (if_pos ⟨h1, h2, h3⟩), by rw [State.qp_setQp], .setQp, .setQp⟩
  · have hn : qp.val < 2 ^ 12 := qp.isLt
    refine ⟨fun h => ⟨State.whenMain_eq hm (if_neg (by rw [h]; exact Bool.noConfusion)), State.whenMain_eq hm (if_neg (by rw [h]; exact Bool.noConfusion))⟩,
      fun hup hb => ?_⟩
    have load : exec (.qpLoad qp) s = .next ((s.qpNamed qp.val 1).qpLoad qp.val) :=
      State.whenMain_eq hm ((if_pos hup).trans (State.qpctlWrite_load hn))
    obtain ⟨-, regs, mem, bells, power, sound⟩ := s.qpNamed_spec (op := 1) hn
    obtain ⟨regs', mem', power', sound'⟩ := (s.qpNamed qp.val 1).qpCleared_spec (n := qp.val) (bells.trans hb)
    have cleared : SameRegsBut [R.HOSTP_QPCTL] s ((s.qpNamed qp.val 1).qpCleared qp.val) := regs.step (regs'.mono fun _ h => absurd h List.not_mem_nil)
    have memory : SameMemory s ((s.qpNamed qp.val 1).qpCleared qp.val) := mem.step mem'
    have sounds (h : SoundMemory s) := sound' (sound h)
    refine ⟨?_, fun hc => ?_, ?_⟩
    · have reset : exec (.qpReset qp) s = .next (((s.qpNamed qp.val 2).qpReset qp.val).qpStatus stDone) :=
        State.whenMain_eq hm ((if_pos hup).trans (State.qpctlWrite_reset hn))
      obtain ⟨qpn, regs, mem, bells, -, -⟩ := s.qpNamed_spec (op := 2) hn
      obtain ⟨fresh, regs', mem', -⟩ := (s.qpNamed qp.val 2).qpReset_spec (n := qp.val) (bells.trans hb)
      refine ⟨_, reset, (congrArg (fun l => sparseGet l qp.val Qp.reset) (State.setFld_qps _ _ _ _)).trans fresh, ?_, ?_, ?_, ?_⟩
      · exact State.fld_setFld_same _ _ _ _ (by decide) (by decide)
      · exact (State.fld_setFld_apart _ _ F.HOSTP_QPCTL_STATUS F.HOSTP_QPCTL_QPN _ (by decide) (by decide)).trans
          ((regs'.fld _ List.not_mem_nil).trans qpn)
      · exact (regs.step (regs'.mono fun _ h => absurd h List.not_mem_nil)).step (.setFld _ _ _ (List.mem_singleton.mpr rfl))
      · exact (mem.step mem').step (.setFld _ _ _ _)
    · rw [State.qpLoad_beyond (by rw [cleared.fld _ (by decide)]; exact hc)] at load
      exact ⟨_, load, State.fld_setFld_same _ _ _ _ (by decide) (by decide), cleared.step (.setFld _ _ _ (List.mem_singleton.mpr rfl)),
        memory.step (.setFld _ _ _ _)⟩
    · intro a hc hmap hsound hctx
      have fld (f : Field) := cleared.fld (a := R.HOSTP_QPC) f (by decide)
      have peek : ((s.qpNamed qp.val 1).qpCleared qp.val).peek a 64 = s.peek a 64 :=
        List.map_congr_left fun k _ => (memory k).2
      have ready := State.qpLoad_done (s := s.qpNamed qp.val 1) (n := qp.val) (a := a) (by rw [fld]; exact hc) (by rw [fld])
        (by rw [State.mappedRange_same cleared (power'.trans power) (by decide)]; exact hmap) (sounds hsound) (by rw [peek]; exact hctx)
      rw [ready, peek] at load
      have loaded : (((s.qpNamed qp.val 1).qpCleared qp.val).qpReady qp.val (s.peek a 64)).qp qp.val = _ := State.qp_setQp _ _
      generalize (s.qpNamed qp.val 1).qpCleared qp.val = u at load cleared memory loaded
      have kept : ((u.qpReady qp.val (s.peek a 64)).qpStatus stDone).qp qp.val = _ :=
        (congrArg (fun l => sparseGet l qp.val Qp.reset) (State.setFld_qps _ _ _ _)).trans loaded
      refine ⟨_, load, by rw [kept], by rw [kept], State.fld_setFld_same _ _ _ _ (by decide) (by decide), ?_, ?_⟩
      · exact (cleared.step .setQp).step (.setFld _ _ _ (List.mem_singleton.mpr rfl))
      · exact (memory.step .setQp).step (.setFld _ _ _ _)
  · have row := exec_of_tctMessage (s := s) hi
    intro x q
    have run {t : State} (h : s.tctRow m ty p = t) : exec i s = .next t := row.trans (State.whenServing_eq hs h)
    have counted {a : Nat} {f : Field} (hf : f.fits) (hx : 2 ^ f.width - 1 = 65535) (h : s.tctRow m ty p = s.count a f 1) :
        ∃ t, exec i s = .next t ∧ t.fld a f = min (s.fld a f + 1) 65535 ∧ SameRegsBut [a] s t ∧ SameMemory s t :=
      ⟨_, run h, (s.fld_count_same a f 1 hf).trans (by rw [hx]), .count _ _ _ (List.mem_singleton.mpr rfl), .count _ _ _ _⟩
    refine ⟨fun h => run (State.tctRow_down h), fun h hsil => counted (by decide) (by decide) (State.tctRow_silent h hsil),
      fun h hb => counted (by decide) (by decide) (State.tctRow_bad h hb), fun h hk hl => ?_⟩
    have acts := State.tctRow_acts h hk hl
    refine ⟨fun hq => run (acts.trans (State.tctExec_new hq)), fun hq hf => ?_, fun b r hq hf => ?_, fun hq ht hp => ?_⟩
    · exact ⟨_, run (acts.trans (State.tctExec_unknown hq hf)), s.fld_count_same _ _ _ (by decide), State.count_sessions _ _ _ _,
        .count _ _ _ (List.mem_singleton.mpr rfl), .count _ _ _ _⟩
    · obtain ⟨o, e⟩ := State.tctSend_loud (i := m.session.val) (q := m.seq.toNat) (t := (BitVec.ofNat 8 ty).toNat) h.isLoud hk (b :: r)
      exact ⟨_, run (acts.trans ((State.tctExec_again hq hf).trans e)), rfl, rfl, .sentHost, .sentHost⟩
    · have refused : s.tctRow m ty p = _ := acts.trans ((State.tctExec_new hq).trans (State.tctAct_refused ht hp))
      have regs : SameRegsBut [R.HOSTP_TCT_CNT] s ((s.seqTaken m).count R.HOSTP_TCT_CNT F.HOSTP_TCT_CNT_REFUSED 1) :=
        SameRegsBut.step (.of_eq rfl rfl) (.count (s.seqTaken m) _ _ (List.mem_singleton.mpr rfl))
      have mem : SameMemory s ((s.seqTaken m).count R.HOSTP_TCT_CNT F.HOSTP_TCT_CNT_REFUSED 1) :=
        SameMemory.step (.of_eq rfl rfl) (.count (s.seqTaken m) _ _ _)
      have cnt := (s.seqTaken m).fld_count_same R.HOSTP_TCT_CNT F.HOSTP_TCT_CNT_REFUSED 1 (by decide)
      generalize (s.seqTaken m).count R.HOSTP_TCT_CNT F.HOSTP_TCT_CNT_REFUSED 1 = u at refused regs mem cnt
      obtain ⟨regs', mem', -⟩ := State.tctRespond_spec (i := m.session.val) (q := m.seq.toNat) (t := (BitVec.ofNat 8 ty).toNat)
        (st := stDescriptor) (h.isLoud.same regs (by decide)) ((State.keyLoaded_of_regs regs (by decide) _).trans hk) []
      exact ⟨_, run refused, (regs'.fld _ List.not_mem_nil).trans cnt, regs.step (regs'.mono fun _ h => absurd h List.not_mem_nil), mem.step mem'⟩
  · have taken : Loud (s.seqTaken m) := h.isLoud.of_regs fun _ _ => rfl
    have row : exec (.memRd m a n) s = _ := (exec_of_tctMessage rfl).trans (State.whenServing_eq h.serving ((State.tctRow_acts h hk (by
      rw [List.length_append, length_leBytes, length_leBytes]
      rfl)).trans ((State.tctExec_new hq).trans (State.tctAct_read (s := s.seqTaken m) hsound h1 h2 hmap))))
    obtain ⟨regs, mem, -, out, sessions⟩ := State.tctRespond_spec (s := s.seqTaken m) (i := m.session.val) (q := m.seq.toNat) (t := tctMemRd)
      (st := stDone) taken hk ((s.seqTaken m).peek a.toNat n.toNat)
    refine ⟨_, row, ?_, out, SameRegsBut.step (.of_eq rfl rfl) regs, SameMemory.step (.of_eq rfl rfl) mem⟩
    rw [State.session, sessions]
    exact State.seen_answered _
  · have taken : Loud (s.seqTaken m) := h.isLoud.of_regs fun _ _ => rfl
    have row : exec (.memWr m a d) s = _ := (exec_of_tctMessage rfl).trans (State.whenServing_eq h.serving ((State.tctRow_acts h hk (by
      rw [List.length_append, length_leBytes]
      simp [tctLenOk, tctMemWr, tctRegRd, tctRegWr, tctMemRd]
      omega)).trans ((State.tctExec_new hq).trans (State.tctAct_write (s := s.seqTaken m) hsound hmap (State.guardWrite_of_regs (s := s) (t := s.seqTaken m) rfl hg)))))
    have frame := PokeFrame.refl.writeMem (s := s.seqTaken m) (a := a.toNat) hsound d
    have stored : ((s.seqTaken m).writeMem a.toNat d).1.mem = (s.writeMem a.toNat d).1.mem := by
      rw [State.writeMem_sound d hsound.1 hsound.2, State.writeMem_sound (s := s.seqTaken m) d hsound.1 hsound.2]
      rfl
    generalize ((s.seqTaken m).writeMem a.toNat d).1 = u at row frame stored
    have regs : SameRegsBut [] s u := .of_eq (by rw [frame.rest]; rfl) (by rw [frame.rest]; rfl)
    have out : u.out = s.out := by rw [frame.rest]; rfl
    obtain ⟨regs', -, mem, sent, -⟩ := State.tctRespond_spec (i := m.session.val) (q := m.seq.toNat) (t := tctMemWr) (st := stDone)
      (taken.poked frame) ((State.keyLoaded_of_regs regs List.not_mem_nil _).trans hk) []
    refine ⟨_, row, mem.trans stored, fun k hk => ?_, sent.trans (by rw [out]), regs.step regs'⟩
    rw [mem, stored]
    exact State.memByte_writeMem_other hsound d hk
  · refine State.whenMain_eq hm ?_
    unfold State.releaseBells
    rw [h, List.foldl_cons, List.foldl_nil, if_neg (by rw [hf]; exact Bool.noConfusion)]
  · refine State.whenMain_eq hm ?_
    unfold State.releaseBells
    rw [h, List.foldl_cons, List.foldl_nil, if_pos hf]
    have left : s.bells.filter (fun x => x != b) = [] := by
      rw [h]
      simp
    rw [left]
  · obtain ⟨len, events, regs, mem⟩ := s.foldl_resend s.events
    exact ⟨_, State.whenMain_eq hm (if_neg (by rw [h]; exact Bool.noConfusion)), len, events, regs, mem⟩

end Sys2Proof.Machine
end

section
/-!
PROOFS. The sideband: its answers, keys, sensors, measurements, the committed SVN, debug unlocks, and identity signatures.
-/

namespace Sys2Proof.Machine

open Sys2Proof

/-! ### Sideband commands (R404 to R407) -/

section Sideband
variable {s t u : State}

theorem State.alive_eq (h : s.powered = true) (e : t = u) : s.alive t = .next u := by
  rw [← e]
  exact State.alive_next t h

theorem State.sideband_eq (hp : s.powered = true) (hi : s.fld R.HOSTP_SB F.HOSTP_SB_EID ≠ 0) (e : t = u) : s.sideband t = .next u := by
  rw [← e]
  exact if_pos (by rw [hp, Bool.true_and, bne_iff_ne]; exact hi)

theorem State.sideband_mute (hi : s.fld R.HOSTP_SB F.HOSTP_SB_EID = 0) : s.sideband t = .next s :=
  if_neg (by rw [hi]; exact fun h => Bool.noConfusion ((Bool.and_eq_true_iff.mp h).2))

/-- `t` is `s` with one answer sent over the sideband, and nothing else that a register or memory shows. -/
structure Answered (l : List Nat) (s t : State) : Prop where
  sent : t.out.length = s.out.length + 1
  regs : SameRegsBut l s t
  memory : SameMemory s t

theorem State.fld_mctpReply (type cmd code a : Nat) (b : List Byte) (f : Field) : (s.mctpReply type cmd code b).fld a f = s.fld a f := rfl

theorem Answered.mctpReply {l : List Nat} (type cmd code : Nat) (b : List Byte) : Answered l s (s.mctpReply type cmd code b) :=
  ⟨State.length_out_emit _, .of_eq rfl rfl, .emit _ _⟩

theorem Answered.sbReply {l : List Nat} (cmd code : Nat) (b : List Byte) : Answered l s (s.sbReply cmd code b) :=
  ⟨State.length_out_emit _, .of_eq rfl rfl, .emit _ _⟩

theorem Answered.ite {l : List Nat} {c : Prop} [Decidable c] (ht : Answered l s t) (hu : Answered l s u) :
    Answered l s (if c then t else u) := by
  split
  · exact ht
  · exact hu

theorem Answered.exists_next {l : List Nat} {i : Instr} (h : Answered l s t) (e : exec i s = .next t) : ∃ t, exec i s = .next t ∧
    t.out.length = s.out.length + 1 ∧ SameRegsBut l s t ∧ SameMemory s t := ⟨t, e, h.sent, h.regs, h.memory⟩

/-- The endpoint ID that MCTP control sets. -/
theorem Answered.setEid (e cmd code : Nat) (b : List Byte) :
    Answered [R.HOSTP_SB] s ((s.setFld R.HOSTP_SB F.HOSTP_SB_EID e).mctpReply 0 cmd code b) := by
  have regs : SameRegsBut [R.HOSTP_SB] s (s.setFld R.HOSTP_SB F.HOSTP_SB_EID e) := .setFld _ _ _ (List.mem_singleton.mpr rfl)
  have mem : SameMemory s (s.setFld R.HOSTP_SB F.HOSTP_SB_EID e) := .setFld _ _ _ _
  have out := s.setFld_out R.HOSTP_SB F.HOSTP_SB_EID e
  generalize s.setFld R.HOSTP_SB F.HOSTP_SB_EID e = u at regs mem out
  exact ⟨(State.length_out_emit _).trans (by rw [out]), regs.step (.of_eq rfl rfl), mem.step (.emit _ _)⟩

theorem exec_mctpControl (cmd : BitVec 8) (b : List Byte) (hp : s.powered = true) :
    ∃ t, exec (.mctpControl cmd b) s = .next t ∧ t.out.length = s.out.length + 1 ∧ SameRegsBut [R.HOSTP_SB] s t ∧ SameMemory s t :=
  Answered.exists_next (.ite (.ite (.mctpReply ..) (.ite (.mctpReply ..) (.setEid ..))) (.ite (.mctpReply ..) (.ite (.mctpReply ..)
    (.ite (.mctpReply ..) (.mctpReply ..))))) (State.alive_eq hp rfl)

/-- The state with another terminus ID. -/
def State.withTid (s : State) (t : Nat) : State := { s with pldmTid := t }

theorem Answered.withTid {l : List Nat} (t type cmd code : Nat) (b : List Byte) : Answered l s ((s.withTid t).mctpReply type cmd code b) :=
  ⟨State.length_out_emit _, .of_eq rfl rfl, .of_eq rfl rfl⟩

theorem exec_pldmType0 (cmd : BitVec 8) (b : List Byte) (hp : s.powered = true) (hi : s.fld R.HOSTP_SB F.HOSTP_SB_EID ≠ 0) :
    ∃ t, exec (.pldmType0 cmd b) s = .next t ∧ t.out.length = s.out.length + 1 ∧ SameRegsBut [] s t ∧ SameMemory s t :=
  Answered.exists_next (.ite (.ite (.mctpReply ..) (.withTid (leField b 0 1) ..)) (.ite (.mctpReply ..) (.ite (.mctpReply ..) (.ite (.mctpReply ..)
    (.ite (.ite (.mctpReply ..) (.ite (.mctpReply ..) (.mctpReply ..))) (.mctpReply ..)))))) (State.sideband_eq hp hi rfl)

theorem exec_pldmType2 (cmd : BitVec 8) (x : BitVec 16) (hp : s.powered = true) (hi : s.fld R.HOSTP_SB F.HOSTP_SB_EID ≠ 0) :
    ∃ t, exec (.pldmType2 cmd x) s = .next t ∧ t.out.length = s.out.length + 1 ∧ SameRegsBut [] s t ∧ SameMemory s t :=
  Answered.exists_next (.ite (.mctpReply ..) (.ite (.mctpReply ..) (.ite (.mctpReply ..) (.ite (.mctpReply ..) (.mctpReply ..)))))
    (State.sideband_eq hp hi rfl)

/-- A challenge is drawn. -/
def State.challenged (s : State) : State :=
  { s with draws := s.draws + 4,
           challenge := some ((List.range 4).flatMap (fun i => leBytes (Config.freeValue (s.draws + i)).toNat 8)) }

theorem exec_debugChallenge (hp : s.powered = true) (hi : s.fld R.HOSTP_SB F.HOSTP_SB_EID ≠ 0) :
    ∃ b, exec .debugChallenge s = .next (s.challenged.sbReply 0x12 ccOk b) := ⟨_, State.sideband_eq hp hi rfl⟩

/-- The sensors' readings after a refresh. -/
def sensorsRead (m : Sparse Nat) (mv win wmod hub : Nat) (die : Nat → Nat) (stack : Nat) : Sparse Nat :=
  let put := fun (m : Sparse Nat) (k v : Nat) => sparseSet m k v 0
  put (put ((List.range 4).foldl (fun m d => put m (3 + d) (die d)) (put (put (put m 0 mv) 1 win) 2 wmod)) 7 hub) 8 stack

theorem sensorsRead_spec (m : Sparse Nat) (mv win wmod hub : Nat) (die : Nat → Nat) (stack : Nat) :
    sparseGet (sensorsRead m mv win wmod hub die stack) 0 0 = mv ∧ sparseGet (sensorsRead m mv win wmod hub die stack) 1 0 = win ∧
    sparseGet (sensorsRead m mv win wmod hub die stack) 2 0 = wmod ∧ sparseGet (sensorsRead m mv win wmod hub die stack) 7 0 = hub := by
  have kept (l : List Nat) (n : Sparse Nat) (k : Nat) (hk : k < 3) :
      sparseGet (l.foldl (fun m d => sparseSet m (3 + d) (die d) 0) n) k 0 = sparseGet n k 0 :=
    List.foldlRecOn (motive := fun x => sparseGet x k 0 = sparseGet n k 0) _ _ rfl fun x hx d _ => by
      rw [sparseGet_set_other _ (by omega), hx]
  unfold sensorsRead
  refine ⟨?_, ?_, ?_, ?_⟩
  · rw [sparseGet_set_other _ (by decide), sparseGet_set_other _ (by decide), kept _ _ _ (by decide), sparseGet_set_other _ (by decide),
      sparseGet_set_other _ (by decide), sparseGet_set_same]
  · rw [sparseGet_set_other _ (by decide), sparseGet_set_other _ (by decide), kept _ _ _ (by decide), sparseGet_set_other _ (by decide),
      sparseGet_set_same]
  · rw [sparseGet_set_other _ (by decide), sparseGet_set_other _ (by decide), kept _ _ _ (by decide), sparseGet_set_same]
  · rw [sparseGet_set_other _ (by decide), sparseGet_set_same]

end Sideband

/-! ### Keys (R407) -/

section Keys
variable {s t : State} {k : Nat}

/-- KEYSTAT of a slot that is loaded or cleared. -/
def State.keyMarked (s : State) (k : Nat) (loaded priv : Bool) : State :=
  (s.setBit R.HOSTP_KEYSTAT F.HOSTP_KEYSTAT_LOADED k loaded).setBit R.HOSTP_KEYSTAT F.HOSTP_KEYSTAT_PRIV k priv

theorem State.keyMarked_spec (hk : k < 8) (loaded priv : Bool) : (s.keyMarked k loaded priv).keyLoaded k = loaded ∧
    (s.keyMarked k loaded priv).keyPriv k = priv ∧ (s.keyMarked k loaded priv).keys = s.keys ∧
    SameRegsBut [R.HOSTP_KEYSTAT] s (s.keyMarked k loaded priv) ∧ SameMemory s (s.keyMarked k loaded priv) := by
  refine ⟨?_, State.bit_setBit _ (by decide) hk, (State.setFld_keys _ _ _ _).trans (State.setFld_keys _ _ _ _), ?_, ?_⟩
  · have apart (v : Nat) : ((s.setBit R.HOSTP_KEYSTAT F.HOSTP_KEYSTAT_LOADED k loaded).setFld R.HOSTP_KEYSTAT F.HOSTP_KEYSTAT_PRIV v).bit
        R.HOSTP_KEYSTAT F.HOSTP_KEYSTAT_LOADED k = (s.setBit R.HOSTP_KEYSTAT F.HOSTP_KEYSTAT_LOADED k loaded).bit R.HOSTP_KEYSTAT
        F.HOSTP_KEYSTAT_LOADED k := by
      rw [State.bit, State.fld_setFld_apart _ _ _ F.HOSTP_KEYSTAT_LOADED _ (by decide) (by decide), State.bit]
    exact (apart _).trans (State.bit_setBit _ (by decide) hk)
  · exact SameRegsBut.step (.setFld _ _ _ (List.mem_singleton.mpr rfl)) (.setFld _ _ _ (List.mem_singleton.mpr rfl))
  · exact SameMemory.step (.setFld _ _ _ _) (.setFld _ _ _ _)

/-- The state with other keys. -/
def State.withKeys (s : State) (l : Sparse (List Byte)) : State := { s with keys := l }

/-- A slot's key is put in place or taken out: its marks, its sessions, the answer. -/
def State.keySet (s : State) (k : Nat) (loaded priv : Bool) (cmd : Nat) : State :=
  ((s.keyMarked k loaded priv).dropSessions k).sbReply cmd ccOk []

theorem State.keySet_spec (hk : k < 8) (loaded priv : Bool) (cmd : Nat) : (s.keySet k loaded priv cmd).keyLoaded k = loaded ∧
    (s.keySet k loaded priv cmd).keyPriv k = priv ∧ (s.keySet k loaded priv cmd).keys = s.keys ∧
    (∀ p ∈ (s.keySet k loaded priv cmd).sessions, p.2.key ≠ k) ∧ SameRegsBut [R.HOSTP_KEYSTAT] s (s.keySet k loaded priv cmd) ∧
    SameMemory s (s.keySet k loaded priv cmd) := by
  obtain ⟨hl, hp, keys, regs, mem⟩ := s.keyMarked_spec hk loaded priv
  unfold State.keySet
  generalize s.keyMarked k loaded priv = u at hl hp keys regs mem
  refine ⟨hl, hp, keys, fun p h => ?_, regs.step (.of_eq rfl rfl), mem.step (.of_eq rfl rfl)⟩
  exact bne_iff_ne.mp (List.mem_filter.mp h).2

end Keys

/-! ### Measurements, the committed SVN, debug (R414, R421, R424, R425) -/

section Security
variable {s t : State}

theorem State.setMeas_sameRegs (i : Nat) (b : List Byte) : SameRegsBut ((List.range 4).map (R.SEC_MEAS i)) s (s.setMeas i b) :=
  List.foldlRecOn (motive := SameRegsBut _ s) _ _ (.refl _ _) fun _ ht _ hw => ht.step (.setReg _ _ (List.mem_map_of_mem hw))

theorem State.setMeas_sameMemory (i : Nat) (b : List Byte) : SameMemory s (s.setMeas i b) :=
  List.foldlRecOn (motive := SameMemory s) _ _ (.refl _) fun _ ht _ _ => ht.step (.setReg _ _ _)

theorem State.svnCommit_spec : s.svnCommit.svnOtp = (if s.imageUp then max s.svnOtp (s.fld R.SEC_STAT F.SEC_STAT_SVN_IMAGE) else s.svnOtp) ∧
    SameRegsBut [R.SEC_STAT] s s.svnCommit ∧ SameMemory s s.svnCommit := by
  unfold State.svnCommit
  dsimp only
  by_cases hi : s.imageUp = true
  · by_cases hv : s.svnOtp < s.fld R.SEC_STAT F.SEC_STAT_SVN_IMAGE
    · rw [if_pos ⟨hi, hv⟩, if_pos hi, Nat.max_eq_right (Nat.le_of_lt hv)]
      exact ⟨State.fld_setFld_same _ _ F.SEC_STAT_SVN_OTP _ (by decide) (s.fld_lt _ F.SEC_STAT_SVN_IMAGE),
        .setFld _ _ _ (List.mem_singleton.mpr rfl), .setFld _ _ _ _⟩
    · rw [if_neg (fun h => hv h.2), if_pos hi, Nat.max_eq_left (Nat.not_lt.mp hv)]
      exact ⟨rfl, .refl _ _, .refl _⟩
  · rw [if_neg (fun h => hi h.1), if_neg hi]
    exact ⟨rfl, .refl _ _, .refl _⟩

/-- The state in which no debug unlock stands: its scope, its expiry, what waited for it. -/
def State.debugClosed (s : State) : State :=
  { s.setFld R.SEC_DEBUG F.SEC_DEBUG_SCOPE 0 with
    debugExpiry := 0, creditHolds := s.creditHolds.map (fun h => (h.1, h.2.1, h.2.2.1, 0)),
    redRx := s.redRx.map (fun (x : RedSeg) => ({ x with held := 0 } : RedSeg)) }

theorem sparseGet_filter_in {α : Type} (l : Sparse α) (p : Nat × α → Bool) {a : Nat} (x : α) (h : ∀ v, p (a, v) = true) :
    sparseGet (l.filter p) a x = sparseGet l a x := by
  induction l with
  | nil => rfl
  | cons e l ih =>
    obtain ⟨b, v⟩ := e
    by_cases hb : b = a
    · subst hb
      rw [List.filter_cons_of_pos (h v), sparseGet, if_pos rfl, sparseGet, if_pos rfl]
    · cases hp : p (b, v)
      · rw [List.filter_cons_of_neg (by rw [hp]; exact Bool.noConfusion), ih, sparseGet, if_neg hb]
      · rw [List.filter_cons_of_pos hp, sparseGet, if_neg hb, ih, sparseGet, if_neg hb]

theorem State.reg_loseBlocks {bs : List Block} {a : Nat} (h : inBlocks bs a = false) : (s.loseBlocks bs).reg a = s.reg a :=
  sparseGet_filter_in _ _ _ fun _ => by rw [h]; rfl

theorem State.debugEnd_spec : s.debugEnd.fld R.SEC_DEBUG F.SEC_DEBUG_SCOPE = 0 ∧ s.debugEnd.debugExpiry = 0 ∧
    s.debugEnd.fld R.SEC_DEBUG F.SEC_DEBUG_EVER = s.fld R.SEC_DEBUG F.SEC_DEBUG_EVER ∧ SameMemory s s.debugEnd := by
  have scope := s.fld_setFld_same R.SEC_DEBUG F.SEC_DEBUG_SCOPE 0 (by decide) (by decide)
  have ever := s.fld_setFld_apart R.SEC_DEBUG F.SEC_DEBUG_SCOPE F.SEC_DEBUG_EVER 0 (by decide) (by decide)
  have mem : SameMemory s (s.setFld R.SEC_DEBUG F.SEC_DEBUG_SCOPE 0) := .setFld _ _ _ _
  unfold State.debugEnd
  generalize s.setFld R.SEC_DEBUG F.SEC_DEBUG_SCOPE 0 = u at scope ever mem
  extract_lets v w
  have hw : w.regs = u.regs := rfl
  have kept (f : Field) : (w.loseBlocks [.pert]).fld R.SEC_DEBUG f = u.fld R.SEC_DEBUG f := by
    rw [State.fld, State.reg_loseBlocks (by decide), State.reg, hw, State.fld, State.reg]
  exact ⟨(kept _).trans scope, rfl, (kept _).trans ever, mem.step (.of_eq rfl rfl)⟩

/-- The challenge is void. -/
def State.unchallenged (s : State) : State := { s with challenge := none }

/-- SEC_DEBUG as an unlock of a scope leaves it. -/
def State.debugScoped (s : State) (scope : Nat) : State :=
  (s.setFld R.SEC_DEBUG F.SEC_DEBUG_SCOPE (s.fld R.SEC_DEBUG F.SEC_DEBUG_SCOPE ||| scope)).setFld R.SEC_DEBUG F.SEC_DEBUG_EVER
    (s.fld R.SEC_DEBUG F.SEC_DEBUG_EVER ||| scope)

theorem State.debugScoped_spec {scope : Nat} (h : scope < 4) :
    (s.debugScoped scope).fld R.SEC_DEBUG F.SEC_DEBUG_SCOPE = s.fld R.SEC_DEBUG F.SEC_DEBUG_SCOPE ||| scope ∧
    (s.debugScoped scope).fld R.SEC_DEBUG F.SEC_DEBUG_EVER = s.fld R.SEC_DEBUG F.SEC_DEBUG_EVER ||| scope ∧
    SameMemory s (s.debugScoped scope) ∧ (s.debugScoped scope).challenge = s.challenge := by
  have fits : s.fld R.SEC_DEBUG F.SEC_DEBUG_SCOPE ||| scope < 2 ^ 2 := Nat.or_lt_two_pow (s.fld_lt _ F.SEC_DEBUG_SCOPE) h
  have fits' : s.fld R.SEC_DEBUG F.SEC_DEBUG_EVER ||| scope < 2 ^ 2 := Nat.or_lt_two_pow (s.fld_lt _ F.SEC_DEBUG_EVER) h
  refine ⟨?_, State.fld_setFld_same _ _ F.SEC_DEBUG_EVER _ (by decide) fits', SameMemory.step (.setFld _ _ _ _) (.setFld _ _ _ _), ?_⟩
  · exact (State.fld_setFld_apart _ _ F.SEC_DEBUG_EVER F.SEC_DEBUG_SCOPE _ (by decide) (by decide)).trans
      (State.fld_setFld_same _ _ F.SEC_DEBUG_SCOPE _ (by decide) fits)
  · rw [State.debugScoped, State.setFld_challenge, State.setFld_challenge]

/-- The time at which a new unlock ends, beside those that stand. -/
def State.untilExpiry (s : State) (e : Nat) : State :=
  { s with debugExpiry := if s.debugExpiry = 0 then e else if e = 0 then s.debugExpiry else min e s.debugExpiry }

theorem not_isModeReg_secDebug : ¬ IsModeReg R.SEC_DEBUG := by
  unfold IsModeReg IsRecordReg
  decide

theorem State.fld_untilExpiry (e a : Nat) (f : Field) : (s.untilExpiry e).fld a f = s.fld a f := rfl

/-- A token that passes its checks unlocks its scope. -/
theorem exec_debugUnlock_ok (hp : s.powered = true) (hi : s.fld R.HOSTP_SB F.HOSTP_SB_EID ≠ 0) {b : List Byte} (h : s.tokenOk b = true) :
    ∃ t, exec (.debugUnlock b) s = .next t ∧ t.challenge = none ∧ SameMemory s t ∧
      t.fld R.SEC_DEBUG F.SEC_DEBUG_SCOPE = s.fld R.SEC_DEBUG F.SEC_DEBUG_SCOPE ||| leField b 1 1 ∧
      t.fld R.SEC_DEBUG F.SEC_DEBUG_EVER = s.fld R.SEC_DEBUG F.SEC_DEBUG_EVER ||| leField b 1 1 := by
  have small : leField b 1 1 < 4 := by
    simp only [State.tokenOk, Bool.and_eq_true, decide_eq_true_eq] at h
    obtain ⟨⟨⟨⟨⟨⟨⟨⟨⟨⟨-, -⟩, -⟩, small⟩, -⟩, -⟩, -⟩, -⟩, -⟩, -⟩, -⟩ := h
    exact small
  have run : ∃ d r, exec (.debugUnlock b) s = .next (((((s.unchallenged.extend 3 d).debugScoped (leField b 1 1)).untilExpiry
      (leField b 120 8)).errRecord r).sbReply 0x13 ccOk []) := ⟨_, _, State.sideband_eq hp hi (if_pos h)⟩
  obtain ⟨d, r, run⟩ := run
  have ext : BootFrame IsModeReg s.unchallenged (s.unchallenged.extend 3 d) := s.unchallenged.extend_frame d (by decide)
  generalize s.unchallenged.extend 3 d = u at run ext
  obtain ⟨scope, ever, mem, chal⟩ := u.debugScoped_spec small
  generalize u.debugScoped (leField b 1 1) = v at run scope ever mem chal
  have recorded : RecordFrame (v.untilExpiry (leField b 120 8)) ((v.untilExpiry (leField b 120 8)).errRecord r) := State.errRecord_recordFrame _ _
  generalize (v.untilExpiry (leField b 120 8)).errRecord r = w at run recorded
  have kept (f : Field) : w.fld R.SEC_DEBUG f = v.fld R.SEC_DEBUG f := by
    rw [State.fld, recorded.regs _ (fun h => not_isModeReg_secDebug (.inl h)), ← State.fld, State.fld_untilExpiry]
  refine ⟨_, run, ?_, ?_, ?_, ?_⟩
  · show w.challenge = none
    rw [recorded.rest]
    show v.challenge = none
    rw [chal, ext.rest]
    rfl
  · exact (((SameMemory.of_eq rfl rfl : SameMemory s s.unchallenged).step ext.sameMemory).step mem).step
      (((SameMemory.of_eq rfl rfl : SameMemory v (v.untilExpiry (leField b 120 8))).step recorded.sameMemory).step (.emit _ _))
  · exact (kept _).trans (scope.trans (congrArg (· ||| leField b 1 1) (ext.fld _ not_isModeReg_secDebug)))
  · exact (kept _).trans (ever.trans (congrArg (· ||| leField b 1 1) (ext.fld _ not_isModeReg_secDebug)))

/-! ### Identity signatures (R420) -/

/-- The requests of signatures that wait. -/
def State.withSigns (s : State) (l : List SignReq) : State := { s with signReqs := l }

/-- An index is taken for a signature. -/
def State.indexTaken (s : State) : State :=
  (if s.idxNext = s.fld R.SEC_IDX_LIMIT F.SEC_IDX_LIMIT_LIMIT then s.setFld R.SEC_IDX_LIMIT F.SEC_IDX_LIMIT_LIMIT (s.idxNext + 4096) else s).setFld
    R.SEC_IDX F.SEC_IDX_NEXT (s.idxNext + 1)

/-- A signature is counted. -/
theorem State.signCounted_spec (f : Field) (code : Nat) (b : List Byte) (hf : f.fits) (hw : 2 ^ f.width - 1 = 65535) :
    ((s.count R.SEC_SIGCNT f 1).sbReply 0x10 code b).signReqs = s.signReqs ∧
    ((s.count R.SEC_SIGCNT f 1).sbReply 0x10 code b).idxNext = s.idxNext ∧
    ((s.count R.SEC_SIGCNT f 1).sbReply 0x10 code b).fld R.SEC_SIGCNT f = min (s.fld R.SEC_SIGCNT f + 1) 65535 ∧
    ((s.count R.SEC_SIGCNT f 1).sbReply 0x10 code b).pend = s.pend ∧
    SameRegsBut [R.SEC_SIGCNT] s ((s.count R.SEC_SIGCNT f 1).sbReply 0x10 code b) ∧
    SameMemory s ((s.count R.SEC_SIGCNT f 1).sbReply 0x10 code b) := by
  have signs := s.count_signReqs R.SEC_SIGCNT f 1
  have idx : (s.count R.SEC_SIGCNT f 1).idxNext = s.idxNext := State.fld_setFld_other _ _ _ _ _ _ (by decide)
  have cnt := (s.fld_count_same R.SEC_SIGCNT f 1 hf).trans (by rw [hw])
  have pend := s.count_pend R.SEC_SIGCNT f 1
  have regs : SameRegsBut [R.SEC_SIGCNT] s (s.count R.SEC_SIGCNT f 1) := .count _ _ _ (List.mem_singleton.mpr rfl)
  have mem : SameMemory s (s.count R.SEC_SIGCNT f 1) := .count _ _ _ _
  generalize s.count R.SEC_SIGCNT f 1 = u at signs idx cnt pend regs mem
  exact ⟨signs, idx, cnt, pend, regs.step (.emit _ _), mem.step (.emit _ _)⟩

theorem State.indexTaken_spec (h : s.idxNext < 2 ^ 40) : s.indexTaken.idxNext = s.idxNext + 1 ∧ s.indexTaken.signReqs = s.signReqs ∧
    s.indexTaken.pend = s.pend ∧ s.indexTaken.fld R.SEC_SIGCNT F.SEC_SIGCNT_REPORTS = s.fld R.SEC_SIGCNT F.SEC_SIGCNT_REPORTS ∧
    SameRegsBut [R.SEC_SIGCNT, R.SEC_IDX, R.SEC_IDX_LIMIT] s s.indexTaken ∧ SameMemory s s.indexTaken := by
  have limit : ∃ u : State, (if s.idxNext = s.fld R.SEC_IDX_LIMIT F.SEC_IDX_LIMIT_LIMIT then
      s.setFld R.SEC_IDX_LIMIT F.SEC_IDX_LIMIT_LIMIT (s.idxNext + 4096) else s) = u ∧ u.signReqs = s.signReqs ∧ u.pend = s.pend ∧
      SameRegsBut [R.SEC_SIGCNT, R.SEC_IDX, R.SEC_IDX_LIMIT] s u ∧ SameMemory s u ∧
      u.fld R.SEC_SIGCNT F.SEC_SIGCNT_REPORTS = s.fld R.SEC_SIGCNT F.SEC_SIGCNT_REPORTS := by
    split
    · exact ⟨_, rfl, State.setFld_signReqs _ _ _ _, State.setFld_pend _ _ _ _, .setFld _ _ _ (by decide), .setFld _ _ _ _,
        State.fld_setFld_other _ _ _ _ _ _ (by decide)⟩
    · exact ⟨_, rfl, rfl, rfl, .refl _ _, .refl _, rfl⟩
  obtain ⟨u, e, signs, pend, regs, mem, cnt⟩ := limit
  have fits : s.idxNext + 1 < 2 ^ F.SEC_IDX_NEXT.width := Nat.lt_of_le_of_lt h (by decide)
  unfold State.indexTaken
  rw [e]
  exact ⟨State.fld_setFld_same _ _ _ _ (by decide) fits, (State.setFld_signReqs _ _ _ _).trans signs, (State.setFld_pend _ _ _ _).trans pend,
    (State.fld_setFld_other _ _ _ _ _ _ (by decide)).trans cnt, regs.step (.setFld _ _ _ (by decide)), mem.step (.setFld _ _ _ _)⟩

variable {b : Nat → List Byte} {n : Nat} {rest : List SignReq} {body : List Byte}

theorem State.signHead_none (h : s.signReqs = []) : s.signHead = s := by
  unfold State.signHead
  rw [h]

theorem State.signHead_spent (h : s.signReqs = { owner := .report, body := body, at_ := n } :: rest) (hi : 2 ^ 40 ≤ s.idxNext) :
    s.signHead = ((s.withSigns rest).count R.SEC_SIGCNT F.SEC_SIGCNT_REFUSED 1).sbReply 0x10 ccState [] := by
  unfold State.signHead
  rw [h]
  exact if_pos hi

theorem State.signHead_signed (h : s.signReqs = { owner := .report, body := body, at_ := n } :: rest) (hi : s.idxNext < 2 ^ 40) :
    ∃ b, s.signHead = ((s.withSigns rest).indexTaken.count R.SEC_SIGCNT F.SEC_SIGCNT_REPORTS 1).sbReply 0x10 ccOk b := by
  unfold State.signHead
  rw [h]
  exact ⟨_, if_neg (Nat.not_le.mpr hi)⟩

end Security

/-- Settles O58. -/
theorem sidebandCommands : Obligations.SidebandCommands := by
  refine ⟨fun i cmd k flags x a v b s hi h => ?_, fun cmd b s hp => ⟨exec_mctpControl cmd b hp, fun hc hl ho h0 hf => ?_⟩, fun cmd x b s hp hi => ?_,
    fun mv win wmod hub s hp => ?_, fun a v s hp hi => ?_, fun k flags key s hp hi => ?_, fun k dg s hp hi => ?_, fun s hp hi => ?_,
    fun s hm => ?_, fun b s hp hi => ?_, fun s hp => ?_, fun s hp hh => ?_⟩
  · simp only [List.mem_cons, List.not_mem_nil, or_false] at hi
    rcases hi with rfl | rfl | rfl | rfl | rfl | rfl | rfl | rfl | rfl | rfl | rfl | rfl | rfl | rfl | rfl
    all_goals exact State.sideband_mute h
  · subst hc
    refine ⟨(s.setFld R.HOSTP_SB F.HOSTP_SB_EID (leField b 1 1)).mctpReply 0 1 0 [0, BitVec.ofNat 8 (leField b 1 1), 0], State.alive_eq hp ?_, ?_⟩
    · exact (if_pos rfl).trans ((if_neg (fun h => h.elim (fun h => h hl) (Nat.not_le.mpr ho))).trans (if_neg fun h => h.elim h0 hf))
    · exact (State.fld_mctpReply _ _ _ _ _ _).trans (State.fld_setFld_same _ _ F.HOSTP_SB_EID _ (by decide) (leField_byte_lt b 1))
  · refine ⟨fun i h => ?_, fun hc hx => ?_, State.sideband_eq hp hi rfl, ?_⟩
    · obtain ⟨c, challenge⟩ := exec_debugChallenge hp hi
      simp only [List.mem_cons, List.not_mem_nil, or_false] at h
      rcases h with rfl | rfl | rfl | rfl | rfl | rfl
      · exact exec_pldmType0 cmd b hp hi
      · exact exec_pldmType2 cmd x hp hi
      · exact Answered.exists_next (.sbReply ..) (State.sideband_eq hp hi rfl)
      · exact Answered.exists_next (.sbReply ..) (State.sideband_eq hp hi rfl)
      · exact Answered.exists_next (.sbReply ..) (State.sideband_eq hp hi rfl)
      · exact ⟨_, challenge, State.length_out_emit _, .of_eq rfl rfl, .of_eq rfl rfl⟩
    · exact State.sideband_eq hp hi (if_pos ⟨hc, hx⟩)
    · obtain ⟨c, challenge⟩ := exec_debugChallenge hp hi
      exact ⟨_, challenge, Option.some_ne_none _⟩
  · obtain ⟨h0, h1, h2, h7⟩ := sensorsRead_spec s.sensors mv.toNat win.toNat wmod.toNat hub.toNat
      (fun d => (s.power.dies.getD d DieLoop.fresh).temp) (s.power.stackTemp.foldl max 0)
    exact ⟨_, State.alive_eq hp rfl, h0, h1, h2, h7, .of_eq rfl rfl, .of_eq rfl rfl⟩
  · refine ⟨fun h => ⟨State.sideband_eq hp hi (if_pos h), State.sideband_eq hp hi (if_pos h)⟩, fun h => ⟨fun x t hr => ?_, fun t hr => ?_, fun ha ok t hw => ?_⟩⟩
    · refine State.sideband_eq hp hi ((if_neg fun hn => hn h).trans ?_)
      rw [hr]
    · refine State.sideband_eq hp hi ((if_neg fun hn => hn h).trans ?_)
      rw [hr]
    · refine State.sideband_eq hp hi ((if_neg fun hn => hn h).trans ((State.ingress_alone ha _).trans ?_))
      show s.sbWriteAct false a.toNat v.toNat = _
      unfold State.sbWriteAct
      rw [hw]
      rfl
  · refine ⟨fun h => State.sideband_eq hp hi (if_pos h), fun h => State.sideband_eq hp hi (if_pos h), fun hk => ⟨fun hf hl => ?_, ?_⟩⟩
    · obtain ⟨loaded, priv, keys, sessions, regs, mem⟩ := (s.withKeys (sparsePut s.keys k.toNat key)).keySet_spec hk true (flags.toNat == 1) 0x04
      refine ⟨(s.withKeys (sparsePut s.keys k.toNat key)).keySet k.toNat true (flags.toNat == 1) 0x04,
        State.sideband_eq hp hi (if_neg fun h => ?_), loaded, priv, ?_, sessions, SameRegsBut.step (.of_eq rfl rfl) regs,
        SameMemory.step (.of_eq rfl rfl) mem⟩
      · rcases h with h | h | h
        · exact absurd h (Nat.not_le.mpr hk)
        · exact absurd h (Nat.not_le.mpr hf)
        · exact h hl
      · rw [keys]
        exact sparseGet_put_same _ _ _ _
    · obtain ⟨loaded, priv, -, sessions, regs, mem⟩ := (s.withKeys (sparseDel s.keys k.toNat)).keySet_spec hk false false 0x05
      exact ⟨(s.withKeys (sparseDel s.keys k.toNat)).keySet k.toNat false false 0x05,
        State.sideband_eq hp hi (if_neg (Nat.not_le.mpr hk)), loaded, priv, sessions, SameRegsBut.step (.of_eq rfl rfl) regs,
        SameMemory.step (.of_eq rfl rfl) mem⟩
  · refine ⟨fun h => State.sideband_eq hp hi (if_neg h), fun h4 h7 hl => ⟨_, State.sideband_eq hp hi (if_pos ⟨h4, h7, hl⟩), ?_, ?_⟩⟩
    · exact (State.setMeas_sameRegs _ _).step (.emit _ _)
    · exact (State.setMeas_sameMemory _ _).step (.emit _ _)
  · obtain ⟨otp, regs, mem⟩ := s.svnCommit_spec
    exact ⟨s.svnCommit.sbReply 0x16 ccOk (leBytes s.svnCommit.svnOtp 1), State.sideband_eq hp hi rfl, otp, regs.step (.emit _ _), mem.step (.emit _ _)⟩
  · obtain ⟨otp, regs, mem⟩ := s.svnCommit_spec
    exact ⟨_, State.whenMain_eq hm rfl, otp, regs, mem⟩
  · refine ⟨fun h => State.sideband_eq hp hi (if_pos h), fun hl hb => State.sideband_eq hp hi ((if_neg fun h => h hl).trans (if_pos hb)),
      fun hl hb hr hidx => State.sideband_eq hp hi ((if_neg fun h => h hl).trans ((if_neg hb).trans ?_)), ?_⟩
    · have ask : s.askSign (s.reportReq .report b) = (s.withSigns (s.signReqs ++ [s.reportReq .report b]), true) :=
        if_neg (not_or.mpr ⟨Nat.not_le.mpr hr, Nat.not_le.mpr hidx⟩)
      rw [ask]
      rfl
    · cases hok : s.tokenOk b
      · exact ⟨s.unchallenged.sbReply 0x13 ccInvalid [], State.sideband_eq hp hi (if_neg (by rw [hok]; exact Bool.noConfusion)), rfl,
          .of_eq rfl rfl, fun _ => rfl, fun h => Bool.noConfusion h⟩
      · obtain ⟨t, run, chal, mem, scope, ever⟩ := exec_debugUnlock_ok hp hi hok
        exact ⟨t, run, chal, mem, fun h => Bool.noConfusion h, fun _ => ⟨scope, ever⟩⟩
  · obtain ⟨scope, expiry, ever, mem⟩ := s.debugEnd_spec
    refine ⟨fun hi => State.sideband_eq hp hi rfl, fun hm => State.whenMain_eq hm rfl, fun h0 ht => State.alive_eq hp (if_pos ⟨h0, ht⟩),
      fun h => State.alive_eq hp (if_neg fun ⟨h0, ht⟩ => h.elim h0 (Nat.not_lt.mpr ht)), scope, expiry, ever, mem⟩
  · have run {t : State} (h : s.signHead = t) (ht : t.pend.heldIn = []) : exec .identitySign s = .next t := by
      subst h
      exact State.alive_eq hp (State.afterPair_none ht _)
    refine ⟨fun h => run (State.signHead_none h) hh, fun b n rest h => ⟨fun hi => ?_, fun hi => ?_⟩⟩
    · obtain ⟨signs, idx, cnt, pend, regs, mem⟩ := (s.withSigns rest).signCounted_spec F.SEC_SIGCNT_REFUSED ccState [] (by decide) (by decide)
      exact ⟨_, run (State.signHead_spent h hi) (by rw [pend]; exact hh), signs, idx, cnt, SameRegsBut.step (.of_eq rfl rfl) regs,
        SameMemory.step (.of_eq rfl rfl) mem⟩
    · obtain ⟨sig, e⟩ := State.signHead_signed h hi
      obtain ⟨idx', signs', pend', cnt', regs', mem'⟩ := (s.withSigns rest).indexTaken_spec hi
      generalize (s.withSigns rest).indexTaken = u at e idx' signs' pend' cnt' regs' mem'
      obtain ⟨signs, idx, cnt, pend, regs, mem⟩ := u.signCounted_spec F.SEC_SIGCNT_REPORTS ccOk sig (by decide) (by decide)
      refine ⟨_, run e (by rw [pend, pend']; exact hh), signs.trans signs', idx.trans idx', cnt.trans (by rw [cnt']; rfl), ?_, ?_⟩
      · exact (SameRegsBut.step (.of_eq rfl rfl) regs').step (regs.mono (by decide))
      · exact (SameMemory.step (.of_eq rfl rfl) mem').step mem

end Sys2Proof.Machine
end

section
/-!
PROOFS. Updates of the image, and recovery through both doors.
-/

namespace Sys2Proof.Machine

open Sys2Proof

/-! ### Updates (R415) -/

section Update
variable {s t : State}

/-- The state with another update under way. -/
def State.withUpdate (s : State) (u : Option (Nat × Nat)) : State := { s with update := u }

/-- SEC_UPD_STAT at the end of an update. -/
def State.updShown (s : State) (status reason : Nat) : State :=
  ((s.setFld R.SEC_UPD_STAT F.SEC_UPD_STAT_STATUS status).setFld R.SEC_UPD_STAT F.SEC_UPD_STAT_REASON reason).setFld R.SEC_UPD_STAT
    F.SEC_UPD_STAT_STATE 3

theorem State.updDone_eq (status reason : Nat) : s.updDone status reason = (s.withUpdate none).updShown status reason := rfl

theorem State.updShown_status {status reason : Nat} (h : status < 256) :
    (s.updShown status reason).fld R.SEC_UPD_STAT F.SEC_UPD_STAT_STATUS = status := by
  unfold State.updShown
  rw [State.fld_setFld_apart _ _ _ F.SEC_UPD_STAT_STATUS _ (by decide) (by decide),
    State.fld_setFld_apart _ _ _ F.SEC_UPD_STAT_STATUS _ (by decide) (by decide)]
  exact State.fld_setFld_same _ _ F.SEC_UPD_STAT_STATUS _ (by decide) h

theorem State.updShown_reason {status reason : Nat} (h : reason < 8) :
    (s.updShown status reason).fld R.SEC_UPD_STAT F.SEC_UPD_STAT_REASON = reason := by
  unfold State.updShown
  rw [State.fld_setFld_apart _ _ _ F.SEC_UPD_STAT_REASON _ (by decide) (by decide)]
  exact State.fld_setFld_same _ _ F.SEC_UPD_STAT_REASON _ (by decide) h

theorem State.updShown_bytes {status reason : Nat} :
    (s.updShown status reason).fld R.SEC_UPD_STAT F.SEC_UPD_STAT_BYTES = s.fld R.SEC_UPD_STAT F.SEC_UPD_STAT_BYTES := by
  unfold State.updShown
  rw [State.fld_setFld_apart _ _ _ F.SEC_UPD_STAT_BYTES _ (by decide) (by decide),
    State.fld_setFld_apart _ _ _ F.SEC_UPD_STAT_BYTES _ (by decide) (by decide),
    State.fld_setFld_apart _ _ _ F.SEC_UPD_STAT_BYTES _ (by decide) (by decide)]

theorem State.updShown_state {status reason : Nat} : (s.updShown status reason).fld R.SEC_UPD_STAT F.SEC_UPD_STAT_STATE = 3 :=
  State.fld_setFld_same _ _ _ _ (by decide) (by decide)

theorem State.updShown_kept {status reason : Nat} :
    (s.updShown status reason).update = s.update ∧ (s.updShown status reason).flash = s.flash ∧
    SameRegsBut [R.SEC_UPD_STAT] s (s.updShown status reason) ∧ SameMemory s (s.updShown status reason) := by
  refine ⟨?_, ?_, (SameRegsBut.step (.setFld _ _ _ (List.mem_singleton.mpr rfl)) (.setFld _ _ _ (List.mem_singleton.mpr rfl))).step
    (.setFld _ _ _ (List.mem_singleton.mpr rfl)), (SameMemory.step (.setFld _ _ _ _) (.setFld _ _ _ _)).step (.setFld _ _ _ _)⟩
  · rw [State.updShown, State.setFld_update, State.setFld_update, State.setFld_update]
  · rw [State.updShown, State.setFld_flash, State.setFld_flash, State.setFld_flash]

/-- An update ends: what it was is forgotten, and SEC_UPD_STAT shows how. -/
theorem State.updDone_spec {status reason : Nat} (h : status < 256) : (s.updDone status reason).update = none ∧
    (s.updDone status reason).fld R.SEC_UPD_STAT F.SEC_UPD_STAT_STATUS = status ∧
    (s.updDone status reason).fld R.SEC_UPD_STAT F.SEC_UPD_STAT_STATE = 3 ∧ (s.updDone status reason).flash = s.flash ∧
    SameRegsBut [R.SEC_UPD_STAT] s (s.updDone status reason) ∧ SameMemory s (s.updDone status reason) := by
  obtain ⟨update, flash, regs, mem⟩ := (s.withUpdate none).updShown_kept (status := status) (reason := reason)
  rw [State.updDone_eq]
  exact ⟨update, State.updShown_status h, State.updShown_state, flash, SameRegsBut.step (.of_eq rfl rfl) regs,
    SameMemory.step (.of_eq rfl rfl) mem⟩

/-- SEC_UPD_STAT is cleared as an update starts. -/
def State.updCleared (s : State) : State := s.setReg R.SEC_UPD_STAT 0

theorem State.updCleared_kept : SameRegsBut [R.SEC_UPD_STAT] s s.updCleared ∧ SameMemory s s.updCleared ∧ s.updCleared.powered = s.powered :=
  ⟨.setReg _ _ (List.mem_singleton.mpr rfl), .setReg _ _ _, State.setReg_powered _ _ _⟩

theorem State.updStart_unaligned (h1 : s.fld R.SEC_UPD_STAT F.SEC_UPD_STAT_STATE ≠ 1) (h2 : s.fld R.SEC_UPD_STAT F.SEC_UPD_STAT_STATE ≠ 2)
    (h : (s.reg R.SEC_UPD_ADDR).toNat % 4096 ≠ 0) : s.updStart = s.updCleared.updDone stAddress 0 :=
  (if_neg fun g => g.elim h1 h2).trans (if_pos (.inl h))

/-- An update under way: its verification. -/
def State.updVerifying (s : State) (a n : Nat) : State := (s.withUpdate (some (a, n))).setFld R.SEC_UPD_STAT F.SEC_UPD_STAT_STATE 1

theorem State.updStart_starts {g body : Nat} (h1 : s.fld R.SEC_UPD_STAT F.SEC_UPD_STAT_STATE ≠ 1)
    (h2 : s.fld R.SEC_UPD_STAT F.SEC_UPD_STAT_STATE ≠ 2) (hg : (s.reg R.SEC_UPD_ADDR).toNat = g) (h0 : g % 4096 = 0)
    (ho : s.updCleared.isOwn g = true) (hm : s.updCleared.mappedRange (gaLocal g) 4096 = true)
    (hb : imgBody (fun i => s.updCleared.byteAt ((memKey (gaLocal g + i)).getD 0)) = body) (hn : body ≤ 62910464)
    (hm' : s.updCleared.mappedRange (gaLocal g) (4096 + body) = true) : s.updStart = s.updCleared.updVerifying (gaLocal g) (4096 + body) := by
  unfold State.updStart
  rw [if_neg fun g => g.elim h1 h2, hg]
  extract_lets g' a t b n
  have hg' : g' = g := rfl
  have ha : a = gaLocal g := rfl
  clear_value g' a
  subst hg' ha
  have ht : t = s.updCleared := rfl
  clear_value t
  subst ht
  have hbody : b = body := hb
  clear_value b
  subst hbody
  have len : n = 4096 + b := congrArg (4096 + ·) (if_pos hn)
  clear_value n
  subst len
  rw [if_neg (by
    rintro (h | h | h)
    · exact h h0
    · exact Bool.noConfusion (ho.symm.trans h)
    · exact Bool.noConfusion (hm.symm.trans h)), if_neg (by rw [hm']; exact Bool.noConfusion)]
  rfl

theorem State.verifyImage_lt (get : Nat → Byte) (bad : Bool) : s.verifyImage get bad < 8 := by
  unfold State.verifyImage
  extract_lets body zero pub
  repeat' split
  all_goals decide

theorem State.flashByte_fold (get : Nat → Byte) (n : Nat) {i : Nat} (hi : i < n) :
    sparseGet ((List.range n).foldl (fun (m : Sparse Byte) i => sparseSet m i (get i) 0) []) i 0 = get i := by
  induction n with
  | zero => exact absurd hi (Nat.not_lt_zero _)
  | succ n ih =>
    rw [List.range_succ, List.foldl_append, List.foldl_cons, List.foldl_nil]
    by_cases h : i = n
    · subst h
      exact sparseGet_set_same _ _ _ _
    · rw [sparseGet_set_other _ (Ne.symm h), ih (by omega)]

/-- Programming changes the flash, and, where it fails, the draws. -/
theorem State.program_spec (get : Nat → Byte) (n : Nat) (ok : Bool) : SameRegsBut [] s (s.program get n ok) ∧
    SameMemory s (s.program get n ok) ∧ (s.program get n ok).recov = s.recov ∧
    (ok = true → ∀ i < n, (s.program get n ok).flashByte i = get i) := by
  cases ok
  · exact ⟨.of_eq rfl rfl, .of_eq rfl rfl, rfl, fun h => Bool.noConfusion h⟩
  · exact ⟨.of_eq rfl rfl, .of_eq rfl rfl, rfl, fun _ i hi => State.flashByte_fold get n hi⟩

end Update

/-! ### Recovery (R416 to R419) -/

section Recovery
variable {s t : State}

theorem State.recovering_powered (h : s.recovering = true) : s.powered = true := (Bool.and_eq_true_iff.mp h).1

theorem State.recovPort_idle (h : s.recovering = false) (p : Nat) : s.recovPort p = false := by
  rw [State.recovPort, h]
  rfl

/-- Outside RECOVERY the rows of recovery do nothing. -/
theorem exec_recovery_idle {src : BitVec 64} {off : BitVec 32} {b : List Byte} {p : Fin 2} {ok : Bool} (hp : s.powered = true)
    (h : s.recovering = false) {i : Instr} (hi : i ∈ [Instr.recovQuery src, .recovData src off b, .recovCommit src off, .recovSessionTimeout,
      .recoveryProgrammed ok, .recovReqTimer, .pendRecovData p off b, .recovEnd p off]) : exec i s = .next s := by
  have off' : ¬ s.recovering = true := by rw [h]; exact Bool.noConfusion
  simp only [List.mem_cons, List.not_mem_nil, or_false] at hi
  rcases hi with rfl | rfl | rfl | rfl | rfl | rfl | rfl | rfl
  · exact State.alive_eq hp (if_neg off')
  · exact State.alive_eq hp (if_pos (.inl h))
  · exact State.alive_eq hp (if_pos (.inl h))
  · exact State.alive_eq hp (if_neg fun g => off' g.1)
  · exact State.alive_eq hp (if_pos (.inl h))
  · exact State.alive_eq hp (if_pos (.inl h))
  · exact State.alive_eq hp (if_neg fun g => Bool.noConfusion (g.1.symm.trans (State.recovPort_idle h _)))
  · exact State.alive_eq hp (if_pos (.inl (State.recovPort_idle h _)))

theorem SameRegsBut.updRecov {l : List Nat} {f : Recov → Recov} : SameRegsBut l s (s.updRecov f) := .of_eq rfl rfl

theorem SameMemory.updRecov {f : Recov → Recov} : SameMemory s (s.updRecov f) := .of_eq rfl rfl

/-- The session of a host whose data have come. -/
def State.dataTaken (s : State) (src off : Nat) (b : List Byte) : State :=
  s.updRecov (fun r => { r with owner := some src, ownerAt := s.now, host := putImage r.host off b })

theorem State.recovData_taken {src off : Nat} {b : List Byte} (h : s.recovering = true) (hw : s.recov.winner = 0) (h1 : 1 ≤ b.length)
    (h2 : b.length ≤ 8192) (ho : off < imageMax) (hs : s.recov.owner = none ∨ s.recov.owner = some src) :
    s.recovData src off b = (s.dataTaken src off b).recovSend src ([0x04] ++ leBytes off 4) := by
  unfold State.recovData
  rw [if_neg (by
    rintro (g | g | g | g | g)
    · exact Bool.noConfusion (h.symm.trans g)
    · exact g hw
    · omega
    · omega
    · omega)]
  rcases hs with hs | hs
  · rw [hs]
    rfl
  · rw [hs]
    refine (if_pos rfl).trans (congrArg (fun u : State => u.recovSend src ([0x04] ++ leBytes off 4)) ?_)
    unfold State.dataTaken State.updRecov
    rw [← hs]

theorem State.recovData_other {src off o : Nat} {b : List Byte} (hs : s.recov.owner = some o) (hne : o ≠ src) : s.recovData src off b = s := by
  unfold State.recovData
  rw [hs]
  exact (congrArg (fun u => ite _ s u) (if_neg hne)).trans (ite_self s)

theorem State.recovCommit_open {src n : Nat} (h : s.recovering = true) (hw : s.recov.winner = 0) (hs : s.recov.owner = some src) :
    s.recovCommit src n = if s.doorCheck s.recov.host n = 0 then s.updRecov (fun r => { r with winner := 1, length := n })
      else (s.updRecov (fun r => { r with owner := none, host := [] })).recovStatus src stDescriptor (s.doorCheck s.recov.host n) :=
  if_neg (by
    rintro (g | g | g)
    · exact Bool.noConfusion (h.symm.trans g)
    · exact g hw
    · exact g hs)

/-- Something sent on each pendant port that is up. -/
theorem State.foldl_pendSent (o : State → Nat → Out) (l : List Nat) (h : ∀ p, t.pendUp p = s.pendUp p) :
    (l.foldl (fun s p => if s.pendUp p then s.emit (o s p) else s) t).out.length = t.out.length + (l.filter s.pendUp).length ∧
    NetFrame t (l.foldl (fun s p => if s.pendUp p then s.emit (o s p) else s) t) ∧
    (l.foldl (fun s p => if s.pendUp p then s.emit (o s p) else s) t).recov = t.recov := by
  induction l generalizing t with
  | nil => exact ⟨rfl, .refl, rfl⟩
  | cons p l ih =>
    rw [List.foldl_cons]
    cases hp : s.pendUp p
    · rw [if_neg (by rw [h, hp]; exact Bool.noConfusion), List.filter_cons_of_neg (by rw [hp]; exact Bool.noConfusion)]
      exact ih h
    · rw [if_pos ((h p).trans hp), List.filter_cons_of_pos hp]
      obtain ⟨len, frame, recov⟩ := ih (t := t.emit (o t p)) h
      refine ⟨len.trans ?_, .trans .emit frame, recov⟩
      rw [State.length_out_emit, List.length_cons]
      omega

/-- The pendant door has won. -/
def State.pendWon (s : State) (n : Nat) : State := s.updRecov (fun r => { r with winner := 2, length := n, owner := none })

theorem exec_recovEnd {p : Fin 2} {n : BitVec 32} (hp : s.powered = true) (h : s.recovPort p.val = true) (hn : n.toNat = s.recov.pendNext) :
    ∃ u, exec (.recovEnd p n) s = .next (if s.doorCheck s.recov.pend n.toNat = 0 then u else
      s.updRecov (fun r => { r with pend := [], pendNext := 0, pendPort := 0 })) ∧ NetFrame (s.pendWon n.toNat) u ∧
      u.recov = (s.pendWon n.toNat).recov := by
  have door (v : State) (hv : v = match s.recov.owner with
      | some o => (s.pendWon n.toNat).recovStatus o stBusy 0
      | none => s.pendWon n.toNat) : NetFrame (s.pendWon n.toNat) v ∧ v.recov = (s.pendWon n.toNat).recov := by
    subst hv
    split
    · exact ⟨.emit, rfl⟩
    · exact ⟨.refl, rfl⟩
  refine ⟨_, State.alive_eq hp (if_neg fun g => g.elim (fun g => Bool.noConfusion (h.symm.trans g)) fun g => g hn.symm), door _ rfl⟩

end Recovery

/-! ### The rows of updates and their outcomes (R415) -/

section UpdateRows
variable {s : State}

theorem exec_updateVerifyComplete {a n : Nat} (hm : s.mainUp = true) (h1 : s.fld R.SEC_UPD_STAT F.SEC_UPD_STAT_STATE = 1)
    (hu : s.update = some (a, n)) (hs : SoundMemory s) : exec .updateVerifyComplete s =
      .next (if s.verifyImage (fun i => (s.peek a n).getD i 0) false = 0 then s.setFld R.SEC_UPD_STAT F.SEC_UPD_STAT_STATE 2
        else s.updDone stDescriptor (s.verifyImage (fun i => (s.peek a n).getD i 0) false)) := by
  refine State.whenMain_eq hm ?_
  rw [hu]
  refine (if_neg (not_not_intro h1)).trans ?_
  rw [State.readMem_sound hs]

theorem exec_updateVerifyComplete_idle (hm : s.mainUp = true) (h1 : s.fld R.SEC_UPD_STAT F.SEC_UPD_STAT_STATE ≠ 1) :
    exec .updateVerifyComplete s = .next s := by
  refine State.whenMain_eq hm ?_
  split
  · rfl
  · exact if_pos h1

/-- The image of an update in flash, with its length in SEC_UPD_STAT. -/
def State.updProgrammed (s : State) (a n : Nat) (ok : Bool) : State :=
  (s.program (fun i => s.byteAt ((memKey (a + i)).getD 0)) n ok).setFld R.SEC_UPD_STAT F.SEC_UPD_STAT_BYTES n

theorem exec_updateComplete {a n : Nat} {ok : Bool} (hm : s.mainUp = true) (h2 : s.fld R.SEC_UPD_STAT F.SEC_UPD_STAT_STATE = 2)
    (hu : s.update = some (a, n)) : exec (.updateComplete ok) s =
      .next ((s.updProgrammed a n ok).updDone (if ok then stDone else stData) 0) := by
  refine State.whenMain_eq hm ?_
  rw [hu]
  exact if_neg (not_not_intro h2)

theorem exec_updateComplete_idle {ok : Bool} (hm : s.mainUp = true) (h2 : s.fld R.SEC_UPD_STAT F.SEC_UPD_STAT_STATE ≠ 2) :
    exec (.updateComplete ok) s = .next s := by
  refine State.whenMain_eq hm ?_
  split
  · rfl
  · exact if_pos h2

theorem State.updProgrammed_spec (a n : Nat) (ok : Bool) :
    (s.updProgrammed a n ok).fld R.SEC_UPD_STAT F.SEC_UPD_STAT_BYTES = n % 2 ^ 48 ∧
    (ok = true → ∀ i < n, (s.updProgrammed a n ok).flashByte i = s.byteAt ((memKey (a + i)).getD 0)) ∧
    SameRegsBut [R.SEC_UPD_STAT] s (s.updProgrammed a n ok) ∧ SameMemory s (s.updProgrammed a n ok) := by
  obtain ⟨regs, mem, -, flash⟩ := s.program_spec (fun i => s.byteAt ((memKey (a + i)).getD 0)) n ok
  refine ⟨State.fld_setFld_mod _ _ _ _ (by decide), fun hok i hi => ?_,
    (regs.mono (List.nil_subset _)).step (.setFld _ _ _ (List.mem_singleton.mpr rfl)), mem.step (.setFld _ _ _ _)⟩
  rw [State.flashByte, State.updProgrammed, State.setFld_flash]
  exact flash hok i hi

theorem State.updDone_bytes {status reason : Nat} :
    (s.updDone status reason).fld R.SEC_UPD_STAT F.SEC_UPD_STAT_BYTES = s.fld R.SEC_UPD_STAT F.SEC_UPD_STAT_BYTES := by
  rw [State.updDone_eq, State.updShown_bytes]
  rfl

theorem State.updDone_reason {status reason : Nat} (h : reason < 8) :
    (s.updDone status reason).fld R.SEC_UPD_STAT F.SEC_UPD_STAT_REASON = reason := by
  rw [State.updDone_eq, State.updShown_reason h]

theorem State.updVerifying_spec (a n : Nat) : (s.updVerifying a n).update = some (a, n) ∧
    (s.updVerifying a n).fld R.SEC_UPD_STAT F.SEC_UPD_STAT_STATE = 1 ∧ SameRegsBut [R.SEC_UPD_STAT] s (s.updVerifying a n) ∧
    SameMemory s (s.updVerifying a n) :=
  ⟨State.setFld_update _ _ _ _, State.fld_setFld_same _ _ _ _ (by decide) (by decide),
    SameRegsBut.step (.of_eq rfl rfl) (.setFld _ _ _ (List.mem_singleton.mpr rfl)), SameMemory.step (.of_eq rfl rfl) (.setFld _ _ _ _)⟩

theorem exec_updateVerify_outcome {a n : Nat} (hm : s.mainUp = true) (h1 : s.fld R.SEC_UPD_STAT F.SEC_UPD_STAT_STATE = 1)
    (hu : s.update = some (a, n)) (hs : SoundMemory s) :
    let why := s.verifyImage (fun i => (s.peek a n).getD i 0) false
    ∃ t, exec .updateVerifyComplete s = .next t ∧ SameRegsBut [R.SEC_UPD_STAT] s t ∧ SameMemory s t ∧
      t.fld R.SEC_UPD_STAT F.SEC_UPD_STAT_STATE = (if why = 0 then 2 else 3) ∧ t.update = (if why = 0 then s.update else none) ∧
      (why ≠ 0 → t.fld R.SEC_UPD_STAT F.SEC_UPD_STAT_STATUS = stDescriptor ∧ t.fld R.SEC_UPD_STAT F.SEC_UPD_STAT_REASON = why) := by
  intro why
  have small : why < 8 := State.verifyImage_lt _ _
  have run : exec .updateVerifyComplete s =
    .next (if why = 0 then s.setFld R.SEC_UPD_STAT F.SEC_UPD_STAT_STATE 2 else s.updDone stDescriptor why) :=
    exec_updateVerifyComplete hm h1 hu hs
  clear_value why
  refine ⟨_, run, ?_⟩
  by_cases h : why = 0
  · simp only [if_pos h]
    exact ⟨.setFld _ _ _ (List.mem_singleton.mpr rfl), .setFld _ _ _ _, State.fld_setFld_same _ _ _ _ (by decide) (by decide),
      State.setFld_update _ _ _ _, fun g => absurd h g⟩
  · obtain ⟨update, status, state, -, regs, mem⟩ := s.updDone_spec (status := stDescriptor) (reason := why) (by decide)
    simp only [if_neg h]
    exact ⟨regs, mem, state, update, fun _ => ⟨status, State.updDone_reason small⟩⟩

theorem updateComplete_outcome {a n : Nat} {ok : Bool} (hm : s.mainUp = true) (h2 : s.fld R.SEC_UPD_STAT F.SEC_UPD_STAT_STATE = 2)
    (hu : s.update = some (a, n)) : ∃ t, exec (.updateComplete ok) s = .next t ∧ t.update = none ∧
      t.fld R.SEC_UPD_STAT F.SEC_UPD_STAT_STATUS = (if ok then stDone else stData) ∧
      t.fld R.SEC_UPD_STAT F.SEC_UPD_STAT_STATE = 3 ∧ t.fld R.SEC_UPD_STAT F.SEC_UPD_STAT_BYTES = n % 2 ^ 48 ∧
      (ok = true → ∀ i < n, t.flashByte i = s.byteAt ((memKey (a + i)).getD 0)) ∧
      SameRegsBut [R.SEC_UPD_STAT] s t ∧ SameMemory s t := by
  obtain ⟨bytes, image, regs, mem⟩ := s.updProgrammed_spec a n ok
  have fits : (if ok then stDone else stData) < 256 := by cases ok <;> decide
  obtain ⟨update, status, state, flash, regs', mem'⟩ := (s.updProgrammed a n ok).updDone_spec (reason := 0) fits
  exact ⟨_, exec_updateComplete hm h2 hu, update, status, state, State.updDone_bytes.trans bytes,
    fun hok i hi => (congrArg (sparseGet · i 0) flash).trans (image hok i hi), regs.step regs', mem.step mem'⟩

/-- Clearing SEC_UPD_STAT moves no address. -/
theorem State.updCleared_sees : (∀ g, s.updCleared.isOwn g = s.isOwn g) ∧ (∀ a n, s.updCleared.mappedRange a n = s.mappedRange a n) ∧
    ∀ k, s.updCleared.byteAt k = s.byteAt k := by
  obtain ⟨regs, mem, powered⟩ := s.updCleared_kept
  have mode : s.updCleared.mode = s.mode := regs.fld _ (by decide)
  have own : s.updCleared.ownAddr = s.ownAddr := regs.fld _ (by decide)
  exact ⟨fun g => by rw [State.isOwn, own, mode, State.isOwn], State.mappedRange_same regs powered (by decide), fun k => (mem k).2⟩

theorem update_starts : s.mainUp = true → let st := s.fld R.SEC_UPD_STAT F.SEC_UPD_STAT_STATE
    let g := (s.reg R.SEC_UPD_ADDR).toNat
    ((st = 1 ∨ st = 2) → exec .updStart s = .next s) ∧
    (st ≠ 1 → st ≠ 2 → g % 4096 ≠ 0 → ∃ t, exec .updStart s = .next t ∧ t.update = none ∧
      t.fld R.SEC_UPD_STAT F.SEC_UPD_STAT_STATUS = stAddress ∧ t.fld R.SEC_UPD_STAT F.SEC_UPD_STAT_STATE = 3 ∧
      SameRegsBut [R.SEC_UPD_STAT] s t ∧ SameMemory s t) ∧
    (∀ body, st ≠ 1 → st ≠ 2 → g % 4096 = 0 → s.isOwn g = true → s.mappedRange (gaLocal g) 4096 = true →
      body = imgBody (fun i => s.byteAt ((memKey (gaLocal g + i)).getD 0)) → body ≤ 62910464 →
      s.mappedRange (gaLocal g) (4096 + body) = true → ∃ t, exec .updStart s = .next t ∧
        t.update = some (gaLocal g, 4096 + body) ∧ t.fld R.SEC_UPD_STAT F.SEC_UPD_STAT_STATE = 1 ∧
        SameRegsBut [R.SEC_UPD_STAT] s t ∧ SameMemory s t) := by
  intro hm st g
  obtain ⟨regs, mem, -⟩ := s.updCleared_kept
  obtain ⟨own, mapped, byte⟩ := s.updCleared_sees
  refine ⟨fun h => State.whenMain_eq hm (if_pos h), fun h1 h2 h => ?_, fun body h1 h2 h0 ho hr hb hn hr' => ?_⟩
  · obtain ⟨update, status, state, -, regs', mem'⟩ := s.updCleared.updDone_spec (status := stAddress) (reason := 0) (by decide)
    exact ⟨_, State.whenMain_eq hm (State.updStart_unaligned h1 h2 h), update, status, state, regs.step regs', mem.step mem'⟩
  · obtain ⟨update, state, regs', mem'⟩ := s.updCleared.updVerifying_spec (gaLocal g) (4096 + body)
    refine ⟨_, State.whenMain_eq hm (State.updStart_starts h1 h2 rfl h0 ((own g).trans ho) ((mapped _ _).trans hr) ?_ hn
      ((mapped _ _).trans hr')), update, state, regs.step regs', mem.step mem'⟩
    simp only [byte]
    exact hb.symm

end UpdateRows

/-! ### The rows of recovery and their outcomes (R416 to R419) -/

section RecoveryRows
variable {s : State} {src : BitVec 64} {off n : BitVec 32} {b : List Byte} {p : Fin 2}

theorem exec_recovQuery (h : s.recovering = true) : ∃ t, exec (.recovQuery src) s = .next t ∧ t.out.length = s.out.length + 1 ∧
    t.recov = s.recov ∧ SameRegsBut [] s t ∧ SameMemory s t :=
  ⟨_, State.alive_eq (State.recovering_powered h) (if_pos h), rfl, rfl, .emit _ _, .emit _ _⟩

theorem exec_recovCommit_barred (hp : s.powered = true) (h : s.recov.winner ≠ 0 ∨ s.recov.owner ≠ some src.toNat) :
    exec (.recovCommit src off) s = .next s :=
  State.alive_eq hp (if_pos (.inr h))

theorem exec_recovData_taken (h : s.recovering = true) (hw : s.recov.winner = 0) (h1 : 1 ≤ b.length) (h2 : b.length ≤ 8192)
    (ho : off.toNat < imageMax) (hs : s.recov.owner = none ∨ s.recov.owner = some src.toNat) :
    ∃ t, exec (.recovData src off b) s = .next t ∧
        t.recov.owner = some src.toNat ∧ t.recov.ownerAt = s.now ∧ t.recov.host = putImage s.recov.host off.toNat b ∧
        t.out.length = s.out.length + 1 ∧ SameRegsBut [] s t ∧ SameMemory s t :=
  ⟨_, State.alive_eq (State.recovering_powered h) (State.recovData_taken h hw h1 h2 ho hs), rfl, rfl, rfl, rfl,
    SameRegsBut.updRecov.step (.emit _ _), SameMemory.updRecov.step (.emit _ _)⟩

theorem exec_recovCommit_open (h : s.recovering = true) (hw : s.recov.winner = 0) (hs : s.recov.owner = some src.toNat) :
      ∃ t, exec (.recovCommit src off) s = .next t ∧ SameRegsBut [] s t ∧ SameMemory s t ∧
        (s.doorCheck s.recov.host off.toNat = 0 → t.recov.winner = 1 ∧ t.recov.length = off.toNat ∧ t.recov.host = s.recov.host ∧
          t.out = s.out) ∧
        (s.doorCheck s.recov.host off.toNat ≠ 0 → t.recov.owner = none ∧ t.recov.host = [] ∧ t.out.length = s.out.length + 1) := by
  refine ⟨_, State.alive_eq (State.recovering_powered h) (State.recovCommit_open h hw hs), ?_⟩
  split
  next hc => exact ⟨.updRecov, .updRecov, fun _ => ⟨rfl, rfl, rfl, rfl⟩, fun g => absurd hc g⟩
  next hc => exact ⟨SameRegsBut.updRecov.step (.emit _ _), SameMemory.updRecov.step (.emit _ _), fun g => absurd g hc,
    fun _ => ⟨rfl, rfl, rfl⟩⟩

theorem exec_recovSessionTimeout {o : Nat} (h : s.recovering = true) (hw : s.recov.winner = 0) (ho : s.recov.owner = some o) :
      (s.now < s.recov.ownerAt + 10000 * msTicks → exec .recovSessionTimeout s = .next s) ∧
      (s.recov.ownerAt + 10000 * msTicks ≤ s.now → ∃ t, exec .recovSessionTimeout s = .next t ∧ t.recov.owner = none ∧
        t.recov.host = [] ∧ t.recov.pend = s.recov.pend ∧ SameRegsBut [] s t ∧ SameMemory s t) :=
  ⟨fun early => State.alive_eq (State.recovering_powered h) (if_neg fun g => Nat.not_le_of_lt early g.2.2.2),
    fun late => ⟨_, State.alive_eq (State.recovering_powered h) (if_pos ⟨h, hw, by rw [ho, Option.isSome_some], late⟩),
      rfl, rfl, rfl, .updRecov, .updRecov⟩⟩

/-- The request for an image on a pendant port. -/
def State.recovAsk (s : State) (p : Nat) : Out :=
  { kind := .pendant, nums := [p, 0x38],
    bytes := leBytes s.serial 8 ++ leBytes (s.fld R.SEC_STAT F.SEC_STAT_BOOT_RESULT) 1 ++ leBytes s.svnOtp 1 ++ leBytes 0 2 ++
      leBytes s.recov.pendNext 4 }

theorem exec_recovReqTimer (h : s.recovering = true) (hw : s.recov.winner = 0) :
    ∃ t, exec .recovReqTimer s = .next t ∧ t.out.length = s.out.length + ((List.range 2).filter s.pendUp).length ∧
      t.recov = s.recov ∧ SameRegsBut [] s t ∧ SameMemory s t := by
  obtain ⟨out, frame, recov⟩ := State.foldl_pendSent (s := s) (t := s) State.recovAsk (List.range 2) fun _ => rfl
  exact ⟨_, State.alive_eq (State.recovering_powered h)
    (if_neg fun g => g.elim (fun g => Bool.noConfusion (h.symm.trans g)) fun g => g hw), out, recov, frame.sameRegs, frame.sameMemory⟩

theorem exec_pendRecov_deaf (hp : s.powered = true) (h : s.recovPort p.val = false) :
    exec (.pendRecovData p n b) s = .next s ∧ exec (.recovEnd p n) s = .next s :=
  ⟨State.alive_eq hp (if_neg fun g => Bool.noConfusion (h.symm.trans g.1)), State.alive_eq hp (if_pos (.inl h))⟩

theorem exec_pendRecovData (hp : s.powered = true) (h : s.recovPort p.val = true) (hn : n.toNat = s.recov.pendNext) :
    ∃ t, exec (.pendRecovData p n b) s = .next t ∧ t.recov.pendNext = s.recov.pendNext + b.length ∧
      t.recov.pend = putImage s.recov.pend n.toNat b ∧ SameRegsBut [] s t ∧ SameMemory s t :=
  ⟨_, State.alive_eq hp (if_pos ⟨h, hn⟩), rfl, rfl, .updRecov, .updRecov⟩

theorem recovEnd_outcome (hp : s.powered = true) (hw : s.recov.winner = 0) (h : s.recovPort p.val = true) (hn : n.toNat = s.recov.pendNext) :
    ∃ t, exec (.recovEnd p n) s = .next t ∧ SameRegsBut [] s t ∧ SameMemory s t ∧
        (s.doorCheck s.recov.pend n.toNat = 0 → t.recov.winner = 2 ∧ t.recov.length = n.toNat) ∧
        (s.doorCheck s.recov.pend n.toNat ≠ 0 → t.recov.winner = 0 ∧ t.recov.pendNext = 0 ∧ t.recov.pend = [] ∧
          t.recov.host = s.recov.host) := by
  obtain ⟨u, run, frame, won⟩ := exec_recovEnd hp h hn
  refine ⟨_, run, ?_⟩
  split
  next hc => exact ⟨SameRegsBut.updRecov.step frame.sameRegs, SameMemory.updRecov.step frame.sameMemory,
    fun _ => ⟨congrArg Recov.winner won, congrArg Recov.length won⟩, fun g => absurd hc g⟩
  next hc => exact ⟨.updRecov, .updRecov, fun g => absurd g hc, fun _ => ⟨hw, rfl, rfl, rfl⟩⟩

/-- The image of the door that has won. -/
def State.wonImage (s : State) : Sparse Byte := if s.recov.winner = 1 then s.recov.host else s.recov.pend

/-- The winner's image in flash. -/
def State.wonProgrammed (s : State) (ok : Bool) : State := s.program (fun i => sparseGet s.wonImage i 0) s.recov.length ok

/-- The winner's image in flash; a host whose door it was is told. -/
def State.wonAnswered (s : State) (ok : Bool) : State :=
  if s.recov.winner = 1 then
    match s.recov.owner with
    | some o => (s.wonProgrammed ok).recovStatus o (if ok then stDone else stData) 0
    | none => s.wonProgrammed ok
  else s.wonProgrammed ok

/-- The state with no recovery session. -/
def State.recovForgotten (s : State) : State := { s with recov := Recov.none_ }

theorem State.wonAnswered_spec (ok : Bool) : SameRegsBut [] s (s.wonAnswered ok) ∧ SameMemory s (s.wonAnswered ok) := by
  obtain ⟨regs, mem, -, -⟩ := s.program_spec (fun i => sparseGet s.wonImage i 0) s.recov.length ok
  unfold State.wonAnswered
  split
  · split
    · exact ⟨regs.step (.emit _ _), mem.step (.emit _ _)⟩
    · exact ⟨regs, mem⟩
  · exact ⟨regs, mem⟩

theorem State.wonAnswered_nobody (ok : Bool) (ho : s.recov.owner = none) : s.wonAnswered ok = s.wonProgrammed ok := by
  unfold State.wonAnswered
  rw [ho]
  exact ite_self _

theorem exec_recoveryProgrammed (ok : Bool) (h : s.recovering = true) (hw : s.recov.winner ≠ 0) : exec (.recoveryProgrammed ok) s =
    .next (if ok then ((s.wonAnswered ok).setFld R.SEC_STAT F.SEC_STAT_RECOV_SRC s.recov.winner).warmBoot 3
      else (s.wonAnswered ok).recovForgotten) :=
  State.alive_eq (State.recovering_powered h) (if_neg fun g => g.elim (fun g => Bool.noConfusion (h.symm.trans g)) hw)

theorem recoveryProgrammed_fails (h : s.recovering = true) (hw : s.recov.winner ≠ 0) :
    ∃ t, exec (.recoveryProgrammed false) s = .next t ∧ t.recov = Recov.none_ ∧ SameRegsBut [] s t ∧ SameMemory s t := by
  obtain ⟨regs, mem⟩ := s.wonAnswered_spec false
  exact ⟨_, exec_recoveryProgrammed false h hw, rfl, SameRegsBut.step regs (.of_eq rfl rfl), SameMemory.step mem (.of_eq rfl rfl)⟩

theorem recoveryProgrammed_boots (h : s.recovering = true) (hw : s.recov.winner ≠ 0) (ho : s.recov.owner = none) :
    ∃ u : State, exec (.recoveryProgrammed true) s = .next (u.warmBoot 3) ∧
      u.fld R.SEC_STAT F.SEC_STAT_RECOV_SRC = s.recov.winner % 4 ∧
      (∀ i < s.recov.length, u.flashByte i = sparseGet (if s.recov.winner = 1 then s.recov.host else s.recov.pend) i 0) ∧
      SameRegsBut [R.SEC_STAT] s u ∧ SameMemory s u := by
  obtain ⟨regs, mem, -, flash⟩ := s.program_spec (fun i => sparseGet s.wonImage i 0) s.recov.length true
  refine ⟨(s.wonProgrammed true).setFld R.SEC_STAT F.SEC_STAT_RECOV_SRC s.recov.winner, ?_, State.fld_setFld_mod _ _ _ _ (by decide),
    fun i hi => ?_, (regs.mono (List.nil_subset _)).step (.setFld _ _ _ (List.mem_singleton.mpr rfl)), mem.step (.setFld _ _ _ _)⟩
  · rw [exec_recoveryProgrammed true h hw, if_pos rfl, State.wonAnswered_nobody true ho]
  · rw [State.flashByte, State.setFld_flash]
    exact flash rfl i hi

/-- Messages that the state they leave in makes. -/
theorem State.foldl_sent (o : State → Nat → Out) (l : List Nat) :
    (l.foldl (fun s i => s.emit (o s i)) s).out.length = s.out.length + l.length ∧ NetFrame s (l.foldl (fun s i => s.emit (o s i)) s) := by
  refine ⟨?_, .foldl fun _ _ => .emit⟩
  induction l generalizing s with
  | nil => rfl
  | cons i l ih => exact ih.trans (by rw [State.length_out_emit, List.length_cons]; omega)

/-- The part of an image of `total` bytes in flash that begins at o. -/
def State.imagePart (s : State) (total p o : Nat) : Out :=
  let b := imgBytes s.flashByte o (min 248 (total - o))
  { kind := .pendant, nums := [p, 0x39], bytes := leBytes o 4 ++ leBytes b.length 2 ++ leBytes 0 2 ++ b }

/-- A serving module sends its image in parts of 248 bytes, then its length. -/
theorem exec_pendRecovReq (hs : s.serving = true) (hc : s.fld R.SEC_CFG F.SEC_CFG_SERVE_PEER ≠ 0) (hp : s.pendUp p.val = true) :
    ∃ t, exec (.pendRecovReq p off) s = .next t ∧
      t.out.length = s.out.length + (4096 + imgBody s.flashByte - off.toNat + 247) / 248 + 1 ∧ SameRegsBut [] s t ∧ SameMemory s t := by
  obtain ⟨out, frame⟩ := State.foldl_sent (s := s)
    (fun t i => t.imagePart (4096 + imgBody s.flashByte) p.val (off.toNat + 248 * i))
    (List.range ((4096 + imgBody s.flashByte - off.toNat + 247) / 248))
  rw [List.length_range] at out
  exact ⟨_, State.whenServing_eq hs (if_neg fun g => g.elim hc fun g => Bool.noConfusion (hp.symm.trans g)),
    congrArg (· + 1) out, frame.sameRegs.step (.emit _ _), frame.sameMemory.step (.emit _ _)⟩
end RecoveryRows

/-- Settles O59. -/
theorem updateAndRecovery : Obligations.UpdateAndRecovery := by
  refine ⟨fun s hm => ?_, fun src off b p ok s hp h i hi => exec_recovery_idle hp h hi, fun src off b s h => ?_, fun p n b s h hw => ?_,
    fun s h hw => ⟨recoveryProgrammed_fails h hw, recoveryProgrammed_boots h hw⟩, fun p off s hs =>
      ⟨fun h => State.whenServing_eq hs (if_pos h), exec_pendRecovReq hs⟩⟩
  · obtain ⟨busy, unaligned, starts⟩ := update_starts hm
    refine ⟨busy, unaligned, starts, fun h1 => ⟨State.whenMain_eq hm (if_neg h1), exec_updateVerifyComplete_idle hm h1⟩,
      fun h1 => ?_, fun a n h1 hu hs => exec_updateVerify_outcome hm h1 hu hs, fun ok h2 => exec_updateComplete_idle hm h2,
      fun a n ok h2 hu => ?_⟩
    · obtain ⟨update, status, state, -, regs, mem⟩ := s.updDone_spec (status := stCancelled) (reason := 0) (by decide)
      exact ⟨_, State.whenMain_eq hm (if_pos h1), update, status, state, regs, mem⟩
    · exact updateComplete_outcome hm h2 hu
  · have hp := State.recovering_powered h
    exact ⟨exec_recovQuery h, fun hw h1 h2 ho => ⟨exec_recovData_taken h hw h1 h2 ho, fun o hs hne =>
      State.alive_eq hp (State.recovData_other hs hne)⟩, exec_recovCommit_barred hp, exec_recovCommit_open h,
      fun o hw ho => exec_recovSessionTimeout h hw ho⟩
  · have hp := State.recovering_powered h
    exact ⟨exec_recovReqTimer h hw, exec_pendRecov_deaf hp, fun hd hn => ⟨exec_pendRecovData hp hd hn, recovEnd_outcome hp hw hd hn⟩⟩

end Sys2Proof.Machine
end
